-- ==== Sys2Proof/Word.lean ====
section
/-!
DEFINITION. The words of the Swejan: bytes, 16-, 32-, 64- and 128-bit words, and the plain
index types that the spec numbers (requesters, contexts, Lanes, …).
-/

namespace Sys2Proof

/-- A byte of the Ledger range. -/
abbrev Byte := BitVec 8
/-- A 16-bit half word. -/
abbrev W16 := BitVec 16
/-- A 32-bit register. -/
abbrev W32 := BitVec 32
/-- A 64-bit register or Lane value. -/
abbrev W64 := BitVec 64
/-- One Noves instruction word (R92). -/
abbrev W128 := BitVec 128

/-- A requester number of Table 18-6. -/
abbrev Requester := Fin 37
/-- A Noves context number. -/
abbrev CtxId := Fin 256
/-- A Lane number. -/
abbrev LaneId := Fin 16
/-- A Cue index. -/
abbrev CueId := Fin 4096
/-- A physical Tally index. -/
abbrev TallyId := Fin 16384

end Sys2Proof
end

