-- ==== Sys2Proof/Syntax.lean ====
section
/-!
DEFINITION. The commands the block takes: one constructor of Instr for each row of spec/opcode_table.json,
with the row's operands, and the operand types.
-/

namespace Sys2Proof

/-- The width of one access in bytes (R37, R71). -/
inductive Width where
  | b1 | b2 | b4 | b8
  deriving DecidableEq, Repr

/-- A core access (R34): a load, or a store of the low bytes of a word. -/
inductive MemOp where
  | load
  | store (data : W64)
  deriving DecidableEq, Repr

/-- A request of a PCIe function or a command frame: a read of some bytes or a write of some bytes (R424, R436). -/
inductive BusReq where
  | read (len : Nat)
  | write (data : List Byte)
  deriving DecidableEq, Repr

/-- A message on the cross-die link (R20): its direction, its check, its sequence number, the Lane value at which
its content was produced, and the content. -/
structure LinkMsg where
  toJudge : Bool
  crcOk : Bool
  seq : W64
  lane : W64
  body : List Byte
  deriving DecidableEq, Repr

/-- What moves a Lane that is no time Lane (R43, R45, R46). -/
inductive LaneEvent where
  /-- one quadrature count of an incremental encoder -/
  | count (backward : Bool)
  /-- a position word of `bits` bits, from SSI or a sine/cosine sample -/
  | position (bits : Fin 33) (word : W32)
  /-- the carrier has completed a period -/
  | carrierPeriod
  /-- the carrier counter stands at `num` of a period of `den` -/
  | carrierPhase (num : Nat) (den : Nat)
  /-- a camera frame start -/
  | frameStart
  /-- a rising edge on a LANE_IN input -/
  | pulseEdge
  deriving DecidableEq, Repr

/-- What a drive input gives at a sample instant (R302, R303). -/
inductive Reading where
  /-- the filter sum of a sigma-delta input, and whether its modulator is clocked -/
  | sd (i : Fin 48) (sum : Nat) (clocked : Bool)
  /-- the converter code of an analog input -/
  | adc (k : Fin 8) (code : BitVec 16)
  /-- the carrier counter of a bridge -/
  | carrier (b : Fin 12) (count : Nat)
  deriving DecidableEq, Repr

/-- What an encoder port sees (R304). -/
inductive EncSample where
  /-- one quadrature count -/
  | count (backward : Bool)
  /-- both channels change between two samples -/
  | illegal
  /-- a line count, the sine and cosine converter codes, and whether the amplitude is within its limits -/
  | sincos (line : Int) (sine cosine : Int) (amplOk : Bool)
  deriving DecidableEq, Repr

/-- What a read of one NAND entry of a page finds (R234, R235): good, more than 48 bits corrected in some codeword,
or an uncorrectable codeword. -/
inductive NandRead where
  | good | weak | bad
  deriving DecidableEq, Repr

/-- A memory error of the Vault, DRAM or the Teller reserve (R237). -/
inductive MemErr where
  /-- a corrected word: repaired -/
  | corrected (dram : Bool)
  /-- an uncorrectable word of a home page -/
  | home (page : BitVec 28)
  /-- an uncorrectable word of the raised copy of a home page -/
  | copy (page : BitVec 28)
  /-- of the flash map in the Teller reserve -/
  | flashMap
  /-- of the claim table or a schedule copy: a context concerned -/
  | context (c : CtxId)
  deriving DecidableEq, Repr

/-- A memory error of the Hurdle unit (R352): a corrected word; an uncorrectable word of the voxel cache, which held tree or
SDF; a map or SDF read that meets a POISONED page. -/
inductive HurdleErr where
  | corrected
  | cache (sdf : Bool)
  | poisoned (page : BitVec 28)
  deriving DecidableEq, Repr

/-- An entry of the Cue table (R52). `missed` and `late` are what CUE_STAT reports of it. -/
structure Cue where
  armed : Bool := false
  lane : Nat := 0
  target : W64 := 0
  action : Nat := 0
  arg : W32 := 0
  step : W64 := 0
  div : Nat := 0
  rep : Nat := 0
  pastDrop : Bool := false
  acc : Nat := 0
  missed : Nat := 0
  late : Bool := false
  owner : Option Nat := none
  deriving DecidableEq, Repr

/-- A track (R330). `p` is the full covariance, row by row. -/
structure Track where
  id : W32
  conf : Bool
  model : Nat
  misses : Nat
  hits : Nat
  cls : Nat
  last : W64
  n : Nat
  x : List W32
  p : List W32
  /-- the time of its birth -/
  born : W64 := 0
  /-- an uncorrectable error has hit it: it is deleted at the next kftrack (R336) -/
  bad : Bool := false
  deriving DecidableEq, Repr

/-- The image of a context in a checkpoint (R408): the state of R68 as it stands in its lwrel, the contents of its windows
and the Cues it owns. -/
structure CtxImage where
  pc : W64
  sregs : List (Nat × W64)
  preds : Byte
  descs : List (Nat × BitVec 512)
  /-- destination of the outcome of its lwrel, and the deadline -/
  pd : Fin 8
  sd : Fin 32
  dl : Option (Nat × W64)
  purse : List (BitVec 512 × List Nat)
  /-- bytes of the Sprint window, none where nothing was written -/
  sprint : List (Option Byte)
  cues : List (Nat × Cue)
  deriving DecidableEq, Repr

/-- A mirror record that the standby applies (R406 to R410). -/
inductive MirrorRec where
  /-- bytes written at a home physical address -/
  | write (pa : BitVec 44) (data : List Byte)
  /-- the slots of the Tracker -/
  | tracks (slots : List (Nat × Track)) (nextId : W32)
  /-- what the Judge of the duty module has delivered for an output -/
  | delivered (o : Fin 128) (words : List W32)
  /-- the image of a context -/
  | image (c : CtxId) (img : CtxImage)
  deriving DecidableEq, Repr

/-- What arrives on a heartbeat path (R405): the sender's role, its pair state and its LOCAL Lanes, the level at which
DUTY_IN stands, and whether a YIELD has come ahead of it. -/
structure Heartbeat where
  duty : Bool
  state : Fin 4
  lanes : List (Fin 16 × W64)
  line : Bool
  yielded : Bool
  deriving DecidableEq, Repr

/-- A packet of a camera's receiver (R425). -/
inductive CsiBody where
  | frameStart (num : BitVec 16)
  | frameEnd
  /-- one line: its data type and its samples in order, or its bytes for YUV422 -/
  | line (dt : Fin 64) (samples : List (BitVec 16))
  deriving DecidableEq, Repr

/-- A packet with its virtual channel and its checks. -/
structure CsiPacket where
  vc : Fin 16
  headerOk : Bool
  crcOk : Bool
  body : CsiBody
  deriving DecidableEq, Repr

/-- What the hardware self-test finds (R390, Table 16-4). -/
structure SelfTest where
  tiles : List (Fin 2112)
  engines : Byte
  vault : Option (Fin 28)
  stream : Bool
  tally : Bool
  voxel : Bool
  tracker : Bool
  deriving DecidableEq, Repr

/-- How an ONFI channel trains (R396). -/
inductive NandRate where
  | down | slow | full
  deriving DecidableEq, Repr

/-- How an image write ends (R418): the write failed, the partner refused, or the image stands in the NOR with a version,
its bytes and the sections that fail their CRC. -/
inductive ImageEnd where
  | failed
  | refused
  | written (ver : W32) (data : List Byte) (bad : List Nat)
  deriving DecidableEq, Repr

/-- Which context issues an instruction, and the predicate selector it carries (R72, R91). -/
structure Issue where
  ctx : CtxId
  neg : Bool
  sel : Fin 8
  deriving DecidableEq, Repr

/-- FMT_S (Table 4-4). -/
structure OpS where
  sd : Fin 32
  sa : Fin 32
  sb : Fin 32
  pd : Fin 8
  immSel : Bool
  imm : W64
  deriving DecidableEq, Repr

/-- FMT_B (Table 4-8). -/
structure OpB where
  sd : Fin 32
  sa : Fin 32
  off : W64
  deriving DecidableEq, Repr

/-- FMT_D (Table 4-10). -/
structure OpD where
  dd : Fin 64
  da : Fin 64
  sd : Fin 32
  sa : Fin 32
  fsel : Fin 64
  immSel : Bool
  imm : W64
  deriving DecidableEq, Repr

/-- FMT_K (Table 4-13). -/
structure OpK where
  dO : Fin 64
  dA : Fin 64
  dB : Fin 64
  dC : Fin 64
  vt : Fin 4096
  sr : Fin 32
  sp : Fin 32
  rnd : Fin 16
  tally : Bool
  rcpt : Bool
  accum : Bool
  cplx : Bool
  imm : W32
  deriving DecidableEq, Repr

/-- FMT_M (Table 4-16). -/
structure OpM where
  dd : Fin 64
  ds : Fin 64
  vt : Fin 4096
  sr : Fin 32
  sa : Fin 32
  tally : Bool
  rcpt : Bool
  tier : Bool
  imm : W64
  deriving DecidableEq, Repr

/-- FMT_Y (Table 4-18). -/
structure OpY where
  vt : Fin 4096
  pd : Fin 8
  sd : Fin 32
  sa : Fin 32
  sb : Fin 32
  sc : Fin 32
  lane : Fin 16
  immSel : Bool
  rl : Bool
  deadline : Bool
  imm : W32
  deriving DecidableEq, Repr

/-- The mnemonics of Tables 4-5 to 4-21. -/
inductive Mn where
  | add | sub | and | or | xor | shl | shr | sra | mul | mulhs | mulhu | div | divu | rem | remu
  | min | max | minu | maxu | mov | cmpEq | cmpNe | cmpLt | cmpLtu | cmpGe | cmpGeu | cmpLat | pset | pget
  | ldu8 | ldu16 | ldu32 | ld64 | lds8 | lds16 | lds32 | st8 | st16 | st32 | st64
  | nop | qry | fence | trap
  | br | call | jmp | loop | exit
  | dld | dst | dcpy | dset | dget | dadd
  | kmatmul | kconv | kpool | kattn | kscan | kcell | kreduce
  | kact | keltw | knorm | ksoftmax | kgates | kargmax | kcvt
  | ksconv | ksmatmul | ksargmax | ksreflex
  | khquery | khstride | khfinish | khmap | kfxform | kfego | kftrack
  | mcopy | mfill | mraise | mdrop | mpace | menter
  | tadd | tsub | twait | tread | tarrive | tbarwait
  | lread | lwait | lwrel | larm | ldisarm
  | rread | rcoll | rpost | rwait
  deriving DecidableEq, Repr

/-- The operands of one Noves word, by format. -/
inductive NOps where
  | s (o : OpS) | b (o : OpB) | d (o : OpD) | k (o : OpK) | m (o : OpM) | y (o : OpY)
  deriving DecidableEq, Repr

/-- One Noves instruction as a word holds it: the selector, the mnemonic and the operands (R91). -/
structure NWord where
  neg : Bool
  sel : Fin 8
  mn : Mn
  ops : NOps
  deriving DecidableEq, Repr

/-- The commands: one constructor for each row of the opcode table. -/
inductive Instr where
  /-- REGISTER_WRITE (R14). A control-space write to a register that has no row of its own sets or ignores fields according to its access code. -/
  | registerWrite (r : Requester) (off : BitVec 24) (w : Width) (data : W64)
  /-- CORE_ACCESS (R34). A core load or store to the Ledger range is served, waits on a moving page, or takes the unmapped, permission or poison outcome. -/
  | coreAccess (r : Fin 18) (pa : BitVec 44) (w : Width) (op : MemOp)
  /-- PCIE_REQUEST (R424). An inbound PCIe request through BAR0 or BAR2 is checked against standing and then served or refused. -/
  | pcieRequest (f : Fin 8) (bar2 : Bool) (off : W64) (q : BusReq)
  /-- CROSS_DIE_MESSAGE (R20). A message arriving on the cross-die link is accepted, or discarded when its CRC or sequence fails. -/
  | crossDieMessage (m : LinkMsg)
  /-- SSR_REQ_N (R382). A low pulse on SSR_REQ_N from the Lemquevin die requests a safe-state reset. -/
  | ssrReqN
  /-- SSR (R462). SYS_RESET_CMD SSR begins a safe-state reset within 1 us, or is refused before READY or during a restart. -/
  | ssr (r : Requester)
  /-- RESTART_READY (R400). The restart after a safe-state reset restores geometry and Teller regions and reaches READY. -/
  | restartReady (shadowBad : Option (BitVec 16)) (save ctl : W32)
  /-- LANE_TICK (R40). An always-on tick advances every enabled time Lane by its increment and rate, carrying the epoch across a wrap. -/
  | laneTick
  /-- LANE_SOURCE_EVENT (R43). An encoder count, position word, carrier period, frame start or qualified pulse edge advances a non-time Lane. -/
  | laneSourceEvent (n : LaneId) (e : LaneEvent)
  /-- LANE_CFG_WRITE (R44). A LANE_CFG write changes the source or enable of a Lane; at enable the armed Cues are evaluated, and at disable a bound gPTP slot unbinds. -/
  | laneCfgWrite (r : Requester) (n : LaneId) (v : W32)
  /-- LANE_VALUE_READ (R42). A 64-bit read of LANE_VALUE returns the value and latches LANE_EPOCH for the reader. -/
  | laneValueRead (r : Requester) (n : LaneId)
  /-- LANE_EPOCH_READ (R42). A 64-bit read of LANE_EPOCH returns and consumes the pending latch, or returns the live count. -/
  | laneEpochRead (r : Requester) (n : LaneId)
  /-- LANE_STEP (R49). A signed step is added to the Lane when it lies within LANE_STEP_LIM, and is refused otherwise. -/
  | laneStep (r : Requester) (n : LaneId) (step : W64)
  /-- LANE_STEP_FORCE (R50). A forced step is added whatever its size, unless the path lacks HWCUE or a hardware-action Cue is armed on the Lane. -/
  | laneStepForce (r : Requester) (n : LaneId) (step : W64)
  /-- GPTP_HOLDOVER (R48). A GPTP Lane enters holdover after SYNC_LOSS Sync intervals without a Sync. -/
  | gptpHoldover (n : LaneId)
  /-- LANE_SOURCE_LOST (R48). A port reports the departure of a Lane source, setting SRC_LOST while the Lane holds its value. -/
  | laneSourceLost (n : LaneId)
  /-- CUE_ACTION_DISPATCH (R55). The Cue engine dispatches the TALLY_ADD, CAPTURE, JOB_RELEASE or NONE actions of fired Cues, in target order. -/
  | cueActionDispatch
  /-- CAM_TRIGGER_PULSE_END (R52). The camera trigger output returns low once its pulse width in ticks expires. -/
  | camTriggerPulseEnd (k : Fin 8)
  /-- CUE_ARM (R470). CUE_CMD ARM checks the staged entry in the order of R470 and arms the Cue, or refuses it with an error. -/
  | cueArm (r : Requester)
  /-- CUE_DISARM (R58). CUE_CMD DISARM disarms the selected Cue unless it is context-owned and the path is not privileged. -/
  | cueDisarm (r : Requester)
  /-- CUE_READ (R52). CUE_CMD READ copies the selected entry into the caller's staging registers and CUE_STAT. -/
  | cueRead (r : Requester)
  /-- CAPTURE_EDGE (R59). A selected input edge latches the chosen Lane's value into an enabled capture unit's FIFO. -/
  | captureEdge (input : Byte) (rising : Bool) (eighth : Fin 8)
  /-- CAP_DATA_READ (R59). A 64-bit read of CAP_DATA returns and removes the oldest FIFO entry. -/
  | capDataRead (r : Requester) (m : Fin 32)
  /-- PTP_DOM_CFG_WRITE (R60). A PTP_DOM_CFG write binds a domain slot to its GPTP Lane, or is ignored with CFG_ERR. -/
  | ptpDomCfgWrite (r : Requester) (d : Fin 4) (v : W32)
  /-- FUP_TIMEOUT (R64). A held two-step correction whose Follow_Up does not arrive within FUP_TMO is discarded. -/
  | fupTimeout (p : Fin 4) (seq : W16)
  /-- PEER_DELAY (R62). Hardware peer-delay exchanges on a port update the mean link delay in PTP_PDELAY. -/
  | peerDelay (p : Fin 4) (delay : W64)
  /-- TS_DATA_READ (R61). A 64-bit read of TS_DATA returns the head timestamp and removes the head entry. -/
  | tsDataRead (r : Requester)
  /-- LAUNCH_QUEUE_HEAD (R65). A frame with a launch value reaching its queue head is held, sent at once or dropped by its launch value. -/
  | launchQueueHead (p : Fin 4) (tc : Fin 8)
  /-- LAUNCH_TIME_REACHED (R65). The launch Lane reaches a held frame's launch value and the frame is transmitted, or waits for its gate. -/
  | launchTimeReached (p : Fin 4) (tc : Fin 8)
  /-- ADD (R98). Noves add writes SA plus b to SD. -/
  | add (q : Issue) (o : OpS)
  /-- SUB (R98). Noves sub writes SA minus b to SD. -/
  | sub (q : Issue) (o : OpS)
  /-- AND (R98). Noves and writes the bitwise AND to SD. -/
  | and (q : Issue) (o : OpS)
  /-- OR (R98). Noves or writes the bitwise OR to SD. -/
  | or (q : Issue) (o : OpS)
  /-- XOR (R98). Noves xor writes the bitwise XOR to SD. -/
  | xor (q : Issue) (o : OpS)
  /-- SHL (R98). Noves shl shifts SA left. -/
  | shl (q : Issue) (o : OpS)
  /-- SHR (R98). Noves shr shifts SA right with zero fill. -/
  | shr (q : Issue) (o : OpS)
  /-- SRA (R98). Noves sra shifts SA right with sign fill. -/
  | sra (q : Issue) (o : OpS)
  /-- MUL (R98). Noves mul writes the low 64 bits of the product. -/
  | mul (q : Issue) (o : OpS)
  /-- MULHS (R98). Noves mulhs writes the high 64 bits of the signed product. -/
  | mulhs (q : Issue) (o : OpS)
  /-- MULHU (R98). Noves mulhu writes the high 64 bits of the unsigned product. -/
  | mulhu (q : Issue) (o : OpS)
  /-- DIV (R98). Noves div writes the signed quotient. -/
  | div (q : Issue) (o : OpS)
  /-- DIVU (R98). Noves divu writes the unsigned quotient. -/
  | divu (q : Issue) (o : OpS)
  /-- REM (R98). Noves rem writes the signed remainder. -/
  | rem (q : Issue) (o : OpS)
  /-- REMU (R98). Noves remu writes the unsigned remainder. -/
  | remu (q : Issue) (o : OpS)
  /-- MIN (R98). Noves min writes the signed minimum. -/
  | min (q : Issue) (o : OpS)
  /-- MAX (R98). Noves max writes the signed maximum. -/
  | max (q : Issue) (o : OpS)
  /-- MINU (R98). Noves minu writes the unsigned minimum. -/
  | minu (q : Issue) (o : OpS)
  /-- MAXU (R98). Noves maxu writes the unsigned maximum. -/
  | maxu (q : Issue) (o : OpS)
  /-- MOV (R98). Noves mov copies b to SD. -/
  | mov (q : Issue) (o : OpS)
  /-- CMP_EQ (R98). Noves cmp.eq sets PD to SA equal to b. -/
  | cmpEq (q : Issue) (o : OpS)
  /-- CMP_NE (R98). Noves cmp.ne sets PD to SA not equal to b. -/
  | cmpNe (q : Issue) (o : OpS)
  /-- CMP_LT (R98). Noves cmp.lt sets PD to signed SA less than b. -/
  | cmpLt (q : Issue) (o : OpS)
  /-- CMP_LTU (R98). Noves cmp.ltu sets PD to unsigned SA less than b. -/
  | cmpLtu (q : Issue) (o : OpS)
  /-- CMP_GE (R98). Noves cmp.ge sets PD to signed SA at least b. -/
  | cmpGe (q : Issue) (o : OpS)
  /-- CMP_GEU (R98). Noves cmp.geu sets PD to unsigned SA at least b. -/
  | cmpGeu (q : Issue) (o : OpS)
  /-- CMP_LAT (R98). Noves cmp.lat sets PD by the Lane-value later-than rule. -/
  | cmpLat (q : Issue) (o : OpS)
  /-- PSET (R98). Noves pset writes bit 0 of b to PD. -/
  | pset (q : Issue) (o : OpS)
  /-- PGET (R98). Noves pget writes the eight predicates to SD. -/
  | pget (q : Issue) (o : OpS)
  /-- LDU8 (R99). Noves ldu8 loads a zero-extended byte. -/
  | ldu8 (q : Issue) (o : OpS)
  /-- LDU16 (R99). Noves ldu16 loads zero-extended 16 bits. -/
  | ldu16 (q : Issue) (o : OpS)
  /-- LDU32 (R99). Noves ldu32 loads zero-extended 32 bits. -/
  | ldu32 (q : Issue) (o : OpS)
  /-- LD64 (R99). Noves ld64 loads 64 bits. -/
  | ld64 (q : Issue) (o : OpS)
  /-- LDS8 (R99). Noves lds8 loads a sign-extended byte. -/
  | lds8 (q : Issue) (o : OpS)
  /-- LDS16 (R99). Noves lds16 loads sign-extended 16 bits. -/
  | lds16 (q : Issue) (o : OpS)
  /-- LDS32 (R99). Noves lds32 loads sign-extended 32 bits. -/
  | lds32 (q : Issue) (o : OpS)
  /-- ST8 (R99). Noves st8 stores the low byte of SB. -/
  | st8 (q : Issue) (o : OpS)
  /-- ST16 (R99). Noves st16 stores the low 16 bits of SB. -/
  | st16 (q : Issue) (o : OpS)
  /-- ST32 (R99). Noves st32 stores the low 32 bits of SB. -/
  | st32 (q : Issue) (o : OpS)
  /-- ST64 (R99). Noves st64 stores SB. -/
  | st64 (q : Issue) (o : OpS)
  /-- NOP (R100). Noves nop does nothing. -/
  | nop (q : Issue) (o : OpS)
  /-- QRY (R100). Noves qry writes the value of a query key to SD. -/
  | qry (q : Issue) (o : OpS)
  /-- FENCE (R84). Noves fence blocks the context until its earlier asynchronous instructions of the masked units complete. -/
  | fence (q : Issue) (o : OpS)
  /-- TRAP (R100). Noves trap faults the context with TRAP. -/
  | trap (q : Issue) (o : OpS)
  /-- BR (R101). Noves br branches to PC plus OFFSET. -/
  | br (q : Issue) (o : OpB)
  /-- CALL (R101). Noves call links PC plus 16 into SD and branches. -/
  | call (q : Issue) (o : OpB)
  /-- JMP (R101). Noves jmp jumps to SA plus OFFSET. -/
  | jmp (q : Issue) (o : OpB)
  /-- LOOP (R101). Noves loop decrements SA and branches while it is nonzero. -/
  | loop (q : Issue) (o : OpB)
  /-- EXIT (R101). Noves exit ends the program and tears the context down without a fault record. -/
  | exit (q : Issue) (o : OpB)
  /-- DLD (R102). Noves dld loads a 64-byte descriptor into a slot. -/
  | dld (q : Issue) (o : OpD)
  /-- DST (R102). Noves dst stores a descriptor slot to memory. -/
  | dst (q : Issue) (o : OpD)
  /-- DCPY (R102). Noves dcpy copies one descriptor slot to another. -/
  | dcpy (q : Issue) (o : OpD)
  /-- DSET (R102). Noves dset writes one descriptor field. -/
  | dset (q : Issue) (o : OpD)
  /-- DGET (R102). Noves dget reads one descriptor field into SD. -/
  | dget (q : Issue) (o : OpD)
  /-- DADD (R102). Noves dadd adds v to a descriptor's BASE. -/
  | dadd (q : Issue) (o : OpD)
  /-- KMATMUL (R130). Noves kmatmul issues a batched matrix product to the Field. -/
  | kmatmul (q : Issue) (o : OpK)
  /-- KCONV (R158). Noves kconv issues a convolution to the Field as an implicit matrix product. -/
  | kconv (q : Issue) (o : OpK)
  /-- KPOOL (R155). Noves kpool issues max or average pooling. -/
  | kpool (q : Issue) (o : OpK)
  /-- KATTN (R176). Noves kattn issues a fused dense or paged attention. -/
  | kattn (q : Issue) (o : OpK)
  /-- KSCAN (R210). Noves kscan issues a LINEAR recurrent scan chunk over streams. -/
  | kscan (q : Issue) (o : OpK)
  /-- KCELL (R210). Noves kcell issues a step-by-step recurrent cell chunk over streams. -/
  | kcell (q : Issue) (o : OpK)
  /-- KREDUCE (R143). Noves kreduce issues a sum, max, min or mean reduction. -/
  | kreduce (q : Issue) (o : OpK)
  /-- KACT (R141). Noves kact issues an element-wise activation to the gate pipeline. -/
  | kact (q : Issue) (o : OpK)
  /-- KELTW (R141). Noves keltw issues an element-wise binary operation. -/
  | keltw (q : Issue) (o : OpK)
  /-- KNORM (R142). Noves knorm issues a layer or RMS normalisation. -/
  | knorm (q : Issue) (o : OpK)
  /-- KSOFTMAX (R179). Noves ksoftmax issues a standalone softmax. -/
  | ksoftmax (q : Issue) (o : OpK)
  /-- KGATES (R209). Noves kgates issues one gate-set step on a software-held state. -/
  | kgates (q : Issue) (o : OpK)
  /-- KARGMAX (R160). Noves kargmax issues a channel argmax on the gate pipeline. -/
  | kargmax (q : Issue) (o : OpK)
  /-- KCVT (R144). Noves kcvt issues a format conversion. -/
  | kcvt (q : Issue) (o : OpK)
  /-- KSCONV (R162). Noves ksconv issues a convolution to a Sprint engine. -/
  | ksconv (q : Issue) (o : OpK)
  /-- KSMATMUL (R162). Noves ksmatmul issues a matrix product to a Sprint engine. -/
  | ksmatmul (q : Issue) (o : OpK)
  /-- KSARGMAX (R160). Noves ksargmax issues a channel argmax to a Sprint engine. -/
  | ksargmax (q : Issue) (o : OpK)
  /-- KSREFLEX (R165). Noves ksreflex binds, replaces or stops a reflex model on Pacer channels. -/
  | ksreflex (q : Issue) (o : OpK)
  /-- KHQUERY (R345). Noves khquery queues a sphere clearance batch. -/
  | khquery (q : Issue) (o : OpK)
  /-- KHSTRIDE (R347). Noves khstride queues a candidate Stride ranking batch. -/
  | khstride (q : Issue) (o : OpK)
  /-- KHFINISH (R350). Noves khfinish queues a finish check that selects a verified Stride or the stop Stride. -/
  | khfinish (q : Issue) (o : OpK)
  /-- KHMAP (R341). Noves khmap queues an atomic batch of map edits and advances the epoch. -/
  | khmap (q : Issue) (o : OpK)
  /-- KFXFORM (R328). Noves kfxform transforms points through a frame chain. -/
  | kfxform (q : Issue) (o : OpK)
  /-- KFEGO (R329). Noves kfego estimates the body-to-world pose and may write EGO. -/
  | kfego (q : Issue) (o : OpK)
  /-- KFTRACK (R331). Noves kftrack predicts or updates the Tracker and writes the track output. -/
  | kftrack (q : Issue) (o : OpK)
  /-- MCOPY (R229). Noves mcopy copies every element of DS to DD through the Teller. -/
  | mcopy (q : Issue) (o : OpM)
  /-- MFILL (R107). Noves mfill writes a pattern to every element of DD. -/
  | mfill (q : Issue) (o : OpM)
  /-- MRAISE (R225). Noves mraise claims and raises pages to the Vault or DRAM. -/
  | mraise (q : Issue) (o : OpM)
  /-- MDROP (R220). Noves mdrop removes the context's persistent claims on pages. -/
  | mdrop (q : Issue) (o : OpM)
  /-- MPACE (R231). Noves mpace accepts a pace schedule, or ends the context's schedules. -/
  | mpace (q : Issue) (o : OpM)
  /-- MENTER (R230). Noves menter writes a page of the NAND view in double entry. -/
  | menter (q : Issue) (o : OpM)
  /-- TADD (R268). Noves tadd adds n to a Tally, after a fence when RL is set. -/
  | tadd (q : Issue) (o : OpY)
  /-- TSUB (R268). Noves tsub subtracts n from a Tally, stopping at 0. -/
  | tsub (q : Issue) (o : OpY)
  /-- TWAIT (R271). Noves twait ends at once or registers a wait until the count reaches n. -/
  | twait (q : Issue) (o : OpY)
  /-- TREAD (R272). Noves tread reads a Tally's count into SD. -/
  | tread (q : Issue) (o : OpY)
  /-- TARRIVE (R279). Noves tarrive arrives at a barrier without waiting. -/
  | tarrive (q : Issue) (o : OpY)
  /-- TBARWAIT (R279). Noves tbarwait arrives at a barrier and waits for its phase to complete. -/
  | tbarwait (q : Issue) (o : OpY)
  /-- LREAD (R108). Noves lread reads a Lane value into SD. -/
  | lread (q : Issue) (o : OpY)
  /-- LWAIT (R108). Noves lwait waits until a Lane reaches a value. -/
  | lwait (q : Issue) (o : OpY)
  /-- LWREL (R253). Noves lwrel waits for a JOB_RELEASE, or ends at once on a pending release. -/
  | lwrel (q : Issue) (o : OpY)
  /-- LARM (R109). Noves larm arms a context-owned Cue from an arm block. -/
  | larm (q : Issue) (o : OpY)
  /-- LDISARM (R108). Noves ldisarm disarms a Cue the context owns. -/
  | ldisarm (q : Issue) (o : OpY)
  /-- RREAD (R286). Noves rread reads a Receipt plainly. -/
  | rread (q : Issue) (o : OpY)
  /-- RCOLL (R286). Noves rcoll reads a Receipt through its COLLECT alias. -/
  | rcoll (q : Issue) (o : OpY)
  /-- RPOST (R286). Noves rpost posts a hold-mode Receipt, stalling while it is POSTED or held. -/
  | rpost (q : Issue) (o : OpY)
  /-- RWAIT (R286). Noves rwait waits for a post with a later sequence. -/
  | rwait (q : Issue) (o : OpY)
  /-- WAIT_DEADLINE (R108). A wait with DEADLINE ends with TIMEOUT when its Lane reaches the deadline. -/
  | waitDeadline (c : CtxId)
  /-- KERNEL_COMPLETE (R82). An asynchronous kernel completes, makes its data visible, posts its Receipt and adds to its Tally. -/
  | kernelComplete (c : CtxId) (id : Nat)
  /-- RECEIPT_TAKE (R284). A hold-mode producer waiting on a POSTED or held Receipt takes it once it is collected or released. -/
  | receiptTake (c : CtxId)
  /-- KERNEL_FAULT (R87). An asynchronous instruction meets a fault after issue, which is imprecise. -/
  | kernelFault (c : CtxId) (id : Nat) (va : W64) (write : Bool)
  /-- CONTEXT_TEARDOWN (R263). A context is torn down in the order of R263 after a fault, exit, budget END, KILL or reset. -/
  | contextTeardown (c : CtxId)
  /-- TILE_PASS_END (R115). A tile pass ends, a boundary at which pre-emption, layout change or saving can occur. -/
  | tilePassEnd (p : Fin 7) (cycles stall vault ext : BitVec 32)
  /-- PURSE_ECC_ERROR (R147). A Purse or accumulator ECC error is corrected, or withdraws the tile and faults contexts. -/
  | purseEccError (t : Fin 2112) (uncorrectable : Bool)
  /-- SPRINT_ECC_ERROR (R164). A Sprint memory ECC error is corrected, or maps the engine out and faults contexts. -/
  | sprintEccError (e : Fin 8) (uncorrectable : Bool)
  /-- MAP_OUT (R164). A SPRINT_ENG_CTL MAP_OUT write maps an engine out once its kernel ends, or is ignored while a reflex is bound. -/
  | mapOut (r : Requester) (e : Fin 8) (v : Bool)
  /-- REFLEX_FEATURES_ARRIVE (R168). A period's features reach the bound Sprint engine, which suspends ordinary kernels and evaluates the model. -/
  | reflexFeaturesArrive (e : Fin 8)
  /-- REFLEX_OUTPUTS_ARRIVE (R168). Reflex outputs reach the Pacer and are accepted for the next period. -/
  | reflexOutputsArrive (e : Fin 8) (cycles : Nat)
  /-- REFLEX_OUTPUT_DEADLINE (R168). Outputs not arrived by S plus P minus 50 ns are discarded and counted LATE. -/
  | reflexOutputDeadline (e : Fin 8)
  /-- KV_APPEND (R189). The pool agent acquires LOCK and appends each entry, popping or copying pages. -/
  | kvAppend (c : CtxId) (id : Nat)
  /-- STREAM_REGISTER (R196). STREAM_CMD REGISTER registers a stream from staging and sets its initial state. -/
  | streamRegister (r : Requester)
  /-- STREAM_UNREGISTER (R204). STREAM_CMD UNREGISTER unregisters a stream and clears poison, unless it is claimed. -/
  | streamUnregister (r : Requester)
  /-- STREAM_RESET (R211). STREAM_CMD RESET sets a stream's carried state to its initial state. -/
  | streamReset (r : Requester)
  /-- STREAM_FLUSH (R203). STREAM_CMD FLUSH lowers a stream to escrow. -/
  | streamFlush (r : Requester)
  /-- STREAM_READ (R196). STREAM_CMD READ fills the staging registers and STREAM_INFO. -/
  | streamRead (r : Requester)
  /-- CHUNK_ADMISSION (R201). A waiting chunk is admitted in class order once its streams fit, taking claims on them. -/
  | chunkAdmission
  /-- STREAM_RAISE_COMPLETE (R202). A stream raised from escrow becomes resident, or is poisoned on an uncorrectable word. -/
  | streamRaiseComplete (n : BitVec 16) (corrected ue : Bool)
  /-- STREAM_LOWER_COMPLETE (R203). A stream lowered to escrow leaves the Stream store. -/
  | streamLowerComplete (n : BitVec 16)
  /-- STREAM_STORE_ECC_ERROR (R204). A Stream store ECC error is corrected, or poisons the stream holding the word. -/
  | streamStoreEccError (n : Option (BitVec 16))
  /-- TELLER_INVAL (R219). A TELLER_INVAL write starts invalidating cached translations of a context or of all. -/
  | tellerInval (r : Requester) (v : W32)
  /-- TELLER_INVAL_COMPLETE (R219). The invalidation ends and INVAL_BUSY clears. -/
  | tellerInvalComplete
  /-- PAGE_MOVE_ACCEPT (R224). The Teller accepts a waiting page move in class order, freeing a frame by demotion when needed. -/
  | pageMoveAccept
  /-- PAGE_MOVE_COMPLETE (R224). A page move completes, and a MOVE whose page moves are all done completes. -/
  | pageMoveComplete (page : BitVec 28)
  /-- MENTER_COMMIT (R230). Once a page's claims end, menter commits both entries with one flash-map update. -/
  | menterCommit (page : BitVec 28)
  /-- NAND_ENTRY_REWRITE (R234). The Teller rewrites a failed NAND entry into a fresh block. -/
  | nandEntryRewrite (page : BitVec 28) (second : Bool)
  /-- PARTNER_FETCH_COMPLETE (R236). A page fetched from the pair partner arrives, both entries are rewritten and the waiting access completes. -/
  | partnerFetchComplete (page : BitVec 28) (data : Option (List Byte))
  /-- NAND_SCRUB (R235). Background scrub reads both entries of a NAND page and rewrites weak ones. -/
  | nandScrub (page : BitVec 28) (a : NandRead) (b : NandRead)
  /-- DRAM_SCRUB (R235). Background scrub reads DRAM words and writes back corrected ones. -/
  | dramScrub (page : BitVec 28) (corrected : Bool)
  /-- MEMORY_UE (R237). An uncorrectable Vault, DRAM or reserve word is refetched, or the page is poisoned. -/
  | memoryUe (e : MemErr)
  /-- TELLER_PAGE_READ (R223). TELLER_PAGE_CMD READ reports the selected home page into TELLER_PAGE_INFO. -/
  | tellerPageRead (r : Requester)
  /-- CLEAR_POISON (R238). TELLER_PAGE_CMD CLEAR_POISON clears a page's poison. -/
  | clearPoison (r : Requester)
  /-- POOL_REGISTER (R227). A write of TELLER_POOL_CFG.EN 1 registers a KV pool, reading its header weights. -/
  | poolRegister (r : Requester) (n : Fin 16) (v : W32)
  /-- DEFINE (R241). START_CTX_CMD DEFINE defines a context from staging, or refuses it. -/
  | define (r : Requester)
  /-- KILL (R263). START_CTX_CMD KILL tears the context down with fault KILLED. -/
  | kill (r : Requester)
  /-- START_CTX_READ (R241). START_CTX_CMD READ fills staging and START_CTX_INFO. -/
  | startCtxRead (r : Requester)
  /-- CONTEXT_RESIDENT (R242). A waiting context obtains a Marshal slot and windows and starts issuing. -/
  | contextResident (c : CtxId)
  /-- STARTER_DECISION (R245). The Starter places ready operations on free positions, by pre-emption or by layout change. -/
  | starterDecision
  /-- PREEMPT_SAVE_COMPLETE (R249). The displaced operation's state is saved and the incoming operation is started. -/
  | preemptSaveComplete (p : Fin 7) (ns : BitVec 32)
  /-- SWAP_COMPLETE (R257). The victim's image is in escrow and the runnable context is restored. -/
  | swapComplete (lost : Bool) (ns : BitVec 32)
  /-- REGULATOR_REFILL (R259). Every 1,000 ns each enabled bucket refills by RATE up to BURST. -/
  | regulatorRefill
  /-- BUDGET_OVERRUN (R261). A job's charge exceeds LIMIT and the entry's ACTION is applied. -/
  | budgetOverrun (b : Fin 64)
  /-- START_CTL_WRITE (R243). A write of START_CTL.EN 1 enables the Starter, or is refused with CFG_ERR. -/
  | startCtlWrite (r : Requester) (v : W32)
  /-- TALLY_PORT_ADD (R269). A 32-bit write at offset 0 of a Tally word adds the value. -/
  | tallyPortAdd (r : Requester) (t : TallyId) (v : W32)
  /-- TALLY_PORT_SUBTRACT (R269). A 32-bit write at offset 4 of a Tally word subtracts the value. -/
  | tallyPortSubtract (r : Requester) (t : TallyId) (v : W32)
  /-- TALLY_READ (R267). TALLY_CMD READ snapshots the selected Tally into TALLY_INFO, TALLY_COUNT and TALLY_EVENTS. -/
  | tallyRead (r : Requester)
  /-- RECLAIM (R275). TALLY_CMD RECLAIM returns a FORFEIT Tally to IDLE with COUNT 0. -/
  | reclaim (r : Requester)
  /-- TMAP_SET (R273). TMAP_CMD SET binds a virtual identifier after the checks of R273. -/
  | tmapSet (r : Requester)
  /-- TMAP_CLEAR (R273). TMAP_CMD CLEAR removes a map entry. -/
  | tmapClear (r : Requester)
  /-- TMAP_READ (R273). TMAP_CMD READ copies an entry into TMAP_CFG. -/
  | tmapRead (r : Requester)
  /-- BAR_DEFINE (R276). BAR_CMD DEFINE defines a mask-group or sense-reversing barrier. -/
  | barDefine (r : Requester)
  /-- BAR_UNDEFINE (R276). BAR_CMD UNDEFINE removes a barrier unless a map entry names it. -/
  | barUndefine (r : Requester)
  /-- REARM (R280). BAR_CMD REARM clears arrivals and returns a barrier to ACTIVE. -/
  | rearm (r : Requester)
  /-- SET_MEMBERS (R277). BAR_CMD SET_MEMBERS replaces a mask-group barrier's members. -/
  | setMembers (r : Requester)
  /-- ARRIVE (R277). BAR_CMD ARRIVE arrives at a barrier on behalf of a core. -/
  | arrive (r : Requester) (slot : Fin 64)
  /-- BAR_READ (R276). BAR_CMD READ snapshots a barrier's state. -/
  | barRead (r : Requester)
  /-- RWIN_REGISTER (R281). A write of RWIN_CFG.EN 1 starts registering a Receipt window, or is refused. -/
  | rwinRegister (r : Requester) (w : Fin 16) (v : W32)
  /-- RWIN_REGISTER_COMPLETE (R281). Window registration ends with every Receipt EMPTY and BUSY cleared. -/
  | rwinRegisterComplete (w : Fin 16)
  /-- RWIN_UNREGISTER (R287). A write of RWIN_CFG.EN 0 unregisters a window and ends its rwaits with OWNER_LOST. -/
  | rwinUnregister (r : Requester) (w : Fin 16) (v : W32)
  /-- COLLECT (R282). An aligned 64-bit read of the alias span returns a Receipt and changes POSTED to COLLECTED. -/
  | collect (r : Requester) (pa : BitVec 44)
  /-- WATCH_ENABLE (R290). Enabling a watch sets HIT at once if the Tally already meets THRESH. -/
  | watchEnable (r : Requester) (k : Fin 16) (v : W32)
  /-- PACER_SAMPLE_INSTANT (R294). A Pacer sample instant latches inputs, mailboxes and reflex inputs, applies output shadows and sends features. -/
  | pacerSampleInstant (n : Fin 16) (env : List Reading)
  /-- PACER_EXECUTION_START (R294). At S plus 100 ns the enabled channels execute in ascending order until HALT. -/
  | pacerExecutionStart (n : Fin 16)
  /-- PACER_ARM (R295). A write of PACER_CTL.EN 1 checks every enabled channel and arms the Pacer, or records the failure. -/
  | pacerArm (r : Requester) (n : Fin 16) (v : W32)
  /-- PACER_STOP (R295). A write of PACER_CTL.EN 0 stops the Pacer after the period in progress. -/
  | pacerStop (r : Requester) (n : Fin 16) (v : W32)
  /-- PACER_SWITCH (R295). A write of CH_EN, PBANK or KBANK is checked and takes effect at the next instant, or is refused. -/
  | pacerSwitch (r : Requester) (n : Fin 16) (v : W32)
  /-- PACER_ECC_ERROR (R312). An uncorrectable Pacer memory error stops the Pacer and forces its outputs off. -/
  | pacerEccError (n : Fin 16) (uncorrectable : Bool)
  /-- SD_TRIP (R303). A sigma-delta trip filter crossing HI or LO forces its bridge off and latches TRIP. -/
  | sdTrip (k : Fin 48) (value : BitVec 16)
  /-- SD_NO_CLOCK (R302). No modulator clock edge for 1 us marks the sigma-delta input stale. -/
  | sdNoClock (k : Fin 48)
  /-- ENCODER_COUNT (R304). A quadrature change or sine/cosine sample updates an encoder port's position. -/
  | encoderCount (e : Fin 12) (x : EncSample)
  /-- SSI_TRANSFER_START (R304). An SSI transfer starts LEAD_NS before a sample instant, or at the instant. -/
  | ssiTransferStart (e : Fin 12)
  /-- SSI_WORD_COMPLETE (R304). An SSI position word completes, or times out leaving the old word stale. -/
  | ssiWordComplete (e : Fin 12) (word : Option W32)
  /-- CARRIER_ZERO (R305). A bridge carrier reaches zero or peak and loads pending compare values. -/
  | carrierZero (b : Fin 12) (peak : Bool)
  /-- MAILBOX_COMMIT (R308). A PCH_MBX_CMT write commits the caller's eight staged words, or is rejected. -/
  | mailboxCommit (r : Requester) (n : Fin 16) (c : Fin 4) (v : W32)
  /-- MAILBOX_FEED (R308). The feed engine reads a posted record and commits it to the mailbox. -/
  | mailboxFeed (n : Fin 16) (c : Fin 4)
  /-- ISLAND_HOLD (R310). A write of ISLAND_CTL.HOLD 1 enters HOLD. -/
  | islandHold (r : Requester)
  /-- ISLAND_RUN (R310). A write of ISLAND_CTL.HOLD 0 returns the island to RUN, or is refused. -/
  | islandRun (r : Requester)
  /-- ISLAND_RESET_RELEASE (R291). ISL_REL rises, the island leaves reset and begins clearing Pacer memory. -/
  | islandResetRelease
  /-- ISLAND_INIT_COMPLETE (R291). Pacer memory clearing ends and INIT_BUSY clears. -/
  | islandInitComplete
  /-- PACER_HALT (R297). Pacer halt ends the channel's execution for the period. -/
  | pacerHalt (n : Fin 16)
  /-- PACER_NOP (R297). Pacer nop does nothing. -/
  | pacerNop (n : Fin 16)
  /-- PACER_LD (R298). Pacer ld loads a slot or data word. -/
  | pacerLd (n : Fin 16)
  /-- PACER_ST (R298). Pacer st stores to a data word, feature slot or output shadow. -/
  | pacerSt (n : Fin 16)
  /-- PACER_LDI (R297). Pacer ldi loads a scaled immediate. -/
  | pacerLdi (n : Fin 16)
  /-- PACER_LDK (R297). Pacer ldk loads a coefficient's CONTENT. -/
  | pacerLdk (n : Fin 16)
  /-- PACER_MOV (R297). Pacer mov copies a register. -/
  | pacerMov (n : Fin 16)
  /-- PACER_ADD (R297). Pacer add adds with saturation. -/
  | pacerAdd (n : Fin 16)
  /-- PACER_SUB (R297). Pacer sub subtracts with saturation. -/
  | pacerSub (n : Fin 16)
  /-- PACER_WSUB (R297). Pacer wsub subtracts modulo 2^32. -/
  | pacerWsub (n : Fin 16)
  /-- PACER_NEG (R297). Pacer neg negates. -/
  | pacerNeg (n : Fin 16)
  /-- PACER_ABS (R297). Pacer abs takes the magnitude. -/
  | pacerAbs (n : Fin 16)
  /-- PACER_MIN (R297). Pacer min takes the minimum. -/
  | pacerMin (n : Fin 16)
  /-- PACER_MAX (R297). Pacer max takes the maximum. -/
  | pacerMax (n : Fin 16)
  /-- PACER_MUL (R297). Pacer mul multiplies in Q32. -/
  | pacerMul (n : Fin 16)
  /-- PACER_SHIFT (R297). Pacer shift scales by a signed power of two. -/
  | pacerShift (n : Fin 16)
  /-- PACER_CLAMP (R297). Pacer clamp limits XD between XA and XB. -/
  | pacerClamp (n : Fin 16)
  /-- PACER_ACLR (R297). Pacer aclr clears the accumulator. -/
  | pacerAclr (n : Fin 16)
  /-- PACER_ALD (R297). Pacer ald loads the accumulator. -/
  | pacerAld (n : Fin 16)
  /-- PACER_MAC (R297). Pacer mac adds a coefficient product to the accumulator. -/
  | pacerMac (n : Fin 16)
  /-- PACER_MSU (R297). Pacer msu subtracts a coefficient product from the accumulator. -/
  | pacerMsu (n : Fin 16)
  /-- PACER_MACX (R297). Pacer macx adds a register product to the accumulator. -/
  | pacerMacx (n : Fin 16)
  /-- PACER_AST (R297). Pacer ast stores the scaled accumulator to a register. -/
  | pacerAst (n : Fin 16)
  /-- PACER_DIV (R297). Pacer div divides in 34 cycles. -/
  | pacerDiv (n : Fin 16)
  /-- PACER_SQRT (R297). Pacer sqrt takes the square root. -/
  | pacerSqrt (n : Fin 16)
  /-- PACER_SINCOS (R297). Pacer sincos writes the sine and cosine of a turn fraction. -/
  | pacerSincos (n : Fin 16)
  /-- PACER_HYST (R301). Pacer hyst runs a hysteresis unit on an error value. -/
  | pacerHyst (n : Fin 16)
  /-- PACER_BR (R299). Pacer br branches forward when its condition holds. -/
  | pacerBr (n : Fin 16)
  /-- PACER_SETF (R297). Pacer setf sets masked channel flags. -/
  | pacerSetf (n : Fin 16)
  /-- PACER_EVT (R297). Pacer evt adds 1 to the channel's event Tally. -/
  | pacerEvt (n : Fin 16)
  /-- ADMIT (R316). FUSION_ADMIT_CMD ADMIT assigns a stream and frame from staging, or is refused. -/
  | fusionAdmit (r : Requester)
  /-- RETIRE (R316). FUSION_ADMIT_CMD RETIRE frees a stream and discards its buffered samples. -/
  | retire (r : Requester) (k : Fin 64)
  /-- SAMPLE_INTAKE (R317). A Receipt post starts intake of a sample record into the Clearing buffer. -/
  | sampleIntake (k : Fin 64)
  /-- STREAM_DEPARTURE (R321). A stream with no intake for 8 periods becomes DEPARTED. -/
  | streamDeparture (k : Fin 64)
  /-- INSTANT_RELEASE (R323). A fusion instant is released when its streams are cleared or its LIMIT expires, writing and posting the set. -/
  | instantRelease
  /-- TRANSFORM_SWAP (R326). A write of FUSION_CTL.SWAP checks the inactive bank and makes it active, or sets CHAIN_ERR. -/
  | transformSwap (r : Requester) (v : W32)
  /-- FUSION_ENABLE (R324). A write of FUSION_CTL.EN 1 starts the Clearing buffer, or is refused for a hold-mode window. -/
  | fusionEnable (r : Requester) (v : W32)
  /-- TRACKER_ECC_ERROR (R336). A Tracker memory ECC error is corrected, or marks the track for deletion. -/
  | trackerEccError (slot : Fin 1024) (uncorrectable : Bool)
  /-- HURDLE_ENABLE (R339). A write of HURDLE_CTL.EN 1 resets the tree and advances the epoch, or is refused. -/
  | hurdleEnable (r : Requester) (src : Bool)
  /-- HURDLE_DISABLE (R353). A write of HURDLE_CTL.EN 0 abandons queued and running batches. -/
  | hurdleDisable (r : Requester) (src : Bool)
  /-- STOP_STRIDE_LOAD (R349). HURDLE_STOP_CMD LOAD copies the stop Stride record into the unit and verifies it. -/
  | stopStrideLoad (r : Requester) (index : BitVec 16)
  /-- BATCH_YIELD (R337). A running query batch yields at a sphere boundary to a higher-class batch. -/
  | batchYield
  /-- HURDLE_ECC_ERROR (R352). A voxel-cache or map read error sets TREE_BROKEN or SDF_BROKEN. -/
  | hurdleEccError (e : HurdleErr)
  /-- JUDGE_HEARTBEAT (R355). Each end of the cross-die link sends a heartbeat every 10 us. -/
  | judgeHeartbeat
  /-- LINK_LOSS (R355). No valid message for LINK_TMO marks the link lost and causes LINK. -/
  | linkLoss
  /-- ALIVE_TOGGLE (R355). The Lemquevin die toggles ALIVE every 20 us. -/
  | aliveToggle
  /-- ALIVE_LOSS (R355). No ALIVE toggle for 100 us makes the Reflex island assert STO channel B. -/
  | aliveLoss
  /-- COPY_FORWARD (R356). A copy-channel Receipt post forwards an input copy to the guard models. -/
  | copyForward (w : Fin 16) (rcpt : BitVec 19) (pa : BitVec 44) (len : Fin 4097) (lane : LaneId)
  /-- COPY_DROP (R356). A copy not sent within 100 us of its post is dropped. -/
  | copyDrop
  /-- MAIN_FRAME (R358). A judged output's source post is read, stamped and sent to the Judge as a main frame. -/
  | mainFrame (o : Fin 128)
  /-- GUARD_VALUE (R360). A guard model produces its value for an expected instant. -/
  | guardValue (o : Fin 128) (words : List W32)
  /-- OUTPUT_DEADLINE (R358). An expected instant's deadline passes with an arrival missing. -/
  | outputDeadline (o : Fin 128)
  /-- VERDICT_DELIVERY (R362). The chosen value reaches its mailbox, launch slot, Cue or safety-port slot. -/
  | verdictDelivery (o : Fin 128)
  /-- FALLBACK_RESTART_TIMEOUT (R365). An output not rejoined FB_MAX_MS after entry causes RESTART_TIMEOUT. -/
  | fallbackRestartTimeout
  /-- TASK_CHECKPOINT (R363). A supervised task's Receipt post is checked against MIN_US. -/
  | taskCheckpoint (t : Fin 32)
  /-- TASK_GAP_TIMEOUT (R363). A gap longer than MAX_US is a task violation. -/
  | taskGapTimeout (t : Fin 32)
  /-- STO_DISCREPANCY (R369). A readback differing from command, or channels differing for 10 ms, causes STO_FAULT. -/
  | stoDiscrepancy (g : Fin 4) (a b : Bool)
  /-- B_SIDE (R369). Channel B read back asserted without a Judge command causes B_SIDE. -/
  | bSide (g : Fin 4)
  /-- SS1_COMPLETE (R371). SS1 ends in STO on standstill or after SS1_MS. -/
  | ss1Complete (g : Fin 4) (standstill : Bool)
  /-- ESTOP_INPUT_CHANGE (R372). A filtered emergency-stop channel opens or closes. -/
  | estopInputChange (chB closed : Bool)
  /-- ESTOP_DISCREPANCY (R372). Emergency-stop channels differing beyond ESTOP_DISC_MS cause INPUT_FAULT. -/
  | estopDiscrepancy
  /-- TEST_PULSE (R372). The Lemquevin die pulses a test output low for 200 us every 10 ms. -/
  | testPulse (out : Fin 4) (seen : BitVec 4)
  /-- ENABLE_INPUT_CHANGE (R373). An enabling channel changes state, causing or releasing ENABLE. -/
  | enableInputChange (chB closed : Bool)
  /-- ENABLE_DISCREPANCY (R373). Enabling channels differing for 50 ms cause INPUT_FAULT. -/
  | enableDiscrepancy
  /-- SPORT_TIMEOUT (R364). No valid safety-port frame for SPORT_TMO causes SS1. -/
  | sportTimeout
  /-- VIN_WINDOW_TRIP (R448). The Lemquevin VIN window comparator trips and causes SUPPLY. -/
  | vinWindowTrip
  /-- LEMQUEVIN_FAULT (R364). A lockstep or memory error on the Lemquevin die causes JUDGE_FAULT and restarts the die. -/
  | lemquevinFault
  /-- AUDIT_FRAGMENT (R375). An Audit fragment starts on a Heat position or Sprint engine. -/
  | auditFragment (u : Fin 16)
  /-- AUDIT_STEP_COMPLETE (R377). An Audit step ends; a failure withdraws the tile or maps out the engine. -/
  | auditStepComplete (u : Fin 16) (fails : List Nat)
  /-- AUDIT_AGE_EXCEEDED (R376). A unit's age exceeds AUDIT_FTTI_US and it is withdrawn from SAFETY work. -/
  | auditAgeExceeded (k : Nat)
  /-- SPORT_FRAME (R441). A 128-byte safety-port frame is received and checked for CRC and sequence. -/
  | sportFrame (b : List Byte)
  /-- SPORT_NOP (R442). Safety-port NOP keeps the port alive. -/
  | sportNop (svc : Bool)
  /-- STATUS (R442). Safety-port STATUS returns Judge state and a page of output slots. -/
  | status (svc : Bool) (page : Byte)
  /-- STOP (R442). Safety-port STOP demands STO or SS1 for a group mask. -/
  | stop (svc : Bool) (mask kind : Byte)
  /-- RESET (R370). Safety-port RESET releases the groups whose release conditions hold. -/
  | reset (svc : Bool) (mask : Byte)
  /-- MODE (R442). Safety-port MODE sets or clears ENABLE_REQUIRED. -/
  | mode (svc : Bool) (v : Byte)
  /-- CFG_WRITE (R442). Safety-port CFG_WRITE fills the staging copy of the configuration. -/
  | cfgWrite (svc : Bool) (off : W32) (data : List Byte)
  /-- CFG_COMMIT (R378). Safety-port CFG_COMMIT applies a staged configuration, or refuses it. -/
  | cfgCommit (svc : Bool) (crc : W32)
  /-- CLEAR_COUNTS (R442). Safety-port CLEAR_COUNTS clears the JUDGE counters. -/
  | clearCounts (svc : Bool)
  /-- GUARD_BOOT (R383). When the J3 supply becomes valid, the Lemquevin die boots with every STO group asserted. -/
  | guardBoot
  /-- RAILS (R383). After SWJ_PG has been high for 10 ms, SWJ_POR_N is released. -/
  | rails (svc ep : Bool)
  /-- MINT (R387). Hardware reads and applies the Mint record, starts self-test and link training, and raises ISL_REL. -/
  | mint
  /-- SELF_TEST (R390). The hardware self-test completes and reports its results per unit. -/
  | selfTest (t : SelfTest)
  /-- DRAM_TRAIN (R394). Firmware trains or restores each DRAM channel, disabling failing ones. -/
  | dramTrain (failed full : BitVec 16)
  /-- DRAM_TEST (R383). A march test runs over DRAM. -/
  | dramTest (failed : BitVec 16) (sbe : List (Fin 16 × W32))
  /-- RETENTION (R399). Retention holds run with the NAND read-verify on the cold path. -/
  | retention (failed : BitVec 16) (sbe : List (Fin 16 × W32)) (bad : List (BitVec 28 × Bool))
  /-- SETTLE (R391). Firmware reconciles defects, binds the Field, loads the flash map, places regions and saves settings. -/
  | settle (rt : Option (Fin 4))
  /-- READY (R383). The Teller and Starter are enabled and the Field becomes usable. -/
  | ready (save ctl : W32)
  /-- NAND_TRAIN (R396). An ONFI channel trains at 2,400 or 1,600 MT/s, or is marked down. -/
  | nandTrain (ch : Fin 16) (rate : NandRate)
  /-- RELAY_LINK_TRAIN (R397). A Relay link trains its lanes and is up, degraded or down, retrying every 100 ms. -/
  | relayLinkTrain (l : Fin 4) (mask reach : Byte)
  /-- SWJ_PG_FALL (R402). SWJ_PG falls, SWJ_POR_N is asserted and SUPPLY latches. -/
  | swjPgFall
  /-- IMAGE_RECOVERY (R419). The boot ROM recovers an invalid image from the partner or service port and pulses SWJ_POR_N. -/
  | imageRecovery (partner : Bool) (ver : W32) (data : List Byte)
  /-- PLL_UNLOCK (R455). A PLL loses lock and its domains are held in reset until lock returns. -/
  | pllUnlock (k : Fin 12)
  /-- PAIR_FORM (R403). Two READY modules pair over the pair link and assign the duty. -/
  | pairForm (ready : Bool) (serial : W64) (pref duty : Bool)
  /-- PAIR_SYNCED (R403). The full copy of mirrored state ends and the pair reaches SYNCED. -/
  | pairSynced
  /-- PAIR_HEARTBEAT (R405). Each paired module sends a heartbeat with role, state and LOCAL Lanes every 10 us. -/
  | pairHeartbeat (alt : Bool) (rx : Option Heartbeat)
  /-- HEARTBEAT_LOSS (R413). Heartbeats are lost for HB_TMO on a path, possibly leading to takeover or SPLIT. -/
  | heartbeatLoss (alt : Bool)
  /-- MIRROR_RECORD_APPLY (R407). The standby applies a received mirror record at the same home address. -/
  | mirrorRecordApply (rec_ : MirrorRec)
  /-- CONTEXT_CHECKPOINT (R408). After the context's records are sent, its image is sent to the standby's escrow slot. -/
  | contextCheckpoint (c : CtxId)
  /-- DUTY_TAKEOVER (R412). With DUTY_IN low for 5 us and a yield, heartbeat loss or TAKE, the standby takes the duty. -/
  | dutyTakeover (yielded : Bool)
  /-- HANDOVER (R411). RELAY_PAIR_CMD HANDOVER yields the duty once the masked contexts are in lwrel. -/
  | handover (r : Requester)
  /-- TAKE (R411). RELAY_PAIR_CMD TAKE from a MINT holder makes the standby take the duty. -/
  | take (r : Requester)
  /-- LEAVE (R403). RELAY_PAIR_CMD LEAVE ends pairing. -/
  | leave (r : Requester)
  /-- RETRAIN (R414). RELAY_LINK_CTL RETRAIN retrains a Relay link while holding its traffic. -/
  | retrain (r : Requester) (l : Fin 4)
  /-- LINK_CRC_BURST (R414). More than 64 CRC errors within 1 ms start a retrain. -/
  | linkCrcBurst (l : Fin 4) (n : BitVec 16)
  /-- LINK_RETRAIN_COMPLETE (R414). Retraining ends and held traffic is resent. -/
  | linkRetrainComplete (l : Fin 4) (mask reach : Byte)
  /-- GROUP_SEND (R416). A SEND channel's Receipt post sends LEN bytes to a peer channel. -/
  | groupSend (c : Fin 16)
  /-- GROUP_RECV (R416). A group arrival is written, its Receipt posted and Tally added, or dropped when too long. -/
  | groupRecv (l : Fin 4) (dest : Fin 8) (c : Fin 16) (data : List Byte)
  /-- IMG_WRITE (R418). RELAY_IMG_CMD WRITE writes a new image from the service port. -/
  | imgWrite (r : Requester)
  /-- IMG_FETCH (R418). RELAY_IMG_CMD FETCH writes the image from the partner's shadow. -/
  | imgFetch (r : Requester)
  /-- ACTIVATE (R418). RELAY_IMG_CMD ACTIVATE copies the image into the shadow and requests a safe-state reset. -/
  | activate (r : Requester)
  /-- IMAGE_WRITE_COMPLETE (R418). Image writing ends in WRITTEN with CRC_OK or an error. -/
  | imageWriteComplete (e : ImageEnd)
  /-- CSI_PACKET (R425). A CSI-2 packet of a configured camera is received, checked and written. -/
  | csiPacket (k : Fin 8) (p : CsiPacket)
  /-- FRAME_RECEIPT_POST (R426). After a frame ends, the front end posts its Receipt and adds to its Tally, or drops it. -/
  | frameReceiptPost (k : Fin 8)
  /-- BRIDGE_FRAME_RECEIVE (R428). A frame arriving on a bridge port is filtered, forwarded, corrected if PTP, and fills receive buffers. -/
  | bridgeFrameReceive (p : Fin 5) (data : List Byte) (launch : Option W64) (res : W64)
  /-- LEARNING_AGE_OUT (R428). A learning-table entry expires after 300 s. -/
  | learningAgeOut (mac : BitVec 48) (vid : BitVec 12)
  /-- GATE_LIST_ADVANCE (R428). A port's time-aware gate list moves to its next entry. -/
  | gateListAdvance (p : Fin 4)
  /-- STREAM_GATE_ADVANCE (R444). A stream gate moves to its next list entry. -/
  | streamGateAdvance (g : Fin 32)
  /-- RECOVERY_RESET (R444). An 802.1CB recovery resets after RESET_MS without frames. -/
  | recoveryReset (r : Fin 32)
  /-- BUS_WRITE (R431). A slow-bus WRITE command writes bytes to a target. -/
  | busWrite (b : Fin 6) (ok : Bool)
  /-- BUS_READ (R431). A slow-bus READ command reads bytes into BUS_RX. -/
  | busRead (b : Fin 6) (res : Option (List Byte))
  /-- ENTDAA (R431). An I3C ENTDAA command assigns dynamic addresses. -/
  | entdaa (b : Fin 6) (addrs : List (Fin 128))
  /-- BUS_STOP (R431). A STOP command ends the transfer or releases the chip select. -/
  | busStop (b : Fin 6)
  /-- BUS_RX_READ (R431). A read of BUS_RX pops one word. -/
  | busRxRead (r : Requester) (b : Fin 6)
  /-- IN_BAND_INTERRUPT (R431). An I3C in-band interrupt is delivered to BUS_RX. -/
  | inBandInterrupt (b : Fin 4) (addr : Fin 128) (data : List Byte)
  /-- HOT_JOIN (R439). An I3C Hot-Join is accepted with ENTDAA or refused with DISEC. -/
  | hotJoin (b : Fin 4) (addr : Fin 128)
  /-- COMMAND_READ (R436). A READ command frame returns data in aligned atomic units. -/
  | commandRead (path : Fin 9) (tag : W16) (addr : W64) (len : W32)
  /-- COMMAND_WRITE (R436). A WRITE command frame writes data in aligned atomic units. -/
  | commandWrite (path : Fin 9) (tag : W16) (addr : W64) (data : List Byte)
  /-- FUSE (R387). A FUSE command frame programs ADDED entries of the Mint record. -/
  | fuse (path : Fin 9) (tag : W16) (entries : List W16)
  /-- IMAGE (R436). An IMAGE command frame supplies image data to IMG_WRITE. -/
  | image (path : Fin 9) (tag : W16) (data : List Byte)
  /-- INCIDENT (R436). An INCIDENT command frame reads incident records over the always-on path. -/
  | incident (path : Fin 9) (tag : W16) (addr : W64) (len : W32)
  /-- JUDGE (R436). A JUDGE command frame carries one safety-port frame to the Judge and returns its reply. -/
  | judge (path : Fin 9) (tag : W16) (data : List Byte)
  /-- HPD_QUALIFIED (R437). A debounced HPD edge sets ARRIVED or DEPARTED, adds to the Tally and may depart a camera. -/
  | hpdQualified (n : Fin 16) (up : Bool)
  /-- POWER_SAMPLE (R451). Input power is sampled every 10 us and the cap controller applies or releases reductions. -/
  | powerSample (w : BitVec 16) (gap : W32)
  /-- CAP_UNMET (R452). The average stays above the cap for 10 ms with every reduction at its floor. -/
  | capUnmet (unreducible : Bool)
  /-- TEMP_SAMPLE (R454). Temperature sensors are read every 1 ms, tripping at 115 C. -/
  | tempSample (raw : List (BitVec 10))
  /-- THERMAL_LIMIT_STEP (R454). Every 10 ms the thermal limit falls or rises by 5 W. -/
  | thermalLimitStep
  /-- DROOP_TRIP (R449). A droop sensor trips and FIELD_CLK cycles are lengthened. -/
  | droopTrip (n : Fin 64)
  /-- SET_COLD_NEXT (R464). SYS_MINT_CMD SET_COLD_NEXT sets COLD_NEXT in the saved settings. -/
  | setColdNext (r : Requester)
  /-- CLEAR_LEARNED (R464). SYS_MINT_CMD CLEAR_LEARNED empties the learned list. -/
  | clearLearned (r : Requester)
  /-- FUSE_LEARNED (R464). SYS_MINT_CMD FUSE_LEARNED programs learned entries into ADDED. -/
  | fuseLearned (r : Requester)
  /-- MINT_COMMAND_COMPLETE (R464). A Mint command ends and BUSY clears. -/
  | mintCommandComplete (fail : Bool)
  /-- CLEAR_ALL (R468). SYS_INC_CMD CLEAR_ALL clears every counter and record. -/
  | clearAll (r : Requester)
  /-- CLEAR_ONE (R468). SYS_INC_CMD CLEAR_ONE clears one counter and its records. -/
  | clearOne (r : Requester) (n : Fin 16)
  /-- CLEAR_NOTES (R468). SYS_INC_CMD CLEAR_NOTES clears the note ring. -/
  | clearNotes (r : Requester)
  /-- INCIDENT_RECORD_READ (R466). A 64-bit read of word 0 of a record latches words 1 to 3 for the reader. -/
  | incidentRecordRead (r : Requester) (rec_ : Fin 90)
  /-- READ_CLEAR (R14). A read of a register field of access RC returns its value and then clears it. -/
  | readClear (r : Requester) (off : BitVec 24) (w : Width)
  /-- RESERVED_ENCODING (R94). A Marshal issues a reserved Noves encoding, which faults ILLEGAL_OP, or is a no-op under a false predicate. -/
  | reservedEncoding (c : CtxId) (word : W128)
  /-- ALWAYS_ON_POWER_ON (R458). VAO becomes valid and the always-on fabric leaves its own power-on reset, starting SYS_UPTIME, Lane 15 and the SYS block. -/
  | alwaysOnPowerOn
  /-- VLQ_LOSS (R367). Loss of the VLQ supply de-energises the STO outputs it feeds and stops the Lemquevin die. -/
  | vlqLoss
  /-- VIO_DRIVE_CHANGE (R446). VIO_DRIVE rises or falls, and the PWM outputs leave or enter high impedance. -/
  | vioDriveChange (up : Bool)
  /-- PWM_COMPARE_MATCH (R305). A bridge carrier counter crosses a phase compare value, switching the command level with dead time and minimum pulse applied. -/
  | pwmCompareMatch (b : Fin 12) (phase : Fin 3)
  /-- DROOP_RECOVER (R449). The last tripped droop sensor clears and FIELD_CLK cycles return to full length. -/
  | droopRecover (n : Fin 64) (cycles : W64) (worst : Fin 1025)
  /-- PLL_RELOCK (R455). A PLL regains lock and the domains it held in reset are released. -/
  | pllRelock (k : Fin 12)
  /-- PCIE_LINK_CHANGE (R398). The PCIe link trains, downtrains or goes down, updating PORT_PCIE_STAT and counting LINK_DEGRADED. -/
  | pcieLinkChange (width : Fin 9) (rate : Fin 6) (partner : Bool)
  /-- ETH_LINK_CHANGE (R398). An Ethernet port links or loses its link, updating NET_PORT_CNT.LINK. -/
  | ethLinkChange (p : Fin 4) (up partner : Bool)
  /-- DUTY_IN_FALL (R413). The partner's DUTY_OUT line falls at DUTY_IN, setting LINE_FAULT when heartbeats arrive without a YIELD. -/
  | dutyInFall
  /-- STO_TEST_OVERDUE (R381). A group not demanded into STO within STO_TEST_H hours sets JUDGE_STAT.STO_TEST_DUE. -/
  | stoTestOverdue (g : Fin 4)
  deriving DecidableEq, Repr

end Sys2Proof
end

