-- ==== Sys2Proof/Decode.lean ====
section
/-!
DEFINITION. The command a table word spells. No row of the opcode table gives bits (the block has no decoder of its
own for commands), so no word spells one.
-/

namespace Sys2Proof

/-- The command a word of some bits spells by the table: none, since the table gives its rows no bits. -/
def decodeTableWord (_nbits _w : Nat) : Option Instr := none

end Sys2Proof
end

