-- ==== Sys2Proof/Machine/Flags.lean ====
section
/-!
DEFINITION. The results of the scalar arithmetic and compare instructions (R71, R98): the value an ALU sub-opcode
writes to SD, and the predicate a compare writes to PD.
-/

namespace Sys2Proof.Machine

open Sys2Proof

/-- Division by zero gives all ones (R71); the signed quotient rounds toward zero (R98). -/
def divS (a b : W64) : W64 :=
  if b = 0 then BitVec.allOnes 64 else BitVec.ofInt 64 (a.toInt.tdiv b.toInt)

/-- Unsigned division (R71, R98). -/
def divU (a b : W64) : W64 := if b = 0 then BitVec.allOnes 64 else a / b

/-- The signed remainder takes the sign of the dividend; by zero it is the dividend (R71, R98). -/
def remS (a b : W64) : W64 := if b = 0 then a else BitVec.ofInt 64 (a.toInt.tmod b.toInt)

/-- The unsigned remainder (R71, R98). -/
def remU (a b : W64) : W64 := if b = 0 then a else a % b

/-- The value an arithmetic sub-opcode writes to SD (Table 4-5). -/
def aluVal (m : Mn) (a b : W64) : W64 :=
  match m with
  | .add => a + b
  | .sub => a - b
  | .and => a &&& b
  | .or => a ||| b
  | .xor => a ^^^ b
  | .shl => a <<< (b.toNat % 64)
  | .shr => a >>> (b.toNat % 64)
  | .sra => a.sshiftRight (b.toNat % 64)
  | .mul => a * b
  | .mulhs => BitVec.ofInt 64 (a.toInt * b.toInt / 2 ^ 64)
  | .mulhu => BitVec.ofNat 64 (a.toNat * b.toNat / 2 ^ 64)
  | .div => divS a b
  | .divu => divU a b
  | .rem => remS a b
  | .remu => remU a b
  | .min => if a.toInt ≤ b.toInt then a else b
  | .max => if a.toInt ≤ b.toInt then b else a
  | .minu => if a.toNat ≤ b.toNat then a else b
  | .maxu => if a.toNat ≤ b.toNat then b else a
  | _ => b

/-- The predicate a compare writes to PD (Table 4-5, R41). -/
def cmpVal (m : Mn) (a b : W64) : Bool :=
  match m with
  | .cmpEq => a == b
  | .cmpNe => a != b
  | .cmpLt => decide (a.toInt < b.toInt)
  | .cmpLtu => decide (a.toNat < b.toNat)
  | .cmpGe => decide (b.toInt ≤ a.toInt)
  | .cmpGeu => decide (b.toNat ≤ a.toNat)
  | .cmpLat => decide (0 < (a - b).toInt)
  | _ => b.getLsbD 0

end Sys2Proof.Machine
end

