-- ==== Sys2Proof/Machine/NovesCodec.lean ====
section
/-!
DEFINITION. The 128-bit word of a Noves instruction (04): major and sub-opcodes, the fields of the six formats, which
fields each sub-opcode uses, and an encoder and decoder between words and instructions.
-/

namespace Sys2Proof.Machine

open Sys2Proof

/-- MAJOR and SUB of a mnemonic (Tables 4-2, 4-5 to 4-11, 4-14, 4-17, 4-19 to 4-21). -/
def opcodeOf : Mn → Nat × Nat
  | .add => (0x01, 0x00) | .sub => (0x01, 0x01) | .and => (0x01, 0x02) | .or => (0x01, 0x03) | .xor => (0x01, 0x04)
  | .shl => (0x01, 0x05) | .shr => (0x01, 0x06) | .sra => (0x01, 0x07) | .mul => (0x01, 0x08)
  | .mulhs => (0x01, 0x09) | .mulhu => (0x01, 0x0A) | .div => (0x01, 0x0B) | .divu => (0x01, 0x0C)
  | .rem => (0x01, 0x0D) | .remu => (0x01, 0x0E) | .min => (0x01, 0x0F) | .max => (0x01, 0x10)
  | .minu => (0x01, 0x11) | .maxu => (0x01, 0x12) | .mov => (0x01, 0x13)
  | .cmpEq => (0x01, 0x18) | .cmpNe => (0x01, 0x19) | .cmpLt => (0x01, 0x1A) | .cmpLtu => (0x01, 0x1B)
  | .cmpGe => (0x01, 0x1C) | .cmpGeu => (0x01, 0x1D) | .cmpLat => (0x01, 0x1E) | .pset => (0x01, 0x20)
  | .pget => (0x01, 0x21)
  | .ldu8 => (0x02, 0x00) | .ldu16 => (0x02, 0x01) | .ldu32 => (0x02, 0x02) | .ld64 => (0x02, 0x03)
  | .lds8 => (0x02, 0x04) | .lds16 => (0x02, 0x05) | .lds32 => (0x02, 0x06)
  | .st8 => (0x02, 0x08) | .st16 => (0x02, 0x09) | .st32 => (0x02, 0x0A) | .st64 => (0x02, 0x0B)
  | .nop => (0x03, 0x00) | .qry => (0x03, 0x01) | .fence => (0x03, 0x02) | .trap => (0x03, 0x03)
  | .br => (0x08, 0x00) | .call => (0x08, 0x01) | .jmp => (0x08, 0x02) | .loop => (0x08, 0x03) | .exit => (0x08, 0x04)
  | .dld => (0x0C, 0x00) | .dst => (0x0C, 0x01) | .dcpy => (0x0C, 0x02) | .dset => (0x0C, 0x03)
  | .dget => (0x0C, 0x04) | .dadd => (0x0C, 0x05)
  | .kmatmul => (0x10, 0x00) | .kconv => (0x10, 0x01) | .kpool => (0x10, 0x02) | .kattn => (0x10, 0x03)
  | .kscan => (0x10, 0x04) | .kcell => (0x10, 0x05) | .kreduce => (0x10, 0x06)
  | .kact => (0x11, 0x00) | .keltw => (0x11, 0x01) | .knorm => (0x11, 0x02) | .ksoftmax => (0x11, 0x03)
  | .kgates => (0x11, 0x04) | .kargmax => (0x11, 0x05) | .kcvt => (0x11, 0x06)
  | .ksconv => (0x12, 0x00) | .ksmatmul => (0x12, 0x01) | .ksargmax => (0x12, 0x02) | .ksreflex => (0x12, 0x03)
  | .khquery => (0x13, 0x00) | .khstride => (0x13, 0x01) | .khfinish => (0x13, 0x02) | .khmap => (0x13, 0x03)
  | .kfxform => (0x14, 0x00) | .kfego => (0x14, 0x01) | .kftrack => (0x14, 0x02)
  | .mcopy => (0x18, 0x00) | .mfill => (0x18, 0x01) | .mraise => (0x18, 0x02) | .mdrop => (0x18, 0x03)
  | .mpace => (0x18, 0x04) | .menter => (0x18, 0x05)
  | .tadd => (0x1C, 0x00) | .tsub => (0x1C, 0x01) | .twait => (0x1C, 0x02) | .tread => (0x1C, 0x03)
  | .tarrive => (0x1C, 0x04) | .tbarwait => (0x1C, 0x05)
  | .lread => (0x1D, 0x00) | .lwait => (0x1D, 0x01) | .lwrel => (0x1D, 0x02) | .larm => (0x1D, 0x03)
  | .ldisarm => (0x1D, 0x04)
  | .rread => (0x1E, 0x00) | .rcoll => (0x1E, 0x01) | .rpost => (0x1E, 0x02) | .rwait => (0x1E, 0x03)

/-- Every mnemonic of the tables. -/
def allMns : List Mn :=
  [.add, .sub, .and, .or, .xor, .shl, .shr, .sra, .mul, .mulhs, .mulhu, .div, .divu, .rem, .remu, .min, .max, .minu,
   .maxu, .mov, .cmpEq, .cmpNe, .cmpLt, .cmpLtu, .cmpGe, .cmpGeu, .cmpLat, .pset, .pget] ++
  [.ldu8, .ldu16, .ldu32, .ld64, .lds8, .lds16, .lds32, .st8, .st16, .st32, .st64, .nop, .qry, .fence, .trap,
   .br, .call, .jmp, .loop, .exit, .dld, .dst, .dcpy, .dset, .dget, .dadd] ++
  [.kmatmul, .kconv, .kpool, .kattn, .kscan, .kcell, .kreduce, .kact, .keltw, .knorm, .ksoftmax, .kgates, .kargmax,
   .kcvt, .ksconv, .ksmatmul, .ksargmax, .ksreflex, .khquery, .khstride, .khfinish, .khmap, .kfxform, .kfego,
   .kftrack] ++
  [.mcopy, .mfill, .mraise, .mdrop, .mpace, .menter, .tadd, .tsub, .twait, .tread, .tarrive, .tbarwait, .lread,
   .lwait, .lwrel, .larm, .ldisarm, .rread, .rcoll, .rpost, .rwait]

/-- The mnemonic of a major and a sub-opcode, none where either is reserved (R92, R94). -/
def mnOf (major sub : Nat) : Option Mn := allMns.find? fun m => opcodeOf m == (major, sub)

/-- The formats of Table 4-2. -/
inductive Fmt where
  | s | b | d | k | m | y
  deriving DecidableEq, Repr

/-- The format of a mnemonic: fixed by its major opcode (Table 4-2). -/
def fmtOf (m : Mn) : Fmt :=
  match (opcodeOf m).1 with
  | 0x01 | 0x02 | 0x03 => .s
  | 0x08 => .b
  | 0x0C => .d
  | 0x18 => .m
  | 0x1C | 0x1D | 0x1E => .y
  | _ => .k

/-- The format the operands belong to. -/
def NOps.fmt : NOps → Fmt
  | .s _ => .s | .b _ => .b | .d _ => .d | .k _ => .k | .m _ => .m | .y _ => .y

/-- A Boolean as a bit. -/
def bit (b : Bool) : Nat := if b then 1 else 0

/-- Bits [107:0] of a word: the flags and operand fields (Tables 4-3, 4-4, 4-8, 4-10, 4-13, 4-16, 4-18). -/
def encOps : NOps → Nat
  | .s o => 2 ^ 100 * bit o.immSel + 2 ^ 95 * o.sd.val + 2 ^ 90 * o.sa.val + 2 ^ 85 * o.sb.val + 2 ^ 82 * o.pd.val
      + o.imm.toNat
  | .b o => 2 ^ 95 * o.sd.val + 2 ^ 90 * o.sa.val + o.off.toNat
  | .d o => 2 ^ 100 * bit o.immSel + 2 ^ 94 * o.dd.val + 2 ^ 88 * o.da.val + 2 ^ 83 * o.sd.val + 2 ^ 78 * o.sa.val
      + 2 ^ 72 * o.fsel.val + o.imm.toNat
  | .k o => 2 ^ 100 * (bit o.tally + bit o.rcpt * 2 + bit o.accum * 4 + bit o.cplx * 8) + 2 ^ 94 * o.dO.val
      + 2 ^ 88 * o.dA.val + 2 ^ 82 * o.dB.val + 2 ^ 76 * o.dC.val + 2 ^ 64 * o.vt.val + 2 ^ 59 * o.sr.val
      + 2 ^ 54 * o.sp.val + 2 ^ 50 * o.rnd.val + o.imm.toNat
  | .m o => 2 ^ 100 * (bit o.tally + bit o.rcpt * 2 + bit o.tier * 4) + 2 ^ 94 * o.dd.val + 2 ^ 88 * o.ds.val
      + 2 ^ 76 * o.vt.val + 2 ^ 71 * o.sr.val + 2 ^ 66 * o.sa.val + o.imm.toNat
  | .y o => 2 ^ 100 * (bit o.immSel + bit o.rl * 2 + bit o.deadline * 4) + 2 ^ 88 * o.vt.val + 2 ^ 85 * o.pd.val
      + 2 ^ 80 * o.sd.val + 2 ^ 75 * o.sa.val + 2 ^ 70 * o.sb.val + 2 ^ 65 * o.sc.val + 2 ^ 61 * o.lane.val
      + o.imm.toNat

/-- The word of an instruction (Table 4-1). -/
def encodeN (w : NWord) : W128 :=
  BitVec.ofNat 128 (2 ^ 120 * (opcodeOf w.mn).1 + 2 ^ 112 * (opcodeOf w.mn).2 + 2 ^ 111 * bit w.neg
    + 2 ^ 108 * w.sel.val + encOps w.ops)

/-- A field of a word. -/
def wf (v lo len : Nat) : Nat := v / 2 ^ lo % 2 ^ len

/-- A field as a number below a bound of two's power. -/
def wfin (v lo : Nat) (n : Nat) [NeZero n] : Fin n := Fin.ofNat n (v / 2 ^ lo)

/-- The operands of a word, by format; none where a reserved flag or operand bit is 1 (R94). -/
def decOps (f : Fmt) (v : Nat) : Option NOps :=
  match f with
  | .s => if wf v 101 7 = 0 ∧ wf v 64 18 = 0 then
      some (.s ⟨wfin v 95 32, wfin v 90 32, wfin v 85 32, wfin v 82 8, wf v 100 1 == 1, BitVec.ofNat 64 v⟩) else none
  | .b => if wf v 100 8 = 0 ∧ wf v 64 26 = 0 then
      some (.b ⟨wfin v 95 32, wfin v 90 32, BitVec.ofNat 64 v⟩) else none
  | .d => if wf v 101 7 = 0 ∧ wf v 64 8 = 0 then
      some (.d ⟨wfin v 94 64, wfin v 88 64, wfin v 83 32, wfin v 78 32, wfin v 72 64, wf v 100 1 == 1,
        BitVec.ofNat 64 v⟩) else none
  | .k => if wf v 104 4 = 0 ∧ wf v 32 18 = 0 then
      some (.k ⟨wfin v 94 64, wfin v 88 64, wfin v 82 64, wfin v 76 64, wfin v 64 4096, wfin v 59 32, wfin v 54 32,
        wfin v 50 16, wf v 100 1 == 1, wf v 101 1 == 1, wf v 102 1 == 1, wf v 103 1 == 1, BitVec.ofNat 32 v⟩) else none
  | .m => if wf v 103 5 = 0 ∧ wf v 64 2 = 0 then
      some (.m ⟨wfin v 94 64, wfin v 88 64, wfin v 76 4096, wfin v 71 32, wfin v 66 32, wf v 100 1 == 1,
        wf v 101 1 == 1, wf v 102 1 == 1, BitVec.ofNat 64 v⟩) else none
  | .y => if wf v 103 5 = 0 ∧ wf v 32 29 = 0 then
      some (.y ⟨wfin v 88 4096, wfin v 85 8, wfin v 80 32, wfin v 75 32, wfin v 70 32, wfin v 65 32, wfin v 61 16,
        wf v 100 1 == 1, wf v 101 1 == 1, wf v 102 1 == 1, BitVec.ofNat 32 v⟩) else none

/-- The instruction a word spells; none where MAJOR or SUB is reserved or a reserved bit is 1 (R91 to R94). -/
def decodeN (w : W128) : Option NWord :=
  let v := w.toNat
  match mnOf (wf v 120 8) (wf v 112 8) with
  | none => none
  | some m =>
    match decOps (fmtOf m) v with
    | none => none
    | some o => some ⟨wf v 111 1 == 1, wfin v 108 8, m, o⟩

/-! ### Fields a sub-opcode does not use (R94) -/

/-- Whether a Field, gate or Sprint kernel accepts ACCUM, COMPLEX (Table 4-14). -/
def takesAccum : Mn → Bool
  | .kmatmul | .kconv | .kreduce | .ksconv | .ksmatmul => true
  | _ => false

/-- Whether a kernel accepts COMPLEX (Table 4-14). -/
def takesCplx : Mn → Bool
  | .kmatmul | .kconv => true
  | _ => false

/-- SP of a kernel (Table 4-14). -/
inductive SpUse where
  | none | optional | required
  deriving DecidableEq, Repr

/-- The parameter block of a kernel (Table 4-14). -/
def spUse : Mn → SpUse
  | .kmatmul | .kconv | .kpool | .kreduce | .kact | .knorm | .ksoftmax | .ksconv | .ksmatmul => .optional
  | .kattn | .kscan | .kcell | .kgates | .ksreflex | .khquery | .khstride | .khfinish | .khmap | .kfego | .kftrack =>
    .required
  | _ => .none

/-- Which of DO, DA, DB, DC a kernel takes (Table 4-14), optional ones included. -/
def kOperands : Mn → Bool × Bool × Bool × Bool
  | .kmatmul | .kconv | .kattn | .kscan | .kcell | .knorm | .ksconv | .ksmatmul => (true, true, true, true)
  | .keltw | .kgates => (true, true, true, false)
  | .khmap => (false, true, false, false)
  | _ => (true, true, false, false)

/-- Which of DO, DA, DB, DC may be absent when its field is 0 (Table 4-14, R96). -/
def kOptional : Mn → Bool × Bool × Bool × Bool
  | .kmatmul | .kconv | .kscan | .kcell | .ksconv | .ksmatmul => (false, false, false, true)
  | .knorm => (false, false, true, true)
  | .kftrack => (false, true, false, false)
  | _ => (false, false, false, false)

/-- Reserved use of FMT_S: an unused field or flag is not 0. -/
def badS (m : Mn) (o : OpS) : Bool :=
  let z5 := fun (f : Fin 32) => f.val == 0
  let b := if o.immSel then z5 o.sb else o.imm == 0
  !(match m with
  | .cmpEq | .cmpNe | .cmpLt | .cmpLtu | .cmpGe | .cmpGeu | .cmpLat => z5 o.sd && b
  | .mov => z5 o.sa && o.pd.val == 0 && b
  | .pset => z5 o.sa && z5 o.sd && b
  | .pget => z5 o.sa && z5 o.sb && o.pd.val == 0 && !o.immSel && o.imm == 0
  | .ldu8 | .ldu16 | .ldu32 | .ld64 | .lds8 | .lds16 | .lds32 => z5 o.sb && o.pd.val == 0 && !o.immSel
  | .st8 | .st16 | .st32 | .st64 => z5 o.sd && o.pd.val == 0 && !o.immSel
  | .nop => z5 o.sd && z5 o.sa && z5 o.sb && o.pd.val == 0 && !o.immSel && o.imm == 0
  | .qry => z5 o.sa && z5 o.sb && o.pd.val == 0 && !o.immSel
  | .fence | .trap => z5 o.sd && z5 o.sa && z5 o.sb && o.pd.val == 0 && !o.immSel
  | _ => o.pd.val == 0 && b)

/-- Reserved use of FMT_B. -/
def badB (m : Mn) (o : OpB) : Bool :=
  !(match m with
  | .br => o.sd.val == 0 && o.sa.val == 0
  | .call => o.sa.val == 0
  | .jmp | .loop => o.sd.val == 0
  | _ => o.sd.val == 0 && o.sa.val == 0 && o.off == 0)

/-- Reserved use of FMT_D. -/
def badD (m : Mn) (o : OpD) : Bool :=
  let v := if o.immSel then o.sa.val == 0 else o.imm == 0
  !(match m with
  | .dld => o.da.val == 0 && o.sd.val == 0 && o.fsel.val == 0 && !o.immSel
  | .dst => o.dd.val == 0 && o.sd.val == 0 && o.fsel.val == 0 && !o.immSel
  | .dcpy => o.sd.val == 0 && o.sa.val == 0 && o.fsel.val == 0 && !o.immSel && o.imm == 0
  | .dset => o.da.val == 0 && o.sd.val == 0 && v
  | .dget => o.dd.val == 0 && o.sa.val == 0 && !o.immSel && o.imm == 0
  | _ => o.da.val == 0 && o.sd.val == 0 && o.fsel.val == 0 && v)

/-- Reserved use of FMT_K (R103, R104). -/
def badK (m : Mn) (o : OpK) : Bool :=
  let (uO, uA, uB, uC) := kOperands m
  !((uO || o.dO.val == 0) && (uA || o.dA.val == 0) && (uB || o.dB.val == 0) && (uC || o.dC.val == 0)
    && (o.tally || o.vt.val == 0) && (o.rcpt || o.sr.val == 0) && (spUse m != .none || o.sp.val == 0)
    && (takesAccum m || !o.accum) && (takesCplx m || !o.cplx))

/-- Reserved use of FMT_M (R107). -/
def badM (m : Mn) (o : OpM) : Bool :=
  !((o.tally || o.vt.val == 0) && (o.rcpt || o.sr.val == 0) && (m == .mraise || !o.tier)
    && (match m with
      | .mcopy => o.sa.val == 0 && o.imm == 0
      | .mfill => o.ds.val == 0 && o.sa.val == 0
      | .mraise | .mdrop => o.dd.val == 0 && o.ds.val == 0
      | .mpace => o.dd.val == 0 && o.ds.val == 0 && o.imm == 0
      | _ => o.dd.val == 0 && o.imm == 0))

/-- Reserved use of FMT_Y (R108). -/
def badY (m : Mn) (o : OpY) : Bool :=
  let n := if o.immSel then o.sa.val == 0 else o.imm == 0
  let noN := !o.immSel && o.imm == 0
  let rl := fun (ok : Bool) => ok || !o.rl
  let dl := fun (ok : Bool) => if o.deadline then ok else o.sb.val == 0 && o.lane.val == 0
  let z := fun (f : Fin 32) => f.val == 0
  !(match m with
  | .tadd | .tsub => z o.sd && o.pd.val == 0 && z o.sc && n && dl false
  | .twait => z o.sc && n && rl false && dl true
  | .tread => o.pd.val == 0 && z o.sa && z o.sc && noN && rl false && dl false
  | .tarrive => o.pd.val == 0 && z o.sd && z o.sa && z o.sc && noN && dl false
  | .tbarwait => z o.sa && z o.sc && noN && dl true
  | .lread => o.vt.val == 0 && o.pd.val == 0 && z o.sa && z o.sb && z o.sc && noN && rl false && !o.deadline
  | .lwait => o.vt.val == 0 && z o.sb && z o.sc && noN && rl false && !o.deadline
  | .lwrel => o.vt.val == 0 && z o.sa && z o.sc && noN && rl false && dl true
  | .larm => o.vt.val == 0 && o.pd.val == 0 && z o.sb && noN && rl false && !o.deadline
  | .ldisarm => o.vt.val == 0 && o.pd.val == 0 && z o.sa && noN && rl false && dl false
  | .rread | .rcoll => o.vt.val == 0 && o.pd.val == 0 && z o.sc && noN && rl false && dl false
  | .rpost => o.vt.val == 0 && o.pd.val == 0 && z o.sd && z o.sc && noN && dl false
  | _ => o.vt.val == 0 && noN && rl false && dl true)

/-- The encoding of an instruction is reserved though its bits are all of fields (R94). -/
def reservedUse (w : NWord) : Bool :=
  match w.ops with
  | .s o => badS w.mn o
  | .b o => badB w.mn o
  | .d o => badD w.mn o
  | .k o => badK w.mn o
  | .m o => badM w.mn o
  | .y o => badY w.mn o

/-- A word whose encoding is reserved (R94). -/
def reservedWord (w : W128) : Bool :=
  match decodeN w with
  | none => true
  | some n => reservedUse n

end Sys2Proof.Machine
end

