-- ==== Sys2Proof/Config.lean ====
section
/-!
DEFINITION. The free values of the model: what the spec leaves open after a step that goes on (R9). Each is an
opaque function of a counter held in State and of the place it is used at, so nothing can be proved of its value.
-/

namespace Sys2Proof

/-- A 64-bit value the spec leaves open (assumption 2): the counter of the step, and an index within it. -/
opaque Config.freeWord : Nat → Nat → W64

/-- A choice between two outcomes the spec allows (assumption 2). -/
opaque Config.freeBit : Nat → Nat → Bool

/-- A natural number the spec leaves open, for example a measured count (assumption 2). -/
opaque Config.freeNat : Nat → Nat → Nat

/-- What FP32 evaluation in an order the spec leaves open makes of a formula whose evaluation in one order gives the last
argument (R333; assumption 2). -/
opaque Config.filterWord : Nat → Nat → W32 → W32

/-- What a Vault byte holds after the safe-state reset of that count lost it (R23; assumption 3). -/
opaque Config.lostByte : Nat → Nat → Byte

/-- The address that NET_MAC takes from a SERIAL (18; assumption 2). -/
opaque Config.macOf : W64 → W64

end Sys2Proof
end

