-- ==== Sys2Proof/Machine/Maps.lean ====
section
/-!
DEFINITION. Sparse maps: lists of (key, value) pairs in one canonical form. Keys rise strictly
and no entry equals what an unlisted key reads as, so equal maps are equal lists.
-/

namespace Sys2Proof.Machine

/-- A sparse map from numbers; what an unlisted key reads as is a separate default function. -/
abbrev Map (α : Type) := List (Nat × α)

/-- Read: the first entry of the key, or the default. -/
def mget {α : Type} (d : Nat → α) : Map α → Nat → α
  | [], k => d k
  | (a, x) :: t, k => if k = a then x else mget d t k

/-- Insert in key order, replacing an entry of the same key. -/
def mins {α : Type} : Map α → Nat → α → Map α
  | [], k, v => [(k, v)]
  | (a, x) :: t, k, v =>
    if k < a then (k, v) :: (a, x) :: t
    else if k = a then (k, v) :: t
    else (a, x) :: mins t k v

/-- Remove every entry of a key. -/
def mdel {α : Type} : Map α → Nat → Map α
  | [], _ => []
  | (a, x) :: t, k => if a = k then mdel t k else (a, x) :: mdel t k

/-- Write: an entry equal to the default is removed, so the map stays canonical. -/
def mset {α : Type} [DecidableEq α] (d : Nat → α) (m : Map α) (k : Nat) (v : α) : Map α :=
  if v = d k then mdel m k else mins m k v

/-- The canonical form: keys rise strictly above `lo`, and no entry equals the default. -/
def mwfFrom {α : Type} [DecidableEq α] (d : Nat → α) : Nat → Map α → Bool
  | _, [] => true
  | lo, (a, x) :: t => decide (lo ≤ a) && !decide (x = d a) && mwfFrom d (a + 1) t

/-- A map is in canonical form. -/
def mwf {α : Type} [DecidableEq α] (d : Nat → α) (m : Map α) : Bool := mwfFrom d 0 m

/-- Map a function over the values of the listed entries, keeping the canonical form. -/
def mmap {α : Type} [DecidableEq α] (d : Nat → α) (f : Nat → α → α) : Map α → Map α
  | [] => []
  | (a, x) :: t => if f a x = d a then mmap d f t else (a, f a x) :: mmap d f t

end Sys2Proof.Machine
end

