-- ==== Sys2Proof/Machine/Regs.lean ====
section
/-!
DEFINITION. The control-space registers (R35, R469): every register's offset from 0xF000_0000, its
fields, and the table of widths, access codes (R14) and reset values that the spec's register tables give.
A register of several instances takes its instance numbers as arguments.
-/

namespace Sys2Proof.Machine

/-- A field of a register: the register's offset, the field's lowest bit and its width. -/
structure Fld where
  reg : Nat
  lo : Nat
  len : Nat
  deriving DecidableEq, Repr

/-- One line of the register tables: the masks give the bits of each access code of Table 0-4. -/
structure RegInfo where
  name : String
  base : Nat
  width : Nat
  dims : List (Nat × Nat)
  rw : Nat
  w1c : Nat
  rc : Nat
  wo : Nat
  rst : Nat
  deriving DecidableEq, Repr

namespace Reg

/-- SYS_ID (20). -/
abbrev SYS_ID : Nat := 0x00000
/-- SYS_SERIAL (20). -/
abbrev SYS_SERIAL : Nat := 0x00008
/-- SYS_FW_VER (20). -/
abbrev SYS_FW_VER : Nat := 0x00010
/-- SYS_CAPS (20). -/
abbrev SYS_CAPS : Nat := 0x00018
/-- SYS_START (20). -/
abbrev SYS_START : Nat := 0x00020
/-- SYS_START_MS (20). -/
abbrev SYS_START_MS : Nat := 0x00024
/-- SYS_UPTIME (20). -/
abbrev SYS_UPTIME : Nat := 0x00028
/-- SYS_RESET_CMD (20). -/
abbrev SYS_RESET_CMD : Nat := 0x00040
/-- SYS_RESET_STAT (20). -/
abbrev SYS_RESET_STAT : Nat := 0x00044
/-- SYS_SSR_COUNT (20). -/
abbrev SYS_SSR_COUNT : Nat := 0x00048
/-- SYS_SSR_TIME (20). -/
abbrev SYS_SSR_TIME : Nat := 0x00050
/-- SYS_SSR_DUR (20). -/
abbrev SYS_SSR_DUR : Nat := 0x00058
/-- SYS_MINT_CMD (20). -/
abbrev SYS_MINT_CMD : Nat := 0x00060
/-- SYS_MINT_STAT (20). -/
abbrev SYS_MINT_STAT : Nat := 0x00064
/-- INC_CNT (20). -/
abbrev INC_CNT (n : Nat) : Nat := 0x00100 + 0x4 * n
/-- SYS_INC_CMD (20). -/
abbrev SYS_INC_CMD : Nat := 0x00140
/-- SYS_INC_STAT (20). -/
abbrev SYS_INC_STAT : Nat := 0x00144
/-- SYS_NOTE_SEQ (20). -/
abbrev SYS_NOTE_SEQ : Nat := 0x00148
/-- INC_REC (20). -/
abbrev INC_REC (n m : Nat) : Nat := 0x01000 + 0x40 * n + 0x8 * m
/-- SYS_NOTE (20). -/
abbrev SYS_NOTE (n m : Nat) : Nat := 0x02000 + 0x20 * n + 0x8 * m
/-- LANE_CFG (02). -/
abbrev LANE_CFG (n : Nat) : Nat := 0x10000 + 0x40 * n
/-- LANE_STAT (02). -/
abbrev LANE_STAT (n : Nat) : Nat := 0x10004 + 0x40 * n
/-- LANE_VALUE (02). -/
abbrev LANE_VALUE (n : Nat) : Nat := 0x10008 + 0x40 * n
/-- LANE_INCR (02). -/
abbrev LANE_INCR (n : Nat) : Nat := 0x10010 + 0x40 * n
/-- LANE_RATE (02). -/
abbrev LANE_RATE (n : Nat) : Nat := 0x10018 + 0x40 * n
/-- LANE_STEP_LIM (02). -/
abbrev LANE_STEP_LIM (n : Nat) : Nat := 0x1001C + 0x40 * n
/-- LANE_STEP (02). -/
abbrev LANE_STEP (n : Nat) : Nat := 0x10020 + 0x40 * n
/-- LANE_STEP_FORCE (02). -/
abbrev LANE_STEP_FORCE (n : Nat) : Nat := 0x10028 + 0x40 * n
/-- LANE_EPOCH (02). -/
abbrev LANE_EPOCH (n : Nat) : Nat := 0x10030 + 0x40 * n
/-- CUE_SEL (02). -/
abbrev CUE_SEL : Nat := 0x11000
/-- CUE_CFG (02). -/
abbrev CUE_CFG : Nat := 0x11004
/-- CUE_TARGET (02). -/
abbrev CUE_TARGET : Nat := 0x11008
/-- CUE_STEP (02). -/
abbrev CUE_STEP : Nat := 0x11010
/-- CUE_ARG (02). -/
abbrev CUE_ARG : Nat := 0x11018
/-- CUE_DIV (02). -/
abbrev CUE_DIV : Nat := 0x1101C
/-- CUE_CMD (02). -/
abbrev CUE_CMD : Nat := 0x11020
/-- CUE_STAT (02). -/
abbrev CUE_STAT : Nat := 0x11024
/-- CAP_CFG (02). -/
abbrev CAP_CFG (n : Nat) : Nat := 0x12000 + 0x10 * n
/-- CAP_STAT (02). -/
abbrev CAP_STAT (n : Nat) : Nat := 0x12004 + 0x10 * n
/-- CAP_DATA (02). -/
abbrev CAP_DATA (n : Nat) : Nat := 0x12008 + 0x10 * n
/-- START_CTL (10). -/
abbrev START_CTL : Nat := 0x20000
/-- START_STAT (10). -/
abbrev START_STAT : Nat := 0x20004
/-- START_SAVE_CFG (10). -/
abbrev START_SAVE_CFG : Nat := 0x20008
/-- START_CTX_SEL (10). -/
abbrev START_CTX_SEL : Nat := 0x20010
/-- START_CTX_CFG (10). -/
abbrev START_CTX_CFG : Nat := 0x20014
/-- START_CTX_PC (10). -/
abbrev START_CTX_PC : Nat := 0x20018
/-- START_CTX_ROOT (10). -/
abbrev START_CTX_ROOT : Nat := 0x20020
/-- START_CTX_FREC (10). -/
abbrev START_CTX_FREC : Nat := 0x20028
/-- START_CTX_FRCPT (10). -/
abbrev START_CTX_FRCPT : Nat := 0x20030
/-- START_CTX_WIN (10). -/
abbrev START_CTX_WIN : Nat := 0x20038
/-- START_CTX_CMD (10). -/
abbrev START_CTX_CMD : Nat := 0x20040
/-- START_CTX_INFO (10). -/
abbrev START_CTX_INFO : Nat := 0x20044
/-- START_RCFG (10). -/
abbrev START_RCFG (n : Nat) : Nat := 0x20100 + 0x20 * n
/-- START_RVAULT (10). -/
abbrev START_RVAULT (n : Nat) : Nat := 0x20108 + 0x20 * n
/-- START_REXT (10). -/
abbrev START_REXT (n : Nat) : Nat := 0x20110 + 0x20 * n
/-- START_RSTALL (10). -/
abbrev START_RSTALL (n : Nat) : Nat := 0x20118 + 0x20 * n
/-- START_BCFG (10). -/
abbrev START_BCFG (n : Nat) : Nat := 0x20400 + 0x10 * n
/-- START_BLIMIT (10). -/
abbrev START_BLIMIT (n : Nat) : Nat := 0x20404 + 0x10 * n
/-- START_BSTAT (10). -/
abbrev START_BSTAT (n : Nat) : Nat := 0x20408 + 0x10 * n
/-- START_BCNT (10). -/
abbrev START_BCNT (n : Nat) : Nat := 0x2040C + 0x10 * n
/-- START_PREEMPT_CNT (10). -/
abbrev START_PREEMPT_CNT : Nat := 0x20800
/-- START_SWAP_CNT (10). -/
abbrev START_SWAP_CNT : Nat := 0x20808
/-- START_PREEMPT_MAX (10). -/
abbrev START_PREEMPT_MAX : Nat := 0x20810
/-- TALLY_SEL (11). -/
abbrev TALLY_SEL : Nat := 0x30000
/-- TALLY_CMD (11). -/
abbrev TALLY_CMD : Nat := 0x30004
/-- TALLY_INFO (11). -/
abbrev TALLY_INFO : Nat := 0x30008
/-- TALLY_COUNT (11). -/
abbrev TALLY_COUNT : Nat := 0x3000C
/-- TALLY_EVENTS (11). -/
abbrev TALLY_EVENTS : Nat := 0x30010
/-- TMAP_SEL (11). -/
abbrev TMAP_SEL : Nat := 0x30100
/-- TMAP_CFG (11). -/
abbrev TMAP_CFG : Nat := 0x30104
/-- TMAP_CMD (11). -/
abbrev TMAP_CMD : Nat := 0x30108
/-- TMAP_INFO (11). -/
abbrev TMAP_INFO : Nat := 0x3010C
/-- BAR_SEL (11). -/
abbrev BAR_SEL : Nat := 0x30200
/-- BAR_CFG (11). -/
abbrev BAR_CFG : Nat := 0x30204
/-- BAR_MEMBERS (11). -/
abbrev BAR_MEMBERS : Nat := 0x30208
/-- BAR_CMD (11). -/
abbrev BAR_CMD : Nat := 0x30210
/-- BAR_INFO (11). -/
abbrev BAR_INFO : Nat := 0x30214
/-- BAR_PHASE (11). -/
abbrev BAR_PHASE : Nat := 0x30218
/-- BAR_ARRIVED (11). -/
abbrev BAR_ARRIVED : Nat := 0x30220
/-- RWIN_CFG (11). -/
abbrev RWIN_CFG (n : Nat) : Nat := 0x30400 + 0x20 * n
/-- RWIN_BASE (11). -/
abbrev RWIN_BASE (n : Nat) : Nat := 0x30408 + 0x20 * n
/-- RWIN_STAT (11). -/
abbrev RWIN_STAT (n : Nat) : Nat := 0x30410 + 0x20 * n
/-- WATCH_CFG (11). -/
abbrev WATCH_CFG (n : Nat) : Nat := 0x30800 + 0x10 * n
/-- WATCH_THRESH (11). -/
abbrev WATCH_THRESH (n : Nat) : Nat := 0x30804 + 0x10 * n
/-- WATCH_STAT (11). -/
abbrev WATCH_STAT (n : Nat) : Nat := 0x30808 + 0x10 * n
/-- TALLY_STAT (11). -/
abbrev TALLY_STAT : Nat := 0x30F00
/-- TELLER_CTL (09). -/
abbrev TELLER_CTL : Nat := 0x40000
/-- TELLER_STAT (09). -/
abbrev TELLER_STAT : Nat := 0x40004
/-- TELLER_VAULT_SPLIT (09). -/
abbrev TELLER_VAULT_SPLIT : Nat := 0x40008
/-- TELLER_RSV_BASE (09). -/
abbrev TELLER_RSV_BASE : Nat := 0x40010
/-- TELLER_RSV_PAGES (09). -/
abbrev TELLER_RSV_PAGES : Nat := 0x40018
/-- TELLER_ESC_BASE (09). -/
abbrev TELLER_ESC_BASE : Nat := 0x40020
/-- TELLER_ESC_PAGES (09). -/
abbrev TELLER_ESC_PAGES : Nat := 0x40028
/-- TELLER_DPOOL_BASE (09). -/
abbrev TELLER_DPOOL_BASE : Nat := 0x40030
/-- TELLER_DPOOL_PAGES (09). -/
abbrev TELLER_DPOOL_PAGES : Nat := 0x40038
/-- TELLER_INVAL (09). -/
abbrev TELLER_INVAL : Nat := 0x40040
/-- TELLER_PAGE_SEL (09). -/
abbrev TELLER_PAGE_SEL : Nat := 0x40050
/-- TELLER_PAGE_CMD (09). -/
abbrev TELLER_PAGE_CMD : Nat := 0x40058
/-- TELLER_PAGE_INFO (09). -/
abbrev TELLER_PAGE_INFO : Nat := 0x4005C
/-- TELLER_POOL_CFG (09). -/
abbrev TELLER_POOL_CFG (n : Nat) : Nat := 0x40100 + 0x20 * n
/-- TELLER_POOL_VA (09). -/
abbrev TELLER_POOL_VA (n : Nat) : Nat := 0x40108 + 0x20 * n
/-- TELLER_POOL_SPAN (09). -/
abbrev TELLER_POOL_SPAN (n : Nat) : Nat := 0x40110 + 0x20 * n
/-- TELLER_SCRUB_CFG (09). -/
abbrev TELLER_SCRUB_CFG : Nat := 0x40200
/-- TELLER_NAND_CH (09). -/
abbrev TELLER_NAND_CH : Nat := 0x40204
/-- TELLER_ERR (09). -/
abbrev TELLER_ERR : Nat := 0x40210
/-- TELLER_CE_CNT (09). -/
abbrev TELLER_CE_CNT : Nat := 0x40214
/-- TELLER_NAND_CNT (09). -/
abbrev TELLER_NAND_CNT : Nat := 0x40218
/-- TELLER_SHORT_CNT (09). -/
abbrev TELLER_SHORT_CNT : Nat := 0x4021C
/-- TELLER_POISON_LAST (09). -/
abbrev TELLER_POISON_LAST : Nat := 0x40220
/-- TELLER_MOVE_SEQ (09). -/
abbrev TELLER_MOVE_SEQ : Nat := 0x40300
/-- TELLER_MOVE_DONE (09). -/
abbrev TELLER_MOVE_DONE : Nat := 0x40308
/-- TELLER_CLAIMS (09). -/
abbrev TELLER_CLAIMS : Nat := 0x40310
/-- FIELD_GEOM (05). -/
abbrev FIELD_GEOM : Nat := 0x50000
/-- FIELD_STAT (05). -/
abbrev FIELD_STAT : Nat := 0x50004
/-- FIELD_TILE_SEL (05). -/
abbrev FIELD_TILE_SEL : Nat := 0x50010
/-- FIELD_TILE_INFO (05). -/
abbrev FIELD_TILE_INFO : Nat := 0x50014
/-- FIELD_ERR (05). -/
abbrev FIELD_ERR : Nat := 0x50020
/-- FIELD_BUSY_CYC (05). -/
abbrev FIELD_BUSY_CYC : Nat := 0x50040
/-- FIELD_PASS_CNT (05). -/
abbrev FIELD_PASS_CNT : Nat := 0x50048
/-- FIELD_STALL_CYC (05). -/
abbrev FIELD_STALL_CYC : Nat := 0x50050
/-- SPRINT_ENG_STAT (06). -/
abbrev SPRINT_ENG_STAT (n : Nat) : Nat := 0x60000 + 0x40 * n
/-- SPRINT_ENG_CTL (06). -/
abbrev SPRINT_ENG_CTL (n : Nat) : Nat := 0x60004 + 0x40 * n
/-- SPRINT_RX_STAT (06). -/
abbrev SPRINT_RX_STAT (n : Nat) : Nat := 0x60008 + 0x40 * n
/-- SPRINT_RX_CYC (06). -/
abbrev SPRINT_RX_CYC (n : Nat) : Nat := 0x6000C + 0x40 * n
/-- SPRINT_ERR (06). -/
abbrev SPRINT_ERR (n : Nat) : Nat := 0x60010 + 0x40 * n
/-- SPRINT_BUSY_CYC (06). -/
abbrev SPRINT_BUSY_CYC (n : Nat) : Nat := 0x60018 + 0x40 * n
/-- SPRINT_RX_RUNS (06). -/
abbrev SPRINT_RX_RUNS (n : Nat) : Nat := 0x60020 + 0x40 * n
/-- STREAM_SEL (08). -/
abbrev STREAM_SEL : Nat := 0x70000
/-- STREAM_DEF (08). -/
abbrev STREAM_DEF : Nat := 0x70004
/-- STREAM_ESC (08). -/
abbrev STREAM_ESC : Nat := 0x70008
/-- STREAM_INIT (08). -/
abbrev STREAM_INIT : Nat := 0x70010
/-- STREAM_CMD (08). -/
abbrev STREAM_CMD : Nat := 0x70018
/-- STREAM_INFO (08). -/
abbrev STREAM_INFO : Nat := 0x7001C
/-- STREAM_STAT (08). -/
abbrev STREAM_STAT : Nat := 0x70100
/-- STREAM_REGISTERED (08). -/
abbrev STREAM_REGISTERED : Nat := 0x70104
/-- STREAM_SWAP_OUTS (08). -/
abbrev STREAM_SWAP_OUTS : Nat := 0x70110
/-- STREAM_SWAP_INS (08). -/
abbrev STREAM_SWAP_INS : Nat := 0x70118
/-- STREAM_ADMIT_CYC (08). -/
abbrev STREAM_ADMIT_CYC : Nat := 0x70120
/-- STREAM_ERR (08). -/
abbrev STREAM_ERR : Nat := 0x70130
/-- STREAM_UE_STREAM (08). -/
abbrev STREAM_UE_STREAM : Nat := 0x70134
/-- PACER_CTL (12). -/
abbrev PACER_CTL (n : Nat) : Nat := 0x80000 + 0x40 * n
/-- PACER_STAT (12). -/
abbrev PACER_STAT (n : Nat) : Nat := 0x80004 + 0x40 * n
/-- PACER_TIME (12). -/
abbrev PACER_TIME (n : Nat) : Nat := 0x80008 + 0x40 * n
/-- PACER_DIV (12). -/
abbrev PACER_DIV (n : Nat) : Nat := 0x8000C + 0x40 * n
/-- PACER_FIRST (12). -/
abbrev PACER_FIRST (n : Nat) : Nat := 0x80010 + 0x40 * n
/-- PACER_STEP (12). -/
abbrev PACER_STEP (n : Nat) : Nat := 0x80018 + 0x40 * n
/-- PACER_PERIODS (12). -/
abbrev PACER_PERIODS (n : Nat) : Nat := 0x80020 + 0x40 * n
/-- PACER_CNT (12). -/
abbrev PACER_CNT (n : Nat) : Nat := 0x80028 + 0x40 * n
/-- PCH_ENTRY (12). -/
abbrev PCH_ENTRY (n m : Nat) : Nat := 0x80400 + 0x100 * n + 0x40 * m
/-- PCH_CFG (12). -/
abbrev PCH_CFG (n m : Nat) : Nat := 0x80404 + 0x100 * n + 0x40 * m
/-- PCH_STAT (12). -/
abbrev PCH_STAT (n m : Nat) : Nat := 0x80408 + 0x100 * n + 0x40 * m
/-- PCH_MBX_CFG (12). -/
abbrev PCH_MBX_CFG (n m : Nat) : Nat := 0x8040C + 0x100 * n + 0x40 * m
/-- PCH_FEED_ADDR (12). -/
abbrev PCH_FEED_ADDR (n m : Nat) : Nat := 0x80410 + 0x100 * n + 0x40 * m
/-- PCH_MBX_SEQ (12). -/
abbrev PCH_MBX_SEQ (n m : Nat) : Nat := 0x80418 + 0x100 * n + 0x40 * m
/-- PCH_MBX_CMT (12). -/
abbrev PCH_MBX_CMT (n m : Nat) : Nat := 0x8041C + 0x100 * n + 0x40 * m
/-- PCH_MBX_DATA (12). -/
abbrev PCH_MBX_DATA (n m j : Nat) : Nat := 0x80420 + 0x100 * n + 0x40 * m + 0x4 * j
/-- PWM_BR_CFG (12). -/
abbrev PWM_BR_CFG (n : Nat) : Nat := 0x81800 + 0x20 * n
/-- PWM_BR_DT (12). -/
abbrev PWM_BR_DT (n : Nat) : Nat := 0x81804 + 0x20 * n
/-- PWM_BR_FORCE (12). -/
abbrev PWM_BR_FORCE (n : Nat) : Nat := 0x81808 + 0x20 * n
/-- PWM_BR_STAT (12). -/
abbrev PWM_BR_STAT (n : Nat) : Nat := 0x8180C + 0x20 * n
/-- SD_GRP_CFG (12). -/
abbrev SD_GRP_CFG (n : Nat) : Nat := 0x81A00 + 0x4 * n
/-- SD_CFG (12). -/
abbrev SD_CFG (n : Nat) : Nat := 0x81B00 + 0x10 * n
/-- SD_TRIP (12). -/
abbrev SD_TRIP (n : Nat) : Nat := 0x81B04 + 0x10 * n
/-- SD_STAT (12). -/
abbrev SD_STAT (n : Nat) : Nat := 0x81B08 + 0x10 * n
/-- ENC_CFG (12). -/
abbrev ENC_CFG (n : Nat) : Nat := 0x81E00 + 0x10 * n
/-- ENC_SSI (12). -/
abbrev ENC_SSI (n : Nat) : Nat := 0x81E04 + 0x10 * n
/-- ENC_STAT (12). -/
abbrev ENC_STAT (n : Nat) : Nat := 0x81E08 + 0x10 * n
/-- ADC_CFG (12). -/
abbrev ADC_CFG : Nat := 0x81F00
/-- ISLAND_CTL (12). -/
abbrev ISLAND_CTL : Nat := 0x81F80
/-- ISLAND_STAT (12). -/
abbrev ISLAND_STAT : Nat := 0x81F84
/-- PACER_WIN (12). -/
abbrev PACER_WIN : Nat := 0x82000
/-- FUSION_CTL (13). -/
abbrev FUSION_CTL : Nat := 0x90000
/-- FUSION_STAT (13). -/
abbrev FUSION_STAT : Nat := 0x90004
/-- FUSION_INST_CFG (13). -/
abbrev FUSION_INST_CFG : Nat := 0x90008
/-- FUSION_INST_FIRST (13). -/
abbrev FUSION_INST_FIRST : Nat := 0x90010
/-- FUSION_INST_STEP (13). -/
abbrev FUSION_INST_STEP : Nat := 0x90018
/-- FUSION_REL_TALLY (13). -/
abbrev FUSION_REL_TALLY : Nat := 0x90020
/-- FUSION_REL_RCPT (13). -/
abbrev FUSION_REL_RCPT : Nat := 0x90024
/-- FUSION_SET_BASE (13). -/
abbrev FUSION_SET_BASE : Nat := 0x90028
/-- FUSION_SET_CFG (13). -/
abbrev FUSION_SET_CFG : Nat := 0x90030
/-- FUSION_RETRO (13). -/
abbrev FUSION_RETRO : Nat := 0x90034
/-- FUSION_HIST_BASE (13). -/
abbrev FUSION_HIST_BASE : Nat := 0x90038
/-- FUSION_SET_SEQ (13). -/
abbrev FUSION_SET_SEQ : Nat := 0x90040
/-- FUSION_CNT (13). -/
abbrev FUSION_CNT : Nat := 0x90048
/-- FUSION_REFUSE (13). -/
abbrev FUSION_REFUSE : Nat := 0x9004C
/-- FUSION_ERR (13). -/
abbrev FUSION_ERR : Nat := 0x90050
/-- FUSION_ADMIT_CMD (13). -/
abbrev FUSION_ADMIT_CMD : Nat := 0x90060
/-- FUSION_ADMIT_INFO (13). -/
abbrev FUSION_ADMIT_INFO : Nat := 0x90064
/-- FADM_CFG (13). -/
abbrev FADM_CFG : Nat := 0x90070
/-- FADM_CLOCK (13). -/
abbrev FADM_CLOCK : Nat := 0x90074
/-- FADM_FEED (13). -/
abbrev FADM_FEED : Nat := 0x90078
/-- FADM_TOL (13). -/
abbrev FADM_TOL : Nat := 0x9007C
/-- FADM_ADDR (13). -/
abbrev FADM_ADDR : Nat := 0x90080
/-- FADM_LAT (13). -/
abbrev FADM_LAT : Nat := 0x90088
/-- FSTR_CFG (13). -/
abbrev FSTR_CFG (n : Nat) : Nat := 0x91000 + 0x40 * n
/-- FSTR_CLOCK (13). -/
abbrev FSTR_CLOCK (n : Nat) : Nat := 0x91004 + 0x40 * n
/-- FSTR_FEED (13). -/
abbrev FSTR_FEED (n : Nat) : Nat := 0x91008 + 0x40 * n
/-- FSTR_TOL (13). -/
abbrev FSTR_TOL (n : Nat) : Nat := 0x9100C + 0x40 * n
/-- FSTR_ADDR (13). -/
abbrev FSTR_ADDR (n : Nat) : Nat := 0x91010 + 0x40 * n
/-- FSTR_OFFSET (13). -/
abbrev FSTR_OFFSET (n : Nat) : Nat := 0x91018 + 0x40 * n
/-- FSTR_RATE (13). -/
abbrev FSTR_RATE (n : Nat) : Nat := 0x91020 + 0x40 * n
/-- FSTR_LAT (13). -/
abbrev FSTR_LAT (n : Nat) : Nat := 0x91024 + 0x40 * n
/-- FSTR_STAT (13). -/
abbrev FSTR_STAT (n : Nat) : Nat := 0x91028 + 0x40 * n
/-- HURDLE_CTL (14). -/
abbrev HURDLE_CTL : Nat := 0xA0000
/-- HURDLE_STAT (14). -/
abbrev HURDLE_STAT : Nat := 0xA0004
/-- HURDLE_EPOCH (14). -/
abbrev HURDLE_EPOCH : Nat := 0xA0008
/-- HURDLE_MAP_BASE (14). -/
abbrev HURDLE_MAP_BASE : Nat := 0xA0010
/-- HURDLE_MAP_CFG (14). -/
abbrev HURDLE_MAP_CFG : Nat := 0xA0018
/-- HURDLE_MAP_NODES (14). -/
abbrev HURDLE_MAP_NODES : Nat := 0xA001C
/-- HURDLE_MAP_ORIGIN_X (14). -/
abbrev HURDLE_MAP_ORIGIN_X : Nat := 0xA0020
/-- HURDLE_MAP_ORIGIN_Y (14). -/
abbrev HURDLE_MAP_ORIGIN_Y : Nat := 0xA0024
/-- HURDLE_MAP_ORIGIN_Z (14). -/
abbrev HURDLE_MAP_ORIGIN_Z : Nat := 0xA0028
/-- HURDLE_SDF_BASE0 (14). -/
abbrev HURDLE_SDF_BASE0 : Nat := 0xA0030
/-- HURDLE_SDF_BASE1 (14). -/
abbrev HURDLE_SDF_BASE1 : Nat := 0xA0038
/-- HURDLE_SDF_CFG (14). -/
abbrev HURDLE_SDF_CFG : Nat := 0xA0040
/-- HURDLE_SDF_CELL (14). -/
abbrev HURDLE_SDF_CELL : Nat := 0xA0044
/-- HURDLE_SDF_UNIT (14). -/
abbrev HURDLE_SDF_UNIT : Nat := 0xA0048
/-- HURDLE_SDF_ORIGIN_X (14). -/
abbrev HURDLE_SDF_ORIGIN_X : Nat := 0xA004C
/-- HURDLE_SDF_ORIGIN_Y (14). -/
abbrev HURDLE_SDF_ORIGIN_Y : Nat := 0xA0050
/-- HURDLE_SDF_ORIGIN_Z (14). -/
abbrev HURDLE_SDF_ORIGIN_Z : Nat := 0xA0054
/-- HURDLE_STOP_ADDR (14). -/
abbrev HURDLE_STOP_ADDR : Nat := 0xA0060
/-- HURDLE_STOP_CMD (14). -/
abbrev HURDLE_STOP_CMD : Nat := 0xA0068
/-- HURDLE_STOP_STAT (14). -/
abbrev HURDLE_STOP_STAT : Nat := 0xA006C
/-- HURDLE_STOP_EPOCH (14). -/
abbrev HURDLE_STOP_EPOCH : Nat := 0xA0070
/-- HURDLE_STOP_CLEAR (14). -/
abbrev HURDLE_STOP_CLEAR : Nat := 0xA0078
/-- HURDLE_STOP_TALLY (14). -/
abbrev HURDLE_STOP_TALLY : Nat := 0xA007C
/-- HURDLE_MAP_STAT (14). -/
abbrev HURDLE_MAP_STAT : Nat := 0xA0080
/-- HURDLE_CNT (14). -/
abbrev HURDLE_CNT : Nat := 0xA0084
/-- HURDLE_FINISH_CNT (14). -/
abbrev HURDLE_FINISH_CNT : Nat := 0xA0088
/-- HURDLE_TESTS (14). -/
abbrev HURDLE_TESTS : Nat := 0xA0090
/-- HURDLE_BATCHES (14). -/
abbrev HURDLE_BATCHES : Nat := 0xA0098
/-- HURDLE_ERR (14). -/
abbrev HURDLE_ERR : Nat := 0xA00A0
/-- PTP_DOM_CFG (02). -/
abbrev PTP_DOM_CFG (n : Nat) : Nat := 0xB0000 + 0x20 * n
/-- PTP_DOM_STAT (02). -/
abbrev PTP_DOM_STAT (n : Nat) : Nat := 0xB0004 + 0x20 * n
/-- PTP_OFFSET (02). -/
abbrev PTP_OFFSET (n : Nat) : Nat := 0xB0008 + 0x20 * n
/-- PTP_PDELAY (02). -/
abbrev PTP_PDELAY (n : Nat) : Nat := 0xB0100 + 0x8 * n
/-- TC_CFG (02). -/
abbrev TC_CFG : Nat := 0xB0180
/-- TC_STAT (02). -/
abbrev TC_STAT : Nat := 0xB0184
/-- TS_META (02). -/
abbrev TS_META : Nat := 0xB0200
/-- TS_DATA (02). -/
abbrev TS_DATA : Nat := 0xB0208
/-- LAUNCH_CFG (02). -/
abbrev LAUNCH_CFG (n : Nat) : Nat := 0xB0300 + 0x10 * n
/-- LAUNCH_STAT (02). -/
abbrev LAUNCH_STAT (n : Nat) : Nat := 0xB0304 + 0x10 * n
/-- NET_MAC (18). -/
abbrev NET_MAC : Nat := 0xB1000
/-- NET_PORT_CFG (18). -/
abbrev NET_PORT_CFG (n : Nat) : Nat := 0xB1100 + 0x20 * n
/-- NET_PORT_CNT (18). -/
abbrev NET_PORT_CNT (n : Nat) : Nat := 0xB1104 + 0x20 * n
/-- NET_GATE_BASE (18). -/
abbrev NET_GATE_BASE (n : Nat) : Nat := 0xB1108 + 0x20 * n
/-- NET_GATE_CYCLE (18). -/
abbrev NET_GATE_CYCLE (n : Nat) : Nat := 0xB1110 + 0x20 * n
/-- NET_LS_CFG (18). -/
abbrev NET_LS_CFG (n m : Nat) : Nat := 0xB2000 + 0x80 * n + 0x4 * m
/-- NET_RXB_CFG (18). -/
abbrev NET_RXB_CFG (n : Nat) : Nat := 0xB3000 + 0x20 * n
/-- NET_RXB_ETYPE (18). -/
abbrev NET_RXB_ETYPE (n : Nat) : Nat := 0xB3004 + 0x20 * n
/-- NET_RXB_MAC (18). -/
abbrev NET_RXB_MAC (n : Nat) : Nat := 0xB3008 + 0x20 * n
/-- NET_RXB_SEQ (18). -/
abbrev NET_RXB_SEQ (n : Nat) : Nat := 0xB3010 + 0x20 * n
/-- RELAY_LINK_STAT (17). -/
abbrev RELAY_LINK_STAT (n : Nat) : Nat := 0xC0000 + 0x10 * n
/-- RELAY_LINK_CTL (17). -/
abbrev RELAY_LINK_CTL (n : Nat) : Nat := 0xC0004 + 0x10 * n
/-- RELAY_LINK_CNT (17). -/
abbrev RELAY_LINK_CNT (n : Nat) : Nat := 0xC0008 + 0x10 * n
/-- RELAY_PAIR_CFG (17). -/
abbrev RELAY_PAIR_CFG : Nat := 0xC0100
/-- RELAY_PAIR_CFG2 (17). -/
abbrev RELAY_PAIR_CFG2 : Nat := 0xC0104
/-- RELAY_PAIR_STAT (17). -/
abbrev RELAY_PAIR_STAT : Nat := 0xC0108
/-- RELAY_PAIR_CMD (17). -/
abbrev RELAY_PAIR_CMD : Nat := 0xC010C
/-- RELAY_PAIR_EXPECT (17). -/
abbrev RELAY_PAIR_EXPECT : Nat := 0xC0110
/-- RELAY_PAIR_PARTNER (17). -/
abbrev RELAY_PAIR_PARTNER : Nat := 0xC0118
/-- RELAY_MIRROR_SENT (17). -/
abbrev RELAY_MIRROR_SENT : Nat := 0xC0120
/-- RELAY_MIRROR_APPLIED (17). -/
abbrev RELAY_MIRROR_APPLIED : Nat := 0xC0128
/-- RELAY_FAILOVER_CNT (17). -/
abbrev RELAY_FAILOVER_CNT : Nat := 0xC0130
/-- RELAY_CTX_MASK (17). -/
abbrev RELAY_CTX_MASK (n : Nat) : Nat := 0xC0140 + 0x4 * n
/-- RELAY_GRP_CFG (17). -/
abbrev RELAY_GRP_CFG : Nat := 0xC0200
/-- RELAY_GRP_ROUTE (17). -/
abbrev RELAY_GRP_ROUTE : Nat := 0xC0204
/-- RELAY_GCH_CFG (17). -/
abbrev RELAY_GCH_CFG (n : Nat) : Nat := 0xC0400 + 0x20 * n
/-- RELAY_GCH_RCPT (17). -/
abbrev RELAY_GCH_RCPT (n : Nat) : Nat := 0xC0404 + 0x20 * n
/-- RELAY_GCH_TALLY (17). -/
abbrev RELAY_GCH_TALLY (n : Nat) : Nat := 0xC0408 + 0x20 * n
/-- RELAY_GCH_ADDR (17). -/
abbrev RELAY_GCH_ADDR (n : Nat) : Nat := 0xC0410 + 0x20 * n
/-- RELAY_GCH_CNT (17). -/
abbrev RELAY_GCH_CNT (n : Nat) : Nat := 0xC0418 + 0x20 * n
/-- RELAY_IMG_CMD (17). -/
abbrev RELAY_IMG_CMD : Nat := 0xC0800
/-- RELAY_IMG_STAT (17). -/
abbrev RELAY_IMG_STAT : Nat := 0xC0804
/-- JUDGE_STAT (15). -/
abbrev JUDGE_STAT : Nat := 0xD0000
/-- JUDGE_CAUSE (15). -/
abbrev JUDGE_CAUSE : Nat := 0xD0008
/-- JUDGE_CFG_CRC (15). -/
abbrev JUDGE_CFG_CRC : Nat := 0xD0010
/-- JUDGE_STO (15). -/
abbrev JUDGE_STO : Nat := 0xD0014
/-- JUDGE_INPUTS (15). -/
abbrev JUDGE_INPUTS : Nat := 0xD0018
/-- JUDGE_LINK (15). -/
abbrev JUDGE_LINK : Nat := 0xD001C
/-- JUDGE_AUDIT (15). -/
abbrev JUDGE_AUDIT : Nat := 0xD0020
/-- JUDGE_AUDIT_FAIL (15). -/
abbrev JUDGE_AUDIT_FAIL : Nat := 0xD0024
/-- JOUT_STAT (15). -/
abbrev JOUT_STAT (n : Nat) : Nat := 0xD0100 + 0x8 * n
/-- JOUT_CNT (15). -/
abbrev JOUT_CNT (n : Nat) : Nat := 0xD0104 + 0x8 * n
/-- JTASK_STAT (15). -/
abbrev JTASK_STAT (n : Nat) : Nat := 0xD0800 + 0x4 * n
/-- PORT_STANDING (18). -/
abbrev PORT_STANDING (n : Nat) : Nat := 0xE0000 + 0x4 * n
/-- PORT_GRANT (18). -/
abbrev PORT_GRANT (n : Nat) : Nat := 0xE0100 + 0x4 * n
/-- PORT_DENY_CNT (18). -/
abbrev PORT_DENY_CNT (n : Nat) : Nat := 0xE0200 + 0x4 * n
/-- PORT_DENY_LAST (18). -/
abbrev PORT_DENY_LAST : Nat := 0xE0300
/-- PORT_STRAP (18). -/
abbrev PORT_STRAP : Nat := 0xE0310
/-- PORT_HP_STAT (18). -/
abbrev PORT_HP_STAT : Nat := 0xE0400
/-- PORT_HP_CFG (18). -/
abbrev PORT_HP_CFG : Nat := 0xE0404
/-- PORT_HP_EVT (18). -/
abbrev PORT_HP_EVT : Nat := 0xE0408
/-- PORT_PCIE_STAT (18). -/
abbrev PORT_PCIE_STAT : Nat := 0xE0500
/-- PORT_PCIE_BAR2 (18). -/
abbrev PORT_PCIE_BAR2 (n : Nat) : Nat := 0xE0600 + 0x10 * n
/-- PORT_PCIE_MSIX (18). -/
abbrev PORT_PCIE_MSIX (n : Nat) : Nat := 0xE0608 + 0x10 * n
/-- CAM_CFG (18). -/
abbrev CAM_CFG (n : Nat) : Nat := 0xE2000 + 0x40 * n
/-- CAM_SIZE (18). -/
abbrev CAM_SIZE (n : Nat) : Nat := 0xE2004 + 0x40 * n
/-- CAM_RCPT (18). -/
abbrev CAM_RCPT (n : Nat) : Nat := 0xE2008 + 0x40 * n
/-- CAM_TALLY (18). -/
abbrev CAM_TALLY (n : Nat) : Nat := 0xE200C + 0x40 * n
/-- CAM_BUF_BASE (18). -/
abbrev CAM_BUF_BASE (n : Nat) : Nat := 0xE2010 + 0x40 * n
/-- CAM_IN_SIZE (18). -/
abbrev CAM_IN_SIZE (n : Nat) : Nat := 0xE2018 + 0x40 * n
/-- CAM_STAT (18). -/
abbrev CAM_STAT (n : Nat) : Nat := 0xE201C + 0x40 * n
/-- BUS_CFG (18). -/
abbrev BUS_CFG (n : Nat) : Nat := 0xE3000 + 0x20 * n
/-- BUS_TX (18). -/
abbrev BUS_TX (n : Nat) : Nat := 0xE3004 + 0x20 * n
/-- BUS_RX (18). -/
abbrev BUS_RX (n : Nat) : Nat := 0xE3008 + 0x20 * n
/-- BUS_STAT (18). -/
abbrev BUS_STAT (n : Nat) : Nat := 0xE300C + 0x20 * n
/-- PWR_CAP (19). -/
abbrev PWR_CAP : Nat := 0xF0000
/-- PWR_STAT (19). -/
abbrev PWR_STAT : Nat := 0xF0004
/-- PWR_MEAS (19). -/
abbrev PWR_MEAS : Nat := 0xF0008
/-- PWR_THERM (19). -/
abbrev PWR_THERM : Nat := 0xF000C
/-- PWR_DROOP_CFG (19). -/
abbrev PWR_DROOP_CFG : Nat := 0xF0010
/-- PWR_DROOP_LAST (19). -/
abbrev PWR_DROOP_LAST : Nat := 0xF0014
/-- PWR_STRETCH_CYC (19). -/
abbrev PWR_STRETCH_CYC : Nat := 0xF0040
/-- PWR_GAP_CYC (19). -/
abbrev PWR_GAP_CYC : Nat := 0xF0048

abbrev SYS_ID_PART : Fld := ⟨SYS_ID, 16, 16⟩
abbrev SYS_ID_REV : Fld := ⟨SYS_ID, 8, 8⟩
abbrev SYS_ID_MINT_COPY1 : Fld := ⟨SYS_ID, 0, 1⟩
abbrev SYS_SERIAL_ALL : Fld := ⟨SYS_SERIAL, 0, 64⟩
abbrev SYS_FW_VER_ALL : Fld := ⟨SYS_FW_VER, 0, 32⟩
abbrev SYS_CAPS_DRAM_PAGES : Fld := ⟨SYS_CAPS, 40, 20⟩
abbrev SYS_CAPS_DRAM_CH : Fld := ⟨SYS_CAPS, 16, 16⟩
abbrev SYS_CAPS_UNITS : Fld := ⟨SYS_CAPS, 0, 13⟩
abbrev SYS_START_STAGE : Fld := ⟨SYS_START, 28, 4⟩
abbrev SYS_START_PATH : Fld := ⟨SYS_START, 27, 1⟩
abbrev SYS_START_COLD_NEXT : Fld := ⟨SYS_START, 26, 1⟩
abbrev SYS_START_RESTART : Fld := ⟨SYS_START, 25, 1⟩
abbrev SYS_START_LEARNED : Fld := ⟨SYS_START, 16, 7⟩
abbrev SYS_START_FAIL : Fld := ⟨SYS_START, 0, 8⟩
abbrev SYS_START_MS_ALL : Fld := ⟨SYS_START_MS, 0, 32⟩
abbrev SYS_UPTIME_ALL : Fld := ⟨SYS_UPTIME, 0, 64⟩
abbrev SYS_RESET_CMD_OP : Fld := ⟨SYS_RESET_CMD, 0, 2⟩
abbrev SYS_RESET_STAT_BUSY : Fld := ⟨SYS_RESET_STAT, 31, 1⟩
abbrev SYS_RESET_STAT_ERR : Fld := ⟨SYS_RESET_STAT, 30, 1⟩
abbrev SYS_RESET_STAT_REQUESTER : Fld := ⟨SYS_RESET_STAT, 16, 6⟩
abbrev SYS_RESET_STAT_LAST_CAUSE : Fld := ⟨SYS_RESET_STAT, 0, 8⟩
abbrev SYS_SSR_COUNT_ALL : Fld := ⟨SYS_SSR_COUNT, 0, 64⟩
abbrev SYS_SSR_TIME_ALL : Fld := ⟨SYS_SSR_TIME, 0, 64⟩
abbrev SYS_SSR_DUR_ALL : Fld := ⟨SYS_SSR_DUR, 0, 32⟩
abbrev SYS_MINT_CMD_OP : Fld := ⟨SYS_MINT_CMD, 0, 2⟩
abbrev SYS_MINT_STAT_BUSY : Fld := ⟨SYS_MINT_STAT, 31, 1⟩
abbrev SYS_MINT_STAT_ERR : Fld := ⟨SYS_MINT_STAT, 16, 8⟩
abbrev SYS_MINT_STAT_ADDED_FREE : Fld := ⟨SYS_MINT_STAT, 8, 6⟩
abbrev SYS_MINT_STAT_LEARNED : Fld := ⟨SYS_MINT_STAT, 0, 7⟩
abbrev INC_CNT_COUNT (n : Nat) : Fld := ⟨INC_CNT n, 0, 16⟩
abbrev SYS_INC_CMD_INDEX : Fld := ⟨SYS_INC_CMD, 8, 4⟩
abbrev SYS_INC_CMD_OP : Fld := ⟨SYS_INC_CMD, 0, 2⟩
abbrev SYS_INC_STAT_NONZERO : Fld := ⟨SYS_INC_STAT, 16, 13⟩
abbrev SYS_INC_STAT_SATURATED : Fld := ⟨SYS_INC_STAT, 0, 13⟩
abbrev SYS_NOTE_SEQ_ALL : Fld := ⟨SYS_NOTE_SEQ, 0, 64⟩
abbrev INC_REC_ALL (n m : Nat) : Fld := ⟨INC_REC n m, 0, 64⟩
abbrev SYS_NOTE_ALL (n m : Nat) : Fld := ⟨SYS_NOTE n m, 0, 64⟩
abbrev LANE_CFG_EN (n : Nat) : Fld := ⟨LANE_CFG n, 31, 1⟩
abbrev LANE_CFG_DEBOUNCE (n : Nat) : Fld := ⟨LANE_CFG n, 16, 8⟩
abbrev LANE_CFG_DIR_INV (n : Nat) : Fld := ⟨LANE_CFG n, 15, 1⟩
abbrev LANE_CFG_SRC_IDX (n : Nat) : Fld := ⟨LANE_CFG n, 8, 4⟩
abbrev LANE_CFG_SRC (n : Nat) : Fld := ⟨LANE_CFG n, 0, 4⟩
abbrev LANE_STAT_STEP_BLOCKED (n : Nat) : Fld := ⟨LANE_STAT n, 6, 1⟩
abbrev LANE_STAT_JUMP_REFUSED (n : Nat) : Fld := ⟨LANE_STAT n, 5, 1⟩
abbrev LANE_STAT_CFG_ERR (n : Nat) : Fld := ⟨LANE_STAT n, 4, 1⟩
abbrev LANE_STAT_SRC_LOST (n : Nat) : Fld := ⟨LANE_STAT n, 3, 1⟩
abbrev LANE_STAT_HOLDOVER (n : Nat) : Fld := ⟨LANE_STAT n, 2, 1⟩
abbrev LANE_STAT_REVERSE (n : Nat) : Fld := ⟨LANE_STAT n, 1, 1⟩
abbrev LANE_STAT_RUN (n : Nat) : Fld := ⟨LANE_STAT n, 0, 1⟩
abbrev LANE_VALUE_ALL (n : Nat) : Fld := ⟨LANE_VALUE n, 0, 64⟩
abbrev LANE_INCR_INCR (n : Nat) : Fld := ⟨LANE_INCR n, 0, 64⟩
abbrev LANE_RATE_RATE (n : Nat) : Fld := ⟨LANE_RATE n, 0, 32⟩
abbrev LANE_STEP_LIM_LIMIT (n : Nat) : Fld := ⟨LANE_STEP_LIM n, 0, 32⟩
abbrev LANE_STEP_STEP (n : Nat) : Fld := ⟨LANE_STEP n, 0, 64⟩
abbrev LANE_STEP_FORCE_STEP (n : Nat) : Fld := ⟨LANE_STEP_FORCE n, 0, 64⟩
abbrev LANE_EPOCH_EPOCH (n : Nat) : Fld := ⟨LANE_EPOCH n, 0, 64⟩
abbrev CUE_SEL_INDEX : Fld := ⟨CUE_SEL, 0, 12⟩
abbrev CUE_CFG_REPEAT : Fld := ⟨CUE_CFG, 16, 16⟩
abbrev CUE_CFG_LANE : Fld := ⟨CUE_CFG, 12, 4⟩
abbrev CUE_CFG_PAST_DROP : Fld := ⟨CUE_CFG, 7, 1⟩
abbrev CUE_CFG_ACTION : Fld := ⟨CUE_CFG, 0, 4⟩
abbrev CUE_TARGET_TARGET : Fld := ⟨CUE_TARGET, 0, 64⟩
abbrev CUE_STEP_STEP : Fld := ⟨CUE_STEP, 0, 64⟩
abbrev CUE_ARG_ARG : Fld := ⟨CUE_ARG, 0, 32⟩
abbrev CUE_DIV_STEP_DIV : Fld := ⟨CUE_DIV, 0, 16⟩
abbrev CUE_CMD_OP : Fld := ⟨CUE_CMD, 0, 2⟩
abbrev CUE_STAT_MISSED : Fld := ⟨CUE_STAT, 16, 16⟩
abbrev CUE_STAT_ERR : Fld := ⟨CUE_STAT, 8, 8⟩
abbrev CUE_STAT_LATE : Fld := ⟨CUE_STAT, 2, 1⟩
abbrev CUE_STAT_CONTEXT : Fld := ⟨CUE_STAT, 1, 1⟩
abbrev CUE_STAT_ARMED : Fld := ⟨CUE_STAT, 0, 1⟩
abbrev CAP_CFG_EN (n : Nat) : Fld := ⟨CAP_CFG n, 31, 1⟩
abbrev CAP_CFG_EDGE (n : Nat) : Fld := ⟨CAP_CFG n, 16, 2⟩
abbrev CAP_CFG_LANE (n : Nat) : Fld := ⟨CAP_CFG n, 8, 4⟩
abbrev CAP_CFG_INPUT (n : Nat) : Fld := ⟨CAP_CFG n, 0, 8⟩
abbrev CAP_STAT_OVF (n : Nat) : Fld := ⟨CAP_STAT n, 31, 1⟩
abbrev CAP_STAT_LEVEL (n : Nat) : Fld := ⟨CAP_STAT n, 0, 4⟩
abbrev CAP_DATA_ALL (n : Nat) : Fld := ⟨CAP_DATA n, 0, 64⟩
abbrev START_CTL_RESERVE_SLOTS : Fld := ⟨START_CTL, 8, 8⟩
abbrev START_CTL_EN : Fld := ⟨START_CTL, 0, 1⟩
abbrev START_STAT_CFG_ERR : Fld := ⟨START_STAT, 31, 1⟩
abbrev START_STAT_SWAP_BUSY : Fld := ⟨START_STAT, 30, 1⟩
abbrev START_STAT_DEFINED : Fld := ⟨START_STAT, 16, 9⟩
abbrev START_STAT_RESIDENT : Fld := ⟨START_STAT, 0, 7⟩
abbrev START_SAVE_CFG_FRAMES : Fld := ⟨START_SAVE_CFG, 16, 11⟩
abbrev START_SAVE_CFG_BASE : Fld := ⟨START_SAVE_CFG, 0, 11⟩
abbrev START_CTX_SEL_CONTEXT : Fld := ⟨START_CTX_SEL, 0, 8⟩
abbrev START_CTX_CFG_CLASS : Fld := ⟨START_CTX_CFG, 30, 2⟩
abbrev START_CTX_CFG_PRIORITY : Fld := ⟨START_CTX_CFG, 26, 4⟩
abbrev START_CTX_CFG_NAND_WR : Fld := ⟨START_CTX_CFG, 25, 1⟩
abbrev START_CTX_CFG_SHAPES : Fld := ⟨START_CTX_CFG, 22, 3⟩
abbrev START_CTX_PC_VA : Fld := ⟨START_CTX_PC, 0, 48⟩
abbrev START_CTX_ROOT_PPN : Fld := ⟨START_CTX_ROOT, 16, 28⟩
abbrev START_CTX_FREC_VA : Fld := ⟨START_CTX_FREC, 0, 48⟩
abbrev START_CTX_FRCPT_VA : Fld := ⟨START_CTX_FRCPT, 0, 48⟩
abbrev START_CTX_WIN_SWIN_SIZE : Fld := ⟨START_CTX_WIN, 48, 12⟩
abbrev START_CTX_WIN_SWIN_BASE : Fld := ⟨START_CTX_WIN, 32, 12⟩
abbrev START_CTX_WIN_PWIN_SHAPE : Fld := ⟨START_CTX_WIN, 28, 2⟩
abbrev START_CTX_WIN_PWIN_SIZE : Fld := ⟨START_CTX_WIN, 16, 11⟩
abbrev START_CTX_WIN_PWIN_BASE : Fld := ⟨START_CTX_WIN, 0, 11⟩
abbrev START_CTX_CMD_OP : Fld := ⟨START_CTX_CMD, 0, 2⟩
abbrev START_CTX_INFO_ERR : Fld := ⟨START_CTX_INFO, 24, 8⟩
abbrev START_CTX_INFO_STATE : Fld := ⟨START_CTX_INFO, 21, 3⟩
abbrev START_CTX_INFO_REL_PEND : Fld := ⟨START_CTX_INFO, 20, 1⟩
abbrev START_CTX_INFO_DEMOTED : Fld := ⟨START_CTX_INFO, 19, 1⟩
abbrev START_CTX_INFO_MARSHAL : Fld := ⟨START_CTX_INFO, 16, 3⟩
abbrev START_CTX_INFO_POSITION : Fld := ⟨START_CTX_INFO, 12, 4⟩
abbrev START_CTX_INFO_REL_LOST : Fld := ⟨START_CTX_INFO, 0, 8⟩
abbrev START_RCFG_VAULT_EN (n : Nat) : Fld := ⟨START_RCFG n, 31, 1⟩
abbrev START_RCFG_EXT_EN (n : Nat) : Fld := ⟨START_RCFG n, 30, 1⟩
abbrev START_RCFG_EXEMPT (n : Nat) : Fld := ⟨START_RCFG n, 24, 4⟩
abbrev START_RVAULT_BURST (n : Nat) : Fld := ⟨START_RVAULT n, 32, 24⟩
abbrev START_RVAULT_RATE (n : Nat) : Fld := ⟨START_RVAULT n, 0, 17⟩
abbrev START_REXT_BURST (n : Nat) : Fld := ⟨START_REXT n, 32, 24⟩
abbrev START_REXT_RATE (n : Nat) : Fld := ⟨START_REXT n, 0, 17⟩
abbrev START_RSTALL_WINDOWS (n : Nat) : Fld := ⟨START_RSTALL n, 0, 64⟩
abbrev START_BCFG_EN (n : Nat) : Fld := ⟨START_BCFG n, 31, 1⟩
abbrev START_BCFG_ACTION (n : Nat) : Fld := ⟨START_BCFG n, 29, 2⟩
abbrev START_BCFG_RESERVE (n : Nat) : Fld := ⟨START_BCFG n, 28, 1⟩
abbrev START_BCFG_LEAD (n : Nat) : Fld := ⟨START_BCFG n, 16, 8⟩
abbrev START_BCFG_CONTEXT (n : Nat) : Fld := ⟨START_BCFG n, 0, 8⟩
abbrev START_BLIMIT_LIMIT (n : Nat) : Fld := ⟨START_BLIMIT n, 0, 32⟩
abbrev START_BSTAT_OVERRUN (n : Nat) : Fld := ⟨START_BSTAT n, 31, 1⟩
abbrev START_BSTAT_MAX (n : Nat) : Fld := ⟨START_BSTAT n, 0, 31⟩
abbrev START_BCNT_OVERRUNS (n : Nat) : Fld := ⟨START_BCNT n, 16, 16⟩
abbrev START_PREEMPT_CNT_COUNT : Fld := ⟨START_PREEMPT_CNT, 0, 64⟩
abbrev START_SWAP_CNT_COUNT : Fld := ⟨START_SWAP_CNT, 0, 64⟩
abbrev START_PREEMPT_MAX_SWAP_NS : Fld := ⟨START_PREEMPT_MAX, 16, 16⟩
abbrev START_PREEMPT_MAX_PREEMPT_NS : Fld := ⟨START_PREEMPT_MAX, 0, 16⟩
abbrev TALLY_SEL_INDEX : Fld := ⟨TALLY_SEL, 0, 14⟩
abbrev TALLY_CMD_OP : Fld := ⟨TALLY_CMD, 0, 2⟩
abbrev TALLY_INFO_ERR : Fld := ⟨TALLY_INFO, 24, 8⟩
abbrev TALLY_INFO_STATE : Fld := ⟨TALLY_INFO, 22, 2⟩
abbrev TALLY_INFO_OWNER : Fld := ⟨TALLY_INFO, 12, 9⟩
abbrev TALLY_INFO_WAITERS : Fld := ⟨TALLY_INFO, 0, 8⟩
abbrev TALLY_COUNT_COUNT : Fld := ⟨TALLY_COUNT, 0, 32⟩
abbrev TALLY_EVENTS_EVENTS : Fld := ⟨TALLY_EVENTS, 0, 64⟩
abbrev TMAP_SEL_CONTEXT : Fld := ⟨TMAP_SEL, 16, 8⟩
abbrev TMAP_SEL_VID : Fld := ⟨TMAP_SEL, 0, 12⟩
abbrev TMAP_CFG_KIND : Fld := ⟨TMAP_CFG, 30, 2⟩
abbrev TMAP_CFG_OWN : Fld := ⟨TMAP_CFG, 29, 1⟩
abbrev TMAP_CFG_SLOT : Fld := ⟨TMAP_CFG, 16, 6⟩
abbrev TMAP_CFG_TARGET : Fld := ⟨TMAP_CFG, 0, 14⟩
abbrev TMAP_CMD_OP : Fld := ⟨TMAP_CMD, 0, 2⟩
abbrev TMAP_INFO_ERR : Fld := ⟨TMAP_INFO, 24, 8⟩
abbrev TMAP_INFO_USED : Fld := ⟨TMAP_INFO, 0, 17⟩
abbrev BAR_SEL_BARRIER : Fld := ⟨BAR_SEL, 0, 8⟩
abbrev BAR_CFG_KIND : Fld := ⟨BAR_CFG, 30, 2⟩
abbrev BAR_CFG_N : Fld := ⟨BAR_CFG, 0, 16⟩
abbrev BAR_MEMBERS_MEMBERS : Fld := ⟨BAR_MEMBERS, 0, 64⟩
abbrev BAR_CMD_SLOT : Fld := ⟨BAR_CMD, 8, 6⟩
abbrev BAR_CMD_OP : Fld := ⟨BAR_CMD, 0, 3⟩
abbrev BAR_INFO_ERR : Fld := ⟨BAR_INFO, 24, 8⟩
abbrev BAR_INFO_STATE : Fld := ⟨BAR_INFO, 22, 2⟩
abbrev BAR_INFO_ARRIVALS : Fld := ⟨BAR_INFO, 0, 16⟩
abbrev BAR_PHASE_PHASE : Fld := ⟨BAR_PHASE, 0, 64⟩
abbrev BAR_ARRIVED_ARRIVED : Fld := ⟨BAR_ARRIVED, 0, 64⟩
abbrev RWIN_CFG_EN (n : Nat) : Fld := ⟨RWIN_CFG n, 31, 1⟩
abbrev RWIN_CFG_MODE (n : Nat) : Fld := ⟨RWIN_CFG n, 30, 1⟩
abbrev RWIN_CFG_BUSY (n : Nat) : Fld := ⟨RWIN_CFG n, 29, 1⟩
abbrev RWIN_CFG_ERR (n : Nat) : Fld := ⟨RWIN_CFG n, 28, 1⟩
abbrev RWIN_CFG_PAGES (n : Nat) : Fld := ⟨RWIN_CFG n, 16, 7⟩
abbrev RWIN_BASE_PAGE (n : Nat) : Fld := ⟨RWIN_BASE n, 16, 28⟩
abbrev RWIN_STAT_HOLD_STALLS (n : Nat) : Fld := ⟨RWIN_STAT n, 16, 16⟩
abbrev RWIN_STAT_DISCARDED (n : Nat) : Fld := ⟨RWIN_STAT n, 0, 16⟩
abbrev WATCH_CFG_EN (n : Nat) : Fld := ⟨WATCH_CFG n, 31, 1⟩
abbrev WATCH_CFG_INDEX (n : Nat) : Fld := ⟨WATCH_CFG n, 0, 14⟩
abbrev WATCH_THRESH_THRESH (n : Nat) : Fld := ⟨WATCH_THRESH n, 0, 32⟩
abbrev WATCH_STAT_LOST (n : Nat) : Fld := ⟨WATCH_STAT n, 1, 1⟩
abbrev WATCH_STAT_HIT (n : Nat) : Fld := ⟨WATCH_STAT n, 0, 1⟩
abbrev TALLY_STAT_SAT : Fld := ⟨TALLY_STAT, 31, 1⟩
abbrev TALLY_STAT_CLAMP : Fld := ⟨TALLY_STAT, 30, 1⟩
abbrev TALLY_STAT_FIRST : Fld := ⟨TALLY_STAT, 0, 14⟩
abbrev TELLER_CTL_SCRUB_EN : Fld := ⟨TELLER_CTL, 1, 1⟩
abbrev TELLER_CTL_EN : Fld := ⟨TELLER_CTL, 0, 1⟩
abbrev TELLER_STAT_INVAL_BUSY : Fld := ⟨TELLER_STAT, 31, 1⟩
abbrev TELLER_STAT_PACE_ACTIVE : Fld := ⟨TELLER_STAT, 16, 11⟩
abbrev TELLER_STAT_MOVES : Fld := ⟨TELLER_STAT, 0, 10⟩
abbrev TELLER_VAULT_SPLIT_HOME_FRAMES : Fld := ⟨TELLER_VAULT_SPLIT, 0, 11⟩
abbrev TELLER_RSV_BASE_ADDR : Fld := ⟨TELLER_RSV_BASE, 16, 28⟩
abbrev TELLER_RSV_PAGES_PAGES : Fld := ⟨TELLER_RSV_PAGES, 0, 21⟩
abbrev TELLER_ESC_BASE_ADDR : Fld := ⟨TELLER_ESC_BASE, 16, 28⟩
abbrev TELLER_ESC_PAGES_PAGES : Fld := ⟨TELLER_ESC_PAGES, 0, 21⟩
abbrev TELLER_DPOOL_BASE_ADDR : Fld := ⟨TELLER_DPOOL_BASE, 16, 28⟩
abbrev TELLER_DPOOL_PAGES_PAGES : Fld := ⟨TELLER_DPOOL_PAGES, 0, 21⟩
abbrev TELLER_INVAL_ALL : Fld := ⟨TELLER_INVAL, 8, 1⟩
abbrev TELLER_INVAL_CONTEXT : Fld := ⟨TELLER_INVAL, 0, 8⟩
abbrev TELLER_PAGE_SEL_PAGE : Fld := ⟨TELLER_PAGE_SEL, 16, 28⟩
abbrev TELLER_PAGE_CMD_OP : Fld := ⟨TELLER_PAGE_CMD, 0, 2⟩
abbrev TELLER_PAGE_INFO_ERR : Fld := ⟨TELLER_PAGE_INFO, 28, 4⟩
abbrev TELLER_PAGE_INFO_ENTRIES : Fld := ⟨TELLER_PAGE_INFO, 26, 2⟩
abbrev TELLER_PAGE_INFO_STATE : Fld := ⟨TELLER_PAGE_INFO, 23, 3⟩
abbrev TELLER_PAGE_INFO_TIER : Fld := ⟨TELLER_PAGE_INFO, 21, 2⟩
abbrev TELLER_PAGE_INFO_DIRTY : Fld := ⟨TELLER_PAGE_INFO, 20, 1⟩
abbrev TELLER_PAGE_INFO_CLAIMS : Fld := ⟨TELLER_PAGE_INFO, 0, 16⟩
abbrev TELLER_POOL_CFG_EN (n : Nat) : Fld := ⟨TELLER_POOL_CFG n, 31, 1⟩
abbrev TELLER_POOL_CFG_ERR (n : Nat) : Fld := ⟨TELLER_POOL_CFG n, 30, 1⟩
abbrev TELLER_POOL_CFG_QUOTA (n : Nat) : Fld := ⟨TELLER_POOL_CFG n, 16, 11⟩
abbrev TELLER_POOL_CFG_CONTEXT (n : Nat) : Fld := ⟨TELLER_POOL_CFG n, 0, 8⟩
abbrev TELLER_POOL_VA_VA (n : Nat) : Fld := ⟨TELLER_POOL_VA n, 0, 48⟩
abbrev TELLER_POOL_SPAN_PAGES (n : Nat) : Fld := ⟨TELLER_POOL_SPAN n, 32, 32⟩
abbrev TELLER_POOL_SPAN_VPN (n : Nat) : Fld := ⟨TELLER_POOL_SPAN n, 0, 32⟩
abbrev TELLER_SCRUB_CFG_NAND_DAYS : Fld := ⟨TELLER_SCRUB_CFG, 16, 8⟩
abbrev TELLER_SCRUB_CFG_DRAM_HOURS : Fld := ⟨TELLER_SCRUB_CFG, 8, 8⟩
abbrev TELLER_SCRUB_CFG_SHARE : Fld := ⟨TELLER_SCRUB_CFG, 0, 8⟩
abbrev TELLER_NAND_CH_UP : Fld := ⟨TELLER_NAND_CH, 0, 16⟩
abbrev TELLER_ERR_VAULT_UE : Fld := ⟨TELLER_ERR, 31, 1⟩
abbrev TELLER_ERR_DRAM_UE : Fld := ⟨TELLER_ERR, 30, 1⟩
abbrev TELLER_ERR_NAND_ENTRY_UE : Fld := ⟨TELLER_ERR, 29, 1⟩
abbrev TELLER_ERR_NAND_BOTH_UE : Fld := ⟨TELLER_ERR, 28, 1⟩
abbrev TELLER_CE_CNT_DRAM : Fld := ⟨TELLER_CE_CNT, 16, 16⟩
abbrev TELLER_CE_CNT_VAULT : Fld := ⟨TELLER_CE_CNT, 0, 16⟩
abbrev TELLER_NAND_CNT_RECOVERED : Fld := ⟨TELLER_NAND_CNT, 16, 16⟩
abbrev TELLER_NAND_CNT_REWRITTEN : Fld := ⟨TELLER_NAND_CNT, 0, 16⟩
abbrev TELLER_SHORT_CNT_PARTNER : Fld := ⟨TELLER_SHORT_CNT, 16, 16⟩
abbrev TELLER_SHORT_CNT_RAISE_SHORT : Fld := ⟨TELLER_SHORT_CNT, 0, 16⟩
abbrev TELLER_POISON_LAST_PAGE : Fld := ⟨TELLER_POISON_LAST, 16, 28⟩
abbrev TELLER_MOVE_SEQ_COUNT : Fld := ⟨TELLER_MOVE_SEQ, 0, 64⟩
abbrev TELLER_MOVE_DONE_COUNT : Fld := ⟨TELLER_MOVE_DONE, 0, 64⟩
abbrev TELLER_CLAIMS_COUNT : Fld := ⟨TELLER_CLAIMS, 0, 19⟩
abbrev FIELD_GEOM_HEAT_SHAPES : Fld := ⟨FIELD_GEOM, 24, 3⟩
abbrev FIELD_GEOM_SPARES_LEFT : Fld := ⟨FIELD_GEOM, 16, 8⟩
abbrev FIELD_GEOM_ROWS : Fld := ⟨FIELD_GEOM, 8, 8⟩
abbrev FIELD_GEOM_COLS : Fld := ⟨FIELD_GEOM, 0, 8⟩
abbrev FIELD_STAT_EXCLUDED : Fld := ⟨FIELD_STAT, 20, 12⟩
abbrev FIELD_STAT_WITHDRAWN : Fld := ⟨FIELD_STAT, 13, 7⟩
abbrev FIELD_STAT_LAYOUT : Fld := ⟨FIELD_STAT, 10, 3⟩
abbrev FIELD_STAT_BUSY : Fld := ⟨FIELD_STAT, 0, 7⟩
abbrev FIELD_TILE_SEL_INDEX : Fld := ⟨FIELD_TILE_SEL, 0, 12⟩
abbrev FIELD_TILE_INFO_STATE : Fld := ⟨FIELD_TILE_INFO, 30, 2⟩
abbrev FIELD_TILE_INFO_FUSE_BAD : Fld := ⟨FIELD_TILE_INFO, 29, 1⟩
abbrev FIELD_TILE_INFO_TEST_BAD : Fld := ⟨FIELD_TILE_INFO, 28, 1⟩
abbrev FIELD_TILE_INFO_LCOL : Fld := ⟨FIELD_TILE_INFO, 16, 6⟩
abbrev FIELD_TILE_INFO_LROW : Fld := ⟨FIELD_TILE_INFO, 8, 5⟩
abbrev FIELD_TILE_INFO_VALID : Fld := ⟨FIELD_TILE_INFO, 7, 1⟩
abbrev FIELD_ERR_UE : Fld := ⟨FIELD_ERR, 31, 1⟩
abbrev FIELD_ERR_UE_TILE : Fld := ⟨FIELD_ERR, 16, 12⟩
abbrev FIELD_ERR_CE_COUNT : Fld := ⟨FIELD_ERR, 0, 16⟩
abbrev FIELD_BUSY_CYC_CYCLES : Fld := ⟨FIELD_BUSY_CYC, 0, 64⟩
abbrev FIELD_PASS_CNT_PASSES : Fld := ⟨FIELD_PASS_CNT, 0, 64⟩
abbrev FIELD_STALL_CYC_CYCLES : Fld := ⟨FIELD_STALL_CYC, 0, 64⟩
abbrev SPRINT_ENG_STAT_MAPPED_OUT (n : Nat) : Fld := ⟨SPRINT_ENG_STAT n, 31, 1⟩
abbrev SPRINT_ENG_STAT_MAP_REFUSED (n : Nat) : Fld := ⟨SPRINT_ENG_STAT n, 30, 1⟩
abbrev SPRINT_ENG_STAT_RX_BOUND (n : Nat) : Fld := ⟨SPRINT_ENG_STAT n, 29, 1⟩
abbrev SPRINT_ENG_STAT_BUSY (n : Nat) : Fld := ⟨SPRINT_ENG_STAT n, 28, 1⟩
abbrev SPRINT_ENG_STAT_RX_PACER (n : Nat) : Fld := ⟨SPRINT_ENG_STAT n, 24, 4⟩
abbrev SPRINT_ENG_STAT_RX_CH_MASK (n : Nat) : Fld := ⟨SPRINT_ENG_STAT n, 20, 4⟩
abbrev SPRINT_ENG_STAT_RX_CONTEXT (n : Nat) : Fld := ⟨SPRINT_ENG_STAT n, 8, 8⟩
abbrev SPRINT_ENG_STAT_WINDOWS (n : Nat) : Fld := ⟨SPRINT_ENG_STAT n, 0, 8⟩
abbrev SPRINT_ENG_CTL_MAP_OUT (n : Nat) : Fld := ⟨SPRINT_ENG_CTL n, 0, 1⟩
abbrev SPRINT_RX_STAT_LATE (n : Nat) : Fld := ⟨SPRINT_RX_STAT n, 16, 16⟩
abbrev SPRINT_RX_CYC_MAX (n : Nat) : Fld := ⟨SPRINT_RX_CYC n, 16, 16⟩
abbrev SPRINT_RX_CYC_BUDGET (n : Nat) : Fld := ⟨SPRINT_RX_CYC n, 0, 16⟩
abbrev SPRINT_ERR_UE (n : Nat) : Fld := ⟨SPRINT_ERR n, 31, 1⟩
abbrev SPRINT_ERR_CE_COUNT (n : Nat) : Fld := ⟨SPRINT_ERR n, 0, 16⟩
abbrev SPRINT_BUSY_CYC_CYCLES (n : Nat) : Fld := ⟨SPRINT_BUSY_CYC n, 0, 64⟩
abbrev SPRINT_RX_RUNS_RUNS (n : Nat) : Fld := ⟨SPRINT_RX_RUNS n, 0, 64⟩
abbrev STREAM_SEL_STREAM : Fld := ⟨STREAM_SEL, 0, 16⟩
abbrev STREAM_DEF_OWNER : Fld := ⟨STREAM_DEF, 24, 8⟩
abbrev STREAM_DEF_GATE_SET : Fld := ⟨STREAM_DEF, 16, 2⟩
abbrev STREAM_DEF_H : Fld := ⟨STREAM_DEF, 0, 15⟩
abbrev STREAM_ESC_ADDR : Fld := ⟨STREAM_ESC, 8, 36⟩
abbrev STREAM_INIT_VA : Fld := ⟨STREAM_INIT, 0, 48⟩
abbrev STREAM_CMD_OP : Fld := ⟨STREAM_CMD, 0, 3⟩
abbrev STREAM_INFO_ERR : Fld := ⟨STREAM_INFO, 24, 8⟩
abbrev STREAM_INFO_CLAIMS : Fld := ⟨STREAM_INFO, 16, 8⟩
abbrev STREAM_INFO_STATE : Fld := ⟨STREAM_INFO, 0, 3⟩
abbrev STREAM_STAT_GRANULES_FREE : Fld := ⟨STREAM_STAT, 16, 16⟩
abbrev STREAM_STAT_RESIDENT : Fld := ⟨STREAM_STAT, 0, 11⟩
abbrev STREAM_REGISTERED_COUNT : Fld := ⟨STREAM_REGISTERED, 0, 17⟩
abbrev STREAM_SWAP_OUTS_COUNT : Fld := ⟨STREAM_SWAP_OUTS, 0, 64⟩
abbrev STREAM_SWAP_INS_COUNT : Fld := ⟨STREAM_SWAP_INS, 0, 64⟩
abbrev STREAM_ADMIT_CYC_CYCLES : Fld := ⟨STREAM_ADMIT_CYC, 0, 64⟩
abbrev STREAM_ERR_UE : Fld := ⟨STREAM_ERR, 31, 1⟩
abbrev STREAM_ERR_CE_COUNT : Fld := ⟨STREAM_ERR, 0, 16⟩
abbrev STREAM_UE_STREAM_STREAM : Fld := ⟨STREAM_UE_STREAM, 0, 16⟩
abbrev PACER_CTL_EN (n : Nat) : Fld := ⟨PACER_CTL n, 31, 1⟩
abbrev PACER_CTL_CH_EN (n : Nat) : Fld := ⟨PACER_CTL n, 24, 4⟩
abbrev PACER_CTL_KBANK (n : Nat) : Fld := ⟨PACER_CTL n, 17, 1⟩
abbrev PACER_CTL_PBANK (n : Nat) : Fld := ⟨PACER_CTL n, 16, 1⟩
abbrev PACER_STAT_RUN (n : Nat) : Fld := ⟨PACER_STAT n, 31, 1⟩
abbrev PACER_STAT_PBANK_ACT (n : Nat) : Fld := ⟨PACER_STAT n, 30, 1⟩
abbrev PACER_STAT_KBANK_ACT (n : Nat) : Fld := ⟨PACER_STAT n, 29, 1⟩
abbrev PACER_STAT_SRC_HELD (n : Nat) : Fld := ⟨PACER_STAT n, 28, 1⟩
abbrev PACER_STAT_WR_ACTIVE (n : Nat) : Fld := ⟨PACER_STAT n, 27, 1⟩
abbrev PACER_STAT_UE (n : Nat) : Fld := ⟨PACER_STAT n, 26, 1⟩
abbrev PACER_STAT_ERR (n : Nat) : Fld := ⟨PACER_STAT n, 16, 8⟩
abbrev PACER_STAT_ERR_PC (n : Nat) : Fld := ⟨PACER_STAT n, 0, 11⟩
abbrev PACER_TIME_LANE (n : Nat) : Fld := ⟨PACER_TIME n, 28, 4⟩
abbrev PACER_TIME_PERIOD_NS (n : Nat) : Fld := ⟨PACER_TIME n, 0, 20⟩
abbrev PACER_DIV_STEP_DIV (n : Nat) : Fld := ⟨PACER_DIV n, 0, 16⟩
abbrev PACER_FIRST_FIRST (n : Nat) : Fld := ⟨PACER_FIRST n, 0, 64⟩
abbrev PACER_STEP_STEP (n : Nat) : Fld := ⟨PACER_STEP n, 0, 64⟩
abbrev PACER_PERIODS_COUNT (n : Nat) : Fld := ⟨PACER_PERIODS n, 0, 64⟩
abbrev PACER_CNT_SKIPPED (n : Nat) : Fld := ⟨PACER_CNT n, 16, 16⟩
abbrev PACER_CNT_CE_COUNT (n : Nat) : Fld := ⟨PACER_CNT n, 0, 16⟩
abbrev PCH_ENTRY_ENTRY1 (n m : Nat) : Fld := ⟨PCH_ENTRY n m, 16, 11⟩
abbrev PCH_ENTRY_ENTRY0 (n m : Nat) : Fld := ⟨PCH_ENTRY n m, 0, 11⟩
abbrev PCH_CFG_RX_HOLD (n m : Nat) : Fld := ⟨PCH_CFG n m, 31, 1⟩
abbrev PCH_CFG_EVT_EN (n m : Nat) : Fld := ⟨PCH_CFG n m, 30, 1⟩
abbrev PCH_CFG_EVT_TALLY (n m : Nat) : Fld := ⟨PCH_CFG n m, 0, 14⟩
abbrev PCH_STAT_RX_MISS (n m : Nat) : Fld := ⟨PCH_STAT n m, 24, 8⟩
abbrev PCH_STAT_FEED_SKIP (n m : Nat) : Fld := ⟨PCH_STAT n m, 16, 8⟩
abbrev PCH_STAT_SAT (n m : Nat) : Fld := ⟨PCH_STAT n m, 15, 1⟩
abbrev PCH_STAT_STALE (n m : Nat) : Fld := ⟨PCH_STAT n m, 14, 1⟩
abbrev PCH_STAT_MBX_REJ (n m : Nat) : Fld := ⟨PCH_STAT n m, 13, 1⟩
abbrev PCH_STAT_HYST_LIM (n m : Nat) : Fld := ⟨PCH_STAT n m, 12, 1⟩
abbrev PCH_STAT_FLAGS (n m : Nat) : Fld := ⟨PCH_STAT n m, 0, 8⟩
abbrev PCH_MBX_CFG_SRC (n m : Nat) : Fld := ⟨PCH_MBX_CFG n m, 30, 2⟩
abbrev PCH_MBX_CFG_WIN (n m : Nat) : Fld := ⟨PCH_MBX_CFG n m, 19, 4⟩
abbrev PCH_MBX_CFG_RCPT (n m : Nat) : Fld := ⟨PCH_MBX_CFG n m, 0, 19⟩
abbrev PCH_FEED_ADDR_ADDR (n m : Nat) : Fld := ⟨PCH_FEED_ADDR n m, 5, 39⟩
abbrev PCH_MBX_SEQ_SEQ (n m : Nat) : Fld := ⟨PCH_MBX_SEQ n m, 0, 32⟩
abbrev PCH_MBX_CMT_COMMIT (n m : Nat) : Fld := ⟨PCH_MBX_CMT n m, 0, 1⟩
abbrev PCH_MBX_DATA_ALL (n m j : Nat) : Fld := ⟨PCH_MBX_DATA n m j, 0, 32⟩
abbrev PWM_BR_CFG_EN (n : Nat) : Fld := ⟨PWM_BR_CFG n, 31, 1⟩
abbrev PWM_BR_CFG_EDGE (n : Nat) : Fld := ⟨PWM_BR_CFG n, 30, 1⟩
abbrev PWM_BR_CFG_LOAD (n : Nat) : Fld := ⟨PWM_BR_CFG n, 28, 2⟩
abbrev PWM_BR_CFG_POL (n : Nat) : Fld := ⟨PWM_BR_CFG n, 22, 6⟩
abbrev PWM_BR_CFG_HALF (n : Nat) : Fld := ⟨PWM_BR_CFG n, 0, 16⟩
abbrev PWM_BR_DT_MIN_PULSE (n : Nat) : Fld := ⟨PWM_BR_DT n, 16, 10⟩
abbrev PWM_BR_DT_DT (n : Nat) : Fld := ⟨PWM_BR_DT n, 0, 10⟩
abbrev PWM_BR_FORCE_FORCE (n : Nat) : Fld := ⟨PWM_BR_FORCE n, 0, 6⟩
abbrev PWM_BR_STAT_STO (n : Nat) : Fld := ⟨PWM_BR_STAT n, 31, 1⟩
abbrev PWM_BR_STAT_TRIP (n : Nat) : Fld := ⟨PWM_BR_STAT n, 30, 1⟩
abbrev PWM_BR_STAT_PACER_OFF (n : Nat) : Fld := ⟨PWM_BR_STAT n, 29, 1⟩
abbrev SD_GRP_CFG_CLK_EN (n : Nat) : Fld := ⟨SD_GRP_CFG n, 31, 1⟩
abbrev SD_GRP_CFG_EXT (n : Nat) : Fld := ⟨SD_GRP_CFG n, 30, 1⟩
abbrev SD_GRP_CFG_DIV (n : Nat) : Fld := ⟨SD_GRP_CFG n, 0, 8⟩
abbrev SD_CFG_EN (n : Nat) : Fld := ⟨SD_CFG n, 31, 1⟩
abbrev SD_CFG_ORDER (n : Nat) : Fld := ⟨SD_CFG n, 30, 1⟩
abbrev SD_CFG_OSR_LOG2 (n : Nat) : Fld := ⟨SD_CFG n, 26, 4⟩
abbrev SD_CFG_TRIP_OSR_LOG2 (n : Nat) : Fld := ⟨SD_CFG n, 23, 3⟩
abbrev SD_CFG_TRIP_EN (n : Nat) : Fld := ⟨SD_CFG n, 22, 1⟩
abbrev SD_CFG_TRIP_BR (n : Nat) : Fld := ⟨SD_CFG n, 16, 4⟩
abbrev SD_TRIP_HI (n : Nat) : Fld := ⟨SD_TRIP n, 16, 16⟩
abbrev SD_TRIP_LO (n : Nat) : Fld := ⟨SD_TRIP n, 0, 16⟩
abbrev SD_STAT_TRIPPED (n : Nat) : Fld := ⟨SD_STAT n, 31, 1⟩
abbrev SD_STAT_NO_CLOCK (n : Nat) : Fld := ⟨SD_STAT n, 30, 1⟩
abbrev ENC_CFG_MODE (n : Nat) : Fld := ⟨ENC_CFG n, 30, 2⟩
abbrev ENC_CFG_GRAY (n : Nat) : Fld := ⟨ENC_CFG n, 29, 1⟩
abbrev ENC_CFG_BITS (n : Nat) : Fld := ⟨ENC_CFG n, 24, 5⟩
abbrev ENC_CFG_POLE_PAIRS (n : Nat) : Fld := ⟨ENC_CFG n, 16, 8⟩
abbrev ENC_CFG_LINES (n : Nat) : Fld := ⟨ENC_CFG n, 0, 16⟩
abbrev ENC_SSI_CLK_DIV (n : Nat) : Fld := ⟨ENC_SSI n, 20, 12⟩
abbrev ENC_SSI_LEAD_NS (n : Nat) : Fld := ⟨ENC_SSI n, 0, 16⟩
abbrev ENC_STAT_LOST (n : Nat) : Fld := ⟨ENC_STAT n, 31, 1⟩
abbrev ENC_STAT_ILLEGAL (n : Nat) : Fld := ⟨ENC_STAT n, 30, 1⟩
abbrev ENC_STAT_SSI_TMO (n : Nat) : Fld := ⟨ENC_STAT n, 29, 1⟩
abbrev ENC_STAT_AMPL (n : Nat) : Fld := ⟨ENC_STAT n, 28, 1⟩
abbrev ADC_CFG_EN : Fld := ⟨ADC_CFG, 0, 8⟩
abbrev ISLAND_CTL_HOLD : Fld := ⟨ISLAND_CTL, 0, 1⟩
abbrev ISLAND_STAT_HOLD : Fld := ⟨ISLAND_STAT, 31, 1⟩
abbrev ISLAND_STAT_HOLD_CAUSE : Fld := ⟨ISLAND_STAT, 28, 3⟩
abbrev ISLAND_STAT_FALLBACK : Fld := ⟨ISLAND_STAT, 27, 1⟩
abbrev ISLAND_STAT_RUN_REFUSED : Fld := ⟨ISLAND_STAT, 26, 1⟩
abbrev ISLAND_STAT_INIT_BUSY : Fld := ⟨ISLAND_STAT, 25, 1⟩
abbrev ISLAND_STAT_STO_A : Fld := ⟨ISLAND_STAT, 24, 1⟩
abbrev ISLAND_STAT_STO_B : Fld := ⟨ISLAND_STAT, 23, 1⟩
abbrev PACER_WIN_HALF : Fld := ⟨PACER_WIN, 4, 1⟩
abbrev PACER_WIN_PACER : Fld := ⟨PACER_WIN, 0, 4⟩
abbrev FUSION_CTL_EN : Fld := ⟨FUSION_CTL, 31, 1⟩
abbrev FUSION_CTL_SWAP : Fld := ⟨FUSION_CTL, 28, 1⟩
abbrev FUSION_CTL_LANE : Fld := ⟨FUSION_CTL, 24, 4⟩
abbrev FUSION_STAT_BANK : Fld := ⟨FUSION_STAT, 31, 1⟩
abbrev FUSION_STAT_CHAIN_ERR : Fld := ⟨FUSION_STAT, 30, 1⟩
abbrev FUSION_STAT_WR_ACTIVE : Fld := ⟨FUSION_STAT, 29, 1⟩
abbrev FUSION_STAT_CFG_ERR : Fld := ⟨FUSION_STAT, 28, 1⟩
abbrev FUSION_STAT_OPEN : Fld := ⟨FUSION_STAT, 0, 4⟩
abbrev FUSION_INST_CFG_LIMIT : Fld := ⟨FUSION_INST_CFG, 16, 16⟩
abbrev FUSION_INST_CFG_STEP_DIV : Fld := ⟨FUSION_INST_CFG, 0, 16⟩
abbrev FUSION_INST_FIRST_ALL : Fld := ⟨FUSION_INST_FIRST, 0, 64⟩
abbrev FUSION_INST_STEP_ALL : Fld := ⟨FUSION_INST_STEP, 0, 64⟩
abbrev FUSION_REL_TALLY_EN : Fld := ⟨FUSION_REL_TALLY, 31, 1⟩
abbrev FUSION_REL_TALLY_INDEX : Fld := ⟨FUSION_REL_TALLY, 0, 14⟩
abbrev FUSION_REL_RCPT_WIN : Fld := ⟨FUSION_REL_RCPT, 19, 4⟩
abbrev FUSION_REL_RCPT_RCPT : Fld := ⟨FUSION_REL_RCPT, 0, 19⟩
abbrev FUSION_SET_BASE_ADDR : Fld := ⟨FUSION_SET_BASE, 16, 28⟩
abbrev FUSION_SET_CFG_SLOTS : Fld := ⟨FUSION_SET_CFG, 8, 8⟩
abbrev FUSION_SET_CFG_SLOT_PAGES : Fld := ⟨FUSION_SET_CFG, 0, 8⟩
abbrev FUSION_RETRO_MON_MS : Fld := ⟨FUSION_RETRO, 16, 16⟩
abbrev FUSION_RETRO_RETRO : Fld := ⟨FUSION_RETRO, 0, 16⟩
abbrev FUSION_HIST_BASE_ADDR : Fld := ⟨FUSION_HIST_BASE, 16, 28⟩
abbrev FUSION_SET_SEQ_SEQ : Fld := ⟨FUSION_SET_SEQ, 0, 64⟩
abbrev FUSION_CNT_LATE_APPLIED : Fld := ⟨FUSION_CNT, 16, 16⟩
abbrev FUSION_CNT_LATE_DROPPED : Fld := ⟨FUSION_CNT, 0, 16⟩
abbrev FUSION_REFUSE_NO_STREAM : Fld := ⟨FUSION_REFUSE, 24, 8⟩
abbrev FUSION_REFUSE_NO_FRAME : Fld := ⟨FUSION_REFUSE, 16, 8⟩
abbrev FUSION_REFUSE_NO_LANE : Fld := ⟨FUSION_REFUSE, 8, 8⟩
abbrev FUSION_REFUSE_BAD_CFG : Fld := ⟨FUSION_REFUSE, 0, 8⟩
abbrev FUSION_ERR_UE : Fld := ⟨FUSION_ERR, 31, 1⟩
abbrev FUSION_ERR_UE_SLOT : Fld := ⟨FUSION_ERR, 16, 10⟩
abbrev FUSION_ERR_CE_COUNT : Fld := ⟨FUSION_ERR, 0, 16⟩
abbrev FUSION_ADMIT_CMD_STREAM : Fld := ⟨FUSION_ADMIT_CMD, 8, 6⟩
abbrev FUSION_ADMIT_CMD_OP : Fld := ⟨FUSION_ADMIT_CMD, 0, 2⟩
abbrev FUSION_ADMIT_INFO_ERR : Fld := ⟨FUSION_ADMIT_INFO, 24, 8⟩
abbrev FUSION_ADMIT_INFO_FRAME : Fld := ⟨FUSION_ADMIT_INFO, 8, 6⟩
abbrev FUSION_ADMIT_INFO_STREAM : Fld := ⟨FUSION_ADMIT_INFO, 0, 6⟩
abbrev FADM_CFG_EN : Fld := ⟨FADM_CFG, 31, 1⟩
abbrev FADM_CFG_WAIT : Fld := ⟨FADM_CFG, 30, 1⟩
abbrev FADM_CFG_FRAME : Fld := ⟨FADM_CFG, 24, 6⟩
abbrev FADM_CFG_PERIOD_US : Fld := ⟨FADM_CFG, 0, 20⟩
abbrev FADM_CLOCK_PAIR : Fld := ⟨FADM_CLOCK, 30, 2⟩
abbrev FADM_CLOCK_STAMP_W : Fld := ⟨FADM_CLOCK, 29, 1⟩
abbrev FADM_CLOCK_SRC_LANE : Fld := ⟨FADM_CLOCK, 24, 4⟩
abbrev FADM_CLOCK_CAP_A : Fld := ⟨FADM_CLOCK, 16, 5⟩
abbrev FADM_CLOCK_CAP_B : Fld := ⟨FADM_CLOCK, 8, 5⟩
abbrev FADM_CLOCK_K_OFF : Fld := ⟨FADM_CLOCK, 4, 4⟩
abbrev FADM_CLOCK_K_RATE : Fld := ⟨FADM_CLOCK, 0, 4⟩
abbrev FADM_FEED_WIN : Fld := ⟨FADM_FEED, 19, 4⟩
abbrev FADM_FEED_RCPT : Fld := ⟨FADM_FEED, 0, 19⟩
abbrev FADM_TOL_LOCK_NS : Fld := ⟨FADM_TOL, 16, 16⟩
abbrev FADM_TOL_TOL_US : Fld := ⟨FADM_TOL, 0, 16⟩
abbrev FADM_ADDR_ADDR : Fld := ⟨FADM_ADDR, 6, 38⟩
abbrev FADM_LAT_ALL : Fld := ⟨FADM_LAT, 0, 32⟩
abbrev FSTR_CFG_EN (n : Nat) : Fld := ⟨FSTR_CFG n, 31, 1⟩
abbrev FSTR_CFG_WAIT (n : Nat) : Fld := ⟨FSTR_CFG n, 30, 1⟩
abbrev FSTR_CFG_FRAME (n : Nat) : Fld := ⟨FSTR_CFG n, 24, 6⟩
abbrev FSTR_CFG_PERIOD_US (n : Nat) : Fld := ⟨FSTR_CFG n, 0, 20⟩
abbrev FSTR_CLOCK_PAIR (n : Nat) : Fld := ⟨FSTR_CLOCK n, 30, 2⟩
abbrev FSTR_CLOCK_STAMP_W (n : Nat) : Fld := ⟨FSTR_CLOCK n, 29, 1⟩
abbrev FSTR_CLOCK_SRC_LANE (n : Nat) : Fld := ⟨FSTR_CLOCK n, 24, 4⟩
abbrev FSTR_CLOCK_CAP_A (n : Nat) : Fld := ⟨FSTR_CLOCK n, 16, 5⟩
abbrev FSTR_CLOCK_CAP_B (n : Nat) : Fld := ⟨FSTR_CLOCK n, 8, 5⟩
abbrev FSTR_CLOCK_K_OFF (n : Nat) : Fld := ⟨FSTR_CLOCK n, 4, 4⟩
abbrev FSTR_CLOCK_K_RATE (n : Nat) : Fld := ⟨FSTR_CLOCK n, 0, 4⟩
abbrev FSTR_FEED_WIN (n : Nat) : Fld := ⟨FSTR_FEED n, 19, 4⟩
abbrev FSTR_FEED_RCPT (n : Nat) : Fld := ⟨FSTR_FEED n, 0, 19⟩
abbrev FSTR_TOL_LOCK_NS (n : Nat) : Fld := ⟨FSTR_TOL n, 16, 16⟩
abbrev FSTR_TOL_TOL_US (n : Nat) : Fld := ⟨FSTR_TOL n, 0, 16⟩
abbrev FSTR_ADDR_ADDR (n : Nat) : Fld := ⟨FSTR_ADDR n, 6, 38⟩
abbrev FSTR_OFFSET_ALL (n : Nat) : Fld := ⟨FSTR_OFFSET n, 0, 64⟩
abbrev FSTR_RATE_ALL (n : Nat) : Fld := ⟨FSTR_RATE n, 0, 32⟩
abbrev FSTR_LAT_ALL (n : Nat) : Fld := ⟨FSTR_LAT n, 0, 32⟩
abbrev FSTR_STAT_STATE (n : Nat) : Fld := ⟨FSTR_STAT n, 29, 3⟩
abbrev FSTR_STAT_LOCKED (n : Nat) : Fld := ⟨FSTR_STAT n, 28, 1⟩
abbrev FSTR_STAT_AHEAD (n : Nat) : Fld := ⟨FSTR_STAT n, 8, 8⟩
abbrev FSTR_STAT_FEED_SKIP (n : Nat) : Fld := ⟨FSTR_STAT n, 0, 8⟩
abbrev HURDLE_CTL_EN : Fld := ⟨HURDLE_CTL, 31, 1⟩
abbrev HURDLE_CTL_SRC : Fld := ⟨HURDLE_CTL, 30, 1⟩
abbrev HURDLE_STAT_CFG_ERR : Fld := ⟨HURDLE_STAT, 31, 1⟩
abbrev HURDLE_STAT_TREE_BROKEN : Fld := ⟨HURDLE_STAT, 30, 1⟩
abbrev HURDLE_STAT_BUSY : Fld := ⟨HURDLE_STAT, 29, 1⟩
abbrev HURDLE_STAT_MAP_PENDING : Fld := ⟨HURDLE_STAT, 28, 1⟩
abbrev HURDLE_STAT_NODES_FREE : Fld := ⟨HURDLE_STAT, 0, 21⟩
abbrev HURDLE_EPOCH_EPOCH : Fld := ⟨HURDLE_EPOCH, 0, 64⟩
abbrev HURDLE_MAP_BASE_ADDR : Fld := ⟨HURDLE_MAP_BASE, 6, 38⟩
abbrev HURDLE_MAP_CFG_LEAF_MM : Fld := ⟨HURDLE_MAP_CFG, 8, 7⟩
abbrev HURDLE_MAP_CFG_LEVELS : Fld := ⟨HURDLE_MAP_CFG, 0, 5⟩
abbrev HURDLE_MAP_NODES_NODES : Fld := ⟨HURDLE_MAP_NODES, 0, 21⟩
abbrev HURDLE_MAP_ORIGIN_X_ALL : Fld := ⟨HURDLE_MAP_ORIGIN_X, 0, 32⟩
abbrev HURDLE_MAP_ORIGIN_Y_ALL : Fld := ⟨HURDLE_MAP_ORIGIN_Y, 0, 32⟩
abbrev HURDLE_MAP_ORIGIN_Z_ALL : Fld := ⟨HURDLE_MAP_ORIGIN_Z, 0, 32⟩
abbrev HURDLE_SDF_BASE0_ADDR : Fld := ⟨HURDLE_SDF_BASE0, 6, 38⟩
abbrev HURDLE_SDF_BASE1_ADDR : Fld := ⟨HURDLE_SDF_BASE1, 6, 38⟩
abbrev HURDLE_SDF_CFG_EN : Fld := ⟨HURDLE_SDF_CFG, 31, 1⟩
abbrev HURDLE_SDF_CFG_ACTIVE : Fld := ⟨HURDLE_SDF_CFG, 30, 1⟩
abbrev HURDLE_SDF_CFG_NZ : Fld := ⟨HURDLE_SDF_CFG, 20, 9⟩
abbrev HURDLE_SDF_CFG_NY : Fld := ⟨HURDLE_SDF_CFG, 9, 9⟩
abbrev HURDLE_SDF_CFG_NX : Fld := ⟨HURDLE_SDF_CFG, 0, 9⟩
abbrev HURDLE_SDF_CELL_ALL : Fld := ⟨HURDLE_SDF_CELL, 0, 32⟩
abbrev HURDLE_SDF_UNIT_ALL : Fld := ⟨HURDLE_SDF_UNIT, 0, 32⟩
abbrev HURDLE_SDF_ORIGIN_X_ALL : Fld := ⟨HURDLE_SDF_ORIGIN_X, 0, 32⟩
abbrev HURDLE_SDF_ORIGIN_Y_ALL : Fld := ⟨HURDLE_SDF_ORIGIN_Y, 0, 32⟩
abbrev HURDLE_SDF_ORIGIN_Z_ALL : Fld := ⟨HURDLE_SDF_ORIGIN_Z, 0, 32⟩
abbrev HURDLE_STOP_ADDR_ADDR : Fld := ⟨HURDLE_STOP_ADDR, 4, 40⟩
abbrev HURDLE_STOP_CMD_LOAD : Fld := ⟨HURDLE_STOP_CMD, 31, 1⟩
abbrev HURDLE_STOP_CMD_INDEX : Fld := ⟨HURDLE_STOP_CMD, 0, 16⟩
abbrev HURDLE_STOP_STAT_LOADED : Fld := ⟨HURDLE_STOP_STAT, 31, 1⟩
abbrev HURDLE_STOP_STAT_VALID : Fld := ⟨HURDLE_STOP_STAT, 30, 1⟩
abbrev HURDLE_STOP_STAT_OK : Fld := ⟨HURDLE_STOP_STAT, 29, 1⟩
abbrev HURDLE_STOP_STAT_ERR : Fld := ⟨HURDLE_STOP_STAT, 28, 1⟩
abbrev HURDLE_STOP_STAT_INDEX : Fld := ⟨HURDLE_STOP_STAT, 0, 16⟩
abbrev HURDLE_STOP_EPOCH_ALL : Fld := ⟨HURDLE_STOP_EPOCH, 0, 64⟩
abbrev HURDLE_STOP_CLEAR_ALL : Fld := ⟨HURDLE_STOP_CLEAR, 0, 32⟩
abbrev HURDLE_STOP_TALLY_EN : Fld := ⟨HURDLE_STOP_TALLY, 31, 1⟩
abbrev HURDLE_STOP_TALLY_INDEX : Fld := ⟨HURDLE_STOP_TALLY, 0, 14⟩
abbrev HURDLE_MAP_STAT_COARSENED : Fld := ⟨HURDLE_MAP_STAT, 16, 16⟩
abbrev HURDLE_MAP_STAT_SKIPPED : Fld := ⟨HURDLE_MAP_STAT, 0, 16⟩
abbrev HURDLE_CNT_FALLBACKS : Fld := ⟨HURDLE_CNT, 16, 16⟩
abbrev HURDLE_CNT_RESTARTS : Fld := ⟨HURDLE_CNT, 0, 16⟩
abbrev HURDLE_FINISH_CNT_STOP : Fld := ⟨HURDLE_FINISH_CNT, 16, 16⟩
abbrev HURDLE_FINISH_CNT_ALTERNATE : Fld := ⟨HURDLE_FINISH_CNT, 0, 16⟩
abbrev HURDLE_TESTS_ALL : Fld := ⟨HURDLE_TESTS, 0, 64⟩
abbrev HURDLE_BATCHES_ALL : Fld := ⟨HURDLE_BATCHES, 0, 64⟩
abbrev HURDLE_ERR_UE : Fld := ⟨HURDLE_ERR, 31, 1⟩
abbrev HURDLE_ERR_SDF_BROKEN : Fld := ⟨HURDLE_ERR, 30, 1⟩
abbrev HURDLE_ERR_CE_COUNT : Fld := ⟨HURDLE_ERR, 0, 16⟩
abbrev PTP_DOM_CFG_EN (n : Nat) : Fld := ⟨PTP_DOM_CFG n, 31, 1⟩
abbrev PTP_DOM_CFG_LANE (n : Nat) : Fld := ⟨PTP_DOM_CFG n, 24, 4⟩
abbrev PTP_DOM_CFG_DOMAIN_NUM (n : Nat) : Fld := ⟨PTP_DOM_CFG n, 16, 8⟩
abbrev PTP_DOM_CFG_MAJOR_SDO_ID (n : Nat) : Fld := ⟨PTP_DOM_CFG n, 12, 4⟩
abbrev PTP_DOM_CFG_SYNC_LOSS (n : Nat) : Fld := ⟨PTP_DOM_CFG n, 8, 4⟩
abbrev PTP_DOM_CFG_PORT_MASK (n : Nat) : Fld := ⟨PTP_DOM_CFG n, 4, 4⟩
abbrev PTP_DOM_STAT_LAST_SEQ (n : Nat) : Fld := ⟨PTP_DOM_STAT n, 16, 16⟩
abbrev PTP_DOM_STAT_CFG_ERR (n : Nat) : Fld := ⟨PTP_DOM_STAT n, 3, 1⟩
abbrev PTP_DOM_STAT_REFUSED (n : Nat) : Fld := ⟨PTP_DOM_STAT n, 2, 1⟩
abbrev PTP_DOM_STAT_SYNC_LOST (n : Nat) : Fld := ⟨PTP_DOM_STAT n, 1, 1⟩
abbrev PTP_DOM_STAT_SYNC_SEEN (n : Nat) : Fld := ⟨PTP_DOM_STAT n, 0, 1⟩
abbrev PTP_OFFSET_OFFSET (n : Nat) : Fld := ⟨PTP_OFFSET n, 0, 64⟩
abbrev PTP_PDELAY_DELAY (n : Nat) : Fld := ⟨PTP_PDELAY n, 0, 64⟩
abbrev TC_CFG_ONE_STEP : Fld := ⟨TC_CFG, 16, 4⟩
abbrev TC_CFG_PDELAY_EN : Fld := ⟨TC_CFG, 8, 4⟩
abbrev TC_CFG_FUP_TMO : Fld := ⟨TC_CFG, 0, 8⟩
abbrev TC_STAT_FUP_EXPIRED : Fld := ⟨TC_STAT, 0, 16⟩
abbrev TS_META_VALID : Fld := ⟨TS_META, 31, 1⟩
abbrev TS_META_TX : Fld := ⟨TS_META, 30, 1⟩
abbrev TS_META_SLOT : Fld := ⟨TS_META, 28, 2⟩
abbrev TS_META_MSG_TYPE : Fld := ⟨TS_META, 24, 4⟩
abbrev TS_META_SEQ_ID : Fld := ⟨TS_META, 0, 16⟩
abbrev TS_DATA_STAMP : Fld := ⟨TS_DATA, 0, 64⟩
abbrev LAUNCH_CFG_EN (n : Nat) : Fld := ⟨LAUNCH_CFG n, 31, 1⟩
abbrev LAUNCH_CFG_LANE (n : Nat) : Fld := ⟨LAUNCH_CFG n, 24, 4⟩
abbrev LAUNCH_CFG_LATE_WIN (n : Nat) : Fld := ⟨LAUNCH_CFG n, 16, 8⟩
abbrev LAUNCH_CFG_MAX_AHEAD (n : Nat) : Fld := ⟨LAUNCH_CFG n, 8, 8⟩
abbrev LAUNCH_STAT_DROP_LATE (n : Nat) : Fld := ⟨LAUNCH_STAT n, 16, 16⟩
abbrev LAUNCH_STAT_DROP_AHEAD (n : Nat) : Fld := ⟨LAUNCH_STAT n, 0, 16⟩
abbrev NET_MAC_MAC : Fld := ⟨NET_MAC, 0, 48⟩
abbrev NET_PORT_CFG_EN (n : Nat) : Fld := ⟨NET_PORT_CFG n, 31, 1⟩
abbrev NET_PORT_CFG_FEC (n : Nat) : Fld := ⟨NET_PORT_CFG n, 30, 1⟩
abbrev NET_PORT_CFG_INT_MC (n : Nat) : Fld := ⟨NET_PORT_CFG n, 29, 1⟩
abbrev NET_PORT_CFG_GATE_EN (n : Nat) : Fld := ⟨NET_PORT_CFG n, 28, 1⟩
abbrev NET_PORT_CFG_PVID (n : Nat) : Fld := ⟨NET_PORT_CFG n, 0, 12⟩
abbrev NET_PORT_CNT_LINK (n : Nat) : Fld := ⟨NET_PORT_CNT n, 31, 1⟩
abbrev NET_PORT_CNT_FILTERED (n : Nat) : Fld := ⟨NET_PORT_CNT n, 0, 16⟩
abbrev NET_GATE_BASE_ALL (n : Nat) : Fld := ⟨NET_GATE_BASE n, 0, 64⟩
abbrev NET_GATE_CYCLE_ALL (n : Nat) : Fld := ⟨NET_GATE_CYCLE n, 0, 32⟩
abbrev NET_LS_CFG_EN (n m : Nat) : Fld := ⟨NET_LS_CFG n m, 31, 1⟩
abbrev NET_LS_CFG_JUDGED_ONLY (n m : Nat) : Fld := ⟨NET_LS_CFG n m, 30, 1⟩
abbrev NET_LS_CFG_JUDGED (n m : Nat) : Fld := ⟨NET_LS_CFG n m, 29, 1⟩
abbrev NET_LS_CFG_LEN (n m : Nat) : Fld := ⟨NET_LS_CFG n m, 0, 9⟩
abbrev NET_RXB_CFG_EN (n : Nat) : Fld := ⟨NET_RXB_CFG n, 31, 1⟩
abbrev NET_RXB_CFG_PORTS (n : Nat) : Fld := ⟨NET_RXB_CFG n, 24, 4⟩
abbrev NET_RXB_CFG_VID (n : Nat) : Fld := ⟨NET_RXB_CFG n, 12, 12⟩
abbrev NET_RXB_ETYPE_ETYPE (n : Nat) : Fld := ⟨NET_RXB_ETYPE n, 0, 16⟩
abbrev NET_RXB_MAC_MAC (n : Nat) : Fld := ⟨NET_RXB_MAC n, 0, 48⟩
abbrev NET_RXB_SEQ_ALL (n : Nat) : Fld := ⟨NET_RXB_SEQ n, 0, 32⟩
abbrev RELAY_LINK_STAT_STATE (n : Nat) : Fld := ⟨RELAY_LINK_STAT n, 30, 2⟩
abbrev RELAY_LINK_STAT_LANE_MASK (n : Nat) : Fld := ⟨RELAY_LINK_STAT n, 4, 8⟩
abbrev RELAY_LINK_STAT_LANES (n : Nat) : Fld := ⟨RELAY_LINK_STAT n, 0, 4⟩
abbrev RELAY_LINK_CTL_RETRAIN (n : Nat) : Fld := ⟨RELAY_LINK_CTL n, 0, 1⟩
abbrev RELAY_LINK_CNT_RETRAINS (n : Nat) : Fld := ⟨RELAY_LINK_CNT n, 16, 16⟩
abbrev RELAY_LINK_CNT_CRC_ERR (n : Nat) : Fld := ⟨RELAY_LINK_CNT n, 0, 16⟩
abbrev RELAY_PAIR_CFG_EN : Fld := ⟨RELAY_PAIR_CFG, 31, 1⟩
abbrev RELAY_PAIR_CFG_ROLE_PREF : Fld := ⟨RELAY_PAIR_CFG, 30, 1⟩
abbrev RELAY_PAIR_CFG_YIELD_SSR : Fld := ⟨RELAY_PAIR_CFG, 29, 1⟩
abbrev RELAY_PAIR_CFG_YIELD_JUDGE : Fld := ⟨RELAY_PAIR_CFG, 28, 1⟩
abbrev RELAY_PAIR_CFG_TRACKS : Fld := ⟨RELAY_PAIR_CFG, 27, 1⟩
abbrev RELAY_PAIR_CFG_SERVE_IMG : Fld := ⟨RELAY_PAIR_CFG, 26, 1⟩
abbrev RELAY_PAIR_CFG_ALT_EN : Fld := ⟨RELAY_PAIR_CFG, 25, 1⟩
abbrev RELAY_PAIR_CFG_ALT_LINK : Fld := ⟨RELAY_PAIR_CFG, 23, 2⟩
abbrev RELAY_PAIR_CFG_LINK : Fld := ⟨RELAY_PAIR_CFG, 21, 2⟩
abbrev RELAY_PAIR_CFG_BR_MASK : Fld := ⟨RELAY_PAIR_CFG, 10, 11⟩
abbrev RELAY_PAIR_CFG_HB_TMO : Fld := ⟨RELAY_PAIR_CFG, 0, 10⟩
abbrev RELAY_PAIR_CFG2_BR_MASK11 : Fld := ⟨RELAY_PAIR_CFG2, 0, 1⟩
abbrev RELAY_PAIR_STAT_STATE : Fld := ⟨RELAY_PAIR_STAT, 30, 2⟩
abbrev RELAY_PAIR_STAT_DUTY : Fld := ⟨RELAY_PAIR_STAT, 29, 1⟩
abbrev RELAY_PAIR_STAT_DUTY_IN : Fld := ⟨RELAY_PAIR_STAT, 28, 1⟩
abbrev RELAY_PAIR_STAT_SPLIT : Fld := ⟨RELAY_PAIR_STAT, 27, 1⟩
abbrev RELAY_PAIR_STAT_LINE_FAULT : Fld := ⟨RELAY_PAIR_STAT, 26, 1⟩
abbrev RELAY_PAIR_STAT_CTX_ERR : Fld := ⟨RELAY_PAIR_STAT, 25, 1⟩
abbrev RELAY_PAIR_STAT_HB_MAIN : Fld := ⟨RELAY_PAIR_STAT, 24, 1⟩
abbrev RELAY_PAIR_STAT_HB_ALT : Fld := ⟨RELAY_PAIR_STAT, 23, 1⟩
abbrev RELAY_PAIR_STAT_ERR : Fld := ⟨RELAY_PAIR_STAT, 0, 8⟩
abbrev RELAY_PAIR_CMD_OP : Fld := ⟨RELAY_PAIR_CMD, 0, 2⟩
abbrev RELAY_PAIR_EXPECT_ALL : Fld := ⟨RELAY_PAIR_EXPECT, 0, 64⟩
abbrev RELAY_PAIR_PARTNER_ALL : Fld := ⟨RELAY_PAIR_PARTNER, 0, 64⟩
abbrev RELAY_MIRROR_SENT_ALL : Fld := ⟨RELAY_MIRROR_SENT, 0, 64⟩
abbrev RELAY_MIRROR_APPLIED_ALL : Fld := ⟨RELAY_MIRROR_APPLIED, 0, 64⟩
abbrev RELAY_FAILOVER_CNT_TAKEOVERS : Fld := ⟨RELAY_FAILOVER_CNT, 16, 16⟩
abbrev RELAY_FAILOVER_CNT_YIELDS : Fld := ⟨RELAY_FAILOVER_CNT, 0, 16⟩
abbrev RELAY_CTX_MASK_ALL (n : Nat) : Fld := ⟨RELAY_CTX_MASK n, 0, 32⟩
abbrev RELAY_GRP_CFG_EN : Fld := ⟨RELAY_GRP_CFG, 31, 1⟩
abbrev RELAY_GRP_CFG_REACHABLE : Fld := ⟨RELAY_GRP_CFG, 8, 8⟩
abbrev RELAY_GRP_CFG_SIZE : Fld := ⟨RELAY_GRP_CFG, 4, 4⟩
abbrev RELAY_GRP_CFG_INDEX : Fld := ⟨RELAY_GRP_CFG, 0, 3⟩
abbrev RELAY_GRP_ROUTE_ALL : Fld := ⟨RELAY_GRP_ROUTE, 0, 32⟩
abbrev RELAY_GCH_CFG_EN (n : Nat) : Fld := ⟨RELAY_GCH_CFG n, 31, 1⟩
abbrev RELAY_GCH_CFG_DIR (n : Nat) : Fld := ⟨RELAY_GCH_CFG n, 30, 1⟩
abbrev RELAY_GCH_CFG_PEER (n : Nat) : Fld := ⟨RELAY_GCH_CFG n, 27, 3⟩
abbrev RELAY_GCH_CFG_PEER_CH (n : Nat) : Fld := ⟨RELAY_GCH_CFG n, 23, 4⟩
abbrev RELAY_GCH_CFG_LEN (n : Nat) : Fld := ⟨RELAY_GCH_CFG n, 0, 19⟩
abbrev RELAY_GCH_RCPT_WIN (n : Nat) : Fld := ⟨RELAY_GCH_RCPT n, 19, 4⟩
abbrev RELAY_GCH_RCPT_RCPT (n : Nat) : Fld := ⟨RELAY_GCH_RCPT n, 0, 19⟩
abbrev RELAY_GCH_TALLY_EN (n : Nat) : Fld := ⟨RELAY_GCH_TALLY n, 31, 1⟩
abbrev RELAY_GCH_TALLY_INDEX (n : Nat) : Fld := ⟨RELAY_GCH_TALLY n, 0, 14⟩
abbrev RELAY_GCH_ADDR_ADDR (n : Nat) : Fld := ⟨RELAY_GCH_ADDR n, 6, 38⟩
abbrev RELAY_GCH_CNT_TRANSFERS (n : Nat) : Fld := ⟨RELAY_GCH_CNT n, 16, 16⟩
abbrev RELAY_GCH_CNT_DROPS (n : Nat) : Fld := ⟨RELAY_GCH_CNT n, 0, 16⟩
abbrev RELAY_IMG_CMD_OP : Fld := ⟨RELAY_IMG_CMD, 0, 2⟩
abbrev RELAY_IMG_STAT_STATE : Fld := ⟨RELAY_IMG_STAT, 30, 2⟩
abbrev RELAY_IMG_STAT_CRC_OK : Fld := ⟨RELAY_IMG_STAT, 29, 1⟩
abbrev RELAY_IMG_STAT_ERR : Fld := ⟨RELAY_IMG_STAT, 24, 5⟩
abbrev RELAY_IMG_STAT_DONE_KIB : Fld := ⟨RELAY_IMG_STAT, 0, 24⟩
abbrev JUDGE_STAT_CFG_VALID : Fld := ⟨JUDGE_STAT, 31, 1⟩
abbrev JUDGE_STAT_LINK_UP : Fld := ⟨JUDGE_STAT, 30, 1⟩
abbrev JUDGE_STAT_FALLBACK : Fld := ⟨JUDGE_STAT, 29, 1⟩
abbrev JUDGE_STAT_LOCKOUT : Fld := ⟨JUDGE_STAT, 28, 1⟩
abbrev JUDGE_STAT_ENABLE_REQUIRED : Fld := ⟨JUDGE_STAT, 27, 1⟩
abbrev JUDGE_STAT_STO_TEST_DUE : Fld := ⟨JUDGE_STAT, 26, 1⟩
abbrev JUDGE_STAT_OUTPUTS : Fld := ⟨JUDGE_STAT, 8, 8⟩
abbrev JUDGE_STAT_REJOINED : Fld := ⟨JUDGE_STAT, 0, 8⟩
abbrev JUDGE_CAUSE_LANE15 : Fld := ⟨JUDGE_CAUSE, 32, 32⟩
abbrev JUDGE_CAUSE_INDEX : Fld := ⟨JUDGE_CAUSE, 16, 8⟩
abbrev JUDGE_CAUSE_CAUSE : Fld := ⟨JUDGE_CAUSE, 0, 8⟩
abbrev JUDGE_CFG_CRC_ALL : Fld := ⟨JUDGE_CFG_CRC, 0, 32⟩
abbrev JUDGE_STO_CMD : Fld := ⟨JUDGE_STO, 28, 4⟩
abbrev JUDGE_STO_A_RB : Fld := ⟨JUDGE_STO, 24, 4⟩
abbrev JUDGE_STO_B_RB : Fld := ⟨JUDGE_STO, 20, 4⟩
abbrev JUDGE_STO_SS1 : Fld := ⟨JUDGE_STO, 16, 4⟩
abbrev JUDGE_STO_LATCHED : Fld := ⟨JUDGE_STO, 12, 4⟩
abbrev JUDGE_INPUTS_ESTOP_A : Fld := ⟨JUDGE_INPUTS, 31, 1⟩
abbrev JUDGE_INPUTS_ESTOP_B : Fld := ⟨JUDGE_INPUTS, 30, 1⟩
abbrev JUDGE_INPUTS_ENABLE_A : Fld := ⟨JUDGE_INPUTS, 29, 1⟩
abbrev JUDGE_INPUTS_ENABLE_B : Fld := ⟨JUDGE_INPUTS, 28, 1⟩
abbrev JUDGE_INPUTS_ESTOP_FAULT : Fld := ⟨JUDGE_INPUTS, 27, 1⟩
abbrev JUDGE_INPUTS_ENABLE_FAULT : Fld := ⟨JUDGE_INPUTS, 26, 1⟩
abbrev JUDGE_LINK_CRC_DROP : Fld := ⟨JUDGE_LINK, 16, 16⟩
abbrev JUDGE_LINK_SEQ_DROP : Fld := ⟨JUDGE_LINK, 8, 8⟩
abbrev JUDGE_LINK_COPY_DROP : Fld := ⟨JUDGE_LINK, 0, 8⟩
abbrev JUDGE_AUDIT_WITHDRAWN : Fld := ⟨JUDGE_AUDIT, 25, 7⟩
abbrev JUDGE_AUDIT_ENG_WITHDRAWN : Fld := ⟨JUDGE_AUDIT, 17, 8⟩
abbrev JUDGE_AUDIT_MAX_AGE : Fld := ⟨JUDGE_AUDIT, 0, 16⟩
abbrev JUDGE_AUDIT_FAIL_FAILED : Fld := ⟨JUDGE_AUDIT_FAIL, 31, 1⟩
abbrev JUDGE_AUDIT_FAIL_KIND : Fld := ⟨JUDGE_AUDIT_FAIL, 30, 1⟩
abbrev JUDGE_AUDIT_FAIL_STEP : Fld := ⟨JUDGE_AUDIT_FAIL, 16, 6⟩
abbrev JUDGE_AUDIT_FAIL_INDEX : Fld := ⟨JUDGE_AUDIT_FAIL, 0, 12⟩
abbrev JOUT_STAT_LAST (n : Nat) : Fld := ⟨JOUT_STAT n, 30, 2⟩
abbrev JOUT_STAT_REJOINED (n : Nat) : Fld := ⟨JOUT_STAT n, 29, 1⟩
abbrev JOUT_STAT_ENABLED (n : Nat) : Fld := ⟨JOUT_STAT n, 28, 1⟩
abbrev JOUT_STAT_WINDOW (n : Nat) : Fld := ⟨JOUT_STAT n, 21, 7⟩
abbrev JOUT_STAT_SEQ (n : Nat) : Fld := ⟨JOUT_STAT n, 0, 16⟩
abbrev JOUT_CNT_DISAGREE (n : Nat) : Fld := ⟨JOUT_CNT n, 16, 16⟩
abbrev JOUT_CNT_LATE (n : Nat) : Fld := ⟨JOUT_CNT n, 8, 8⟩
abbrev JOUT_CNT_STRAY (n : Nat) : Fld := ⟨JOUT_CNT n, 0, 8⟩
abbrev JTASK_STAT_ENABLED (n : Nat) : Fld := ⟨JTASK_STAT n, 31, 1⟩
abbrev JTASK_STAT_ARMED (n : Nat) : Fld := ⟨JTASK_STAT n, 30, 1⟩
abbrev JTASK_STAT_VIOLATIONS (n : Nat) : Fld := ⟨JTASK_STAT n, 0, 16⟩
abbrev PORT_STANDING_RIGHTS (n : Nat) : Fld := ⟨PORT_STANDING n, 0, 13⟩
abbrev PORT_GRANT_GRANT (n : Nat) : Fld := ⟨PORT_GRANT n, 0, 4⟩
abbrev PORT_DENY_CNT_COUNT (n : Nat) : Fld := ⟨PORT_DENY_CNT n, 0, 16⟩
abbrev PORT_DENY_LAST_REQUESTER : Fld := ⟨PORT_DENY_LAST, 58, 6⟩
abbrev PORT_DENY_LAST_RIGHT : Fld := ⟨PORT_DENY_LAST, 54, 4⟩
abbrev PORT_DENY_LAST_ADDR : Fld := ⟨PORT_DENY_LAST, 0, 44⟩
abbrev PORT_STRAP_SVC : Fld := ⟨PORT_STRAP, 1, 1⟩
abbrev PORT_STRAP_PCIE_EP : Fld := ⟨PORT_STRAP, 0, 1⟩
abbrev PORT_HP_STAT_CHANGED : Fld := ⟨PORT_HP_STAT, 16, 16⟩
abbrev PORT_HP_STAT_LEVEL : Fld := ⟨PORT_HP_STAT, 0, 16⟩
abbrev PORT_HP_CFG_TALLY_EN : Fld := ⟨PORT_HP_CFG, 31, 1⟩
abbrev PORT_HP_CFG_TALLY : Fld := ⟨PORT_HP_CFG, 15, 14⟩
abbrev PORT_HP_CFG_DEBOUNCE_MS : Fld := ⟨PORT_HP_CFG, 0, 8⟩
abbrev PORT_HP_EVT_ARRIVED : Fld := ⟨PORT_HP_EVT, 16, 16⟩
abbrev PORT_HP_EVT_DEPARTED : Fld := ⟨PORT_HP_EVT, 0, 16⟩
abbrev PORT_PCIE_STAT_ROOT : Fld := ⟨PORT_PCIE_STAT, 31, 1⟩
abbrev PORT_PCIE_STAT_UP : Fld := ⟨PORT_PCIE_STAT, 30, 1⟩
abbrev PORT_PCIE_STAT_WIDTH : Fld := ⟨PORT_PCIE_STAT, 8, 4⟩
abbrev PORT_PCIE_STAT_RATE : Fld := ⟨PORT_PCIE_STAT, 0, 3⟩
abbrev PORT_PCIE_BAR2_BASE (n : Nat) : Fld := ⟨PORT_PCIE_BAR2 n, 30, 14⟩
abbrev PORT_PCIE_BAR2_SIZE_LOG2 (n : Nat) : Fld := ⟨PORT_PCIE_BAR2 n, 0, 4⟩
abbrev PORT_PCIE_MSIX_VALUE (n : Nat) : Fld := ⟨PORT_PCIE_MSIX n, 0, 16⟩
abbrev CAM_CFG_EN (n : Nat) : Fld := ⟨CAM_CFG n, 31, 1⟩
abbrev CAM_CFG_LANES (n : Nat) : Fld := ⟨CAM_CFG n, 28, 3⟩
abbrev CAM_CFG_VC (n : Nat) : Fld := ⟨CAM_CFG n, 24, 4⟩
abbrev CAM_CFG_DT (n : Nat) : Fld := ⟨CAM_CFG n, 18, 6⟩
abbrev CAM_CFG_OUT_FMT (n : Nat) : Fld := ⟨CAM_CFG n, 16, 2⟩
abbrev CAM_CFG_BAYER (n : Nat) : Fld := ⟨CAM_CFG n, 14, 2⟩
abbrev CAM_CFG_LANE (n : Nat) : Fld := ⟨CAM_CFG n, 8, 4⟩
abbrev CAM_CFG_COUNT (n : Nat) : Fld := ⟨CAM_CFG n, 4, 4⟩
abbrev CAM_CFG_STRIDE (n : Nat) : Fld := ⟨CAM_CFG n, 0, 4⟩
abbrev CAM_SIZE_H (n : Nat) : Fld := ⟨CAM_SIZE n, 16, 16⟩
abbrev CAM_SIZE_W (n : Nat) : Fld := ⟨CAM_SIZE n, 0, 16⟩
abbrev CAM_RCPT_WIN (n : Nat) : Fld := ⟨CAM_RCPT n, 19, 4⟩
abbrev CAM_RCPT_RCPT (n : Nat) : Fld := ⟨CAM_RCPT n, 0, 19⟩
abbrev CAM_TALLY_EN (n : Nat) : Fld := ⟨CAM_TALLY n, 31, 1⟩
abbrev CAM_TALLY_INDEX (n : Nat) : Fld := ⟨CAM_TALLY n, 0, 14⟩
abbrev CAM_BUF_BASE_ADDR (n : Nat) : Fld := ⟨CAM_BUF_BASE n, 16, 28⟩
abbrev CAM_IN_SIZE_H (n : Nat) : Fld := ⟨CAM_IN_SIZE n, 16, 16⟩
abbrev CAM_IN_SIZE_W (n : Nat) : Fld := ⟨CAM_IN_SIZE n, 0, 16⟩
abbrev CAM_STAT_DROP (n : Nat) : Fld := ⟨CAM_STAT n, 16, 16⟩
abbrev CAM_STAT_ERR (n : Nat) : Fld := ⟨CAM_STAT n, 0, 16⟩
abbrev BUS_CFG_EN (n : Nat) : Fld := ⟨BUS_CFG n, 31, 1⟩
abbrev BUS_CFG_HJ_EN (n : Nat) : Fld := ⟨BUS_CFG n, 30, 1⟩
abbrev BUS_CFG_MODE (n : Nat) : Fld := ⟨BUS_CFG n, 28, 2⟩
abbrev BUS_CFG_DIV (n : Nat) : Fld := ⟨BUS_CFG n, 0, 10⟩
abbrev BUS_TX_ALL (n : Nat) : Fld := ⟨BUS_TX n, 0, 32⟩
abbrev BUS_RX_ALL (n : Nat) : Fld := ⟨BUS_RX n, 0, 32⟩
abbrev BUS_STAT_REFUSED (n : Nat) : Fld := ⟨BUS_STAT n, 24, 8⟩
abbrev BUS_STAT_TARGETS (n : Nat) : Fld := ⟨BUS_STAT n, 20, 4⟩
abbrev BUS_STAT_RX_LEVEL (n : Nat) : Fld := ⟨BUS_STAT n, 7, 7⟩
abbrev BUS_STAT_TX_FREE (n : Nat) : Fld := ⟨BUS_STAT n, 0, 7⟩
abbrev PWR_CAP_EFFECTIVE : Fld := ⟨PWR_CAP, 16, 8⟩
abbrev PWR_CAP_WATTS : Fld := ⟨PWR_CAP, 0, 8⟩
abbrev PWR_STAT_CAP_UNMET : Fld := ⟨PWR_STAT, 31, 1⟩
abbrev PWR_STAT_STRETCH_OVER : Fld := ⟨PWR_STAT, 30, 1⟩
abbrev PWR_STAT_THERM_HOT : Fld := ⟨PWR_STAT, 29, 1⟩
abbrev PWR_STAT_THERM_TRIP : Fld := ⟨PWR_STAT, 28, 1⟩
abbrev PWR_STAT_CAPPING : Fld := ⟨PWR_STAT, 27, 1⟩
abbrev PWR_STAT_PLL_UNLOCK : Fld := ⟨PWR_STAT, 8, 12⟩
abbrev PWR_MEAS_AVG : Fld := ⟨PWR_MEAS, 16, 16⟩
abbrev PWR_MEAS_PEAK : Fld := ⟨PWR_MEAS, 0, 16⟩
abbrev PWR_THERM_HOT_C : Fld := ⟨PWR_THERM, 16, 8⟩
abbrev PWR_THERM_PEAK_C : Fld := ⟨PWR_THERM, 8, 8⟩
abbrev PWR_THERM_TEMP_C : Fld := ⟨PWR_THERM, 0, 8⟩
abbrev PWR_DROOP_CFG_DROOP_MV : Fld := ⟨PWR_DROOP_CFG, 0, 8⟩
abbrev PWR_DROOP_LAST_SENSOR : Fld := ⟨PWR_DROOP_LAST, 0, 6⟩
abbrev PWR_STRETCH_CYC_ALL : Fld := ⟨PWR_STRETCH_CYC, 0, 64⟩
abbrev PWR_GAP_CYC_ALL : Fld := ⟨PWR_GAP_CYC, 0, 64⟩

end Reg

/-- Registers of the SYS block. -/
def regTableSys : List RegInfo := [
  ⟨"SYS_ID", 0x00000, 32, [], 0x0, 0x0, 0x0, 0x0, 0x0⟩,
  ⟨"SYS_SERIAL", 0x00008, 64, [], 0x0, 0x0, 0x0, 0x0, 0x0⟩,
  ⟨"SYS_FW_VER", 0x00010, 32, [], 0x0, 0x0, 0x0, 0x0, 0x0⟩,
  ⟨"SYS_CAPS", 0x00018, 64, [], 0x0, 0x0, 0x0, 0x0, 0x0⟩,
  ⟨"SYS_START", 0x00020, 32, [], 0x0, 0x0, 0x0, 0x0, 0x30000000⟩,
  ⟨"SYS_START_MS", 0x00024, 32, [], 0x0, 0x0, 0x0, 0x0, 0x0⟩,
  ⟨"SYS_UPTIME", 0x00028, 64, [], 0x0, 0x0, 0x0, 0x0, 0x0⟩,
  ⟨"SYS_RESET_CMD", 0x00040, 32, [], 0x0, 0x0, 0x0, 0x3, 0x0⟩,
  ⟨"SYS_RESET_STAT", 0x00044, 32, [], 0x0, 0x40000000, 0x0, 0x0, 0x0⟩,
  ⟨"SYS_SSR_COUNT", 0x00048, 64, [], 0x0, 0x0, 0x0, 0x0, 0x0⟩,
  ⟨"SYS_SSR_TIME", 0x00050, 64, [], 0x0, 0x0, 0x0, 0x0, 0x0⟩,
  ⟨"SYS_SSR_DUR", 0x00058, 32, [], 0x0, 0x0, 0x0, 0x0, 0x0⟩,
  ⟨"SYS_MINT_CMD", 0x00060, 32, [], 0x0, 0x0, 0x0, 0x3, 0x0⟩,
  ⟨"SYS_MINT_STAT", 0x00064, 32, [], 0x0, 0x0, 0x0, 0x0, 0x0⟩,
  ⟨"INC_CNT", 0x00100, 32, [(0x4, 13)], 0x0, 0x0, 0x0, 0x0, 0x0⟩,
  ⟨"SYS_INC_CMD", 0x00140, 32, [], 0x0, 0x0, 0x0, 0xF03, 0x0⟩,
  ⟨"SYS_INC_STAT", 0x00144, 32, [], 0x0, 0x0, 0x0, 0x0, 0x0⟩,
  ⟨"SYS_NOTE_SEQ", 0x00148, 64, [], 0x0, 0x0, 0x0, 0x0, 0x0⟩,
  ⟨"INC_REC", 0x01000, 64, [(0x40, 13), (0x8, 8)], 0x0, 0x0, 0x0, 0x0, 0x0⟩,
  ⟨"SYS_NOTE", 0x02000, 64, [(0x20, 64), (0x8, 4)], 0x0, 0x0, 0x0, 0x0, 0x0⟩]

/-- Registers of the LANE block. -/
def regTableLane : List RegInfo := [
  ⟨"LANE_CFG", 0x10000, 32, [(0x40, 16)], 0x80FF8F0F, 0x0, 0x0, 0x0, 0x0⟩,
  ⟨"LANE_STAT", 0x10004, 32, [(0x40, 16)], 0x0, 0x70, 0x0, 0x0, 0x0⟩,
  ⟨"LANE_VALUE", 0x10008, 64, [(0x40, 16)], 0xFFFFFFFFFFFFFFFF, 0x0, 0x0, 0x0, 0x0⟩,
  ⟨"LANE_INCR", 0x10010, 64, [(0x40, 16)], 0xFFFFFFFFFFFFFFFF, 0x0, 0x0, 0x0, 0x500000000⟩,
  ⟨"LANE_RATE", 0x10018, 32, [(0x40, 16)], 0xFFFFFFFF, 0x0, 0x0, 0x0, 0x0⟩,
  ⟨"LANE_STEP_LIM", 0x1001C, 32, [(0x40, 16)], 0xFFFFFFFF, 0x0, 0x0, 0x0, 0x3E8⟩,
  ⟨"LANE_STEP", 0x10020, 64, [(0x40, 16)], 0x0, 0x0, 0x0, 0xFFFFFFFFFFFFFFFF, 0x0⟩,
  ⟨"LANE_STEP_FORCE", 0x10028, 64, [(0x40, 16)], 0x0, 0x0, 0x0, 0xFFFFFFFFFFFFFFFF, 0x0⟩,
  ⟨"LANE_EPOCH", 0x10030, 64, [(0x40, 16)], 0x0, 0x0, 0x0, 0x0, 0x0⟩,
  ⟨"CUE_SEL", 0x11000, 32, [], 0xFFF, 0x0, 0x0, 0x0, 0x0⟩,
  ⟨"CUE_CFG", 0x11004, 32, [], 0xFFFFF08F, 0x0, 0x0, 0x0, 0x10000⟩,
  ⟨"CUE_TARGET", 0x11008, 64, [], 0xFFFFFFFFFFFFFFFF, 0x0, 0x0, 0x0, 0x0⟩,
  ⟨"CUE_STEP", 0x11010, 64, [], 0xFFFFFFFFFFFFFFFF, 0x0, 0x0, 0x0, 0x0⟩,
  ⟨"CUE_ARG", 0x11018, 32, [], 0xFFFFFFFF, 0x0, 0x0, 0x0, 0x0⟩,
  ⟨"CUE_DIV", 0x1101C, 32, [], 0xFFFF, 0x0, 0x0, 0x0, 0x1⟩,
  ⟨"CUE_CMD", 0x11020, 32, [], 0x0, 0x0, 0x0, 0x3, 0x0⟩,
  ⟨"CUE_STAT", 0x11024, 32, [], 0x0, 0x0, 0x0, 0x0, 0x0⟩,
  ⟨"CAP_CFG", 0x12000, 32, [(0x10, 32)], 0x80030FFF, 0x0, 0x0, 0x0, 0x0⟩,
  ⟨"CAP_STAT", 0x12004, 32, [(0x10, 32)], 0x0, 0x80000000, 0x0, 0x0, 0x0⟩,
  ⟨"CAP_DATA", 0x12008, 64, [(0x10, 32)], 0x0, 0x0, 0x0, 0x0, 0x0⟩]

/-- Registers of the START block. -/
def regTableStart : List RegInfo := [
  ⟨"START_CTL", 0x20000, 32, [], 0xFF01, 0x0, 0x0, 0x0, 0x800⟩,
  ⟨"START_STAT", 0x20004, 32, [], 0x0, 0x80000000, 0x0, 0x0, 0x0⟩,
  ⟨"START_SAVE_CFG", 0x20008, 32, [], 0x7FF07FF, 0x0, 0x0, 0x0, 0x0⟩,
  ⟨"START_CTX_SEL", 0x20010, 32, [], 0xFF, 0x0, 0x0, 0x0, 0x0⟩,
  ⟨"START_CTX_CFG", 0x20014, 32, [], 0xFFC00000, 0x0, 0x0, 0x0, 0xC1C00000⟩,
  ⟨"START_CTX_PC", 0x20018, 64, [], 0xFFFFFFFFFFFF, 0x0, 0x0, 0x0, 0x0⟩,
  ⟨"START_CTX_ROOT", 0x20020, 64, [], 0xFFFFFFF0000, 0x0, 0x0, 0x0, 0x0⟩,
  ⟨"START_CTX_FREC", 0x20028, 64, [], 0xFFFFFFFFFFFF, 0x0, 0x0, 0x0, 0x0⟩,
  ⟨"START_CTX_FRCPT", 0x20030, 64, [], 0xFFFFFFFFFFFF, 0x0, 0x0, 0x0, 0x0⟩,
  ⟨"START_CTX_WIN", 0x20038, 64, [], 0xFFF0FFF37FF07FF, 0x0, 0x0, 0x0, 0x0⟩,
  ⟨"START_CTX_CMD", 0x20040, 32, [], 0x0, 0x0, 0x0, 0x3, 0x0⟩,
  ⟨"START_CTX_INFO", 0x20044, 32, [], 0x0, 0x0, 0x0, 0x0, 0x0⟩,
  ⟨"START_RCFG", 0x20100, 32, [(0x20, 7)], 0xCF000000, 0x0, 0x0, 0x0, 0x3000000⟩,
  ⟨"START_RVAULT", 0x20108, 64, [(0x20, 7)], 0xFFFFFF0001FFFF, 0x0, 0x0, 0x0, 0x0⟩,
  ⟨"START_REXT", 0x20110, 64, [(0x20, 7)], 0xFFFFFF0001FFFF, 0x0, 0x0, 0x0, 0x0⟩,
  ⟨"START_RSTALL", 0x20118, 64, [(0x20, 7)], 0x0, 0x0, 0x0, 0x0, 0x0⟩,
  ⟨"START_BCFG", 0x20400, 32, [(0x10, 64)], 0xF0FF00FF, 0x0, 0x0, 0x0, 0x0⟩,
  ⟨"START_BLIMIT", 0x20404, 32, [(0x10, 64)], 0xFFFFFFFF, 0x0, 0x0, 0x0, 0x0⟩,
  ⟨"START_BSTAT", 0x20408, 32, [(0x10, 64)], 0x0, 0x80000000, 0x7FFFFFFF, 0x0, 0x0⟩,
  ⟨"START_BCNT", 0x2040C, 32, [(0x10, 64)], 0x0, 0x0, 0xFFFF0000, 0x0, 0x0⟩,
  ⟨"START_PREEMPT_CNT", 0x20800, 64, [], 0x0, 0x0, 0x0, 0x0, 0x0⟩,
  ⟨"START_SWAP_CNT", 0x20808, 64, [], 0x0, 0x0, 0x0, 0x0, 0x0⟩,
  ⟨"START_PREEMPT_MAX", 0x20810, 32, [], 0x0, 0x0, 0xFFFFFFFF, 0x0, 0x0⟩]

/-- Registers of the TALLY block. -/
def regTableTally : List RegInfo := [
  ⟨"TALLY_SEL", 0x30000, 32, [], 0x3FFF, 0x0, 0x0, 0x0, 0x0⟩,
  ⟨"TALLY_CMD", 0x30004, 32, [], 0x0, 0x0, 0x0, 0x3, 0x0⟩,
  ⟨"TALLY_INFO", 0x30008, 32, [], 0x0, 0x0, 0x0, 0x0, 0x0⟩,
  ⟨"TALLY_COUNT", 0x3000C, 32, [], 0x0, 0x0, 0x0, 0x0, 0x0⟩,
  ⟨"TALLY_EVENTS", 0x30010, 64, [], 0x0, 0x0, 0x0, 0x0, 0x0⟩,
  ⟨"TMAP_SEL", 0x30100, 32, [], 0xFF0FFF, 0x0, 0x0, 0x0, 0x0⟩,
  ⟨"TMAP_CFG", 0x30104, 32, [], 0xE03F3FFF, 0x0, 0x0, 0x0, 0x0⟩,
  ⟨"TMAP_CMD", 0x30108, 32, [], 0x0, 0x0, 0x0, 0x3, 0x0⟩,
  ⟨"TMAP_INFO", 0x3010C, 32, [], 0x0, 0x0, 0x0, 0x0, 0x0⟩,
  ⟨"BAR_SEL", 0x30200, 32, [], 0xFF, 0x0, 0x0, 0x0, 0x0⟩,
  ⟨"BAR_CFG", 0x30204, 32, [], 0xC000FFFF, 0x0, 0x0, 0x0, 0x0⟩,
  ⟨"BAR_MEMBERS", 0x30208, 64, [], 0xFFFFFFFFFFFFFFFF, 0x0, 0x0, 0x0, 0x0⟩,
  ⟨"BAR_CMD", 0x30210, 32, [], 0x0, 0x0, 0x0, 0x3F07, 0x0⟩,
  ⟨"BAR_INFO", 0x30214, 32, [], 0x0, 0x0, 0x0, 0x0, 0x0⟩,
  ⟨"BAR_PHASE", 0x30218, 64, [], 0x0, 0x0, 0x0, 0x0, 0x0⟩,
  ⟨"BAR_ARRIVED", 0x30220, 64, [], 0x0, 0x0, 0x0, 0x0, 0x0⟩,
  ⟨"RWIN_CFG", 0x30400, 32, [(0x20, 16)], 0xC07F0000, 0x10000000, 0x0, 0x0, 0x0⟩,
  ⟨"RWIN_BASE", 0x30408, 64, [(0x20, 16)], 0xFFFFFFF0000, 0x0, 0x0, 0x0, 0x0⟩,
  ⟨"RWIN_STAT", 0x30410, 32, [(0x20, 16)], 0x0, 0x0, 0xFFFFFFFF, 0x0, 0x0⟩,
  ⟨"WATCH_CFG", 0x30800, 32, [(0x10, 16)], 0x80003FFF, 0x0, 0x0, 0x0, 0x0⟩,
  ⟨"WATCH_THRESH", 0x30804, 32, [(0x10, 16)], 0xFFFFFFFF, 0x0, 0x0, 0x0, 0x1⟩,
  ⟨"WATCH_STAT", 0x30808, 32, [(0x10, 16)], 0x0, 0x3, 0x0, 0x0, 0x0⟩,
  ⟨"TALLY_STAT", 0x30F00, 32, [], 0x0, 0xC0000000, 0x0, 0x0, 0x0⟩]

/-- Registers of the TELLER block. -/
def regTableTeller : List RegInfo := [
  ⟨"TELLER_CTL", 0x40000, 32, [], 0x3, 0x0, 0x0, 0x0, 0x2⟩,
  ⟨"TELLER_STAT", 0x40004, 32, [], 0x0, 0x0, 0x0, 0x0, 0x0⟩,
  ⟨"TELLER_VAULT_SPLIT", 0x40008, 32, [], 0x7FF, 0x0, 0x0, 0x0, 0x100⟩,
  ⟨"TELLER_RSV_BASE", 0x40010, 64, [], 0xFFFFFFF0000, 0x0, 0x0, 0x0, 0x0⟩,
  ⟨"TELLER_RSV_PAGES", 0x40018, 32, [], 0x1FFFFF, 0x0, 0x0, 0x0, 0x0⟩,
  ⟨"TELLER_ESC_BASE", 0x40020, 64, [], 0xFFFFFFF0000, 0x0, 0x0, 0x0, 0x0⟩,
  ⟨"TELLER_ESC_PAGES", 0x40028, 32, [], 0x1FFFFF, 0x0, 0x0, 0x0, 0x0⟩,
  ⟨"TELLER_DPOOL_BASE", 0x40030, 64, [], 0xFFFFFFF0000, 0x0, 0x0, 0x0, 0x0⟩,
  ⟨"TELLER_DPOOL_PAGES", 0x40038, 32, [], 0x1FFFFF, 0x0, 0x0, 0x0, 0x0⟩,
  ⟨"TELLER_INVAL", 0x40040, 32, [], 0x0, 0x0, 0x0, 0x1FF, 0x0⟩,
  ⟨"TELLER_PAGE_SEL", 0x40050, 64, [], 0xFFFFFFF0000, 0x0, 0x0, 0x0, 0x0⟩,
  ⟨"TELLER_PAGE_CMD", 0x40058, 32, [], 0x0, 0x0, 0x0, 0x3, 0x0⟩,
  ⟨"TELLER_PAGE_INFO", 0x4005C, 32, [], 0x0, 0x0, 0x0, 0x0, 0x0⟩,
  ⟨"TELLER_POOL_CFG", 0x40100, 32, [(0x20, 16)], 0x87FF00FF, 0x0, 0x0, 0x0, 0x0⟩,
  ⟨"TELLER_POOL_VA", 0x40108, 64, [(0x20, 16)], 0xFFFFFFFFFFFF, 0x0, 0x0, 0x0, 0x0⟩,
  ⟨"TELLER_POOL_SPAN", 0x40110, 64, [(0x20, 16)], 0xFFFFFFFFFFFFFFFF, 0x0, 0x0, 0x0, 0x0⟩,
  ⟨"TELLER_SCRUB_CFG", 0x40200, 32, [], 0xFFFFFF, 0x0, 0x0, 0x0, 0x71805⟩,
  ⟨"TELLER_NAND_CH", 0x40204, 32, [], 0x0, 0x0, 0x0, 0x0, 0x0⟩,
  ⟨"TELLER_ERR", 0x40210, 32, [], 0x0, 0xF0000000, 0x0, 0x0, 0x0⟩,
  ⟨"TELLER_CE_CNT", 0x40214, 32, [], 0x0, 0x0, 0xFFFFFFFF, 0x0, 0x0⟩,
  ⟨"TELLER_NAND_CNT", 0x40218, 32, [], 0x0, 0x0, 0xFFFFFFFF, 0x0, 0x0⟩,
  ⟨"TELLER_SHORT_CNT", 0x4021C, 32, [], 0x0, 0x0, 0xFFFFFFFF, 0x0, 0x0⟩,
  ⟨"TELLER_POISON_LAST", 0x40220, 64, [], 0x0, 0x0, 0x0, 0x0, 0x0⟩,
  ⟨"TELLER_MOVE_SEQ", 0x40300, 64, [], 0x0, 0x0, 0x0, 0x0, 0x0⟩,
  ⟨"TELLER_MOVE_DONE", 0x40308, 64, [], 0x0, 0x0, 0x0, 0x0, 0x0⟩,
  ⟨"TELLER_CLAIMS", 0x40310, 32, [], 0x0, 0x0, 0x0, 0x0, 0x0⟩]

/-- Registers of the FIELD block. -/
def regTableField : List RegInfo := [
  ⟨"FIELD_GEOM", 0x50000, 32, [], 0x0, 0x0, 0x0, 0x0, 0x0⟩,
  ⟨"FIELD_STAT", 0x50004, 32, [], 0x0, 0x0, 0x0, 0x0, 0x0⟩,
  ⟨"FIELD_TILE_SEL", 0x50010, 32, [], 0xFFF, 0x0, 0x0, 0x0, 0x0⟩,
  ⟨"FIELD_TILE_INFO", 0x50014, 32, [], 0x0, 0x0, 0x0, 0x0, 0x0⟩,
  ⟨"FIELD_ERR", 0x50020, 32, [], 0x0, 0x80000000, 0xFFFF, 0x0, 0x0⟩,
  ⟨"FIELD_BUSY_CYC", 0x50040, 64, [], 0x0, 0x0, 0x0, 0x0, 0x0⟩,
  ⟨"FIELD_PASS_CNT", 0x50048, 64, [], 0x0, 0x0, 0x0, 0x0, 0x0⟩,
  ⟨"FIELD_STALL_CYC", 0x50050, 64, [], 0x0, 0x0, 0x0, 0x0, 0x0⟩]

/-- Registers of the SPRINT block. -/
def regTableSprint : List RegInfo := [
  ⟨"SPRINT_ENG_STAT", 0x60000, 32, [(0x40, 8)], 0x0, 0x40000000, 0x0, 0x0, 0x0⟩,
  ⟨"SPRINT_ENG_CTL", 0x60004, 32, [(0x40, 8)], 0x1, 0x0, 0x0, 0x0, 0x0⟩,
  ⟨"SPRINT_RX_STAT", 0x60008, 32, [(0x40, 8)], 0x0, 0x0, 0xFFFF0000, 0x0, 0x0⟩,
  ⟨"SPRINT_RX_CYC", 0x6000C, 32, [(0x40, 8)], 0x0, 0x0, 0xFFFF0000, 0x0, 0x0⟩,
  ⟨"SPRINT_ERR", 0x60010, 32, [(0x40, 8)], 0x0, 0x80000000, 0xFFFF, 0x0, 0x0⟩,
  ⟨"SPRINT_BUSY_CYC", 0x60018, 64, [(0x40, 8)], 0x0, 0x0, 0x0, 0x0, 0x0⟩,
  ⟨"SPRINT_RX_RUNS", 0x60020, 64, [(0x40, 8)], 0x0, 0x0, 0x0, 0x0, 0x0⟩]

/-- Registers of the STREAM block. -/
def regTableStream : List RegInfo := [
  ⟨"STREAM_SEL", 0x70000, 32, [], 0xFFFF, 0x0, 0x0, 0x0, 0x0⟩,
  ⟨"STREAM_DEF", 0x70004, 32, [], 0xFF037FFF, 0x0, 0x0, 0x0, 0x0⟩,
  ⟨"STREAM_ESC", 0x70008, 64, [], 0xFFFFFFFFF00, 0x0, 0x0, 0x0, 0x0⟩,
  ⟨"STREAM_INIT", 0x70010, 64, [], 0xFFFFFFFFFFFF, 0x0, 0x0, 0x0, 0x0⟩,
  ⟨"STREAM_CMD", 0x70018, 32, [], 0x0, 0x0, 0x0, 0x7, 0x0⟩,
  ⟨"STREAM_INFO", 0x7001C, 32, [], 0x0, 0x0, 0x0, 0x0, 0x0⟩,
  ⟨"STREAM_STAT", 0x70100, 32, [], 0x0, 0x0, 0x0, 0x0, 0x80000000⟩,
  ⟨"STREAM_REGISTERED", 0x70104, 32, [], 0x0, 0x0, 0x0, 0x0, 0x0⟩,
  ⟨"STREAM_SWAP_OUTS", 0x70110, 64, [], 0x0, 0x0, 0x0, 0x0, 0x0⟩,
  ⟨"STREAM_SWAP_INS", 0x70118, 64, [], 0x0, 0x0, 0x0, 0x0, 0x0⟩,
  ⟨"STREAM_ADMIT_CYC", 0x70120, 64, [], 0x0, 0x0, 0x0, 0x0, 0x0⟩,
  ⟨"STREAM_ERR", 0x70130, 32, [], 0x0, 0x80000000, 0xFFFF, 0x0, 0x0⟩,
  ⟨"STREAM_UE_STREAM", 0x70134, 32, [], 0x0, 0x0, 0x0, 0x0, 0x0⟩]

/-- Registers of the PACER block, part 0. -/
def regTablePacer0 : List RegInfo := [
  ⟨"PACER_CTL", 0x80000, 32, [(0x40, 16)], 0x8F030000, 0x0, 0x0, 0x0, 0x0⟩,
  ⟨"PACER_STAT", 0x80004, 32, [(0x40, 16)], 0x0, 0x8000000, 0x0, 0x0, 0x0⟩,
  ⟨"PACER_TIME", 0x80008, 32, [(0x40, 16)], 0xF00FFFFF, 0x0, 0x0, 0x0, 0x3E8⟩,
  ⟨"PACER_DIV", 0x8000C, 32, [(0x40, 16)], 0xFFFF, 0x0, 0x0, 0x0, 0x1⟩,
  ⟨"PACER_FIRST", 0x80010, 64, [(0x40, 16)], 0xFFFFFFFFFFFFFFFF, 0x0, 0x0, 0x0, 0x0⟩,
  ⟨"PACER_STEP", 0x80018, 64, [(0x40, 16)], 0xFFFFFFFFFFFFFFFF, 0x0, 0x0, 0x0, 0x0⟩,
  ⟨"PACER_PERIODS", 0x80020, 64, [(0x40, 16)], 0x0, 0x0, 0x0, 0x0, 0x0⟩,
  ⟨"PACER_CNT", 0x80028, 32, [(0x40, 16)], 0x0, 0x0, 0xFFFFFFFF, 0x0, 0x0⟩,
  ⟨"PCH_ENTRY", 0x80400, 32, [(0x100, 16), (0x40, 4)], 0x7FF07FF, 0x0, 0x0, 0x0, 0x0⟩,
  ⟨"PCH_CFG", 0x80404, 32, [(0x100, 16), (0x40, 4)], 0xC0003FFF, 0x0, 0x0, 0x0, 0x0⟩,
  ⟨"PCH_STAT", 0x80408, 32, [(0x100, 16), (0x40, 4)], 0x0, 0xF000, 0xFFFF0000, 0x0, 0x0⟩,
  ⟨"PCH_MBX_CFG", 0x8040C, 32, [(0x100, 16), (0x40, 4)], 0xC07FFFFF, 0x0, 0x0, 0x0, 0x0⟩,
  ⟨"PCH_FEED_ADDR", 0x80410, 64, [(0x100, 16), (0x40, 4)], 0xFFFFFFFFFE0, 0x0, 0x0, 0x0, 0x0⟩,
  ⟨"PCH_MBX_SEQ", 0x80418, 32, [(0x100, 16), (0x40, 4)], 0x0, 0x0, 0x0, 0x0, 0x0⟩,
  ⟨"PCH_MBX_CMT", 0x8041C, 32, [(0x100, 16), (0x40, 4)], 0x0, 0x0, 0x0, 0x1, 0x0⟩,
  ⟨"PCH_MBX_DATA", 0x80420, 32, [(0x100, 16), (0x40, 4), (0x4, 8)], 0xFFFFFFFF, 0x0, 0x0, 0x0, 0x0⟩,
  ⟨"PWM_BR_CFG", 0x81800, 32, [(0x20, 12)], 0xFFC0FFFF, 0x0, 0x0, 0x0, 0x3A98⟩,
  ⟨"PWM_BR_DT", 0x81804, 32, [(0x20, 12)], 0x3FF03FF, 0x0, 0x0, 0x0, 0x78⟩,
  ⟨"PWM_BR_FORCE", 0x81808, 32, [(0x20, 12)], 0x3F, 0x0, 0x0, 0x0, 0x3F⟩,
  ⟨"PWM_BR_STAT", 0x8180C, 32, [(0x20, 12)], 0x0, 0x40000000, 0x0, 0x0, 0x20000000⟩,
  ⟨"SD_GRP_CFG", 0x81A00, 32, [(0x4, 6)], 0xC00000FF, 0x0, 0x0, 0x0, 0x1E⟩,
  ⟨"SD_CFG", 0x81B00, 32, [(0x10, 48)], 0xFFCF0000, 0x0, 0x0, 0x0, 0x15800000⟩,
  ⟨"SD_TRIP", 0x81B04, 32, [(0x10, 48)], 0xFFFFFFFF, 0x0, 0x0, 0x0, 0x7FFF8000⟩,
  ⟨"SD_STAT", 0x81B08, 32, [(0x10, 48)], 0x0, 0x80000000, 0x0, 0x0, 0x0⟩,
  ⟨"ENC_CFG", 0x81E00, 32, [(0x10, 12)], 0xFFFFFFFF, 0x0, 0x0, 0x0, 0x10400⟩,
  ⟨"ENC_SSI", 0x81E04, 32, [(0x10, 12)], 0xFFF0FFFF, 0x0, 0x0, 0x0, 0x9600000⟩,
  ⟨"ENC_STAT", 0x81E08, 32, [(0x10, 12)], 0x0, 0x70000000, 0x0, 0x0, 0x0⟩,
  ⟨"ADC_CFG", 0x81F00, 32, [], 0xFF, 0x0, 0x0, 0x0, 0x0⟩,
  ⟨"ISLAND_CTL", 0x81F80, 32, [], 0x1, 0x0, 0x0, 0x0, 0x0⟩,
  ⟨"ISLAND_STAT", 0x81F84, 32, [], 0x0, 0x4000000, 0x0, 0x0, 0x2000000⟩]

/-- Registers of the PACER block, part 1. -/
def regTablePacer1 : List RegInfo := [
  ⟨"PACER_WIN", 0x82000, 32, [], 0x1F, 0x0, 0x0, 0x0, 0x0⟩]

/-- Registers of the PACER block. -/
def regTablePacer : List RegInfo := regTablePacer0 ++ regTablePacer1

/-- Registers of the FUSION block, part 0. -/
def regTableFusion0 : List RegInfo := [
  ⟨"FUSION_CTL", 0x90000, 32, [], 0x8F000000, 0x0, 0x0, 0x10000000, 0x0⟩,
  ⟨"FUSION_STAT", 0x90004, 32, [], 0x0, 0x70000000, 0x0, 0x0, 0x0⟩,
  ⟨"FUSION_INST_CFG", 0x90008, 32, [], 0xFFFFFFFF, 0x0, 0x0, 0x0, 0x500001⟩,
  ⟨"FUSION_INST_FIRST", 0x90010, 64, [], 0xFFFFFFFFFFFFFFFF, 0x0, 0x0, 0x0, 0x0⟩,
  ⟨"FUSION_INST_STEP", 0x90018, 64, [], 0xFFFFFFFFFFFFFFFF, 0x0, 0x0, 0x0, 0x0⟩,
  ⟨"FUSION_REL_TALLY", 0x90020, 32, [], 0x80003FFF, 0x0, 0x0, 0x0, 0x0⟩,
  ⟨"FUSION_REL_RCPT", 0x90024, 32, [], 0x7FFFFF, 0x0, 0x0, 0x0, 0x0⟩,
  ⟨"FUSION_SET_BASE", 0x90028, 64, [], 0xFFFFFFF0000, 0x0, 0x0, 0x0, 0x0⟩,
  ⟨"FUSION_SET_CFG", 0x90030, 32, [], 0xFFFF, 0x0, 0x0, 0x0, 0x804⟩,
  ⟨"FUSION_RETRO", 0x90034, 32, [], 0xFFFFFFFF, 0x0, 0x0, 0x0, 0x3E800C8⟩,
  ⟨"FUSION_HIST_BASE", 0x90038, 64, [], 0xFFFFFFF0000, 0x0, 0x0, 0x0, 0x0⟩,
  ⟨"FUSION_SET_SEQ", 0x90040, 64, [], 0x0, 0x0, 0x0, 0x0, 0x0⟩,
  ⟨"FUSION_CNT", 0x90048, 32, [], 0x0, 0x0, 0xFFFFFFFF, 0x0, 0x0⟩,
  ⟨"FUSION_REFUSE", 0x9004C, 32, [], 0x0, 0x0, 0xFFFFFFFF, 0x0, 0x0⟩,
  ⟨"FUSION_ERR", 0x90050, 32, [], 0x0, 0x80000000, 0xFFFF, 0x0, 0x0⟩,
  ⟨"FUSION_ADMIT_CMD", 0x90060, 32, [], 0x0, 0x0, 0x0, 0x3F03, 0x0⟩,
  ⟨"FUSION_ADMIT_INFO", 0x90064, 32, [], 0x0, 0x0, 0x0, 0x0, 0x0⟩,
  ⟨"FADM_CFG", 0x90070, 32, [], 0x400FFFFF, 0x0, 0x0, 0x0, 0x0⟩,
  ⟨"FADM_CLOCK", 0x90074, 32, [], 0xEF1F1FFF, 0x0, 0x0, 0x0, 0x24⟩,
  ⟨"FADM_FEED", 0x90078, 32, [], 0x7FFFFF, 0x0, 0x0, 0x0, 0x0⟩,
  ⟨"FADM_TOL", 0x9007C, 32, [], 0xFFFFFFFF, 0x0, 0x0, 0x0, 0x3E80000⟩,
  ⟨"FADM_ADDR", 0x90080, 64, [], 0xFFFFFFFFFC0, 0x0, 0x0, 0x0, 0x0⟩,
  ⟨"FADM_LAT", 0x90088, 32, [], 0xFFFFFFFF, 0x0, 0x0, 0x0, 0x0⟩,
  ⟨"FSTR_CFG", 0x91000, 32, [(0x40, 64)], 0x400FFFFF, 0x0, 0x0, 0x0, 0x0⟩,
  ⟨"FSTR_CLOCK", 0x91004, 32, [(0x40, 64)], 0xEF1F1FFF, 0x0, 0x0, 0x0, 0x24⟩,
  ⟨"FSTR_FEED", 0x91008, 32, [(0x40, 64)], 0x7FFFFF, 0x0, 0x0, 0x0, 0x0⟩,
  ⟨"FSTR_TOL", 0x9100C, 32, [(0x40, 64)], 0xFFFFFFFF, 0x0, 0x0, 0x0, 0x3E80000⟩,
  ⟨"FSTR_ADDR", 0x91010, 64, [(0x40, 64)], 0xFFFFFFFFFC0, 0x0, 0x0, 0x0, 0x0⟩,
  ⟨"FSTR_OFFSET", 0x91018, 64, [(0x40, 64)], 0x0, 0x0, 0x0, 0x0, 0x0⟩,
  ⟨"FSTR_RATE", 0x91020, 32, [(0x40, 64)], 0x0, 0x0, 0x0, 0x0, 0x0⟩]

/-- Registers of the FUSION block, part 1. -/
def regTableFusion1 : List RegInfo := [
  ⟨"FSTR_LAT", 0x91024, 32, [(0x40, 64)], 0xFFFFFFFF, 0x0, 0x0, 0x0, 0x0⟩,
  ⟨"FSTR_STAT", 0x91028, 32, [(0x40, 64)], 0x0, 0x0, 0xFFFF, 0x0, 0x0⟩]

/-- Registers of the FUSION block. -/
def regTableFusion : List RegInfo := regTableFusion0 ++ regTableFusion1

/-- Registers of the HURDLE block. -/
def regTableHurdle : List RegInfo := [
  ⟨"HURDLE_CTL", 0xA0000, 32, [], 0xC0000000, 0x0, 0x0, 0x0, 0x0⟩,
  ⟨"HURDLE_STAT", 0xA0004, 32, [], 0x0, 0x80000000, 0x0, 0x0, 0x0⟩,
  ⟨"HURDLE_EPOCH", 0xA0008, 64, [], 0xFFFFFFFFFFFFFFFF, 0x0, 0x0, 0x0, 0x0⟩,
  ⟨"HURDLE_MAP_BASE", 0xA0010, 64, [], 0xFFFFFFFFFC0, 0x0, 0x0, 0x0, 0x0⟩,
  ⟨"HURDLE_MAP_CFG", 0xA0018, 32, [], 0x7F1F, 0x0, 0x0, 0x0, 0xA0C⟩,
  ⟨"HURDLE_MAP_NODES", 0xA001C, 32, [], 0x1FFFFF, 0x0, 0x0, 0x0, 0x0⟩,
  ⟨"HURDLE_MAP_ORIGIN_X", 0xA0020, 32, [], 0xFFFFFFFF, 0x0, 0x0, 0x0, 0x0⟩,
  ⟨"HURDLE_MAP_ORIGIN_Y", 0xA0024, 32, [], 0xFFFFFFFF, 0x0, 0x0, 0x0, 0x0⟩,
  ⟨"HURDLE_MAP_ORIGIN_Z", 0xA0028, 32, [], 0xFFFFFFFF, 0x0, 0x0, 0x0, 0x0⟩,
  ⟨"HURDLE_SDF_BASE0", 0xA0030, 64, [], 0xFFFFFFFFFC0, 0x0, 0x0, 0x0, 0x0⟩,
  ⟨"HURDLE_SDF_BASE1", 0xA0038, 64, [], 0xFFFFFFFFFC0, 0x0, 0x0, 0x0, 0x0⟩,
  ⟨"HURDLE_SDF_CFG", 0xA0040, 32, [], 0x9FF3FFFF, 0x0, 0x0, 0x0, 0x0⟩,
  ⟨"HURDLE_SDF_CELL", 0xA0044, 32, [], 0xFFFFFFFF, 0x0, 0x0, 0x0, 0x0⟩,
  ⟨"HURDLE_SDF_UNIT", 0xA0048, 32, [], 0xFFFFFFFF, 0x0, 0x0, 0x0, 0x0⟩,
  ⟨"HURDLE_SDF_ORIGIN_X", 0xA004C, 32, [], 0xFFFFFFFF, 0x0, 0x0, 0x0, 0x0⟩,
  ⟨"HURDLE_SDF_ORIGIN_Y", 0xA0050, 32, [], 0xFFFFFFFF, 0x0, 0x0, 0x0, 0x0⟩,
  ⟨"HURDLE_SDF_ORIGIN_Z", 0xA0054, 32, [], 0xFFFFFFFF, 0x0, 0x0, 0x0, 0x0⟩,
  ⟨"HURDLE_STOP_ADDR", 0xA0060, 64, [], 0xFFFFFFFFFF0, 0x0, 0x0, 0x0, 0x0⟩,
  ⟨"HURDLE_STOP_CMD", 0xA0068, 32, [], 0x0, 0x0, 0x0, 0x8000FFFF, 0x0⟩,
  ⟨"HURDLE_STOP_STAT", 0xA006C, 32, [], 0x0, 0x10000000, 0x0, 0x0, 0x0⟩,
  ⟨"HURDLE_STOP_EPOCH", 0xA0070, 64, [], 0x0, 0x0, 0x0, 0x0, 0x0⟩,
  ⟨"HURDLE_STOP_CLEAR", 0xA0078, 32, [], 0x0, 0x0, 0x0, 0x0, 0x0⟩,
  ⟨"HURDLE_STOP_TALLY", 0xA007C, 32, [], 0x80003FFF, 0x0, 0x0, 0x0, 0x0⟩,
  ⟨"HURDLE_MAP_STAT", 0xA0080, 32, [], 0x0, 0x0, 0xFFFFFFFF, 0x0, 0x0⟩,
  ⟨"HURDLE_CNT", 0xA0084, 32, [], 0x0, 0x0, 0xFFFFFFFF, 0x0, 0x0⟩,
  ⟨"HURDLE_FINISH_CNT", 0xA0088, 32, [], 0x0, 0x0, 0xFFFFFFFF, 0x0, 0x0⟩,
  ⟨"HURDLE_TESTS", 0xA0090, 64, [], 0x0, 0x0, 0x0, 0x0, 0x0⟩,
  ⟨"HURDLE_BATCHES", 0xA0098, 64, [], 0x0, 0x0, 0x0, 0x0, 0x0⟩,
  ⟨"HURDLE_ERR", 0xA00A0, 32, [], 0x0, 0x80000000, 0xFFFF, 0x0, 0x0⟩]

/-- Registers of the NET block. -/
def regTableNet : List RegInfo := [
  ⟨"PTP_DOM_CFG", 0xB0000, 32, [(0x20, 4)], 0x8FFFFFF0, 0x0, 0x0, 0x0, 0x1300⟩,
  ⟨"PTP_DOM_STAT", 0xB0004, 32, [(0x20, 4)], 0x4, 0x8, 0x0, 0x0, 0x0⟩,
  ⟨"PTP_OFFSET", 0xB0008, 64, [(0x20, 4)], 0xFFFFFFFFFFFFFFFF, 0x0, 0x0, 0x0, 0x0⟩,
  ⟨"PTP_PDELAY", 0xB0100, 64, [(0x8, 4)], 0x0, 0x0, 0x0, 0x0, 0x0⟩,
  ⟨"TC_CFG", 0xB0180, 32, [], 0xF0FFF, 0x0, 0x0, 0x0, 0x32⟩,
  ⟨"TC_STAT", 0xB0184, 32, [], 0x0, 0x0, 0xFFFF, 0x0, 0x0⟩,
  ⟨"TS_META", 0xB0200, 32, [], 0x0, 0x0, 0x0, 0x0, 0x0⟩,
  ⟨"TS_DATA", 0xB0208, 64, [], 0x0, 0x0, 0x0, 0x0, 0x0⟩,
  ⟨"LAUNCH_CFG", 0xB0300, 32, [(0x10, 4)], 0x8FFFFF00, 0x0, 0x0, 0x0, 0xF006400⟩,
  ⟨"LAUNCH_STAT", 0xB0304, 32, [(0x10, 4)], 0x0, 0x0, 0xFFFFFFFF, 0x0, 0x0⟩,
  ⟨"NET_MAC", 0xB1000, 64, [], 0xFFFFFFFFFFFF, 0x0, 0x0, 0x0, 0x0⟩,
  ⟨"NET_PORT_CFG", 0xB1100, 32, [(0x20, 4)], 0xF0000FFF, 0x0, 0x0, 0x0, 0x20000001⟩,
  ⟨"NET_PORT_CNT", 0xB1104, 32, [(0x20, 4)], 0x0, 0x0, 0xFFFF, 0x0, 0x0⟩,
  ⟨"NET_GATE_BASE", 0xB1108, 64, [(0x20, 4)], 0xFFFFFFFFFFFFFFFF, 0x0, 0x0, 0x0, 0x0⟩,
  ⟨"NET_GATE_CYCLE", 0xB1110, 32, [(0x20, 4)], 0xFFFFFFFF, 0x0, 0x0, 0x0, 0x0⟩,
  ⟨"NET_LS_CFG", 0xB2000, 32, [(0x80, 4), (0x4, 32)], 0xC00001FF, 0x0, 0x0, 0x0, 0x3C⟩,
  ⟨"NET_RXB_CFG", 0xB3000, 32, [(0x20, 32)], 0x8FFFF000, 0x0, 0x0, 0x0, 0x0⟩,
  ⟨"NET_RXB_ETYPE", 0xB3004, 32, [(0x20, 32)], 0xFFFF, 0x0, 0x0, 0x0, 0x0⟩,
  ⟨"NET_RXB_MAC", 0xB3008, 64, [(0x20, 32)], 0xFFFFFFFFFFFF, 0x0, 0x0, 0x0, 0x0⟩,
  ⟨"NET_RXB_SEQ", 0xB3010, 32, [(0x20, 32)], 0x0, 0x0, 0x0, 0x0, 0x0⟩]

/-- Registers of the RELAY block. -/
def regTableRelay : List RegInfo := [
  ⟨"RELAY_LINK_STAT", 0xC0000, 32, [(0x10, 4)], 0x0, 0x0, 0x0, 0x0, 0x0⟩,
  ⟨"RELAY_LINK_CTL", 0xC0004, 32, [(0x10, 4)], 0x0, 0x0, 0x0, 0x1, 0x0⟩,
  ⟨"RELAY_LINK_CNT", 0xC0008, 32, [(0x10, 4)], 0x0, 0x0, 0xFFFFFFFF, 0x0, 0x0⟩,
  ⟨"RELAY_PAIR_CFG", 0xC0100, 32, [], 0xFFFFFFFF, 0x0, 0x0, 0x0, 0x349FFCC8⟩,
  ⟨"RELAY_PAIR_CFG2", 0xC0104, 32, [], 0x1, 0x0, 0x0, 0x0, 0x1⟩,
  ⟨"RELAY_PAIR_STAT", 0xC0108, 32, [], 0x0, 0xE000000, 0x0, 0x0, 0x0⟩,
  ⟨"RELAY_PAIR_CMD", 0xC010C, 32, [], 0x0, 0x0, 0x0, 0x3, 0x0⟩,
  ⟨"RELAY_PAIR_EXPECT", 0xC0110, 64, [], 0xFFFFFFFFFFFFFFFF, 0x0, 0x0, 0x0, 0x0⟩,
  ⟨"RELAY_PAIR_PARTNER", 0xC0118, 64, [], 0x0, 0x0, 0x0, 0x0, 0x0⟩,
  ⟨"RELAY_MIRROR_SENT", 0xC0120, 64, [], 0x0, 0x0, 0x0, 0x0, 0x0⟩,
  ⟨"RELAY_MIRROR_APPLIED", 0xC0128, 64, [], 0x0, 0x0, 0x0, 0x0, 0x0⟩,
  ⟨"RELAY_FAILOVER_CNT", 0xC0130, 32, [], 0x0, 0x0, 0xFFFFFFFF, 0x0, 0x0⟩,
  ⟨"RELAY_CTX_MASK", 0xC0140, 32, [(0x4, 8)], 0xFFFFFFFF, 0x0, 0x0, 0x0, 0x0⟩,
  ⟨"RELAY_GRP_CFG", 0xC0200, 32, [], 0x800000F7, 0x0, 0x0, 0x0, 0x10⟩,
  ⟨"RELAY_GRP_ROUTE", 0xC0204, 32, [], 0xFFFFFFFF, 0x0, 0x0, 0x0, 0x0⟩,
  ⟨"RELAY_GCH_CFG", 0xC0400, 32, [(0x20, 16)], 0xFF87FFFF, 0x0, 0x0, 0x0, 0x0⟩,
  ⟨"RELAY_GCH_RCPT", 0xC0404, 32, [(0x20, 16)], 0x7FFFFF, 0x0, 0x0, 0x0, 0x0⟩,
  ⟨"RELAY_GCH_TALLY", 0xC0408, 32, [(0x20, 16)], 0x80003FFF, 0x0, 0x0, 0x0, 0x0⟩,
  ⟨"RELAY_GCH_ADDR", 0xC0410, 64, [(0x20, 16)], 0xFFFFFFFFFC0, 0x0, 0x0, 0x0, 0x0⟩,
  ⟨"RELAY_GCH_CNT", 0xC0418, 32, [(0x20, 16)], 0x0, 0x0, 0xFFFFFFFF, 0x0, 0x0⟩,
  ⟨"RELAY_IMG_CMD", 0xC0800, 32, [], 0x0, 0x0, 0x0, 0x3, 0x0⟩,
  ⟨"RELAY_IMG_STAT", 0xC0804, 32, [], 0x0, 0x0, 0x0, 0x0, 0x0⟩]

/-- Registers of the JUDGE block. -/
def regTableJudge : List RegInfo := [
  ⟨"JUDGE_STAT", 0xD0000, 32, [], 0x0, 0x0, 0x0, 0x0, 0x0⟩,
  ⟨"JUDGE_CAUSE", 0xD0008, 64, [], 0x0, 0x0, 0x0, 0x0, 0x0⟩,
  ⟨"JUDGE_CFG_CRC", 0xD0010, 32, [], 0x0, 0x0, 0x0, 0x0, 0x0⟩,
  ⟨"JUDGE_STO", 0xD0014, 32, [], 0x0, 0x0, 0x0, 0x0, 0xFFF00000⟩,
  ⟨"JUDGE_INPUTS", 0xD0018, 32, [], 0x0, 0x0, 0x0, 0x0, 0x0⟩,
  ⟨"JUDGE_LINK", 0xD001C, 32, [], 0x0, 0x0, 0x0, 0x0, 0x0⟩,
  ⟨"JUDGE_AUDIT", 0xD0020, 32, [], 0x0, 0x0, 0x0, 0x0, 0x0⟩,
  ⟨"JUDGE_AUDIT_FAIL", 0xD0024, 32, [], 0x0, 0x0, 0x0, 0x0, 0x0⟩,
  ⟨"JOUT_STAT", 0xD0100, 32, [(0x8, 128)], 0x0, 0x0, 0x0, 0x0, 0x0⟩,
  ⟨"JOUT_CNT", 0xD0104, 32, [(0x8, 128)], 0x0, 0x0, 0x0, 0x0, 0x0⟩,
  ⟨"JTASK_STAT", 0xD0800, 32, [(0x4, 32)], 0x0, 0x0, 0x0, 0x0, 0x0⟩]

/-- Registers of the PORT block. -/
def regTablePort : List RegInfo := [
  ⟨"PORT_STANDING", 0xE0000, 32, [(0x4, 37)], 0x0, 0x0, 0x0, 0x0, 0x0⟩,
  ⟨"PORT_GRANT", 0xE0100, 32, [(0x4, 4)], 0xF, 0x0, 0x0, 0x0, 0x0⟩,
  ⟨"PORT_DENY_CNT", 0xE0200, 32, [(0x4, 37)], 0x0, 0x0, 0xFFFF, 0x0, 0x0⟩,
  ⟨"PORT_DENY_LAST", 0xE0300, 64, [], 0x0, 0x0, 0x0, 0x0, 0x0⟩,
  ⟨"PORT_STRAP", 0xE0310, 32, [], 0x0, 0x0, 0x0, 0x0, 0x0⟩,
  ⟨"PORT_HP_STAT", 0xE0400, 32, [], 0x0, 0xFFFF0000, 0x0, 0x0, 0x0⟩,
  ⟨"PORT_HP_CFG", 0xE0404, 32, [], 0x9FFF80FF, 0x0, 0x0, 0x0, 0x14⟩,
  ⟨"PORT_HP_EVT", 0xE0408, 32, [], 0x0, 0xFFFFFFFF, 0x0, 0x0, 0x0⟩,
  ⟨"PORT_PCIE_STAT", 0xE0500, 32, [], 0x0, 0x0, 0x0, 0x0, 0x0⟩,
  ⟨"PORT_PCIE_BAR2", 0xE0600, 64, [(0x10, 8)], 0xFFFC000000F, 0x0, 0x0, 0x0, 0x0⟩,
  ⟨"PORT_PCIE_MSIX", 0xE0608, 32, [(0x10, 8)], 0xFFFF, 0x0, 0x0, 0x0, 0x0⟩,
  ⟨"CAM_CFG", 0xE2000, 32, [(0x40, 8)], 0xFFFFCFFF, 0x0, 0x0, 0x0, 0x40AC0044⟩,
  ⟨"CAM_SIZE", 0xE2004, 32, [(0x40, 8)], 0xFFFFFFFF, 0x0, 0x0, 0x0, 0x0⟩,
  ⟨"CAM_RCPT", 0xE2008, 32, [(0x40, 8)], 0x7FFFFF, 0x0, 0x0, 0x0, 0x0⟩,
  ⟨"CAM_TALLY", 0xE200C, 32, [(0x40, 8)], 0x80003FFF, 0x0, 0x0, 0x0, 0x0⟩,
  ⟨"CAM_BUF_BASE", 0xE2010, 64, [(0x40, 8)], 0xFFFFFFF0000, 0x0, 0x0, 0x0, 0x0⟩,
  ⟨"CAM_IN_SIZE", 0xE2018, 32, [(0x40, 8)], 0xFFFFFFFF, 0x0, 0x0, 0x0, 0x0⟩,
  ⟨"CAM_STAT", 0xE201C, 32, [(0x40, 8)], 0x0, 0x0, 0xFFFFFFFF, 0x0, 0x0⟩,
  ⟨"BUS_CFG", 0xE3000, 32, [(0x20, 6)], 0xF00003FF, 0x0, 0x0, 0x0, 0x30⟩,
  ⟨"BUS_TX", 0xE3004, 32, [(0x20, 6)], 0x0, 0x0, 0x0, 0xFFFFFFFF, 0x0⟩,
  ⟨"BUS_RX", 0xE3008, 32, [(0x20, 6)], 0x0, 0x0, 0x0, 0x0, 0x0⟩,
  ⟨"BUS_STAT", 0xE300C, 32, [(0x20, 6)], 0x0, 0x0, 0xFF000000, 0x0, 0x40⟩]

/-- Registers of the PWR block. -/
def regTablePwr : List RegInfo := [
  ⟨"PWR_CAP", 0xF0000, 32, [], 0xFF, 0x0, 0x0, 0x0, 0xB400B4⟩,
  ⟨"PWR_STAT", 0xF0004, 32, [], 0x0, 0xC00FFF00, 0x0, 0x0, 0x0⟩,
  ⟨"PWR_MEAS", 0xF0008, 32, [], 0x0, 0x0, 0xFFFF, 0x0, 0x0⟩,
  ⟨"PWR_THERM", 0xF000C, 32, [], 0xFF0000, 0x0, 0xFF00, 0x0, 0x640000⟩,
  ⟨"PWR_DROOP_CFG", 0xF0010, 32, [], 0xFF, 0x0, 0x0, 0x0, 0x32⟩,
  ⟨"PWR_DROOP_LAST", 0xF0014, 32, [], 0x0, 0x0, 0x0, 0x0, 0x0⟩,
  ⟨"PWR_STRETCH_CYC", 0xF0040, 64, [], 0x0, 0x0, 0x0, 0x0, 0x0⟩,
  ⟨"PWR_GAP_CYC", 0xF0048, 64, [], 0x0, 0x0, 0x0, 0x0, 0x0⟩]

/-- The table of one control-space block, by its number in Table 1-11. -/
def regTableOf : Nat → List RegInfo
  | 0 => regTableSys
  | 1 => regTableLane
  | 2 => regTableStart
  | 3 => regTableTally
  | 4 => regTableTeller
  | 5 => regTableField
  | 6 => regTableSprint
  | 7 => regTableStream
  | 8 => regTablePacer
  | 9 => regTableFusion
  | 10 => regTableHurdle
  | 11 => regTableNet
  | 12 => regTableRelay
  | 13 => regTableJudge
  | 14 => regTablePort
  | 15 => regTablePwr
  | _ => []

/-- Whether a distance from a register's base is one of its instances: what is left after the dimensions. -/
def dimRest : List (Nat × Nat) → Nat → Option Nat
  | [], d => some d
  | (st, c) :: t, d => if d / st < c then dimRest t (d % st) else none

/-- Whether the word at an offset is part of a register: its offset from the register's own first byte. -/
def RegInfo.at? (i : RegInfo) (off : Nat) : Option Nat :=
  if i.base ≤ off then
    match dimRest i.dims (off - i.base) with
    | some r => if r < i.width / 8 then some r else none
    | none => none
  else none

/-- The register whose bytes hold an offset, with the offset of that byte in it. -/
def findReg : List RegInfo → Nat → Option (RegInfo × Nat)
  | [], _ => none
  | i :: t, off =>
    match i.at? off with
    | some r => some (i, r)
    | none => findReg t off

/-- Look an offset of control space up (R35: one block for each 64 KiB). -/
def regInfo (off : Nat) : Option (RegInfo × Nat) := findReg (regTableOf (off / 0x10000)) off

/-- The value at power-on of the register that starts at an offset (its table's Reset column; Lane 15's
enable by R44). -/
def regResetNat (off : Nat) : Nat :=
  if off = Reg.LANE_CFG 15 then 0x80000000 else
  match regInfo off with
  | some (i, 0) => i.rst
  | _ => 0

/-- The value at power-on as a 64-bit word; a 32-bit register uses the low half. The key of a staged copy is
the copy's requester, counted from 1, above bit 20 (R432). -/
def regDefault (key : Nat) : BitVec 64 := BitVec.ofNat 64 (regResetNat (key % 0x100000))

end Sys2Proof.Machine
end

