-- ==== Sys2Proof/Machine/Types.lean ====
section
/-!
DEFINITION. The parts of the state that no control-space register holds: what each unit keeps inside.
All of it is plain data.
-/

namespace Sys2Proof.Machine

open Sys2Proof

/-! ### Lanes, Cues, captures (02) -/

/-- A fired Cue whose TALLY_ADD, CAPTURE, JOB_RELEASE or NONE action waits for its dispatch (R55). -/
structure FiredCue where
  index : Nat
  action : Nat
  arg : W32
  deriving DecidableEq, Repr

/-- What a Lane that follows events keeps (R45, R46): events seen since enable (at most 2 count), the tick of the
last one, the interval between the last two, the last unwrapped position word and whether there was one. -/
structure LaneEv where
  seen : Nat := 0
  lastTick : Nat := 0
  interval : Nat := 0
  pos : W64 := 0
  posSeen : Bool := false
  deriving DecidableEq, Repr

/-- The Lane unit beside its registers. -/
structure LaneUnit where
  /-- always-on ticks since VAO became valid -/
  ticks : Nat := 0
  /-- what a time Lane holds below its 32 fraction bits, in units of 2^-40 of a Lane unit (assumption 10) -/
  residue : Map Nat := []
  /-- the pending LANE_EPOCH latch of requester r on Lane n, at key 16 r + n (R42) -/
  latch : Map (Option W64) := []
  ev : Map LaneEv := []
  cues : Map Cue := []
  fired : List FiredCue := []
  /-- the FIFO of each capture unit, oldest first (R59) -/
  fifos : Map (List W64) := []
  /-- the last arm of each index: the tick it came in and the rank of its source (R57) -/
  armLast : Map (Option (Nat × Nat)) := []
  /-- camera trigger outputs that are high, with the tick at which each returns low (R52) -/
  camTrig : Map (Option Nat) := []
  deriving DecidableEq, Repr

/-! ### Tallies, barriers, Receipts (11) -/

/-- STATE of a Tally (Table 11-1). -/
inductive TallyState where
  | idle | owned | forfeit
  deriving DecidableEq, Repr

/-- A physical Tally (Table 11-1). -/
structure Tally where
  state : TallyState := .idle
  owner : Option Nat := none
  count : W32 := 0
  events : W64 := 0
  deriving DecidableEq, Repr

/-- What a virtual identifier maps to (R273). -/
inductive MapEnt where
  | tally (i : Nat) (own : Bool)
  | barrier (b : Nat) (slot : Nat)
  deriving DecidableEq, Repr

/-- The two kinds of barrier (R276). -/
inductive BarKind where
  | mask | sense
  deriving DecidableEq, Repr

/-- A barrier descriptor (R276). -/
structure Barrier where
  kind : Option BarKind := none
  n : Nat := 0
  members : W64 := 0
  arrived : W64 := 0
  arrivals : Nat := 0
  phase : W64 := 0
  broken : Bool := false
  deriving DecidableEq, Repr

/-- Who holds a Receipt of a hold-mode window (R284): a context's operation, or a unit by its code and index. -/
inductive Producer where
  | op (ctx : Nat) (id : Nat)
  | unit (code : Nat) (index : Nat)
  deriving DecidableEq, Repr

/-- The Tally block beside its registers. -/
structure TallyUnit where
  tallies : Map Tally := []
  /-- the virtual Tally maps: entry of context c and identifier v at key 4096 c + v -/
  tmap : Map (Option MapEnt) := []
  bars : Map Barrier := []
  /-- the holder of the Receipt at a physical address -/
  holds : Map (Option Producer) := []
  deriving DecidableEq, Repr

/-! ### Noves contexts (03, 04, 10) -/

/-- Where a context stands (START_CTX_INFO.STATE). -/
inductive Stage where
  | undefined | waiting | resident | swapOut | escrow | swapIn | teardown
  deriving DecidableEq, Repr

/-- The units asynchronous instructions go to (R83, R84). -/
inductive KUnit where
  | field | gate | sprint | teller | hurdle | fusion
  deriving DecidableEq, Repr

/-- A fault as detected (Table 3-6), before its record is written. -/
structure FaultInfo where
  code : Nat
  imprecise : Bool
  unit : Nat
  tag : Nat
  pc : W64
  vaddr : W64
  lane15 : W64
  detail : W64
  deriving DecidableEq, Repr

/-- Why a context is being torn down (R263). -/
inductive TdCause where
  | fault | exit | budget | kill | ssr
  deriving DecidableEq, Repr

/-- What a context does once the fence it waits in ends (R84, R85, R279). -/
inductive AfterFence where
  | nothing
  | add (tally : Nat) (n : W32)
  | sub (tally : Nat) (n : W32)
  | arrive (bar : Nat) (slot : Nat)
  | barwait (bar : Nat) (slot : Nat) (pd : Fin 8) (sd : Fin 32) (dl : Option (Nat × W64))
  | post (pa : Nat)
  deriving DecidableEq, Repr

/-- A wait that has not ended (R86), or a stall of the context's issue (fence, rpost). -/
inductive Wait where
  | fence (mask : Nat) (k : AfterFence)
  | tally (i : Nat) (n : W32) (pd : Fin 8) (sd : Fin 32) (dl : Option (Nat × W64))
  | bar (b : Nat) (phase : W64) (pd : Fin 8) (sd : Fin 32) (dl : Option (Nat × W64))
  | lane (n : Nat) (v : W64) (pd : Fin 8) (sd : Fin 32)
  | lwrel (pd : Fin 8) (sd : Fin 32) (dl : Option (Nat × W64))
  | rcpt (pa : Nat) (seq : Nat) (pd : Fin 8) (sd : Fin 32) (dl : Option (Nat × W64))
  | rpost (pa : Nat)
  deriving DecidableEq, Repr

/-- How far an operation has come. -/
inductive OpState where
  /-- handed over, behind an earlier operation of its context or not yet looked at -/
  | queued
  /-- its Receipt and streams allow it: the Starter may place it -/
  | ready
  /-- waits to take its hold-mode Receipt (R284) -/
  | rcptWait
  /-- waits for admission of its streams (R201) -/
  | admitWait
  /-- a pre-emption makes room for it (R249) -/
  | incoming
  | running
  /-- displaced, its state in the save frames or the engine's staging area (R249, R252) -/
  | saved
  /-- the data is written and the post waits for the Receipt (R284) -/
  | postWait
  deriving DecidableEq, Repr

/-- An asynchronous instruction outstanding on its Marshal (R81), with everything it copied at issue. -/
structure AsyncOp where
  id : Nat
  unit : KUnit
  mn : Mn
  pc : W64
  dO : BitVec 512 := 0
  dA : BitVec 512 := 0
  dB : BitVec 512 := 0
  dC : BitVec 512 := 0
  /-- the fields of a kernel's word: slots, rounding, IMM, flags -/
  k : OpK := ⟨0, 0, 0, 0, 0, 0, 0, 0, false, false, false, false, 0⟩
  /-- physical index of the completion Tally -/
  tally : Option Nat := none
  /-- virtual address of the Receipt -/
  rcpt : Option W64 := none
  /-- the sequence an overwrite-mode producer took, and whether the one before was never collected -/
  seqTaken : Option (Nat × Bool) := none
  params : List Byte := []
  /-- what else it read at issue: the stream list of a chunk, the pool header and length table of a kattn -/
  extra : List Byte := []
  /-- STATUS of the length-table entries whose appends are done (R189) -/
  kv : List Nat := []
  /-- streams a chunk claims (R200) -/
  streams : List Nat := []
  /-- a move's address, length or pattern, and TIER -/
  addr : W64 := 0
  len : W64 := 0
  tier : Bool := false
  /-- the output had zero size (R152) -/
  emptyOut : Bool := false
  state : OpState := .queued
  /-- it has run on a position or an engine: what it has done so far is kept -/
  begun : Bool := false
  /-- Heat position or engine -/
  pos : Option Nat := none
  /-- order of hand-over over the whole device -/
  order : Nat := 0
  deriving DecidableEq, Repr

/-- A Noves context (R67, R68, R244, Table 10-1) with what the Marshals and the Starter keep of it. -/
structure Ctx where
  stage : Stage := .undefined
  cls : Fin 4 := 3
  prio : Nat := 0
  nandWr : Bool := false
  shapes : Nat := 0
  pc : W64 := 0
  /-- physical page of the level-1 table -/
  root : Nat := 0
  frec : W64 := 0
  frcpt : W64 := 0
  pwinBase : Nat := 0
  pwinSize : Nat := 0
  pwinShape : Nat := 0
  swinBase : Nat := 0
  swinSize : Nat := 0
  /-- Heat position and engine that hold the windows -/
  pwinPos : Option Nat := none
  swinEng : Option Nat := none
  /-- what its Sprint window held as it was swapped out -/
  swinSave : List (Option Byte) := []
  /-- S1 to S31 -/
  sregs : Map W64 := []
  /-- P0 to P7, bit n for Pn -/
  preds : Byte := 0
  descs : Map (BitVec 512) := []
  marshal : Nat := 0
  wait : Option Wait := none
  /-- stamp of the issue of the current wait (R255), of the definition (R242), of becoming runnable (R255) -/
  waitFrom : Nat := 0
  defOrder : Nat := 0
  runFrom : Nat := 0
  everResident : Bool := false
  ops : List AsyncOp := []
  relPend : Bool := false
  relLost : Nat := 0
  /-- uptime of the last release (R262) -/
  relAt : Option W64 := none
  demoted : Bool := false
  /-- a job runs (R260) -/
  job : Bool := false
  /-- entry of the budget that ends the context, and the requester that killed it -/
  td : Option TdCause := none
  fault : Option FaultInfo := none
  faultCount : Nat := 0
  /-- SWAP_STARVE has counted for this context (R256) -/
  starved : Bool := false
  /-- the window's tiles were withdrawn by an ECC error (R147) -/
  pwinPoisoned : Bool := false
  deriving DecidableEq, Repr

/-- Who an asynchronous claim belongs to: context and operation. -/
abbrev Claimant := Nat × Nat

/-! ### Pages and the Teller (09) -/

/-- Page states (Table 9-3). -/
inductive PageState where
  | home | raising | raised | lowering | poisoned
  deriving DecidableEq, Repr

/-- What the Teller keeps of one home page. -/
structure Page where
  state : PageState := .home
  /-- a raised copy lies in the DRAM raise pool (else in a Vault raise frame) -/
  inPool : Bool := false
  dirty : Bool := false
  /-- which NAND entries hold the page: bit 0 entry A, bit 1 entry B (R233) -/
  entries : Nat := 0
  /-- contexts with a persistent claim -/
  claims : List Nat := []
  /-- transient claims -/
  trans : List Claimant := []
  /-- stamp at which its last claim ended (R226) -/
  lastEnd : Nat := 0
  /-- raised by a pool's context inside the pool's span: pool index and virtual page -/
  pool : Option (Nat × Nat) := none
  deriving DecidableEq, Repr

/-- What one page move does. -/
inductive MoveKind where
  | raise (toDram : Bool)
  | demote
  | copy
  | fill
  | enter
  deriving DecidableEq, Repr

/-- A page move, waiting or in flight (R224). -/
structure Move where
  ctx : Nat
  /-- operation of the context, or none for a pace schedule or the Teller's own demotion -/
  op : Option Nat
  /-- home page -/
  page : Nat
  kind : MoveKind
  /-- the virtual page it was named by -/
  vpn : Nat := 0
  /-- accepted; and, of the accepted moves on its page, the one being performed (R228) -/
  inFlight : Bool := false
  started : Bool := false
  /-- the page whose demotion frees the frame this raise waits for -/
  after : Option Nat := none
  /-- what a menter has programmed into its new entries: offset in the page and byte -/
  data : List (Nat × Byte) := []
  order : Nat := 0
  deriving DecidableEq, Repr

/-- An entry of a pace schedule (Table 9-6). -/
structure PaceEnt where
  va : W64
  pages : Nat
  op : Nat
  at_ : Nat
  deriving DecidableEq, Repr

/-- An active pace schedule (R231, R232). -/
structure Pace where
  ctx : Nat
  tally : Nat
  period : Nat
  iters : Nat
  e0 : W64
  ents : List PaceEnt
  iter : Nat := 0
  next : Nat := 0
  order : Nat := 0
  deriving DecidableEq, Repr

/-- The Teller beside its registers. -/
structure TellerUnit where
  pages : Map Page := []
  moves : List Move := []
  paces : List Pace := []
  /-- cached translations: entry of context c and virtual page v at key c * 2^32 + v (R219) -/
  tlb : Map (Option W64) := []
  /-- a TELLER_INVAL in progress: all, or one context -/
  inval : Option (Option Nat) := none
  /-- eviction weights read when a pool was registered (R227): W_AGE, W_USE, W_SHARE -/
  poolW : Map (Nat × Nat × Nat) := []
  deriving DecidableEq, Repr

/-! ### Field and Starter (05, 10) -/

/-- A saved Field operation (R249) or engine state (R252) is the operation itself in state `saved`; a residue of
weights on a position (R247). -/
structure Residue where
  /-- physical spans the operand covers: address and length -/
  spans : List (Nat × Nat)
  key : BitVec 512
  deriving DecidableEq, Repr

/-- The Field beside its registers. -/
structure FieldUnit where
  layout : Nat := 0
  /-- physical tiles excluded at start-up, withdrawn in service -/
  excluded : List Nat := []
  withdrawn : List Nat := []
  fuseBad : List Nat := []
  testBad : List Nat := []
  /-- the physical tile of logical tile 32 c + r -/
  binding : Map (Option Nat) := []
  /-- Purse-space tensors, by context: the key is the context, then the descriptor it was written
  through and what it holds: the element codes, then the scales -/
  purse : List (Nat × BitVec 512 × List Nat) := []
  /-- the residue of each Heat position (R247) -/
  residues : Map (Option Residue) := []
  deriving DecidableEq, Repr

/-- A pre-emption or layout change in progress (R249). -/
structure Preempt where
  /-- operations to be saved -/
  victims : List Claimant
  /-- the incoming operation and its position -/
  incoming : Claimant
  pos : Nat
  layout : Nat
  deriving DecidableEq, Repr

/-- A swap in progress (R257): the victim and the context swapped in. -/
structure Swap where
  victim : Nat
  incoming : Nat
  deriving DecidableEq, Repr

/-- The Starter beside its registers. -/
structure StarterUnit where
  preempts : List Preempt := []
  swap : Option Swap := none
  /-- levels of the VAULT and EXT buckets of position p at keys 2p and 2p+1 (R259) -/
  buckets : Map Int := []
  /-- positions that stalled since the last refill -/
  stalled : List Nat := []
  /-- Lane 15 at the next refill -/
  refillAt : W64 := 0
  /-- charge of each budget entry's current job in ns, and whether it has overrun (R260, R261) -/
  charge : Map Nat := []
  overrun : List Nat := []
  deriving DecidableEq, Repr

/-! ### Start-up (16) -/

/-- The Mint record (R386, Table 16-3). A copy that fails its CRC is marked so; both copies hold the same fields. -/
structure Mint where
  copy0Ok : Bool := true
  copy1Ok : Bool := true
  part : W16 := 0x4810
  rev : Byte := 0
  serial : W64 := 0
  absent : W32 := 0
  sprintBad : Byte := 0
  tileBad : List Nat := []
  /-- used ADDED entries, kind in [15:12] and index in [11:0], at most 32 -/
  added : List W16 := []
  /-- the remove mask of each STANDING entry (R434) -/
  standing : Map Nat := []
  /-- the 352 bytes of TRIM (Table 16-7) -/
  trim : Map Byte := []
  /-- SRAM row-repair entries -/
  repair : List W32 := []
  deriving DecidableEq, Repr

/-- A copy of the saved-settings record (R395). -/
structure Saved where
  serial : W64 := 0
  fwVer : W32 := 0
  /-- channels with training values -/
  trained : W16 := 0
  /-- defect entries, oldest first, at most 64 -/
  learned : List W16 := []
  rsvPages : Nat := 9212
  escPages : Nat := 32768
  poolPages : Nat := 65536
  coldNext : Bool := false
  deriving DecidableEq, Repr

/-- A firmware image: its version and its bytes, and the sections that fail their CRC (R398, R401). -/
structure Image where
  ver : W32 := 0
  bytes : List Byte := []
  badSections : List Nat := []
  deriving DecidableEq, Repr

/-- Start-up: the lines between the dies, the stored records and what the stages have found. -/
structure BootUnit where
  mint : Mint := {}
  /-- ADDED entries programmed since the record was read: they count from the next power-on (R387) -/
  mintNew : List W16 := []
  savedNew : Option Saved := none
  savedOld : Option Saved := none
  nor : Image := {}
  shadow : Option Image := none
  /-- SWJ_POR_N is high, SWJ_PG is high, ISL_REL is high -/
  porHigh : Bool := false
  pgHigh : Bool := false
  islRel : Bool := false
  /-- the Lemquevin die has booted -/
  guardBooted : Bool := false
  /-- the straps as driven: service strap fitted, PCIE_EP open (R422) -/
  strapSvc : Bool := true
  strapEp : Bool := true
  /-- the compute and cores domains are held in reset (R23) -/
  computeReset : Bool := true
  /-- self-test results (R390): tiles, engines failed; voxel cache, Tracker memory failed -/
  tested : Bool := false
  tilesFail : List Nat := []
  enginesFail : List Nat := []
  /-- Sprint engines mapped out since start-up began: by reconciliation, or by an ECC error in service (R164, R391) -/
  enginesOut : List Nat := []
  /-- of these, the ones found at start-up (R79, R391) -/
  enginesStart : List Nat := []
  voxelFail : Bool := false
  trackerFail : Bool := false
  /-- UNITS bits lost at start-up (R459) -/
  unitsLost : Nat := 0
  /-- DRAM channels enabled so far in this start -/
  dramCh : W16 := 0
  /-- uptime at the release of SWJ_POR_N and at the last safe-state reset request -/
  porTime : W64 := 0
  ssrTime : W64 := 0
  /-- the start takes the fast path (R399) -/
  fast : Bool := false
  /-- the learned list as the start began (R391); a DRAM channel has been trained in full in this start -/
  learned0 : List W16 := []
  retrained : Bool := false
  /-- COLD_NEXT was set during this start (R402) -/
  coldSet : Bool := false
  /-- NAND entries with uncorrectable codewords that the read-verify found (R399): page, and whether it is entry B -/
  nandBad : List (Nat × Bool) := []
  /-- OP of the Mint command that runs, or 0 (R464) -/
  mintOp : Nat := 0
  deriving DecidableEq, Repr

/-! ### What leaves the block -/

/-- The status of a reply to a requester (Table 1-10, R435, R436). -/
inductive Status where
  | ok | denied | accessFault | unsupported | negative | unmapped | poisoned | malformed
  /-- the access waits for a page move or the NAND (R228): nothing was done, and the requester's access stays open -/
  | waits
  deriving DecidableEq, Repr

/-- The reply to the last access: who asked, the status, the data, and the TAG a command frame carries (R436). -/
structure Reply where
  req : Nat := 0
  status : Status := .ok
  value : W64 := 0
  bytes : List Byte := []
  tag : Option W16 := none
  deriving DecidableEq, Repr

/-- What the block sends to the outside. -/
inductive Emit where
  /-- an Ethernet frame leaves port p (4: the internal port) -/
  | frame (p : Nat) (data : List Byte)
  /-- MSI-X vector k of function f (R424) -/
  | msix (f : Nat) (k : Nat)
  /-- a heartbeat of one end of the cross-die link (R355) -/
  | linkBeat (toJudge : Bool)
  /-- an input copy goes to the guard models, with the Lane value at its post (R356) -/
  | copy (lane : W64) (data : List Byte)
  /-- a level of a test output: emergency stop A and B, enabling A and B (R372, R422) -/
  | testPulse (out : Nat)
  /-- ALIVE toggles (R355) -/
  | alive
  /-- the heartbeat of a Relay link: role, pair state, LOCAL Lanes (R405) -/
  | heartbeat (l : Nat) (duty : Bool) (state : Nat) (lanes : List (Nat × W64))
  /-- YIELD (R412) -/
  | yield (l : Nat)
  /-- a write sent to the standby as a mirror record (R407) -/
  | mirrorWrite (l : Nat) (pa : Nat) (data : List Byte)
  /-- the Tracker's slots (Table 17-1) -/
  | mirrorTracks (l : Nat) (slots : List (Nat × Track)) (nextId : W32)
  /-- what the Judge has delivered for an output (R410) -/
  | mirrorOut (l : Nat) (o : Nat) (words : List W32)
  /-- the image of a context (R408) -/
  | checkpoint (l : Nat) (c : Nat) (img : CtxImage)
  /-- group data for a channel of a member (R416) -/
  | group (l : Nat) (member : Nat) (ch : Nat) (data : List Byte)
  /-- what a slow-bus controller writes to a target (R431) -/
  | bus (b : Nat) (addr : Nat) (data : List Byte)
  /-- a slow-bus read, an address assignment, a stop or chip-select release, a Hot-Join refusal (R431, R439) -/
  | busRead (b : Nat) (addr : Nat) (len : Nat)
  | entdaa (b : Nat) (addrs : List Nat)
  | busStop (b : Nat) (addr : Nat)
  | disec (b : Nat)
  /-- a reply frame of the safety port waits: SP_IRQ_N is low (R441) -/
  | spReply (data : List Byte)
  /-- SWJ_POR_N pulses (R419) -/
  | porPulse
  deriving DecidableEq, Repr

end Sys2Proof.Machine
end

