-- ==== Sys2Proof/Machine/Units.lean ====
section
/-!
DEFINITION. The insides of the Reflex island, the TSN bridge and the Lemquevin die: plain data that no register holds.
-/

namespace Sys2Proof.Machine

open Sys2Proof

/-! ### The Reflex island (12) -/

/-- A hysteresis unit (R301). -/
structure Hyst where
  s : Bool := false
  d : Nat := 0
  n : Nat := 0
  w : Nat := 0
  deriving DecidableEq, Repr

/-- A commit of a mailbox (R308, R309): when it took effect, its sequence and its eight words. -/
structure Commit where
  time : Nat
  seq : W32
  words : List W32
  deriving DecidableEq, Repr

/-- A Pacer channel: what its instructions work on, and what its instant latched. -/
structure Chan where
  xs : Map W32 := []
  /-- ACC in units of 2^-78 (R296) -/
  acc : Int := 0
  /-- input slots as latched, and the slots that latched stale values -/
  ins : Map W32 := []
  stale : List Nat := []
  /-- what each slot's source stood at at its last latch (R302): fault count or buffer sequence -/
  seen : Map Nat := []
  /-- commits not yet overtaken, newest first; the latched one; whether the latch changed the sequence -/
  commits : List Commit := []
  mbx : List W32 := []
  mbxSeq : W32 := 0
  mbxNew : Bool := false
  rxi : Map W32 := []
  /-- outputs accepted for the next instant, and whether every slot had one at this one -/
  rxNext : Map (Option W32) := []
  rxOk : Bool := false
  /-- feature slots as last stored by the program, and the snapshot sent at the instant -/
  feat : Map W32 := []
  featSnap : Map W32 := []
  /-- output slots: shadows, and whether each has been written since its Pacer was armed -/
  outs : Map W32 := []
  hyst : Map Hyst := []
  /-- the Lane value of the instant -/
  instant : W64 := 0
  /-- the channel has run a period since its Pacer was armed or it was enabled -/
  ran : Bool := false
  /-- the state region as of the last halt: word offset from 0xD000 + 0x400 c (Table 12-8) -/
  snap : Map W32 := []
  deriving DecidableEq, Repr

/-- A Pacer beside its registers. -/
structure Pacer where
  /-- channels and banks in force (R295) -/
  chEn : Nat := 0
  pbank : Nat := 0
  kbank : Nat := 0
  /-- an accepted change that waits for the next instant -/
  change : Option (Nat × Nat × Nat) := none
  /-- the next instant and the remainder carried (R293) -/
  next : W64 := 0
  acc : Nat := 0
  /-- uptime of the last executed instant -/
  last : Option W64 := none
  /-- EN = 0 was written: it stops after the period in progress -/
  stopping : Bool := false
  /-- an instant has been latched and its execution has not begun -/
  sampled : Bool := false
  /-- the channel that executes and its program counter -/
  exec : Option (Nat × Nat) := none
  deriving DecidableEq, Repr

/-- A PWM bridge (R305). -/
structure Bridge where
  counter : Nat := 0
  up : Bool := true
  /-- compare values and pending compare values of the phases U, V, W -/
  cmp : Map Nat := []
  pend : Map (Option Nat) := []
  /-- outputs that have received an update since their Pacer was armed (bit per output), outputs that follow their
  commands again after their last off cause, and direct levels -/
  upd : Nat := 0
  live : Nat := 0
  direct : Nat := 0
  /-- outputs that a PWM_DIRECT slot drives -/
  isDirect : Nat := 0
  /-- the Pacer that drives each output: number plus 1, by output -/
  driver : Map Nat := []
  /-- high-side command of each phase (bit per phase) -/
  cmd : Nat := 0
  /-- pin levels of the six outputs, after dead time -/
  level : Nat := 0
  deriving DecidableEq, Repr

/-- A sigma-delta input, an analog input and an encoder port, as last seen (R302 to R304). -/
structure Encoder where
  count : Int := 0
  /-- position as an unsigned fraction of a turn, and the signed turns -/
  pos : W32 := 0
  turns : Int := 0
  /-- unwrapped SSI position and whether there was one (R47) -/
  word : Int := 0
  seen : Bool := false
  busy : Bool := false
  /-- faults reported, and timeouts or amplitude faults in a row -/
  faults : Nat := 0
  run : Nat := 0
  deriving DecidableEq, Repr

/-- The Reflex island beside its registers. -/
structure IslandUnit where
  /-- the island is in reset (R291) -/
  reset : Bool := true
  pacers : Map Pacer := []
  chans : Map Chan := []
  /-- Pacer memory, by Pacer number * 16384 + word (Table 12-8) -/
  mem : Map W32 := []
  bridges : Map Bridge := []
  encs : Map Encoder := []
  /-- the last conversion of each analog input: uptime and code -/
  adc : Map (Option (W64 × W16)) := []
  /-- VIO_DRIVE stands: the PWM outputs are not in high impedance (R446) -/
  vioDrive : Bool := true
  /-- groups in which the island asserts channel B on its own (R368) -/
  stoB : Nat := 15
  /-- the stop line of the Lemquevin die: groups it commands on channel B -/
  stopLine : Nat := 15
  deriving DecidableEq, Repr

/-! ### The TSN bridge (02, 18) -/

/-- A frame in a queue of a port, with its launch value and whether it is held for it (R65). -/
structure Queued where
  tc : Nat
  launch : Option W64
  held : Bool
  data : List Byte
  deriving DecidableEq, Repr

/-- A correction held for a Follow_Up (R64), in units of 2^-16 ns. -/
structure Held where
  port : Nat
  seq : Nat
  domain : Nat
  sdo : Nat
  corr : Int
  deriving DecidableEq, Repr

/-- An entry of the learning table (R428). -/
structure Learn where
  mac : Nat
  vid : Nat
  port : Nat
  deriving DecidableEq, Repr

/-- The bridge beside its registers. -/
structure NetUnit where
  /-- launch slots, receive buffers, gate lists and stream tables, by byte offset in the NET block -/
  slots : Map Byte := []
  rxb : Map Byte := []
  tables : Map W32 := []
  /-- the frames that wait at each port, in order -/
  queues : Map (List Queued) := []
  learn : List Learn := []
  /-- the list entry in force of each port's gates and of each stream gate: number plus 1, or 0 while no list runs -/
  gateAt : Map Nat := []
  sgateAt : Map Nat := []
  /-- timestamp FIFO of the internal port: meta and stamp (TS_META, TS_DATA) -/
  ts : List (W32 × W64) := []
  held : List Held := []
  /-- recovery history of each 802.1CB stream, bit i for the number RCV_SEQ - i; none since a reset -/
  history : Map (Option Nat) := []
  deriving DecidableEq, Repr

/-! ### The Lemquevin die (15) -/

/-- What a judged output delivers (Table 15-2). -/
inductive Verdict where
  | main | guard | last | safe
  deriving DecidableEq, Repr

/-- A judged output (R357, R358). -/
structure JOut where
  /-- E_0 and the index of the expected instant, once a first frame has come -/
  e0 : Option W64 := none
  k : Nat := 0
  /-- the instant before this one had its main frame -/
  hadMain : Bool := false
  /-- the main frame and the guard value that have arrived on time for this instant -/
  main : Option (List W32) := none
  guard : Option (List W32) := none
  /-- main frames of later instants that came before this one's verdict: INSTANT, words and stamp, in order of arrival -/
  held : List (W64 × List W32 × W64) := []
  /-- disagreement flags of the last N frames, newest first -/
  flags : List Bool := []
  lastAgreed : Option (List W32) := none
  /-- consecutive agreeing frames while rejoining; rejoined -/
  run : Nat := 0
  rejoined : Bool := false
  /-- what waits for its delivery -/
  deliver : List (Verdict × List W32) := []
  lastKind : Verdict := .safe
  seq : W16 := 0
  disagree : W16 := 0
  late : Byte := 0
  stray : Byte := 0
  deriving DecidableEq, Repr

/-- A supervised task (R363). -/
structure JTask where
  armed : Bool := false
  last : W64 := 0
  /-- the gap since the last checkpoint has been counted -/
  gapped : Bool := false
  violations : W16 := 0
  deriving DecidableEq, Repr

/-- A cause that stands (Table 15-3): its code, what it concerns, its groups, whether it is latched. -/
structure Cause where
  code : Nat
  index : Nat
  groups : Nat
  latched : Bool
  deriving DecidableEq, Repr

/-- The Judge and its inputs. -/
structure JudgeUnit where
  /-- the configuration record in force by byte offset, its CRC; the staging copy; the record in the NOR -/
  cfg : Map Byte := []
  cfgValid : Bool := false
  cfgCrc : W32 := 0
  stage : Map Byte := []
  nor : Map Byte := []
  outs : Map JOut := []
  tasks : Map JTask := []
  causes : List Cause := []
  /-- STO commanded, per group; read back on each channel; SS1 in progress -/
  cmd : Nat := 15
  aRb : Nat := 15
  bRb : Nat := 15
  ss1 : Nat := 0
  fallback : Bool := false
  /-- uptimes of fall-back entries in the last 600 s, newest first -/
  entries : List W64 := []
  /-- uptime of the latest of them (R365) -/
  fbAt : W64 := 0
  lockout : Bool := false
  enableReq : Bool := false
  linkUp : Bool := false
  alive : Bool := false
  /-- inputs: channels closed -/
  estopA : Bool := false
  estopB : Bool := false
  enableA : Bool := false
  enableB : Bool := false
  /-- which emergency-stop channels have opened, and closed again, since an INPUT_FAULT (R372) -/
  estopFault : Bool := false
  openA : Bool := false
  openB : Bool := false
  enableFault : Bool := false
  stoTestDue : Bool := false
  /-- the estop channels have differed, the enabling channels have differed since -/
  estopDiff : Option W64 := none
  enableDiff : Option W64 := none
  /-- uptime at which each group was last demanded into STO (R381), and at which its SS1 began (R371) -/
  demandAt : Map W64 := []
  ss1At : Map W64 := []
  /-- groups that only an ENABLE stop holds (R373) -/
  enableStop : Nat := 0
  cause : W64 := 0
  /-- counters of JUDGE_LINK -/
  crcDrop : W16 := 0
  seqDrop : Byte := 0
  copyDrop : Byte := 0
  /-- the last sequence taken of each direction of the cross-die link, of the safety port, of the service port's frames -/
  seqIn : Option W64 := none
  seqOut : Option W64 := none
  /-- uptimes of the last valid message at each end, of the last ALIVE toggle, of the last valid safety-port frame -/
  lastTo : W64 := 0
  lastFrom : W64 := 0
  lastAlive : W64 := 0
  sportAt : W64 := 0
  spSeq : Option W16 := none
  svSeq : Option W16 := none
  /-- frames of the two ports dropped (R379) -/
  spDrop : W16 := 0
  svDrop : W16 := 0
  /-- the reply that the next transaction carries -/
  spReply : List Byte := []
  /-- SPORT output slots -/
  sport : Map W32 := []
  /-- counter increments that wait for the link (R465) -/
  incs : List (Nat × W64) := []
  /-- audits: steps passed of each unit's current coverage, units whose age exceeds the FTTI, units that have run
  SAFETY work since their last passing step; tile p at key p, engine e at key 4096 + e -/
  steps : Map Nat := []
  aged : List Nat := []
  ranSafety : List Nat := []
  auditFail : Option (Nat × Nat × Nat) := none
  /-- fragments in progress: positions 0 to 6, engines 8 to 15 -/
  frags : List Nat := []
  /-- uptime of the last start-up test, and of each unit's last full coverage since (R376) -/
  coverBase : W64 := 0
  coverAt : Map (Option W64) := []
  deriving DecidableEq, Repr

end Sys2Proof.Machine
end

