-- ==== Sys2Proof/Machine/Units2.lean ====
section
/-!
DEFINITION. The insides of the Fusion and Hurdle units: plain data that no register holds.
-/

namespace Sys2Proof.Machine

open Sys2Proof

/-! ### The Fusion unit (13) -/

/-- A stream beside its registers (R317 to R323). -/
structure FStream where
  xRef : W64 := 0
  yRef : W64 := 0
  rate : Int := 0
  good : Nat := 0
  /-- a pair has been taken since admission or DESYNC -/
  paired : Bool := false
  /-- the latest fusion-Lane time it has delivered -/
  top : Option W64 := none
  /-- uptime of the last intake, or of the admission -/
  lastIn : W64 := 0
  /-- the monitor: y and offset of the pairs in its window, newest first -/
  mon : List (W64 × Int) := []
  /-- the first instant it is a member for -/
  since : W64 := 0
  deriving DecidableEq, Repr

/-- A sample in the Clearing buffer. -/
structure FSample where
  stream : Nat
  y : W64
  seq : W32
  count : Nat
  data : List Byte
  /-- the instant it belongs to; a late sample goes into the next set -/
  inst : W64
  late : Bool
  deriving DecidableEq, Repr

/-- An entry of a track's history (R330): the time, the state before the update, what the update used. -/
structure FHist where
  id : W32
  time : W64
  x : List W32
  p : List W32
  z : List W32
  r : List W32
  stream : Nat
  deriving DecidableEq, Repr

/-- A kernel that runs on a pipe: its operation, and what it read as it started (R326, R330). -/
structure FRun where
  ctx : Nat
  id : Nat
  bank : Nat
  tables : Map Byte
  deriving DecidableEq, Repr

/-- The Fusion unit beside its registers. -/
structure FusionUnit where
  streams : Map FStream := []
  samples : List FSample := []
  /-- the oldest instant not yet released, and the remainder carried -/
  next : W64 := 0
  acc : Nat := 0
  newest : Option W64 := none
  /-- the transform tables, the sensor models and the motion models, by offset in the FUSION block -/
  tables : Map Byte := []
  tracks : Map (Option Track) := []
  nextId : W32 := 0
  hist : Map (List FHist) := []
  /-- what the transform pipe and the Tracker run -/
  xform : Option FRun := none
  tracker : Option FRun := none
  deriving DecidableEq, Repr

/-! ### The Hurdle unit (14) -/

/-- KIND of a cube that is not SPLIT (R338). -/
inductive VKind where
  | free | occupied | unknown
  deriving DecidableEq, Repr

/-- The occupancy tree: a cube of one kind, or eight children in the order of their numbers. -/
inductive VTree where
  | cube (k : VKind)
  | split (c0 c1 c2 c3 c4 c5 c6 c7 : VTree)
  deriving DecidableEq, Repr

/-- A query batch in progress (R337), with the value of DLANE as it started. -/
structure HRun where
  ctx : Nat
  id : Nat
  lane : W64
  yielded : Bool := false
  deriving DecidableEq, Repr

/-- The Hurdle unit beside its registers. -/
structure HurdleUnit where
  tree : VTree := .cube .unknown
  /-- the stop Stride's record -/
  stop : List Byte := []
  /-- a LOAD that waits for the batch in progress: address and INDEX -/
  load : Option (Nat × Nat) := none
  /-- the pose of record and the parameter block of the last khfinish completed since EN -/
  pose : Option (List W32 × List Byte) := none
  /-- batches in progress, the one that runs last -/
  runs : List HRun := []
  deriving DecidableEq, Repr

/-! ### The Stream store (08) -/

/-- Where a stream's state lies (STREAM_INFO.STATE). -/
inductive StreamAt where
  | resident | escrow | raising | lowering | poisoned
  deriving DecidableEq, Repr

/-- A registered stream (R196). -/
structure Strm where
  owner : Nat
  gate : Nat
  h : Nat
  esc : Nat
  init : W64
  place : StreamAt := .escrow
  /-- the carried state while it lies in the Stream store -/
  vals : List W32 := []
  /-- the initial state has not been read yet: a chunk reads it as it starts (R198) -/
  fresh : Bool := false
  claims : List Claimant := []
  /-- stamp at which its last chunk completed -/
  lastDone : Nat := 0
  deriving DecidableEq, Repr

/-- The Stream store beside its registers. -/
structure StreamUnit where
  streams : Map (Option Strm) := []
  deriving DecidableEq, Repr

/-! ### The Sprint engines (06) -/

/-- A reflex binding of an engine (R165). -/
structure RxBind where
  ctx : Nat
  pacer : Nat
  mask : Nat
  /-- the parameter block and the image's region in the engine's memory -/
  params : List Byte
  base : Nat
  len : Nat
  /-- a replacement that takes effect at the next period: block, region, operation -/
  next : Option (List Byte × Nat × Nat × Nat) := none
  /-- a STOP that waits for the evaluation in progress: its operation -/
  stop : Option Nat := none
  /-- ends after the evaluation in progress without an operation that waits for it -/
  ending : Bool := false
  /-- the evaluation in progress: outputs of each channel; its outputs missed the deadline -/
  run : Option (Map (List W32)) := none
  late : Bool := false
  deriving DecidableEq, Repr

/-- The Sprint engines beside their registers. -/
structure SprintUnit where
  /-- engine memories, by engine * 262144 + offset; none where nothing was written since the window was granted (R118) -/
  mem : Map (Option Byte) := []
  binds : Map (Option RxBind) := []
  deriving DecidableEq, Repr

/-! ### Pairs, Relay links and image updates (17) -/

/-- The Relay side beside its registers. -/
structure RelayUnit where
  /-- a YIELD has arrived; TAKE has been accepted; a HANDOVER waits for its contexts (R411) -/
  yieldIn : Bool := false
  take : Bool := false
  handover : Bool := false
  /-- uptime at which DUTY_IN fell; of the last valid heartbeat on each path -/
  dutyLow : W64 := 0
  hbMain : W64 := 0
  hbAlt : W64 := 0
  /-- traffic held while its link trains or is down (R414), oldest first -/
  held : List (Nat × Emit) := []
  /-- what LINK_DEGRADED last counted of each link: 1 degraded, 2 down (R397) -/
  bad : Map Nat := []
  /-- masked contexts of which the standby holds a complete image (R408) -/
  current : List Nat := []
  /-- image data supplied so far, and whether the write fetches from the partner -/
  img : List Byte := []
  fetch : Bool := false
  /-- the NOR image as it stood before the fetch -/
  norWas : Option Image := none
  deriving DecidableEq, Repr

/-! ### Cameras and slow buses (18) -/

/-- A frame that a camera receives: its number, its lines, and whether a payload failed its CRC. -/
structure CamFrame where
  num : W16
  lines : List (List W16) := []
  crcErr : Bool := false
  deriving DecidableEq, Repr

/-- A frame that has ended and waits for its post: unwrapped number, timestamp, and whether it is dropped (R427). -/
structure CamDone where
  num : W64
  stamp : W64
  lines : List (List W16)
  crcErr : Bool
  short : Bool
  drop : Bool
  deriving DecidableEq, Repr

/-- A camera receiver beside its registers. -/
structure CamUnit where
  cur : Option CamFrame := none
  done : List CamDone := []
  /-- the unwrapped number of the last frame, since the camera arrived -/
  last : Option W64 := none
  deriving DecidableEq, Repr

/-- A slow-bus controller: its FIFOs and the dynamic addresses it has assigned. -/
structure BusUnit where
  tx : List W32 := []
  rx : List W32 := []
  targets : List Nat := []
  deriving DecidableEq, Repr

/-- Cameras and buses beside their registers. -/
structure PortUnit where
  cams : Map CamUnit := []
  buses : Map BusUnit := []
  deriving DecidableEq, Repr

/-! ### Power and clocks (19) -/

/-- The power side beside its registers. -/
structure PowerUnit where
  /-- the samples of the last millisecond, newest first, in units of 0.01 W -/
  samples : List Nat := []
  /-- how many of the seven reductions of R451 are applied -/
  step : Nat := 0
  /-- uptime since which the average has stood above the effective cap with every reduction applied -/
  overAt : Option W64 := none
  /-- the thermal limit in W (R454) -/
  limit : Nat := 180
  /-- the hottest reading since PEAK_C was read -/
  peakC : Option Int := none
  /-- droop sensors tripped (R449), PLLs without lock (R455) -/
  tripped : List Nat := []
  unlocked : List Nat := []
  deriving DecidableEq, Repr

end Sys2Proof.Machine
end

