-- ==== Sys2Proof/Machine/State.lean ====
section
/-!
DEFINITION. The state of the block, plain data, and the state after reset: the moment the always-on fabric leaves
its own power-on reset (R458).
-/

namespace Sys2Proof.Machine

open Sys2Proof

/-- The whole state of the module. The control-space registers stand in `regs`, every other piece in its unit's
part. -/
structure State where
  /-- commands that wait, first in first out -/
  pending : List Instr := []
  /-- control-space registers and staging copies (R35, R432): key, 64-bit value -/
  regs : Map W64 := []
  /-- the Ledger range by physical home address (R32) -/
  mem : List Host.Cell := []
  /-- bytes of dirty raised copies, newer than the home (R223) -/
  overlay : Map (Option Byte) := []
  /-- how often a safe-state reset has lost the Vault (R23) -/
  vaultGen : Nat := 0
  /-- how often a power-on reset of the die has lost the DRAM -/
  dramGen : Nat := 0
  /-- DRAM pages whose contents the spec leaves open (R287), with the counter their bytes are drawn with -/
  lostPages : Map (Option Nat) := []
  /-- the counter free values are drawn with (assumption 2) -/
  freeCtr : Nat := 0
  /-- order of hand-overs, waits, claims: rises at each (R245, R255, R226) -/
  stamp : Nat := 1
  /-- the reply to the last access of a requester -/
  reply : Reply := {}
  /-- what has left the block, oldest first -/
  out : List Emit := []
  /-- words 1 to 3 of the incident record or note whose word 0 a requester has read last, with its number (R466) -/
  recLatch : Map (Option (Nat × List W64)) := []
  lanes : LaneUnit := {}
  tally : TallyUnit := {}
  ctxs : Map Ctx := []
  teller : TellerUnit := {}
  field : FieldUnit := {}
  starter : StarterUnit := {}
  boot : BootUnit := {}
  island : IslandUnit := {}
  net : NetUnit := {}
  judge : JudgeUnit := {}
  fusion : FusionUnit := {}
  hurdle : HurdleUnit := {}
  stream : StreamUnit := {}
  sprint : SprintUnit := {}
  relay : RelayUnit := {}
  port : PortUnit := {}
  power : PowerUnit := {}
  deriving DecidableEq, Repr

/-- No command stops the block with a fault. -/
inductive Fault where
  deriving DecidableEq, Repr

/-- Why a command has no meaning. -/
inductive Refusal where
  /-- Raised by Dispatch for a command whose meaning is not written yet. Safe: nothing can be proved of it. -/
  | notModelled (mnemonic : String)
  deriving DecidableEq, Repr

/-- The machine right after reset: every register at the value its table gives, the rest as the assumption log
says (R458; assumptions 4, 5). -/
def State.reset : State := {}

end Sys2Proof.Machine
end

