-- ==== Sys2Proof/Machine/Ops.lean ====
section
/-!
DEFINITION. The named operations over registers and memory that every meaning is written with: bit fields,
registers and their fields, bytes of the Ledger range, the incident ledger, presence of units, standing.
-/

namespace Sys2Proof.Machine

open Sys2Proof

/-! ### Bits -/

/-- The `len` bits of a word from bit `lo` up. -/
def bitsOf (w : W64) (lo len : Nat) : Nat := (w.toNat >>> lo) % 2 ^ len

/-- A word with `len` ones from bit `lo` up. -/
def maskOf (lo len : Nat) : W64 := BitVec.ofNat 64 ((2 ^ len - 1) <<< lo)

/-- A word with its `len` bits from bit `lo` replaced by the low bits of a value. -/
def putBits (w : W64) (lo len v : Nat) : W64 :=
  (w &&& ~~~ maskOf lo len) ||| BitVec.ofNat 64 ((v % 2 ^ len) <<< lo)

/-- Bit `i` of a number. -/
def bitAt (v i : Nat) : Bool := v.testBit i

/-- A 0 or 1. -/
def b2n (b : Bool) : Nat := if b then 1 else 0

/-- The value of the low `n` bits of a number as a two's complement number. -/
def sext (n v : Nat) : Int :=
  let m := v % 2 ^ n
  if 2 ^ n ≤ 2 * m then (m : Int) - (2 ^ n : Nat) else (m : Int)

/-- A saturating count of a width of `n` bits. -/
def satAdd (n v a : Nat) : Nat := if v + a ≤ 2 ^ n - 1 then v + a else 2 ^ n - 1

/-- R41: a Lane value is equal to or later than another, by signed difference. -/
def reached (v t : W64) : Bool := decide (0 ≤ (v - t).toInt)

/-- R41: a Lane value is later than another. -/
def later (a b : W64) : Bool := decide (0 < (a - b).toInt)

/-- A number as its bytes, least significant first (R11). -/
def toBytes : Nat → Nat → List Byte
  | 0, _ => []
  | n + 1, v => BitVec.ofNat 8 v :: toBytes n (v / 256)

/-- Bytes as a number, least significant first (R11). -/
def ofBytes : List Byte → Nat
  | [] => 0
  | b :: t => b.toNat + 256 * ofBytes t

/-- The number a slice of a byte list spells. -/
def sliceNat (l : List Byte) (off n : Nat) : Nat := ofBytes ((l.drop off).take n)

/-- Bytes of a width. -/
def Width.bytes : Width → Nat
  | .b1 => 1 | .b2 => 2 | .b4 => 4 | .b8 => 8

/-! ### Registers -/

namespace State

/-- The register at a key: an offset of control space, or a staged copy (R432). -/
def reg (s : State) (k : Nat) : W64 := mget regDefault s.regs k

/-- Set the register at a key. -/
def setReg (s : State) (k : Nat) (v : W64) : State := { s with regs := mset regDefault s.regs k v }

/-- A field of a register. -/
def fld (s : State) (f : Fld) : Nat := bitsOf (s.reg f.reg) f.lo f.len

/-- A one-bit field. -/
def flag (s : State) (f : Fld) : Bool := s.fld f != 0

/-- Set a field of a register, and nothing else of it. -/
def setFld (s : State) (f : Fld) (v : Nat) : State := s.setReg f.reg (putBits (s.reg f.reg) f.lo f.len v)

/-- Count up in a saturating field. -/
def bump (s : State) (f : Fld) (a : Nat := 1) : State := s.setFld f (satAdd f.len (s.fld f) a)

/-- Count up in a field that wraps on its width: a rising count (R16). -/
def rise (s : State) (f : Fld) (a : Nat := 1) : State := s.setFld f (s.fld f + a)

end State

/-- The staged copy of a register that requester `r` sees (R432). -/
def stg (r : Nat) (k : Nat) : Nat := 0x100000 * (r + 1) + k

/-- The staged copy of a field. -/
def Fld.of (f : Fld) (r : Nat) : Fld := { f with reg := stg r f.reg }

namespace State

/-- The value of a Lane (R40). -/
def laneVal (s : State) (n : Nat) : W64 := s.reg (Reg.LANE_VALUE n)

/-- SYS_UPTIME (R461). -/
def uptime (s : State) : W64 := s.reg Reg.SYS_UPTIME

/-- Append to what has left the block. -/
def emit (s : State) (e : Emit) : State := { s with out := s.out ++ [e] }

/-- Send something over a Relay link: traffic on a link that trains or is down is held and sent afterwards (R414). -/
def relayOut (s : State) (l : Nat) (e : Emit) : State :=
  if 2 ≤ s.fld (Reg.RELAY_LINK_STAT_STATE l) then s.emit e
  else { s with relay := { s.relay with held := s.relay.held ++ [(l, e)] } }

/-- The module holds the duty of a pair (R403). -/
def isDuty (s : State) : Bool := s.fld Reg.RELAY_PAIR_STAT_STATE != 0 && s.flag Reg.RELAY_PAIR_STAT_DUTY

/-- The pair link. -/
def pairLink (s : State) : Nat := s.fld Reg.RELAY_PAIR_CFG_LINK

/-- Send a mirror record to the standby (R406). -/
def mirrorOut (s : State) (e : Emit) : State := (s.relayOut s.pairLink e).rise Reg.RELAY_MIRROR_SENT_ALL

/-- The reply to an access. -/
def answer (s : State) (r : Nat) (st : Status) (v : W64 := 0) (bs : List Byte := []) : State :=
  { s with reply := { req := r, status := st, value := v, bytes := bs } }

/-- Take the next free value's counter. -/
def bumpFree (s : State) : State := { s with freeCtr := s.freeCtr + 1 }

/-- Take the next stamp. -/
def nextStamp (s : State) : State := { s with stamp := s.stamp + 1 }

/-! ### The incident ledger (R465 to R468) -/

/-- Word 2 of a record (Table 20-4). -/
def recWord2 (code source ctx : Nat) : W64 :=
  BitVec.ofNat 64 (2 ^ 63 + 2 ^ 24 * (code % 256) + 2 ^ 16 * (source % 256) + ctx % 512)

/-- Write the four words of a record that starts at word `w0` of counter `n`. -/
def putRec (s : State) (n w0 : Nat) (w2 d : W64) : State :=
  (((s.setReg (Reg.INC_REC n w0) s.uptime).setReg (Reg.INC_REC n (w0 + 1)) (s.laneVal 15)).setReg
    (Reg.INC_REC n (w0 + 2)) w2).setReg (Reg.INC_REC n (w0 + 3)) d

/-- An incident (R465): the counter rises, LAST is overwritten, FIRST is written when it is not VALID. -/
def incident (s : State) (n source ctx : Nat) (d : W64) : State :=
  let w2 := recWord2 n source ctx
  let first := bitsOf (s.reg (Reg.INC_REC n 2)) 63 1
  let s := (s.bump (Reg.INC_CNT_COUNT n)).putRec n 4 w2 d
  if first = 0 then s.putRec n 0 w2 d else s

/-- A note (R467). -/
def note (s : State) (code source : Nat) (d : W64) : State :=
  let i := (s.reg Reg.SYS_NOTE_SEQ).toNat % 64
  let s := s.rise Reg.SYS_NOTE_SEQ_ALL
  (((s.setReg (Reg.SYS_NOTE i 0) s.uptime).setReg (Reg.SYS_NOTE i 1) (s.laneVal 15)).setReg
    (Reg.SYS_NOTE i 2) (recWord2 code source 0x100)).setReg (Reg.SYS_NOTE i 3) d

/-- R435: count and record a denied access. `right` is coded as PORT_DENY_LAST.RIGHT. -/
def deny (s : State) (r right addr : Nat) : State :=
  let s := s.incident 8 r 0x100 (BitVec.ofNat 64 (2 ^ 48 * (right % 16) + addr % 2 ^ 44))
  let s := s.bump (Reg.PORT_DENY_CNT_COUNT r)
  s.setReg Reg.PORT_DENY_LAST (BitVec.ofNat 64 (2 ^ 58 * (r % 64) + 2 ^ 54 * (right % 16) + addr % 2 ^ 44))

/-! ### Units present (R3, R4, R387, R459) -/

/-- The UNITS bits of Table 20-1 that the Mint record's ABSENT field leaves. -/
def mintUnits (s : State) : Nat :=
  let a := s.boot.mint.absent.toNat
  0x1FFF - (b2n (bitAt a 0) * 0x8 + b2n (bitAt a 1) * 0x40 + 0x600 * b2n (bitAt a 2) + b2n (bitAt a 3) * 0x20)

/-- A unit, by its bit of Table 20-1, is present. -/
def present (s : State) (u : Nat) : Bool := bitAt s.mintUnits u && !bitAt s.boot.unitsLost u

/-- The NAND view is backed at an address (R6, R33). -/
def nandBacked (s : State) (a : Nat) : Bool :=
  s.present 6 && (!(s.boot.mint.part == 0x4410) || decide (a < 0x10000000000))

/-- What the FIELD_CLK group does: nothing while THERM_TRIP holds its clock (R454). -/
def clocked (s : State) (f : State → State) : State := if s.flag Reg.PWR_STAT_THERM_TRIP then s else f s

/-! ### Standing (R432 to R435) -/

/-- The Mint STANDING entry of a requester (R434). -/
def standingEntry (r : Nat) : Nat :=
  if r < 16 then 0 else if r < 18 then 1 else if r < 26 then 2 + (r - 18) else if r < 30 then 10 + (r - 26)
  else if r < 34 then 14 + (r - 30) else if r = 34 then 18 else if r = 35 then 19 else 20

/-- The default standing (Table 18-8), a mask of the rights of Table 18-7. -/
def defaultStanding (s : State) (r : Nat) : Nat :=
  if r < 18 then 0x13FF
  else if r < 26 then 0x000F
  else if r < 30 then s.fld (Reg.PORT_GRANT_GRANT (r - 26))
  else if r < 34 then 0x0104
  else if r = 34 then (if s.boot.strapSvc then 0x1FFF else 0x1000)
  else if r = 35 then (if s.boot.strapSvc then 0x17FF else 0x1000)
  else 0x0800

/-- The standing of a requester (R434): nothing adds to the default, the Mint entry removes. -/
def standing (s : State) (r : Nat) : Nat :=
  Nat.land (s.defaultStanding r) (0x1FFF - Nat.land (mget (fun _ => 0) s.boot.mint.standing (standingEntry r)) 0x1FFF)

/-- A requester holds a right. -/
def holds (s : State) (r right : Nat) : Bool := bitAt (s.standing r) right

end State

/-! ### The physical map (R21, R32, R216) -/

/-- What lies at a physical address. -/
inductive Region where
  | vault | dram | nand
  /-- an unbacked part of the NAND view (R6, R33) -/
  | nandAbsent
  | ctl | tally
  /-- frames and regions no agent but their unit reaches: Vault raise frames, raise pool (R216) -/
  | raise
  /-- the Teller reserve (R216) -/
  | reserve
  | hole
  deriving DecidableEq, Repr

namespace State

/-- HOME_FRAMES: larger values act as 1,792. -/
def homeFrames (s : State) : Nat := Nat.min (s.fld Reg.TELLER_VAULT_SPLIT_HOME_FRAMES) 1792

/-- A page number lies in a region given by a base register and a page count. -/
def inPages (s : State) (base cnt : Fld) (page : Nat) : Bool :=
  decide (s.fld base ≤ page) && decide (page < s.fld base + s.fld cnt)

/-- The save frames while the Starter runs (R251). -/
def inSave (s : State) (page : Nat) : Bool :=
  s.flag Reg.START_CTL_EN && decide (s.fld Reg.START_SAVE_CFG_BASE ≤ page)
    && decide (page < s.fld Reg.START_SAVE_CFG_BASE + s.fld Reg.START_SAVE_CFG_FRAMES)

/-- The Hurdle map region while the unit runs (R338). -/
def inHurdleMap (s : State) (a : Nat) : Bool :=
  let b := s.fld Reg.HURDLE_MAP_BASE_ADDR * 64
  s.flag Reg.HURDLE_CTL_EN && decide (b ≤ a) && decide (a < b + 32 * s.fld Reg.HURDLE_MAP_NODES_NODES)

/-- The page number of the top of usable DRAM (R460). -/
def dramTop (s : State) : Nat := 0x100000 + s.fld Reg.SYS_CAPS_DRAM_PAGES

/-- The region of a physical address. -/
def region (s : State) (a : Nat) : Region :=
  let p := a / 65536
  if s.inHurdleMap a then .hole
  else if a < 0x7000000 then
    if p < s.homeFrames then (if s.inSave p then .hole else .vault) else .raise
  else if 0xF0000000 ≤ a ∧ a < 0xF1000000 then .ctl
  else if 0xF1000000 ≤ a ∧ a < 0xF1020000 then .tally
  else if 0x100000 ≤ p ∧ p < s.dramTop then
    if s.inPages Reg.TELLER_RSV_BASE_ADDR Reg.TELLER_RSV_PAGES_PAGES p then .reserve
    else if s.inPages Reg.TELLER_DPOOL_BASE_ADDR Reg.TELLER_DPOOL_PAGES_PAGES p then .raise
    else .dram
  else if 0x8000000000 ≤ a ∧ a < 0x18000000000 then
    if s.nandBacked a then .nand else .nandAbsent
  else .hole

/-- The page lies in escrow. -/
def inEscrow (s : State) (page : Nat) : Bool := s.inPages Reg.TELLER_ESC_BASE_ADDR Reg.TELLER_ESC_PAGES_PAGES page

/-- A page number names a Vault home frame or a DRAM home (R215, R216). -/
def isVdHome (s : State) (page : Nat) : Bool :=
  match s.region (65536 * page) with
  | .vault => true
  | .dram => !s.inEscrow page
  | _ => false

/-! ### Bytes of the Ledger range -/

/-- What an unlisted address reads as (R23, R287; assumptions 3, 4): 0, or what the Vault, the DRAM or a page lost. -/
def memDefault (s : State) (a : Nat) : Byte :=
  match mget (fun _ => none) s.lostPages (a / 65536) with
  | some g => if g = 0 then 0 else Config.lostByte g a
  | none =>
    if s.vaultGen ≠ 0 ∧ a < 0x7000000 then Config.lostByte s.vaultGen a
    else if s.dramGen ≠ 0 ∧ 0x1000000000 ≤ a ∧ a < 0x2000000000 then Config.lostByte s.dramGen a
    else 0

end State

/-- The Ledger range's list of cells is in canonical form: addresses rise strictly, and no cell equals what its
address reads as when it is not listed. -/
def Memory.wf (s : State) : Bool := mwf s.memDefault s.mem

namespace State

/-- The byte of a home. -/
def homeByte (s : State) (a : Nat) : Byte := mget s.memDefault s.mem a

/-- The byte at a home address where its page now lies (R215, R223). -/
def byteAt (s : State) (a : Nat) : Byte :=
  match mget (fun _ => none) s.overlay a with
  | some b => b
  | none => s.homeByte a

/-- Some bytes. -/
def bytesAt (s : State) (a n : Nat) : List Byte := (List.range n).map fun i => s.byteAt (a + i)

/-- A little-endian number of `n` bytes. -/
def natAt (s : State) (a n : Nat) : Nat := ofBytes (s.bytesAt a n)

/-- The state of a home page. -/
def page (s : State) (p : Nat) : Page := mget (fun _ => {}) s.teller.pages p

/-- Set what the Teller keeps of a page. -/
def setPage (s : State) (p : Nat) (v : Page) : State :=
  { s with teller := { s.teller with pages := mset (fun _ => {}) s.teller.pages p v } }

/-- Write one byte of a home. -/
def setHome (s : State) (a : Nat) (b : Byte) : State := { s with mem := mset s.memDefault s.mem a b }

/-- Set or forget one byte of a dirty raised copy. -/
def setOverlay (s : State) (a : Nat) (b : Option Byte) : State :=
  { s with overlay := mset (fun _ => none) s.overlay a b }

/-- Write one byte where its page now lies: a raised copy becomes DIRTY (R223). -/
def putByte (s : State) (a : Nat) (b : Byte) : State :=
  let p := s.page (a / 65536)
  if p.state = .raised then (s.setOverlay a (some b)).setPage (a / 65536) { p with dirty := true }
  else (s.setHome a b).setOverlay a none

/-- Write bytes upward from an address. -/
def putBytes : State → Nat → List Byte → State
  | s, _, [] => s
  | s, a, b :: t => putBytes (s.putByte a b) (a + 1) t

/-- Write a little-endian number of `n` bytes. -/
def putNat (s : State) (a n v : Nat) : State := s.putBytes a (toBytes n v)

/-- Forget what is listed of one page. -/
def forgetPage (s : State) (p : Nat) : State :=
  { s with mem := s.mem.filter fun e => e.1 / 65536 != p, overlay := s.overlay.filter fun e => e.1 / 65536 != p }

/-- Forget every dirty raised copy. -/
def dropOverlay (s : State) : State := { s with overlay := [] }

/-- The DRAM loses its contents (assumption 3). -/
def loseDram (s : State) : State :=
  { s with mem := s.mem.filter fun e => !(decide (0x1000000000 ≤ e.1) && decide (e.1 < 0x2000000000))
           lostPages := s.lostPages.filter fun e => !(decide (0x100000 ≤ e.1) && decide (e.1 < 0x200000))
           dramGen := s.freeCtr + s.dramGen + 1 }

/-- The Vault loses its contents (R23; assumption 3). -/
def loseVault (s : State) : State :=
  { s with mem := s.mem.filter fun e => !decide (e.1 < 0x7000000)
           lostPages := s.lostPages.filter fun e => !decide (e.1 < 0x700)
           vaultGen := s.freeCtr + s.vaultGen + 1 }

/-- Leave the contents of one page open (R287; assumption 3). -/
def losePage (s : State) (p : Nat) : State :=
  let s := s.forgetPage p
  { s with lostPages := mset (fun _ => none) s.lostPages p (some (s.freeCtr + 1)) }

/-- Make every byte of one page 0. -/
def zeroPage (s : State) (p : Nat) : State :=
  let s := s.forgetPage p
  let s : State := { s with lostPages := mset (fun _ => none) s.lostPages p none }
  if s.vaultGen = 0 ∧ s.dramGen = 0 then s
  else { s with lostPages := mset (fun _ => none) s.lostPages p (some 0) }

/-- R29 of Table 3-5 and R239: the page is poisoned. -/
def poisonedAt (s : State) (a : Nat) : Bool := (s.page (a / 65536)).state == .poisoned

/-- A page under a move: accesses wait (R228). -/
def movingAt (s : State) (a : Nat) : Bool :=
  (s.page (a / 65536)).state == .raising || (s.page (a / 65536)).state == .lowering

end State

end Sys2Proof.Machine
end

