-- ==== Sys2Proof/Machine/Pages.lean ====
section
/-!
DEFINITION. Contexts' virtual ranges and the pages under them (09): the table walk with its cached translations,
the checks of an access, claims, and the Teller's page moves.
-/

namespace Sys2Proof.Machine

open Sys2Proof

namespace State

/-! ### Contexts -/

/-- A context. -/
def ctx (s : State) (c : Nat) : Ctx := mget (fun _ => {}) s.ctxs c

/-- Set a context. -/
def setCtx (s : State) (c : Nat) (v : Ctx) : State := { s with ctxs := mset (fun _ => {}) s.ctxs c v }

/-- Change a context. -/
def modCtx (s : State) (c : Nat) (f : Ctx → Ctx) : State := s.setCtx c (f (s.ctx c))

/-! ### Translation (R217, R219) -/

/-- One table entry: valid, reserved bits zero, and at levels 1 and 2 no permission bits (Table 9-2). -/
def pteOk (leaf : Bool) (e : W64) : Bool :=
  bitsOf e 0 1 == 1 && bitsOf e 4 12 == 0 && bitsOf e 44 20 == 0 && (leaf || bitsOf e 1 3 == 0)

/-- What a walk finds: nothing, a table on a poisoned page, or the level-3 entry. -/
inductive Walk where
  | unmapped
  | poisoned (page : Nat)
  | entry (e : W64)
  deriving DecidableEq, Repr

/-- Read one entry of a table whose page must be a home (R217). -/
def readPte (s : State) (table idx : Nat) : Walk :=
  if !s.isVdHome table then .unmapped
  else if (s.page table).state = .poisoned then .poisoned table
  else .entry (BitVec.ofNat 64 (s.natAt (65536 * table + 8 * idx) 8))

/-- The three-level walk of the tables as they stand (R217). -/
def walk (s : State) (root vpn : Nat) : Walk :=
  match s.readPte root (vpn / 2 ^ 24) with
  | .entry e1 =>
    if !pteOk false e1 then .unmapped else
    match s.readPte (bitsOf e1 16 28) (vpn / 4096 % 4096) with
    | .entry e2 =>
      if !pteOk false e2 then .unmapped else
      match s.readPte (bitsOf e2 16 28) (vpn % 4096) with
      | .entry e3 =>
        let p := bitsOf e3 16 28
        let r := s.region (65536 * p)
        if pteOk true e3 && (s.isVdHome p || r == .nand || r == .nandAbsent) then .entry e3 else .unmapped
      | w => w
    | w => w
  | w => w

/-- A page that the tables under a root map satisfies a test (R217). -/
def mapsPage (s : State) (root : Nat) (f : Nat → Bool) : Bool :=
  (List.range 256).any fun i => match s.readPte root i with
    | .entry e1 => pteOk false e1 && (List.range 4096).any fun j => match s.readPte (bitsOf e1 16 28) j with
      | .entry e2 => pteOk false e2 && (List.range 4096).any fun k => match s.readPte (bitsOf e2 16 28) k with
        | .entry e3 => pteOk true e3 && f (bitsOf e3 16 28)
        | _ => false
      | _ => false
    | _ => false

/-- A home that a defined context maps a page to satisfies a test. -/
def anyMapped (s : State) (f : Nat → Bool) : Bool :=
  s.ctxs.any fun e => e.2.stage != .undefined && s.mapsPage e.2.root f

/-- The key of a cached translation. -/
def tlbKey (c vpn : Nat) : Nat := 2 ^ 32 * c + vpn

/-- The translation an access uses: a cached entry that differs from the tables may or may not be used, and which
is left open (R219; assumption 2). -/
def xlate (s : State) (c : Nat) (va : W64) : Walk :=
  if va.toNat ≥ 2 ^ 48 then .unmapped else
  let vpn := va.toNat / 65536
  let w := s.walk (s.ctx c).root vpn
  match mget (fun _ => none) s.teller.tlb (tlbKey c vpn) with
  | some e => if w = .entry e then w else if Config.freeBit s.freeCtr (tlbKey c vpn) then .entry e else w
  | none => w

/-- Keep the translation an access used, as the Marshals and the Teller cache it. -/
def noteTlb (s : State) (c : Nat) (va : W64) : State :=
  match s.xlate c va with
  | .entry e => { s with teller := { s.teller with tlb := mset (fun _ => none) s.teller.tlb (tlbKey c (va.toNat / 65536)) (some e) } }
  | _ => s

/-- The outcome of the checks on one access of a context (R218, R239): the physical address, or a fault code with
UNIT and DETAIL. -/
inductive Acc where
  | ok (pa : Nat)
  | fault (code unit : Nat) (detail : W64)
  deriving DecidableEq, Repr

/-- The checks of R218 on one byte address of a context; `ro` is the descriptor's RO. -/
def check (s : State) (c : Nat) (va : W64) (write fetch ro : Bool) : Acc :=
  match s.xlate c va with
  | .unmapped => .fault 4 0 0
  | .poisoned p => .fault 6 4 (BitVec.ofNat 64 p)
  | .entry e =>
    let p := bitsOf e 16 28
    match s.region (65536 * p) with
    | .nandAbsent => if s.present 6 then .fault 4 0 0 else .fault 7 0 6
    | r =>
      if (write && (r == .nand || bitsOf e 1 1 == 0 || ro)) || (fetch && bitsOf e 2 1 == 0) then .fault 5 0 0
      else if (s.page p).state = .poisoned then .fault 6 4 (BitVec.ofNat 64 p)
      else .ok (65536 * p + va.toNat % 65536)

/-! ### Receipt windows (R281, R282) -/

/-- A window is registered: EN is 1 and its registration has ended (assumption 11). -/
def winOn (s : State) (w : Nat) : Bool := s.flag (Reg.RWIN_CFG_EN w) && !s.flag (Reg.RWIN_CFG_BUSY w)

/-- The registered window that holds a physical address: window, span (0 Receipts, 1 notes, 2 aliases), offset. -/
def winAt (s : State) (pa : Nat) : Option (Nat × Nat × Nat) :=
  (List.range 16).findSome? fun w =>
    let b := 65536 * s.fld (Reg.RWIN_BASE_PAGE w)
    let n := 65536 * s.fld (Reg.RWIN_CFG_PAGES w)
    if s.winOn w && decide (b ≤ pa) && decide (pa < b + 3 * n) then
      some (w, (pa - b) / n, (pa - b) % n) else none

/-- The physical address of Receipt r of window w. -/
def rcptAddr (s : State) (w r : Nat) : Nat := 65536 * s.fld (Reg.RWIN_BASE_PAGE w) + 8 * r

/-- Bytes written by an agent: those in a registered window are ignored (R282). -/
def agentBytes (s : State) (pa : Nat) : List Byte → State
  | [] => s
  | b :: t => agentBytes (if (s.winAt pa).isSome then s else s.putByte pa b) (pa + 1) t

/-- Discard every residue that covers a byte of a span (R247). -/
def dropResidues (s : State) (pa n : Nat) : State :=
  { s with field := { s.field with residues := s.field.residues.filter fun e => match e.2 with
      | some r => !r.spans.any fun q => decide (q.1 < pa + n) && decide (pa < q.1 + q.2)
      | none => true } }

/-- A write by an agent other than a posting producer (R282, R247). -/
def agentWrite (s : State) (pa : Nat) (bs : List Byte) : State := (s.dropResidues pa bs.length).agentBytes pa bs

/-- A COLLECT (R282, R283): the word; POSTED becomes COLLECTED. -/
def collectWord (s : State) (pa : Nat) : W64 × State :=
  let w := BitVec.ofNat 64 (s.natAt pa 8)
  if bitsOf w 62 2 = 1 then (w, s.putNat pa 8 (putBits w 62 2 2).toNat) else (w, s)

/-- A read by an agent: an aligned 64-bit read of an alias collects, a narrower one returns 0 (R282). -/
def agentRead (s : State) (pa n : Nat) : List Byte × State :=
  match s.winAt pa with
  | some (w, 2, off) =>
    if n = 8 ∧ pa % 8 = 0 then
      let (v, s) := s.collectWord (65536 * s.fld (Reg.RWIN_BASE_PAGE w) + off)
      (toBytes 8 v.toNat, s)
    else (List.replicate n 0, s)
  | _ => (s.bytesAt pa n, s)

/-! ### Claims (R220, R221, R222) -/

/-- Change what the Teller keeps of a page. -/
def modPage (s : State) (p : Nat) (f : Page → Page) : State := s.setPage p (f (s.page p))

/-- Persistent claims held (TELLER_CLAIMS). -/
def claimCount (s : State) : Nat := (s.teller.pages.map fun e => e.2.claims.length).foldl (· + ·) 0

/-- A page without claims of either kind. -/
def noClaim (p : Page) : Bool := p.claims.isEmpty && p.trans.isEmpty

/-- Take a persistent claim (R220, R221): at most one for each context; a full table counts RAISE_SHORT. -/
def takeClaim (s : State) (c p : Nat) : State :=
  if (s.page p).claims.contains c then s
  else if 262144 ≤ s.claimCount then s.bump Reg.TELLER_SHORT_CNT_RAISE_SHORT
  else s.modPage p fun g => { g with claims := c :: g.claims }

/-- Stamp the end of a page's last claim (R226). -/
def stampEnd (s : State) (p : Nat) : State :=
  if noClaim (s.page p) then (s.modPage p fun g => { g with lastEnd := s.stamp }).nextStamp else s

/-- Drop a context's persistent claim: without one, no effect (R220). -/
def dropClaim (s : State) (c p : Nat) : State :=
  if (s.page p).claims.contains c then
    (s.modPage p fun g => { g with claims := g.claims.filter (· != c) }).stampEnd p
  else s

/-- Take a transient claim (R220). -/
def takeTrans (s : State) (c id p : Nat) : State :=
  if (s.page p).trans.contains (c, id) then s else s.modPage p fun g => { g with trans := (c, id) :: g.trans }

/-- End every transient claim of an operation. -/
def endTrans (s : State) (c id : Nat) : State :=
  ((s.teller.pages.filter fun e => e.2.trans.contains (c, id)).map (·.1)).foldl
    (fun s p => (s.modPage p fun g => { g with trans := g.trans.filter (· != (c, id)) }).stampEnd p) s

/-- End every claim of a context (R220). -/
def endClaims (s : State) (c : Nat) : State :=
  ((s.teller.pages.filter fun e => e.2.claims.contains c || e.2.trans.any (·.1 == c)).map (·.1)).foldl
    (fun s p => (s.modPage p fun g =>
      { g with claims := g.claims.filter (· != c), trans := g.trans.filter (·.1 != c) }).stampEnd p) s

/-! ### Page moves (R224 to R228) -/

/-- Where a page lies: 0 Vault, 1 DRAM, 2 NAND (TELLER_PAGE_INFO.TIER). -/
def tierOf (s : State) (p : Nat) : Nat :=
  let g := s.page p
  if g.state = .raised ∨ g.state = .lowering then (if g.inPool then 1 else 0)
  else match s.region (65536 * p) with
    | .vault => 0
    | .nand => 2
    | _ => 1

/-- Whether a raise of a page needs a move (Table 9-4): the home's tier, where the page is now, the target. -/
def raiseNeedsMove (s : State) (p : Nat) (toDram : Bool) : Bool :=
  match s.region (65536 * p), s.tierOf p with
  | .vault, _ => false
  | .dram, 0 => false
  | .dram, _ => !toDram
  | .nand, 2 => true
  | .nand, 1 => !toDram
  | _, _ => false

/-- Queue a page move. -/
def queueMove (s : State) (m : Move) : State :=
  ({ s with teller := { s.teller with moves := s.teller.moves ++ [{ m with order := s.stamp }] } } : State).nextStamp

/-- The pool whose context and span a raise of a virtual page belongs to (R226). -/
def poolOf (s : State) (c vpn : Nat) : Option (Nat × Nat) :=
  (List.range 16).findSome? fun n =>
    if s.flag (Reg.TELLER_POOL_CFG_EN n) && s.fld (Reg.TELLER_POOL_CFG_CONTEXT n) == c
      && decide (s.fld (Reg.TELLER_POOL_SPAN_VPN n) ≤ vpn)
      && decide (vpn < s.fld (Reg.TELLER_POOL_SPAN_VPN n) + s.fld (Reg.TELLER_POOL_SPAN_PAGES n))
    then some (n, vpn) else none

/-- Raise one page on behalf of a context (R225): the claim, then the move of Table 9-4. A page of a Receipt window
takes only its claim (R281). -/
def raisePage (s : State) (c : Nat) (op : Option Nat) (vpn p : Nat) (toDram : Bool) : State :=
  let s := s.takeClaim c p
  if s.raiseNeedsMove p toDram && (s.winAt (65536 * p)).isNone then
    let s := match s.poolOf c vpn with
      | some q => s.modPage p fun g => { g with pool := some q }
      | none => s
    s.queueMove { ctx := c, op := op, page := p, vpn := vpn, kind := .raise toDram }
  else s

/-- A raise that is being performed into a part takes a frame of it, unless it waits for a demotion's (R226, R228). -/
def raisingInto (s : State) (dram : Bool) : Nat :=
  ((s.teller.moves.filter fun m => m.started && m.kind == .raise dram && m.after.isNone).map (·.page)).eraseDups.length

/-- A frame of the Vault or of the DRAM raise pool is free. -/
def framesFree (s : State) (dram : Bool) : Bool :=
  let used := (s.teller.pages.filter fun e => e.2.inPool == dram
    && (e.2.state == .raised || e.2.state == .lowering || (e.2.state == .raising && dram))).length
  decide (used + s.raisingInto dram < if dram then s.fld Reg.TELLER_DPOOL_PAGES_PAGES else 1792 - s.homeFrames)

/-- The eviction score of a pool page (R194), from its header's bytes as they stand: age, use, share, bias. -/
def poolScore (s : State) (pool p : Nat) : Int :=
  let (wA, wU, wS) := mget (fun _ => (0, 0, 0)) s.teller.poolW pool
  let h := 0xFFC0 + 65536 * p
  let now : Int := 2 ^ 32 * (s.reg (Reg.LANE_EPOCH 15)).toInt + ((s.laneVal 15).toNat / 2 ^ 32 : Nat)
  let last := sext 64 (s.natAt (h + 8) 8)
  let age : Int := Min.min (if now - last < 0 then 0 else (now - last) / 1000000) 65535
  let use : Int := Nat.log2 (s.natAt (h + 16) 4 + 1)
  let share : Int := Nat.min (Nat.max (s.natAt h 4) 1 - 1) 255
  wA * age - wU * use - wS * share + sext 16 (s.natAt (h + 20) 2)

/-- The better of two candidates by a strict order. -/
def bestBy {α : Type} (better : α → α → Bool) : List α → Option α
  | [] => none
  | a :: t => match bestBy better t with
    | none => some a
    | some b => if better b a then some b else some a

/-- Insert behind every entry that stands before it. -/
def insertBy {α : Type} (before : α → α → Bool) (x : α) : List α → List α
  | [] => [x]
  | a :: t => if before x a then x :: a :: t else a :: insertBy before x t

/-- Sort by a strict order; entries of one rank keep their order. -/
def sortBy {α : Type} (before : α → α → Bool) (l : List α) : List α := l.foldl (fun a x => insertBy before x a) []

/-- Candidates for demotion in a target part: raised pages that hold no claim (R226). -/
def candidates (s : State) (dram : Bool) : List (Nat × Page) :=
  s.teller.pages.filter fun e => e.2.state == .raised && e.2.inPool == dram && noClaim e.2

/-- Frames of the Vault a pool holds. -/
def poolHeld (s : State) (n : Nat) : Nat :=
  (s.teller.pages.filter fun e => e.2.state == .raised && !e.2.inPool && (e.2.pool.map (·.1)) == some n).length

/-- The header of a pool page can be read (R227). -/
def poolReadable (s : State) (e : Nat × Page) : Bool :=
  match e.2.pool with
  | some (n, vpn) =>
    (match s.check (s.fld (Reg.TELLER_POOL_CFG_CONTEXT n)) (BitVec.ofNat 64 (0xFFC0 + 65536 * vpn)) false false false with
     | .ok _ => true
     | _ => false)
  | none => false

/-- A pool candidate is demoted before another: higher score, then lower pool, then lower virtual page. -/
def poolBefore (s : State) (a b : Nat × Page) : Bool :=
  match a.2.pool, b.2.pool with
  | some (na, va), some (nb, vb) =>
    let sa := s.poolScore na a.1
    let sb := s.poolScore nb b.1
    decide (sb < sa) || (sa == sb && (decide (na < nb) || (na == nb && decide (va < vb))))
  | _, _ => false

/-- The victim of a raise that finds no free frame (R226). -/
def victim (s : State) (dram : Bool) : Option Nat :=
  let cs := s.candidates dram
  let overQuota := (List.range 16).filter fun n =>
    s.flag (Reg.TELLER_POOL_CFG_EN n) && decide (s.fld (Reg.TELLER_POOL_CFG_QUOTA n) < s.poolHeld n) && !dram
  let excess := fun n => s.poolHeld n - s.fld (Reg.TELLER_POOL_CFG_QUOTA n)
  let rule1 := (bestBy (fun a b => decide (excess b < excess a) || (excess a == excess b && decide (a < b))) overQuota).bind
    fun n => bestBy s.poolBefore (cs.filter fun e => (e.2.pool.map (·.1)) == some n)
  let rule2 := bestBy (fun (a b : Nat × Page) =>
    decide (a.2.lastEnd < b.2.lastEnd) || (a.2.lastEnd == b.2.lastEnd && decide (a.1 < b.1)))
    (cs.filter fun e => e.2.pool.isNone)
  let rule3 := bestBy s.poolBefore (cs.filter fun e => e.2.pool.isSome && s.poolReadable e)
  (((rule1.orElse fun _ => rule2).orElse fun _ => rule3)).map (·.1)

/-- Page moves in flight: those accepted and not completed (R228, point 6). -/
def movesInFlight (s : State) : Nat := (s.reg Reg.TELLER_MOVE_SEQ - s.reg Reg.TELLER_MOVE_DONE).toNat

/-- Write a raised copy's bytes back to its home: the write-back of a demotion (R222). -/
def writeBack (s : State) (p : Nat) : State :=
  let ds := s.overlay.filter fun e => e.1 / 65536 == p
  ds.foldl (fun s e => match e.2 with
    | some b => (s.setHome e.1 b).setOverlay e.1 none
    | none => s) s

/-! ### Pace schedules (R231, R232) -/

/-- The virtual pages of a span of bytes. -/
def vpnsOf (va len : W64) : List Nat :=
  if len = 0 then [] else
  let a := va.toNat / 65536
  let b := (va.toNat + len.toNat - 1) / 65536
  (List.range (b - a + 1)).map (a + ·)

/-- The home page of a context's virtual page, or none while it is unmapped (R232). -/
def homeOf (s : State) (c vpn : Nat) : Option Nat :=
  match s.check c (BitVec.ofNat 64 (65536 * vpn)) false false false with
  | .ok pa => some (pa / 65536)
  | _ => none

/-- Issue one due entry: its pages are translated again, and unmapped ones are skipped (R232). -/
def paceIssue (s : State) (c : Nat) (e : PaceEnt) : State :=
  (List.range e.pages).foldl (fun s i =>
    let vpn := e.va.toNat / 65536 + i
    match s.homeOf c vpn with
    | some p => if e.op = 2 then s.dropClaim c p else s.raisePage c none vpn p (e.op == 1)
    | none => s) s

/-- Run one schedule as far as it is due at an event count (R232); fuel bounds the entries of one call. -/
def paceRun : Nat → State → Pace → W64 → State × Option Pace
  | 0, s, p, _ => (s, some p)
  | fuel + 1, s, p, count =>
    match p.ents[p.next]? with
    | none =>
      if p.period = 0 ∨ (p.iters ≠ 0 ∧ p.iters ≤ p.iter + 1) then (s, none)
      else paceRun fuel s { p with iter := p.iter + 1, next := 0 } count
    | some e =>
      if reached count (p.e0 + BitVec.ofNat 64 (p.iter * p.period + e.at_)) then
        paceRun fuel (s.paceIssue p.ctx e) { p with next := p.next + 1 } count
      else (s, some p)

/-- Every schedule that follows a Tally, in order of acceptance, after its event count rose (R232). -/
def paceDue (s : State) (tally : Nat) (count rose : W64) : State :=
  let go := s.teller.paces.foldl (fun (a : State × List Pace) p =>
    if p.tally = tally then
      match paceRun ((rose.toNat + 1) * (p.ents.length + 1) + 1) a.1 p count with
      | (s, some p) => (s, a.2 ++ [p])
      | (s, none) => (s, a.2)
    else (a.1, a.2 ++ [p])) (s, [])
  { go.1 with teller := { go.1.teller with paces := go.2 } }

end State

end Sys2Proof.Machine
end

