-- ==== Sys2Proof/Machine/Tally.lean ====
section
/-!
DEFINITION. Tallies, their maps, barriers and watches (11): the shared operations, and the commands of the TALLY
block that are not about Receipts.
-/

namespace Sys2Proof.Machine

open Sys2Proof

namespace State

/-! ### Scalar registers and predicates of a context (R71, R72) -/

/-- S0 to S31: S0 reads 0. -/
def sget (s : State) (c : Nat) (r : Fin 32) : W64 :=
  if r.val = 0 then 0 else mget (fun _ => 0) (s.ctx c).sregs r.val

/-- Write a scalar register: a write to S0 is ignored. -/
def sput (s : State) (c : Nat) (r : Fin 32) (v : W64) : State :=
  if r.val = 0 then s else s.modCtx c fun x => { x with sregs := mset (fun _ => 0) x.sregs r.val v }

/-- P0 to P7: P0 reads 1. -/
def pget (s : State) (c : Nat) (p : Fin 8) : Bool := p.val == 0 || (s.ctx c).preds.getLsbD p.val

/-- The predicate byte with one bit replaced. -/
def predsWith (b : Byte) (p : Nat) (v : Bool) : Byte :=
  if v then b ||| BitVec.ofNat 8 (2 ^ p) else b &&& ~~~ BitVec.ofNat 8 (2 ^ p)

/-- Write a predicate: a write to P0 is ignored. -/
def pput (s : State) (c : Nat) (p : Fin 8) (v : Bool) : State :=
  if p.val = 0 then s else s.modCtx c fun x => { x with preds := predsWith x.preds p.val v }

/-- Go on to the next instruction. -/
def pcNext (s : State) (c : Nat) : State := s.modCtx c fun x => { x with pc := x.pc + 16 }

/-! ### Ending a wait (R86) -/

/-- Outcome codes of R86. -/
def satisfied : Nat := 0
/-- Outcome OWNER_LOST. -/
def ownerLost : Nat := 1
/-- Outcome BROKEN. -/
def brokenOut : Nat := 2
/-- Outcome TIMEOUT. -/
def timedOut : Nat := 3

/-- A wait ends: Pd and Sd are written (R86), the context goes on. -/
def endWait (s : State) (c : Nat) (pd : Fin 8) (sd : Fin 32) (outcome : Nat) : State :=
  let s := ((s.pput c pd (outcome == satisfied)).sput c sd (BitVec.ofNat 64 outcome)).pcNext c
  (s.modCtx c fun x => { x with wait := none, runFrom := s.stamp }).nextStamp

/-! ### Watches (R290, R424) -/

/-- A watch sets HIT or LOST: its interrupt, and the MSI-X vectors that follow it. -/
def watchSet (s : State) (k : Nat) (f : Fld) : State :=
  let s := s.setFld f 1
  if s.boot.strapEp then
    (List.range 8).foldl (fun s g =>
      if bitAt (s.fld (Reg.PORT_PCIE_MSIX_VALUE g)) k then s.emit (.msix g k) else s) s
  else s

/-- The watch follows this Tally. -/
def watches (s : State) (k i : Nat) : Bool := s.flag (Reg.WATCH_CFG_EN k) && s.fld (Reg.WATCH_CFG_INDEX k) == i

/-! ### Tallies (R267 to R272) -/

/-- A physical Tally. -/
def tallyOf (s : State) (i : Nat) : Tally := mget (fun _ => {}) s.tally.tallies i

/-- Set a physical Tally. -/
def setTally (s : State) (i : Nat) (t : Tally) : State :=
  { s with tally := { s.tally with tallies := mset (fun _ => {}) s.tally.tallies i t } }

/-- TALLY_STAT: a saturation or a stop at 0 (R268). -/
def tallyStat (s : State) (i : Nat) (f : Fld) : State :=
  let s := if s.fld Reg.TALLY_STAT_SAT = 0 ∧ s.fld Reg.TALLY_STAT_CLAMP = 0 then s.setFld Reg.TALLY_STAT_FIRST i else s
  s.setFld f 1

/-- The contexts, in ascending number. -/
def ctxIds (s : State) : List Nat := s.ctxs.map (·.1)

/-- A context's twait on a Tally, once the count is high enough (R271). -/
def wakeTwait (i count : Nat) (s : State) (c : Nat) : State :=
  match (s.ctx c).wait with
  | some (.tally j n pd sd _) => if j = i ∧ n.toNat ≤ count then s.endWait c pd sd satisfied else s
  | _ => s

/-- The HIT of a watch whose threshold an add crosses (R290). -/
def watchAdd (i before after : Nat) (s : State) (k : Nat) : State :=
  let t := s.fld (Reg.WATCH_THRESH_THRESH k)
  if s.watches k i && decide (before < t) && decide (t ≤ after) then s.watchSet k (Reg.WATCH_STAT_HIT k) else s

/-- An add to a physical Tally (R268), with the waits, watches and pace entries that follow it. -/
def tallyAdd (s : State) (i : Nat) (a : Nat) : State :=
  let t := s.tallyOf i
  if t.state = .forfeit ∨ a = 0 then s else
  let before := t.count.toNat
  let after := satAdd 32 before a
  let s := s.setTally i { t with count := BitVec.ofNat 32 after, events := t.events + BitVec.ofNat 64 a }
  let s := if before + a > 2 ^ 32 - 1 then s.tallyStat i Reg.TALLY_STAT_SAT else s
  let s := s.ctxIds.foldl (wakeTwait i after) s
  let s := (List.range 16).foldl (watchAdd i before after) s
  s.paceDue i (t.events + BitVec.ofNat 64 a) (BitVec.ofNat 64 a)

/-- A subtract (R268). -/
def tallySub (s : State) (i : Nat) (a : Nat) : State :=
  let t := s.tallyOf i
  if t.state = .forfeit ∨ a = 0 then s else
  let s := s.setTally i { t with count := BitVec.ofNat 32 (t.count.toNat - a) }
  if t.count.toNat < a then s.tallyStat i Reg.TALLY_STAT_CLAMP else s

/-- R274, points 1 and 2, for one Tally of a torn-down context. -/
def tallyForfeit (owner : Nat) (s : State) (i : Nat) : State :=
  let s := s.setTally i { s.tallyOf i with state := .forfeit }
  let d := BitVec.ofNat 64 (2 ^ 32 * owner + i)
  let s := s.ctxIds.foldl (fun s c => match (s.ctx c).wait with
    | some (.tally j _ pd sd _) =>
      if j = i ∧ c ≠ owner then (s.endWait c pd sd ownerLost).incident 12 0x48 c d else s
    | _ => s) s
  (List.range 16).foldl (fun s k =>
    if s.watches k i then (s.watchSet k (Reg.WATCH_STAT_LOST k)).incident 12 0x48 0x100 d else s) s

/-- Registered waits on a Tally and the enabled watches that name it (TALLY_INFO.WAITERS). -/
def tallyWaiters (s : State) (i : Nat) : Nat :=
  let w := (s.ctxs.filter fun e => match e.2.wait with | some (.tally j _ _ _ _) => j == i | _ => false).length
  Nat.min (w + ((List.range 16).filter fun k => s.watches k i).length) 0xFF

/-! ### The virtual Tally map (R273, R74) -/

/-- The key of a map entry. -/
def mapKey (c v : Nat) : Nat := 4096 * c + v

/-- A map entry. -/
def mapEnt (s : State) (c v : Nat) : Option MapEnt := mget (fun _ => none) s.tally.tmap (mapKey c v)

/-- Set or clear a map entry. -/
def setMapEnt (s : State) (c v : Nat) (e : Option MapEnt) : State :=
  { s with tally := { s.tally with tmap := mset (fun _ => none) s.tally.tmap (mapKey c v) e } }

/-- Some map entry names a Tally; some map entry names a barrier. -/
def tallyNamed (s : State) (i : Nat) : Bool := s.tally.tmap.any fun e => match e.2 with
  | some (.tally j _) => j == i | _ => false

/-- Some map entry names a barrier. -/
def barNamed (s : State) (b : Nat) : Bool := s.tally.tmap.any fun e => match e.2 with
  | some (.barrier j _) => j == b | _ => false

/-! ### Barriers (R276 to R280) -/

/-- A barrier. -/
def barOf (s : State) (b : Nat) : Barrier := mget (fun _ => {}) s.tally.bars b

/-- Set a barrier. -/
def setBar (s : State) (b : Nat) (v : Barrier) : State :=
  { s with tally := { s.tally with bars := mset (fun _ => {}) s.tally.bars b v } }

/-- Every tbarwait registered on a barrier whose recorded phase PHASE has passed ends SATISFIED (R279). -/
def wakeBar (b : Nat) (s : State) (c : Nat) : State :=
  match (s.ctx c).wait with
  | some (.bar j ph pd sd _) => if j = b ∧ later (s.barOf b).phase ph then s.endWait c pd sd satisfied else s
  | _ => s

/-- A phase completes: ARRIVED and ARRIVALS are cleared and PHASE rises (R277, R278). -/
def barComplete (s : State) (b : Nat) : State :=
  let v := s.barOf b
  let s := s.setBar b { v with arrived := 0, arrivals := 0, phase := v.phase + 1 }
  s.ctxIds.foldl (wakeBar b) s

/-- Every bit of MEMBERS is set in ARRIVED. -/
def barCovered (v : Barrier) : Bool := v.members &&& ~~~ v.arrived == 0

/-- An arrival on a defined barrier that is not broken (R277, R278). -/
def barArrive (s : State) (b slot : Nat) : State :=
  let v := s.barOf b
  match v.kind with
  | none => s
  | some _ =>
    if v.broken then s else
    match v.kind with
    | some .mask =>
      if v.members.getLsbD slot && !v.arrived.getLsbD slot then
        let v := { v with arrived := v.arrived ||| BitVec.ofNat 64 (2 ^ slot) }
        let s := s.setBar b v
        if barCovered v then s.barComplete b else s
      else s
    | _ =>
      let s := s.setBar b { v with arrivals := v.arrivals + 1 }
      if v.n ≤ v.arrivals + 1 then s.barComplete b else s

/-- A barrier breaks (R280): PHASE is not raised, and every registered tbarwait ends with BROKEN. -/
def barBreak (s : State) (b : Nat) : State :=
  let s := s.setBar b { s.barOf b with broken := true }
  s.ctxIds.foldl (fun s c => match (s.ctx c).wait with
    | some (.bar j _ pd sd _) => if j = b then s.endWait c pd sd brokenOut else s
    | _ => s) s

/-- R274 in its order, for the context torn down. -/
def tallyTeardown (s : State) (c : Nat) : State :=
  let owned := (s.tally.tallies.filter fun e => e.2.state == .owned && e.2.owner == some c).map (·.1)
  let s := owned.foldl (tallyForfeit c) s
  let bars := (List.range 256).filter fun b => s.tally.tmap.any fun e =>
    e.1 / 4096 == c && (match e.2 with | some (.barrier j _) => j == b | _ => false)
  let s := s.modCtx c fun x => { x with wait := none }
  let s := bars.foldl barBreak s
  { s with tally := { s.tally with tmap := s.tally.tmap.filter fun e => e.1 / 4096 != c } }

/-! ### Standing (R433, R435) -/

/-- A command written to a register: without the right it has no effect, and is counted (R435). -/
def permit (s : State) (r right off : Nat) (f : State → State) : State :=
  if s.holds r right then f s else s.deny r right (0xF0000000 + off)

/-! ### Commands of the TALLY block -/

/-- STATE of a Tally as TALLY_INFO codes it. -/
def tallyCode : TallyState → Nat
  | .idle => 0 | .owned => 1 | .forfeit => 2

/-- TALLY_INFO of the caller's copy after a command on Tally `i`. -/
def tallyInfo (s : State) (r i err : Nat) : State :=
  let t := s.tallyOf i
  s.setReg (stg r Reg.TALLY_INFO) (BitVec.ofNat 64 (2 ^ 24 * err + 2 ^ 22 * tallyCode t.state
    + 2 ^ 12 * t.owner.getD 0x100 + s.tallyWaiters i))

/-- TALLY_CMD READ (R267). -/
def tallyRead (r : Nat) (s : State) : State :=
  let i := s.fld (Fld.of Reg.TALLY_SEL_INDEX r)
  let t := s.tallyOf i
  ((s.tallyInfo r i 0).setReg (stg r Reg.TALLY_COUNT) (t.count.setWidth 64)).setReg (stg r Reg.TALLY_EVENTS) t.events

/-- TALLY_CMD RECLAIM (R275). -/
def tallyReclaim (r : Nat) (s : State) : State :=
  let i := s.fld (Fld.of Reg.TALLY_SEL_INDEX r)
  let t := s.tallyOf i
  if s.tallyNamed i then s.tallyInfo r i 2
  else if t.state ≠ .forfeit then s.tallyInfo r i 3
  else (s.setTally i { t with state := .idle, owner := none, count := 0 }).tallyInfo r i 0

/-- TMAP_INFO of the caller's copy. -/
def tmapInfo (s : State) (r err : Nat) : State :=
  s.setReg (stg r Reg.TMAP_INFO) (BitVec.ofNat 64 (2 ^ 24 * err + s.tally.tmap.length))

/-- A context is defined. -/
def defined (s : State) (c : Nat) : Bool := (s.ctx c).stage != .undefined

/-- The checks of a SET, in the order of R273: 0 when all hold. -/
def tmapErr (s : State) (c v kind own target : Nat) : Nat :=
  if !((kind == 1) || (kind == 2 && own == 0 && decide (target < 256))) then 0x01
  else if !s.defined c then 0x02
  else if (s.mapEnt c v).isSome then 0x03
  else if kind == 1 && (s.tallyOf target).state == .forfeit then 0x05
  else if kind == 1 && own == 1 && (s.tallyOf target).state != .idle then 0x04
  else if kind == 2 && (s.barOf target).kind.isNone then 0x07
  else if 65536 ≤ s.tally.tmap.length then 0x06
  else 0

/-- TMAP_CMD SET (R273). -/
def tmapSet (r : Nat) (s : State) : State :=
  let c := s.fld (Fld.of Reg.TMAP_SEL_CONTEXT r)
  let v := s.fld (Fld.of Reg.TMAP_SEL_VID r)
  let kind := s.fld (Fld.of Reg.TMAP_CFG_KIND r)
  let own := s.fld (Fld.of Reg.TMAP_CFG_OWN r)
  let target := s.fld (Fld.of Reg.TMAP_CFG_TARGET r)
  let err := s.tmapErr c v kind own target
  if err ≠ 0 then s.tmapInfo r err
  else if kind = 1 then
    let s := s.setMapEnt c v (some (.tally target (own == 1)))
    let s := if own = 1 then s.setTally target { s.tallyOf target with state := .owned, owner := some c } else s
    s.tmapInfo r 0
  else (s.setMapEnt c v (some (.barrier target (s.fld (Fld.of Reg.TMAP_CFG_SLOT r))))).tmapInfo r 0

/-- TMAP_CMD CLEAR (R273): an owning entry returns its Tally to IDLE. -/
def tmapClear (r : Nat) (s : State) : State :=
  let c := s.fld (Fld.of Reg.TMAP_SEL_CONTEXT r)
  let v := s.fld (Fld.of Reg.TMAP_SEL_VID r)
  if !s.defined c then s.tmapInfo r 0x02 else
  match s.mapEnt c v with
  | none => s.tmapInfo r 0x08
  | some e =>
    let s := s.setMapEnt c v none
    let s := match e with
      | .tally i true => s.setTally i { s.tallyOf i with state := .idle, owner := none }
      | _ => s
    s.tmapInfo r 0

/-- TMAP_CMD READ: the entry in the caller's TMAP_CFG, 0 where there is none. -/
def tmapRead (r : Nat) (s : State) : State :=
  let w := match s.mapEnt (s.fld (Fld.of Reg.TMAP_SEL_CONTEXT r)) (s.fld (Fld.of Reg.TMAP_SEL_VID r)) with
    | none => 0
    | some (.tally i own) => 2 ^ 30 + 2 ^ 29 * b2n own + i
    | some (.barrier b slot) => 2 * 2 ^ 30 + 2 ^ 16 * slot + b
  (s.setReg (stg r Reg.TMAP_CFG) (BitVec.ofNat 64 w)).tmapInfo r 0

/-- STATE of a barrier as BAR_INFO codes it. -/
def barCode (v : Barrier) : Nat := if v.kind.isNone then 0 else if v.broken then 2 else 1

/-- Arrivals of the current phase: bits of ARRIVED, or ARRIVALS. -/
def barArrivals (v : Barrier) : Nat :=
  match v.kind with
  | some .mask => ((List.range 64).filter fun i => v.arrived.getLsbD i).length
  | _ => v.arrivals

/-- BAR_INFO of the caller's copy. -/
def barInfo (s : State) (r b err : Nat) : State :=
  let v := s.barOf b
  s.setReg (stg r Reg.BAR_INFO) (BitVec.ofNat 64 (2 ^ 24 * err + 2 ^ 22 * barCode v + barArrivals v % 65536))

/-- BAR_CMD DEFINE (R276). -/
def barDefine (r : Nat) (s : State) : State :=
  let b := s.fld (Fld.of Reg.BAR_SEL_BARRIER r)
  let kind := s.fld (Fld.of Reg.BAR_CFG_KIND r)
  let n := s.fld (Fld.of Reg.BAR_CFG_N r)
  let m := s.reg (stg r Reg.BAR_MEMBERS)
  let v := s.barOf b
  if !((kind == 1 && m != 0) || (kind == 2 && n != 0)) then s.barInfo r b 0x01
  else if v.kind.isSome then s.barInfo r b 0x04
  else (s.setBar b { kind := some (if kind = 1 then .mask else .sense), n := if kind = 1 then 0 else n,
                     members := if kind = 1 then m else 0, phase := v.phase }).barInfo r b 0

/-- BAR_CMD UNDEFINE (R276). -/
def barUndefine (r : Nat) (s : State) : State :=
  let b := s.fld (Fld.of Reg.BAR_SEL_BARRIER r)
  let v := s.barOf b
  if v.kind.isNone then s.barInfo r b 0x03
  else if s.barNamed b then s.barInfo r b 0x02
  else (s.setBar b { phase := v.phase }).barInfo r b 0

/-- BAR_CMD REARM (R280). -/
def barRearm (r : Nat) (s : State) : State :=
  let b := s.fld (Fld.of Reg.BAR_SEL_BARRIER r)
  let v := s.barOf b
  if v.kind.isNone then s.barInfo r b 0x03
  else (s.setBar b { v with arrived := 0, arrivals := 0, broken := false }).barInfo r b 0

/-- BAR_CMD SET_MEMBERS (R277). -/
def barSetMembers (r : Nat) (s : State) : State :=
  let b := s.fld (Fld.of Reg.BAR_SEL_BARRIER r)
  let m := s.reg (stg r Reg.BAR_MEMBERS)
  let v := s.barOf b
  if v.kind.isNone then s.barInfo r b 0x03
  else if v.kind = some .sense ∨ m = 0 then s.barInfo r b 0x01
  else
    let v := { v with members := m }
    let s := s.setBar b v
    (if barCovered v && !v.broken then s.barComplete b else s).barInfo r b 0

/-- BAR_CMD ARRIVE (R276 to R278, R280). -/
def barCmdArrive (r slot : Nat) (s : State) : State :=
  let b := s.fld (Fld.of Reg.BAR_SEL_BARRIER r)
  let v := s.barOf b
  if v.kind.isNone then s.barInfo r b 0x03
  else if v.broken then s.barInfo r b 0x05
  else (s.barArrive b slot).barInfo r b 0

/-- BAR_CMD READ (R276). -/
def barRead (r : Nat) (s : State) : State :=
  let b := s.fld (Fld.of Reg.BAR_SEL_BARRIER r)
  let v := s.barOf b
  ((s.barInfo r b 0).setReg (stg r Reg.BAR_PHASE) v.phase).setReg (stg r Reg.BAR_ARRIVED) v.arrived

/-- A write of WATCH_CFG_k (R290): HIT at enable when the condition already holds. -/
def watchCfg (k : Nat) (v : W32) (s : State) : State :=
  let s := s.setReg (Reg.WATCH_CFG k) ((v &&& 0x80003FFF).setWidth 64)
  if s.flag (Reg.WATCH_CFG_EN k)
      && decide (s.fld (Reg.WATCH_THRESH_THRESH k) ≤ (s.tallyOf (s.fld (Reg.WATCH_CFG_INDEX k))).count.toNat)
  then s.watchSet k (Reg.WATCH_STAT_HIT k) else s

/-- The number of the requester whose dropped access to Tally memory is counted (R269). -/
def tallyAddr (i : Nat) : Nat := 0xF1000000 + 8 * i

/-- An access to Tally memory by a path without standing is dropped, and PORT_DENIED counts it (R269, R435). -/
def tallyPort (s : State) (r a : Nat) (f : State → State) : State := if s.holds r 2 then f s else s.deny r 2 a

end State

open State

/-- TALLY_PORT_ADD (R269). -/
def execTallyPortAdd (r : Requester) (i : TallyId) (v : W32) (s : State) : Host.Outcome State Fault Refusal :=
  .next (s.tallyPort r (tallyAddr i) fun s => s.tallyAdd i v.toNat)

/-- TALLY_PORT_SUBTRACT (R269). -/
def execTallyPortSubtract (r : Requester) (i : TallyId) (v : W32) (s : State) : Host.Outcome State Fault Refusal :=
  .next (s.tallyPort r (tallyAddr i + 4) fun s => s.tallySub i v.toNat)

/-- TALLY_READ (R267). -/
def execTallyRead (r : Requester) (s : State) : Host.Outcome State Fault Refusal :=
  .next (s.permit r 2 Reg.TALLY_CMD (tallyRead r))

/-- RECLAIM (R275). -/
def execReclaim (r : Requester) (s : State) : Host.Outcome State Fault Refusal :=
  .next (s.permit r 2 Reg.TALLY_CMD (tallyReclaim r))

/-- TMAP_SET (R273). -/
def execTmapSet (r : Requester) (s : State) : Host.Outcome State Fault Refusal :=
  .next (s.permit r 3 Reg.TMAP_CMD (tmapSet r))

/-- TMAP_CLEAR (R273). -/
def execTmapClear (r : Requester) (s : State) : Host.Outcome State Fault Refusal :=
  .next (s.permit r 3 Reg.TMAP_CMD (tmapClear r))

/-- TMAP_READ (R273). -/
def execTmapRead (r : Requester) (s : State) : Host.Outcome State Fault Refusal :=
  .next (s.permit r 3 Reg.TMAP_CMD (tmapRead r))

/-- BAR_DEFINE (R276). -/
def execBarDefine (r : Requester) (s : State) : Host.Outcome State Fault Refusal :=
  .next (s.permit r 3 Reg.BAR_CMD (barDefine r))

/-- BAR_UNDEFINE (R276). -/
def execBarUndefine (r : Requester) (s : State) : Host.Outcome State Fault Refusal :=
  .next (s.permit r 3 Reg.BAR_CMD (barUndefine r))

/-- REARM (R280). -/
def execRearm (r : Requester) (s : State) : Host.Outcome State Fault Refusal :=
  .next (s.permit r 3 Reg.BAR_CMD (barRearm r))

/-- SET_MEMBERS (R277). -/
def execSetMembers (r : Requester) (s : State) : Host.Outcome State Fault Refusal :=
  .next (s.permit r 3 Reg.BAR_CMD (barSetMembers r))

/-- ARRIVE (R277). -/
def execArrive (r : Requester) (slot : Fin 64) (s : State) : Host.Outcome State Fault Refusal :=
  .next (s.permit r 3 Reg.BAR_CMD (barCmdArrive r slot))

/-- BAR_READ (R276). -/
def execBarRead (r : Requester) (s : State) : Host.Outcome State Fault Refusal :=
  .next (s.permit r 3 Reg.BAR_CMD (barRead r))

/-- WATCH_ENABLE (R290). -/
def execWatchEnable (r : Requester) (k : Fin 16) (v : W32) (s : State) : Host.Outcome State Fault Refusal :=
  .next (s.permit r 2 (Reg.WATCH_CFG k) (watchCfg k v))

end Sys2Proof.Machine
end

