-- ==== Sys2Proof/Machine/Receipts.lean ====
section
/-!
DEFINITION. Receipts and their windows (R281 to R289): taking, posting and collecting, and the commands that
register, unregister and collect.
-/

namespace Sys2Proof.Machine

open Sys2Proof

/-- Signed difference on 62 bits: `a` is a later sequence than `b` (R283). -/
def later62 (a b : Nat) : Bool :=
  let d := (2 ^ 62 + a % 2 ^ 62 - b % 2 ^ 62) % 2 ^ 62
  decide (0 < d) && decide (d < 2 ^ 61)

/-- STATE and SEQ of a Receipt word (R283). -/
def rcptState (w : Nat) : Nat := w / 2 ^ 62 % 4
/-- SEQ of a Receipt word. -/
def rcptSeq (w : Nat) : Nat := w % 2 ^ 62
/-- A Receipt word. -/
def rcptMk (st seq : Nat) : Nat := 2 ^ 62 * st + seq % 2 ^ 62

namespace State

/-- The window whose Receipt span holds an aligned physical address. -/
def rcptWin (s : State) (pa : Nat) : Option Nat :=
  match s.winAt pa with
  | some (w, 0, _) => if pa % 8 = 0 then some w else none
  | _ => none

/-- The Receipt word at a physical address. -/
def rcptWord (s : State) (pa : Nat) : Nat := s.natAt pa 8

/-- The note address of a Receipt of window `w` (R281). -/
def noteAddr (s : State) (w pa : Nat) : Nat := pa + 65536 * s.fld (Reg.RWIN_CFG_PAGES w)

/-- The window is in overwrite mode. -/
def overMode (s : State) (w : Nat) : Bool := s.flag (Reg.RWIN_CFG_MODE w)

/-- The note word (Table 11-3). -/
def noteWord (s : State) (emptyOut fault overwritten : Bool) (unit ctx : Nat) : Nat :=
  b2n emptyOut + b2n fault * 2 + b2n overwritten * 4 + 2 ^ 8 * (unit % 16) + 2 ^ 16 * (ctx % 512)
    + 2 ^ 32 * ((s.laneVal 15).toNat / 2 ^ 32)

/-- The holder of a Receipt (R284). -/
def holder (s : State) (pa : Nat) : Option Producer := mget (fun _ => none) s.tally.holds pa

/-- Set the holder of a Receipt. -/
def setHolder (s : State) (pa : Nat) (p : Option Producer) : State :=
  { s with tally := { s.tally with holds := mset (fun _ => none) s.tally.holds pa p } }

/-- Release every hold that satisfies a test. -/
def releaseHolds (s : State) (f : Nat → Producer → Bool) : State :=
  { s with tally := { s.tally with holds := s.tally.holds.filter fun e => match e.2 with
      | some p => !f e.1 p
      | none => true } }

/-- Hold mode: the Receipt is not POSTED, and no other producer holds it (R284). -/
def canTake (s : State) (pa : Nat) (me : Producer) : Bool :=
  rcptState (s.rcptWord pa) != 1 && (match s.holder pa with | none => true | some p => p == me)

/-- What a producer's start finds (R284). -/
inductive Take where
  /-- the address is in no registered Receipt span: nothing is taken, and the post will fault (R286) -/
  | outside
  /-- hold mode: taken -/
  | held
  /-- hold mode: the Receipt is POSTED or held by another -/
  | busy
  /-- overwrite mode: the sequence taken, and whether the previous one was never collected -/
  | overwritten (seq : Nat) (lost : Bool)
  deriving DecidableEq, Repr

/-- A producer starts, before its first data write (R284). A busy Receipt counts in HOLD_STALLS when `count`. -/
def producerStart (s : State) (pa : Nat) (me : Producer) (count : Bool) : Take × State :=
  match s.rcptWin pa with
  | none => (.outside, s)
  | some w =>
    if s.overMode w then
      let v := s.rcptWord pa
      (.overwritten (rcptSeq (v + 1)) (rcptState v == 1), s.putNat pa 8 (rcptMk 0 (rcptSeq v + 1)))
    else if s.canTake pa me then (.held, s.setHolder pa (some me))
    else (.busy, if count then s.bump (Reg.RWIN_STAT_HOLD_STALLS w) else s)

/-- The rwait of a context that a post ends (R286). -/
def wakeRwait (pa seq : Nat) (s : State) (c : Nat) : State :=
  match (s.ctx c).wait with
  | some (.rcpt a sc pd sd _) => if a = pa ∧ later62 seq sc then s.endWait c pd sd satisfied else s
  | _ => s

/-- The word becomes POSTED with a sequence, after its note; rwaits end (R283, R286, R289). -/
def postWord (s : State) (w pa seq note : Nat) : State :=
  let s := (s.putNat (s.noteAddr w pa) 8 note).putNat pa 8 (rcptMk 1 seq)
  s.ctxIds.foldl (wakeRwait pa seq) s

/-- What a producer's post comes to (R284, R286). -/
inductive Posted where
  | done
  /-- hold mode: it waits, its data written -/
  | busy
  /-- outside a registered Receipt span: ADDR_PERM -/
  | outside
  deriving DecidableEq, Repr

/-- A producer posts (R284). `taken` is what an overwrite-mode start took. -/
def producerPost (s : State) (pa : Nat) (me : Producer) (taken : Option (Nat × Bool)) (emptyOut : Bool)
    (unit ctx : Nat) (count : Bool) : Posted × State :=
  match s.rcptWin pa with
  | none => (.outside, s)
  | some w =>
    let v := s.rcptWord pa
    if s.overMode w then
      let (seq, lost) := taken.getD (rcptSeq (v + 1), rcptState v == 1)
      let note := s.noteWord emptyOut false lost unit ctx
      if later62 (rcptSeq v) seq then
        (.done, (s.putNat (s.noteAddr w pa) 8 note).bump (Reg.RWIN_STAT_DISCARDED w))
      else (.done, s.postWord w pa seq note)
    else if s.canTake pa me then
      (.done, (s.setHolder pa none).postWord w pa (rcptSeq v + 1) (s.noteWord emptyOut false false unit ctx))
    else (.busy, if count then s.bump (Reg.RWIN_STAT_HOLD_STALLS w) else s)

/-- The fault Receipt: posted whatever the mode and state, with FAULT in its note (R287). -/
def postFault (s : State) (pa ctx : Nat) : State :=
  match s.rcptWin pa with
  | none => s
  | some w =>
    let v := s.rcptWord pa
    let overwritten := s.overMode w && rcptState v == 1
    s.postWord w pa (rcptSeq v + 1) (s.noteWord false true overwritten 0 ctx)

/-! ### Windows (R281, R287) -/

/-- Two spans of pages overlap. -/
def overlap (a n b m : Nat) : Bool := decide (a < b + m) && decide (b < a + n)

/-- A page count from a page lies in usable DRAM, outside escrow, reserve and raise pool (R281). -/
def windowOk (s : State) (page n : Nat) : Bool :=
  decide (0x100000 ≤ page) && decide (page + n ≤ s.dramTop)
    && !overlap page n (s.fld Reg.TELLER_ESC_BASE_ADDR) (s.fld Reg.TELLER_ESC_PAGES_PAGES)
    && !overlap page n (s.fld Reg.TELLER_RSV_BASE_ADDR) (s.fld Reg.TELLER_RSV_PAGES_PAGES)
    && !overlap page n (s.fld Reg.TELLER_DPOOL_BASE_ADDR) (s.fld Reg.TELLER_DPOOL_PAGES_PAGES)

/-- A window overlaps another registered one. -/
def windowHit (s : State) (w page n : Nat) : Bool :=
  (List.range 16).any fun v => v != w && s.flag (Reg.RWIN_CFG_EN v)
    && overlap page n (s.fld (Reg.RWIN_BASE_PAGE v)) (3 * s.fld (Reg.RWIN_CFG_PAGES v))

/-- Unregister a window (R287). -/
def rwinOff (r w : Nat) (s : State) : State :=
  let base := s.fld (Reg.RWIN_BASE_PAGE w)
  let p := s.fld (Reg.RWIN_CFG_PAGES w)
  let inSpan := fun a => decide (65536 * base ≤ a) && decide (a < 65536 * (base + p))
  let d := BitVec.ofNat 64 (2 ^ 14 + 0x100 * 2 ^ 32 + w)
  let s := s.ctxIds.foldl (fun s c => match (s.ctx c).wait with
    | some (.rcpt a _ pd sd _) => if inSpan a then (s.endWait c pd sd ownerLost).incident 12 r c d else s
    | _ => s) s
  let s := s.releaseHolds fun a _ => inSpan a
  let s := (s.setFld (Reg.RWIN_CFG_EN w) 0).setFld (Reg.RWIN_CFG_BUSY w) 0
  (((List.range p).map (base + 2 * p + ·)).foldl losePage s).bumpFree

/-- A write of RWIN_CFG_w (R281, R287). -/
def rwinCfg (r w : Nat) (v : W32) (s : State) : State :=
  let s := if v.getLsbD 28 then s.setFld (Reg.RWIN_CFG_ERR w) 0 else s
  if s.flag (Reg.RWIN_CFG_EN w) then
    if v.getLsbD 31 then s else s.rwinOff r w
  else
    let p := bitsOf (v.setWidth 64) 16 7
    let s := (s.setFld (Reg.RWIN_CFG_MODE w) (b2n (v.getLsbD 30))).setFld (Reg.RWIN_CFG_PAGES w) p
    if v.getLsbD 31 then
      let b := s.fld (Reg.RWIN_BASE_PAGE w)
      if decide (1 ≤ p) && decide (p ≤ 64) && s.windowOk b (3 * p) && !s.windowHit w b (3 * p) then
        (s.setFld (Reg.RWIN_CFG_EN w) 1).setFld (Reg.RWIN_CFG_BUSY w) 1
      else s.setFld (Reg.RWIN_CFG_ERR w) 1
    else s

/-- Registration ends (R281): Receipts EMPTY with sequence 0, notes 0, BUSY clear. -/
def rwinDone (w : Nat) (s : State) : State :=
  if s.flag (Reg.RWIN_CFG_BUSY w) then
    let base := s.fld (Reg.RWIN_BASE_PAGE w)
    let p := s.fld (Reg.RWIN_CFG_PAGES w)
    (((List.range (2 * p)).map (base + ·)).foldl zeroPage s).setFld (Reg.RWIN_CFG_BUSY w) 0
  else s

/-- A COLLECT by a requester: an aligned 64-bit read of the Ledger range (R282, R435). -/
def collectBy (r : Nat) (pa : Nat) (s : State) : State :=
  if !s.holds r 0 then (s.deny r 0 pa).answer r .denied else
  match s.winAt pa with
  | some (_, 2, _) =>
    if pa % 8 = 0 then
      let (bs, s) := s.agentRead pa 8
      s.answer r .ok (BitVec.ofNat 64 (ofBytes bs)) bs
    else s.answer r .ok 0 (List.replicate 8 0)
  | _ => s

end State

open State

/-- RWIN_REGISTER (R281). -/
def execRwinRegister (r : Requester) (w : Fin 16) (v : W32) (s : State) : Host.Outcome State Fault Refusal :=
  .next (s.permit r 2 (Reg.RWIN_CFG w) (rwinCfg r w v))

/-- RWIN_REGISTER_COMPLETE (R281). -/
def execRwinRegisterComplete (w : Fin 16) (s : State) : Host.Outcome State Fault Refusal := .next (rwinDone w s)

/-- RWIN_UNREGISTER (R287). -/
def execRwinUnregister (r : Requester) (w : Fin 16) (v : W32) (s : State) : Host.Outcome State Fault Refusal :=
  .next (s.permit r 2 (Reg.RWIN_CFG w) (rwinCfg r w v))

/-- COLLECT (R282, R283). -/
def execCollect (r : Requester) (pa : BitVec 44) (s : State) : Host.Outcome State Fault Refusal :=
  .next (s.collectBy r pa.toNat)

end Sys2Proof.Machine
end

