-- ==== Sys2Proof/Machine/Operands.lean ====
section
/-!
DEFINITION. The operand forms of Noves instructions: the second source of each format, tensor descriptors and their
fields (03), and the checks of a descriptor (R78).
-/

namespace Sys2Proof.Machine

open Sys2Proof

/-! ### Descriptors (R75, Table 3-1) -/

/-- A tensor descriptor. -/
abbrev Desc := BitVec 512

/-- A field of a descriptor. -/
def dField (d : Desc) (lo len : Nat) : Nat := (d.toNat >>> lo) % 2 ^ len

/-- A descriptor with a field replaced. -/
def dSet (d : Desc) (lo len v : Nat) : Desc :=
  (d &&& ~~~ BitVec.ofNat 512 ((2 ^ len - 1) <<< lo)) ||| BitVec.ofNat 512 ((v % 2 ^ len) <<< lo)

/-- BASE. -/
def dBase (d : Desc) : Nat := dField d 0 48
/-- FMT. -/
def dFmt (d : Desc) : Nat := dField d 48 6
/-- RANK. -/
def dRank (d : Desc) : Nat := dField d 54 3
/-- SPACE. -/
def dSpace (d : Desc) : Nat := dField d 57 2
/-- SPARSE. -/
def dSparse (d : Desc) : Bool := dField d 59 1 == 1
/-- RO. -/
def dRo (d : Desc) : Bool := dField d 60 1 == 1
/-- SCALE_OFF. -/
def dScale (d : Desc) : Nat := dField d 64 24
/-- SPMETA_OFF. -/
def dSpmeta (d : Desc) : Nat := dField d 88 24
/-- TAG. -/
def dTag (d : Desc) : Nat := dField d 112 16
/-- EXTENT_k. -/
def dExt (d : Desc) (k : Nat) : Nat := dField d (128 + 64 * k) 32
/-- STRIDE_k, signed. -/
def dStride (d : Desc) (k : Nat) : Int := sext 32 (dField d (160 + 64 * k) 32)

/-- Place and width of a descriptor field selector (Table 4-12). -/
def fselOf (f : Nat) : Option (Nat × Nat) :=
  match f with
  | 0x00 => some (0, 48) | 0x01 => some (48, 6) | 0x02 => some (54, 3) | 0x03 => some (57, 2) | 0x04 => some (59, 1)
  | 0x05 => some (60, 1) | 0x06 => some (64, 24) | 0x07 => some (88, 24) | 0x08 => some (112, 16)
  | n => if 0x10 ≤ n ∧ n ≤ 0x15 then some (128 + 64 * (n - 0x10), 32)
    else if 0x18 ≤ n ∧ n ≤ 0x1D then some (160 + 64 * (n - 0x18), 32) else none

/-- MXFP4, MXFP6_E3M2, MXFP6_E2M3 and MXINT8 (Table 5-2). -/
def isMx (f : Nat) : Bool := decide (0x07 ≤ f) && decide (f ≤ 0x0A)

/-- The width of an element in bits (Table 5-2); 0 for a code that is not defined. -/
def fmtBits (f : Nat) : Nat :=
  match f with
  | 0x01 | 0x02 | 0x07 => 4
  | 0x03 | 0x04 | 0x05 | 0x06 | 0x0A => 8
  | 0x08 | 0x09 => 6
  | 0x0B | 0x0C | 0x0E => 16
  | 0x0D | 0x0F | 0x10 | 0x11 => 32
  | _ => 0

/-- The extents of a descriptor, dimension 0 first. -/
def dExts (d : Desc) : List Nat := (List.range (dRank d)).map (dExt d)

/-- The strides of a descriptor, dimension 0 first. -/
def dStrides (d : Desc) : List Int := (List.range (dRank d)).map (dStride d)

/-- A dimension of an operand: its extent within the rank, 1 beyond it. -/
def dDim (d : Desc) (k : Nat) : Nat := if k < dRank d then dExt d k else 1

/-- The tensor has no element (R77). -/
def dEmpty (d : Desc) : Bool := (dExts d).any (· == 0)

/-- The product of some extents. -/
def prodNat (l : List Nat) : Nat := l.foldl (· * ·) 1

/-- R78: the descriptor is valid. -/
def descOk (d : Desc) : Bool :=
  let f := dFmt d
  let rk := dRank d
  let st := dStrides d
  decide (1 ≤ rk) && decide (rk ≤ 6) && fmtBits f != 0
    && dSpace d != 3
    && (dSpace d != 1 || dBase d / 2 ^ 17 == 0) && (dSpace d != 2 || dBase d / 2 ^ 18 == 0)
    && dField d 61 3 == 0
    && ((List.range 6).all fun k => decide (k < rk) || dField d (128 + 64 * k) 64 == 0)
    && ((isMx f && dSpace d != 1) || dScale d == 0)
    && (dSparse d || dSpmeta d == 0)
    && (fmtBits f != 4 || (st.headD 1 == 1 && (st.drop 1).all fun t => t % 2 == 0))
    && (!isMx f || (st.headD 1 == 1 && dExt d 0 % 32 == 0 && (st.drop 1).all fun t => t % 32 == 0))
    && (!(f == 0x08 || f == 0x09) || (st.drop 1).all fun t => t % 4 == 0)

namespace State

/-- A descriptor slot (R73). -/
def slot (s : State) (c : Nat) (d : Nat) : Desc := mget (fun _ => 0) (s.ctx c).descs d

/-- Write a descriptor slot. -/
def slotPut (s : State) (c d : Nat) (v : Desc) : State :=
  s.modCtx c fun x => { x with descs := mset (fun _ => 0) x.descs d v }

/-- The second source of FMT_S: SB, or IMM with IMM_SEL (R98). -/
def srcB (s : State) (c : Nat) (o : OpS) : W64 := if o.immSel then o.imm else s.sget c o.sb

/-- The value of FMT_D: SA, or IMM with IMM_SEL (R102). -/
def srcV (s : State) (c : Nat) (o : OpD) : W64 := if o.immSel then o.imm else s.sget c o.sa

/-- The count or amount of FMT_Y: SA, or IMM with IMM_SEL (R108). -/
def srcN (s : State) (c : Nat) (o : OpY) : W64 := if o.immSel then o.imm.setWidth 64 else s.sget c o.sa

/-- The deadline of a wait: its Lane and value, when DEADLINE is set (R108). -/
def deadlineOf (s : State) (c : Nat) (o : OpY) : Option (Nat × W64) :=
  if o.deadline then some (o.lane.val, s.sget c o.sb) else none

/-- The predicate an instruction selects reads true (R72). -/
def selected (s : State) (c : Nat) (neg : Bool) (sel : Fin 8) : Bool := s.pget c sel != neg

end State

end Sys2Proof.Machine
end

