-- ==== Sys2Proof/Machine/Tensor.lean ====
section
/-!
DEFINITION. Tensors in memory: the elements a descriptor names and where they lie (R76, R120, R121, R125), the checks
of the bytes an operation accesses, and reading and writing element codes in each of the three spaces.
-/

namespace Sys2Proof.Machine

open Sys2Proof

/-! ### Indices and addresses (R76) -/

/-- Every index of some extents, dimension 0 fastest. -/
def idxAll : List Nat → List (List Nat)
  | [] => [[]]
  | e :: t => (idxAll t).flatMap fun r => (List.range e).map fun a => a :: r

/-- The offset of an index in elements. -/
def dotIdx : List Nat → List Int → Int
  | a :: t, b :: u => a * b + dotIdx t u
  | _, _ => 0

/-- The place of an index in the order of `idxAll`; L of R121 for the indices behind dimension 0. -/
def rowNum : List Nat → List Nat → Nat
  | e :: es, a :: t => a + e * rowNum es t
  | _, _ => 0

/-- The number of elements. -/
def dCount (d : Desc) : Nat := prodNat (dExts d)

/-- The extents of the values stored: half along dimension 0 with SPARSE (R125, R126). -/
def dStoredExts (d : Desc) : List Nat :=
  match dExts d with
  | [] => []
  | e :: t => (if dSparse d then e / 2 else e) :: t

/-- The indices of the values stored. -/
def dStored (d : Desc) : List (List Nat) := idxAll (dStoredExts d)

/-- The bit address of a stored value. -/
def elemBit (d : Desc) (ix : List Nat) : Int := 8 * (dBase d : Int) + fmtBits (dFmt d) * dotIdx ix (dStrides d)

/-- The bytes that a field of bits touches. -/
def fieldBytes (bit : Int) (w : Nat) : List Int :=
  (List.range (((bit + w - 1) / 8 - bit / 8).toNat + 1)).map fun (k : Nat) => bit / 8 + (k : Int)

/-- The rows of a tensor: its extents without dimension 0. -/
def dRows (d : Desc) : Nat := prodNat ((dExts d).drop 1)

/-- The byte addresses of the scale array (R121). -/
def scaleBytes (d : Desc) : List Int :=
  if isMx (dFmt d) then (List.range (dExt d 0 / 32 * dRows d)).map fun (k : Nat) => (dBase d : Int) + 64 * dScale d + (k : Int) else []

/-- The byte addresses of the sparsity metadata (R125). -/
def sparseBytes (d : Desc) : List Int :=
  if dSparse d then (List.range (dExt d 0 / 8 * dRows d)).map fun (k : Nat) => (dBase d : Int) + 64 * dSpmeta d + (k : Int) else []

/-- The bytes some elements lie in. -/
def elemsBytes (d : Desc) (ixs : List (List Nat)) : List Int :=
  ixs.flatMap fun ix => fieldBytes (elemBit d ix) (fmtBits (dFmt d))

/-- Every byte a tensor covers: elements, scales, metadata. -/
def dBytes (d : Desc) : List Int :=
  if dEmpty d then [] else elemsBytes d (dStored d) ++ scaleBytes d ++ sparseBytes d

/-- The lowest and the highest offset of an element in elements. -/
def offMinMax : List Nat → List Int → Int × Int
  | e :: es, t :: ts =>
    let (lo, hi) := offMinMax es ts
    let x : Int := t * ((e : Int) - 1)
    (lo + Min.min 0 x, hi + Max.max 0 x)
  | _, _ => (0, 0)

/-- B of R117: the byte span of the elements and the bytes of scales and metadata. -/
def dSpanBytes (d : Desc) : Nat :=
  if dEmpty d then 0 else
  let (lo, hi) := offMinMax (dStoredExts d) (dStrides d)
  let b : Int := fmtBits (dFmt d)
  ((hi * b + b - 1) / 8 - lo * b / 8 + 1).toNat + (scaleBytes d).length + (sparseBytes d).length

/-- The bytes a Purse-space tensor occupies in each of `t` Purses (R117). -/
def purseOcc (d : Desc) (t : Nat) : Nat :=
  if t = 0 then 0 else (dSpanBytes d + 64 * t - 1) / (64 * t) * 64

/-- What a Purse-space tensor is known by (R117): everything but SPACE, RO and TAG. -/
def purseKey (d : Desc) : Desc := dSet (dSet (dSet d 57 2 0) 60 1 0) 112 16 0

/-! ### The logical Field (R111, R113) -/

namespace State

/-- C. -/
def cols (s : State) : Nat := s.fld Reg.FIELD_GEOM_COLS

/-- First logical column and column count of a Heat position (Table 5-1). -/
def posCols (s : State) (p : Nat) : Nat × Nat :=
  let h := s.cols / 2
  let q := h / 2
  match p with
  | 0 => (0, s.cols)
  | 1 => (0, h)
  | 2 => (h, h)
  | n => ((n - 3) / 2 * h + (n - 3) % 2 * q, q)

/-- The tile count of a position. -/
def posTiles (s : State) (p : Nat) : Nat := 32 * (s.posCols p).2

/-! ### Access (R116, R161, R218) -/

/-- What the checks of an operation's bytes come to. -/
inductive TAcc where
  | ok
  | wait
  | fault (code unit : Nat) (detail va : W64)
  deriving DecidableEq, Repr

/-- The first outcome that is not `ok`. -/
def accAll : List TAcc → TAcc
  | [] => .ok
  | .ok :: t => accAll t
  | .wait :: t => match accAll t with
    | .ok => .wait
    | a => a
  | a :: _ => a

/-- One byte of the virtual range. -/
def ledAcc (s : State) (c : Nat) (write ro : Bool) (va : W64) : TAcc :=
  match s.check c va write false ro with
  | .fault code unit d => .fault code unit d va
  | .ok pa => if s.movingAt pa then .wait else .ok

/-- An offset window: the first byte outside it faults. -/
def winAcc (lo hi : Nat) (bs : List Int) : TAcc :=
  match bs.find? fun (b : Int) => decide (b < (lo : Int)) || decide ((hi : Int) ≤ b) with
  | some b => .fault 4 0 0 (BitVec.ofInt 64 b)
  | none => .ok

/-- One byte of each page among some addresses, in order. -/
def onePerPage (bs : List Int) : List W64 :=
  (bs.foldl (fun (a : List W64) b =>
    let v := BitVec.ofInt 64 b
    if a.any fun u => u.toNat / 65536 == v.toNat / 65536 then a else a ++ [v]) [])

/-- The checks of the bytes `bs` of an operand: by page in the virtual range, by window in the two local spaces. The
reflex image's region is read-only (R165). -/
def tensorAcc (s : State) (c : Nat) (d : Desc) (bs : List Int) (write : Bool) : TAcc :=
  let x := s.ctx c
  match dSpace d with
  | 0 => accAll ((onePerPage bs).map (s.ledAcc c write (dRo d)))
  | 1 =>
    let t := s.posTiles (x.pwinPos.getD 0)
    let occ := purseOcc d t
    if bs.isEmpty then .ok
    else if x.pwinPos.isNone then .fault 4 0 0 (BitVec.ofNat 64 (dBase d))
    else if write && dRo d then .fault 5 0 0 (BitVec.ofNat 64 (dBase d))
    else winAcc (x.pwinBase * 64) ((x.pwinBase + x.pwinSize) * 64)
      ((List.range occ).map fun k => ((dBase d + k : Nat) : Int))
  | _ =>
    if bs.isEmpty then .ok else
    match x.swinEng with
    | none => .fault 4 0 0 (BitVec.ofNat 64 (dBase d))
    | some e =>
      if write && dRo d then .fault 5 0 0 (BitVec.ofNat 64 (dBase d)) else
      match winAcc (x.swinBase * 64) ((x.swinBase + x.swinSize) * 64) bs with
      | .ok => match mget (fun _ => none) s.sprint.binds e with
        | some b =>
          let held := fun (a : Int) => (decide ((b.base : Int) ≤ a) && decide (a < b.base + b.len)) || (match b.next with
            | some (_, base, len, _) => decide ((base : Int) ≤ a) && decide (a < base + len)
            | none => false)
          match (if write && b.ctx == c then bs.find? held else none) with
          | some a => .fault 5 0 0 (BitVec.ofInt 64 a)
          | none => .ok
        | none => .ok
      | a => a

/-- The home pages of some bytes of a context's virtual range. -/
def bytePages (s : State) (c : Nat) (d : Desc) (bs : List Int) : List Nat :=
  if dSpace d ≠ 0 then [] else
  ((onePerPage bs).filterMap fun va => match s.check c va false false false with
    | .ok pa => some (pa / 65536)
    | _ => none).eraseDups

/-- The key of a byte of an engine's memory. -/
def engKey (e off : Nat) : Nat := 262144 * e + off

/-- A byte of an engine's memory; one never written since its window was granted is left open (R118, R161; assumption 2). -/
def engByte (s : State) (e off : Nat) : Byte :=
  match mget (fun _ => none) s.sprint.mem (engKey e off) with
  | some b => b
  | none => BitVec.ofNat 8 (Config.freeNat s.freeCtr (2 ^ 59 + engKey e off))

/-- A byte of a context's virtual range: an alias of a Receipt reads 0 (R282). -/
def ledByte (s : State) (c : Nat) (va : W64) : Nat :=
  match s.check c va false false false with
  | .ok pa => (match s.winAt pa with
    | some (_, 2, _) => 0
    | _ => (s.byteAt pa).toNat)
  | _ => 0

/-- A byte of the space of a descriptor that is byte-addressed. -/
def spaceByte (s : State) (c sp : Nat) (a : Int) : Nat :=
  if sp = 0 then s.ledByte c (BitVec.ofInt 64 a)
  else (s.engByte ((s.ctx c).swinEng.getD 0) a.toNat).toNat

/-- A field of bits read through a byte function. -/
def codeAt (rd : Int → Nat) (bit : Int) (w : Nat) : Nat :=
  let v := (fieldBytes bit w).foldr (fun b acc => rd b + 256 * acc) 0
  (v >>> (bit % 8).toNat) % 2 ^ w

/-- What the Field holds of a Purse-space tensor: codes, then scales, then metadata; a tensor that was not written
through a matching descriptor holds values left open (R117, R118; assumption 2). -/
def purseVals (s : State) (c : Nat) (d : Desc) : List Nat :=
  match s.field.purse.find? fun e => e.1 == c && purseKey e.2.1 == purseKey d with
  | some e => e.2.2
  | none => (List.range ((dStored d).length + (scaleBytes d).length + (sparseBytes d).length)).map fun k =>
      if k < (dStored d).length then Config.freeNat s.freeCtr k % 2 ^ fmtBits (dFmt d)
      else Config.freeNat s.freeCtr k % 256

/-- The code of one stored value. -/
def elemCode (s : State) (c : Nat) (d : Desc) (ix : List Nat) : Nat :=
  if dSpace d = 1 then (s.purseVals c d).getD (rowNum (dStoredExts d) ix) 0
  else codeAt (s.spaceByte c (dSpace d)) (elemBit d ix) (fmtBits (dFmt d))

/-- The scale byte of block `j` of row `l` (R121). -/
def scaleCode (s : State) (c : Nat) (d : Desc) (j l : Nat) : Nat :=
  let k := j + dExt d 0 / 32 * l
  if dSpace d = 1 then (s.purseVals c d).getD ((dStored d).length + k) 0
  else s.spaceByte c (dSpace d) ((dBase d : Int) + 64 * dScale d + k)

/-- The metadata nibble of group `g` of row `l` (R125). -/
def sparseCode (s : State) (c : Nat) (d : Desc) (g l : Nat) : Nat :=
  let k := g / 2 + dExt d 0 / 8 * l
  let b := if dSpace d = 1 then (s.purseVals c d).getD ((dStored d).length + (scaleBytes d).length + k) 0
    else s.spaceByte c (dSpace d) ((dBase d : Int) + 64 * dSpmeta d + k)
  if g % 2 = 0 then b % 16 else b / 16 % 16

/-! ### Writing -/

/-- The level-3 entry of a virtual address has MIRRORED set (R407, Table 9-2). -/
def mirroredAt (s : State) (c : Nat) (va : W64) : Bool :=
  match s.xlate c va with
  | .entry e => bitsOf e 3 1 == 1
  | _ => false

/-- A write of the duty module's context is sent to the standby (R406, R407). -/
def mirror (s : State) (c : Nat) (va : W64) (pa : Nat) (bs : List Byte) : State :=
  if s.isDuty && s.mirroredAt c va then s.mirrorOut (.mirrorWrite s.pairLink pa bs) else s

/-- An agent of a context writes one byte of its virtual range. -/
def ledPut (s : State) (c : Nat) (va : W64) (b : Nat) : State :=
  match s.check c va true false false with
  | .ok pa => ((s.agentWrite pa [BitVec.ofNat 8 b]).mirror c va pa [BitVec.ofNat 8 b])
  | _ => s

/-- One byte of a byte-addressed space. -/
def spacePut (s : State) (c sp : Nat) (a : Int) (b : Nat) : State :=
  if sp = 0 then s.ledPut c (BitVec.ofInt 64 a) b
  else { s with sprint := { s.sprint with
      mem := mset (fun _ => none) s.sprint.mem (engKey ((s.ctx c).swinEng.getD 0) a.toNat) (some (BitVec.ofNat 8 b)) } }

/-- Replace a field of bits. -/
def codePut (s : State) (c sp : Nat) (bit : Int) (w v : Nat) : State :=
  let bs := fieldBytes bit w
  let old := bs.foldr (fun b acc => s.spaceByte c sp b + 256 * acc) 0
  let sh := (bit % 8).toNat
  let new := old - (old >>> sh) % 2 ^ w * 2 ^ sh + v % 2 ^ w * 2 ^ sh
  (bs.foldl (fun (a : State × Nat) b => (a.1.spacePut c sp b (a.2 % 256), a.2 / 256)) (s, new)).1

/-- The list with some places replaced. -/
def putPlaces (l : List Nat) (ps : List (Nat × Nat)) : List Nat := ps.foldl (fun l p => l.set p.1 p.2) l

/-- Write a Purse-space tensor: it replaces every tensor of the context whose bytes it overlaps (R117). -/
def pursePut (s : State) (c : Nat) (d : Desc) (v : List Nat) : State :=
  let t := s.posTiles ((s.ctx c).pwinPos.getD 0)
  let lo := dBase d
  let hi := lo + purseOcc d t
  { s with field := { s.field with purse := (s.field.purse.filter fun e =>
      !(e.1 == c && decide (dBase e.2.1 < hi) && decide (lo < dBase e.2.1 + purseOcc e.2.1 t))) ++ [(c, purseKey d, v)] } }

/-- Write some elements, and some scales by their place in the scale array. -/
def writeElems (s : State) (c : Nat) (d : Desc) (es : List (List Nat × Nat)) (scales : List (Nat × Nat)) : State :=
  if es.isEmpty && scales.isEmpty then s
  else if dSpace d = 1 then
    s.pursePut c d (putPlaces (putPlaces (s.purseVals c d) (es.map fun e => (rowNum (dStoredExts d) e.1, e.2)))
      (scales.map fun e => ((dStored d).length + e.1, e.2)))
  else
    let s := es.foldl (fun s e => s.codePut c (dSpace d) (elemBit d e.1) (fmtBits (dFmt d)) e.2) s
    scales.foldl (fun s e => s.spacePut c (dSpace d) ((dBase d : Int) + 64 * dScale d + e.1) e.2) s

end State

end Sys2Proof.Machine
end

