-- ==== Sys2Proof/Machine/Num.lean ====
section
/-!
DEFINITION. The numbers of the Field, the gate pipeline and the Sprint engines (05): element formats, FP32 arithmetic,
reductions within their bounds, rounding and output conversion. A finite value is an integer number of units of
2^-300, in which every value of every format and every product of two of them is exact.
-/

namespace Sys2Proof.Machine

open Sys2Proof

/-- A value: not a number, an infinity, a finite value in units of 2^-300, or a negative zero. -/
inductive FV where
  | nan
  | inf (neg : Bool)
  | fin (v : Int)
  | negZero
  deriving DecidableEq, Repr

/-- A power of two, in two factors so that no exponent is large. -/
def pow2 (n : Nat) : Nat := 2 ^ (n / 2) * 2 ^ (n - n / 2)

/-- One, in units of 2^-300. -/
def one300 : Int := pow2 300

/-- A whole number. -/
def fvInt (n : Int) : FV := .fin (n * one300)

/-- A power of two, from 2^-300 up. -/
def p2 (e : Int) : Int := pow2 (300 + e).toNat

/-- The finite value of an FV; 0 for the others. -/
def fvVal : FV → Int
  | .fin v => v
  | _ => 0

/-- The sign bit. -/
def fvNeg : FV → Bool
  | .inf n => n
  | .fin v => decide (v < 0)
  | .negZero => true
  | .nan => false

/-- A zero of a sign. -/
def fvZero (neg : Bool) : FV := if neg then .negZero else .fin 0

/-- A finite value that keeps the sign of a zero. -/
def fvOf (neg : Bool) (v : Int) : FV := if v = 0 then fvZero neg else .fin v

/-! ### Rounding (R135, R136) -/

/-- A number of steps of 2^sh, rounded: RND 0 to nearest even, 1 toward zero, 2 up, 3 down, 4 by the draw. -/
def roundSteps (rnd draw : Nat) (neg : Bool) (a sh : Nat) : Nat :=
  let n := a / pow2 sh
  let r := a % pow2 sh
  let up := match rnd with
    | 0 => decide (pow2 sh < 2 * r) || (2 * r == pow2 sh && r != 0 && n % 2 == 1)
    | 2 => r != 0 && !neg
    | 3 => r != 0 && neg
    | 4 => decide (draw % 65536 < 65536 * r / pow2 sh)
    | _ => false
  if up then n + 1 else n

/-- Round a magnitude to `p` significant bits, with no exponent below `emin`. -/
def roundSig (rnd draw p : Nat) (emin : Int) (neg : Bool) (a : Nat) : Nat :=
  if a = 0 then 0 else
  let e : Int := (Nat.log2 a : Int) - 300
  let q := Max.max e emin - ((p : Int) - 1)
  let sh := (300 + q).toNat
  roundSteps rnd draw neg a sh * pow2 sh

/-- The largest finite FP32 value. -/
def f32Max : Int := (2 ^ 24 - 1) * p2 104

/-- A finite value as FP32 to nearest even (R134): a result that rounds below 2^-126 is flushed, one beyond the
largest becomes infinite. -/
def f32 (v : Int) : FV :=
  let neg := decide (v < 0)
  let a := roundSig 0 0 24 (-10000) neg v.natAbs
  if (a : Int) < p2 (-126) then fvZero neg
  else if f32Max < a then .inf neg
  else .fin (if neg then -(a : Int) else a)

/-- The weight of the last place of FP32 at a value. -/
def ulp32 (v : Int) : Int :=
  if v = 0 then p2 (-149) else
  let e : Int := (Nat.log2 v.natAbs : Int) - 300
  p2 (Max.max e (-126) - 23)

/-! ### FP32 arithmetic (R134, R137) -/

/-- Sum. -/
def fAdd : FV → FV → FV
  | .nan, _ => .nan
  | _, .nan => .nan
  | .inf a, .inf b => if a = b then .inf a else .nan
  | .inf a, _ => .inf a
  | _, .inf b => .inf b
  | .negZero, .negZero => .negZero
  | a, b => f32 (fvVal a + fvVal b)

/-- Negation. -/
def fNeg : FV → FV
  | .nan => .nan
  | .inf a => .inf !a
  | .negZero => .fin 0
  | .fin v => if v = 0 then .negZero else .fin (-v)

/-- Exact product, before any rounding. -/
def fMulExact : FV → FV → FV
  | .nan, _ => .nan
  | _, .nan => .nan
  | .inf a, b => if fvVal b = 0 ∧ (∀ n, b ≠ .inf n) then .nan else .inf (a != fvNeg b)
  | a, .inf b => if fvVal a = 0 then .nan else .inf (fvNeg a != b)
  | a, b => fvOf (fvNeg a != fvNeg b) (fvVal a * fvVal b / one300)

/-- Round a value to FP32. -/
def fRound : FV → FV
  | .fin v => f32 v
  | a => a

/-- Product in FP32. -/
def fMul (a b : FV) : FV := fRound (fMulExact a b)

/-- Order with NaN propagated: the larger. -/
def fMax : FV → FV → FV
  | .nan, _ => .nan
  | _, .nan => .nan
  | .inf false, _ => .inf false
  | _, .inf false => .inf false
  | .inf true, b => b
  | a, .inf true => a
  | .negZero, .fin v => if 0 ≤ v then .fin v else .negZero
  | .fin v, .negZero => if 0 ≤ v then .fin v else .negZero
  | .negZero, .negZero => .negZero
  | .fin a, .fin b => .fin (Max.max a b)

/-- The smaller. -/
def fMin (a b : FV) : FV := fNeg (fMax (fNeg a) (fNeg b))

/-! ### Formats (Table 5-2) -/

/-- A binary floating format: exponent bits, mantissa bits, bias, and its kind of special codes: 0 as IEEE 754, 1 as
FP8_E4M3, 2 none. -/
def fpDecode (eb mb : Nat) (bias : Int) (kind : Nat) (flush : Bool) (code : Nat) : FV :=
  let m := code % 2 ^ mb
  let e := code / 2 ^ mb % 2 ^ eb
  let neg := code / 2 ^ (mb + eb) % 2 == 1
  if kind = 0 ∧ e = 2 ^ eb - 1 then (if m = 0 then .inf neg else .nan)
  else if kind = 1 ∧ e = 2 ^ eb - 1 ∧ m = 2 ^ mb - 1 then .nan
  else if e = 0 then
    if flush then fvZero neg
    else fvOf neg ((if neg then -1 else 1) * m * p2 (1 - bias - mb))
  else fvOf neg ((if neg then -1 else 1) * (2 ^ mb + m) * p2 ((e : Int) - bias - mb))

/-- The value of an element code without its block scale. INT formats are whole numbers, MXINT8 counts 2^-6. -/
def codeVal (fmt code : Nat) : FV :=
  match fmt with
  | 0x01 => fvInt (sext 4 code)
  | 0x02 => fvInt (code % 16)
  | 0x03 => fvInt (sext 8 code)
  | 0x04 => fvInt (code % 256)
  | 0x05 => fpDecode 4 3 7 1 false code
  | 0x06 => fpDecode 5 2 15 0 false code
  | 0x07 => fpDecode 2 1 1 2 false code
  | 0x08 => fpDecode 3 2 3 2 false code
  | 0x09 => fpDecode 2 3 1 2 false code
  | 0x0A => .fin (sext 8 code * p2 (-6))
  | 0x0B => fpDecode 8 7 127 0 true code
  | 0x0C => fpDecode 5 10 15 0 false code
  | 0x0D => fpDecode 8 23 127 0 true code
  | 0x0E => fvInt (sext 16 code)
  | 0x0F => fvInt (sext 32 code)
  | 0x10 => .fin (sext 32 code * p2 (-31))
  | _ => .nan

/-- An MX element scaled by its block's byte (R122). -/
def mxVal (fmt code scale : Nat) : FV :=
  if scale = 255 then .nan else
  match codeVal fmt code with
  | .fin v => .fin (v * p2 ((scale : Int) - 127) / one300)
  | a => a

/-- The FP32 value of a code (R134). -/
def f32Of (code : Nat) : FV := codeVal 0x0D code

/-- The integer formats. -/
def isInt (f : Nat) : Bool := decide (1 ≤ f) && decide (f ≤ 4) || f == 0x0E || f == 0x0F

/-- Range of an integer format. -/
def intRange (f : Nat) : Int × Int :=
  match f with
  | 0x01 => (-8, 7) | 0x02 => (0, 15) | 0x03 => (-128, 127) | 0x04 => (0, 255)
  | 0x0E => (-32768, 32767) | _ => (-2 ^ 31, 2 ^ 31 - 1)

/-- A two's complement or unsigned code. -/
def intCode (f : Nat) (v : Int) : Nat := (v % (2 ^ fmtBits f : Nat)).toNat

/-- Saturate an integer to a format. -/
def satInt (f : Nat) (v : Int) : Int := Min.min (intRange f).2 (Max.max (intRange f).1 v)

/-! ### Output conversion (R123, R135 to R137, Table 5-5) -/

/-- Assemble the code of a floating magnitude that lies in the format's range. -/
def fpCode (eb mb : Nat) (bias : Int) (neg : Bool) (a : Nat) : Nat :=
  let sgn := b2n neg * 2 ^ (eb + mb)
  if a = 0 then sgn else
  let e : Int := (Nat.log2 a : Int) - 300
  if e < 1 - bias then sgn + a / (p2 (1 - bias - mb)).toNat
  else sgn + (e + bias).toNat * 2 ^ mb + (a / (p2 (e - mb)).toNat - 2 ^ mb)

/-- Convert to an IEEE-like format: overflow by rounding mode, or saturated where `sat`. -/
def fpConv (eb mb : Nat) (bias : Int) (maxV : Int) (infCode nanCode : Nat) (sat flush : Bool) (rnd draw : Nat) : FV → Nat
  | .nan => nanCode
  | .inf neg => b2n neg * 2 ^ (eb + mb) + if sat then fpCode eb mb bias false maxV.toNat else infCode
  | .negZero => 2 ^ (eb + mb)
  | .fin v =>
    let neg := decide (v < 0)
    let sgn := b2n neg * 2 ^ (eb + mb)
    let rnd := if rnd = 4 ∧ maxV < (v.natAbs : Int) then 0 else rnd
    let a := if flush then roundSig rnd draw (mb + 1) (-10000) neg v.natAbs
      else roundSig rnd draw (mb + 1) (1 - bias) neg v.natAbs
    if flush ∧ (a : Int) < p2 (1 - bias) then sgn
    else if maxV < a then
      let toMax := sat || rnd == 1 || (rnd == 2 && neg) || (rnd == 3 && !neg)
      sgn + if toMax then fpCode eb mb bias false maxV.toNat else infCode
    else fpCode eb mb bias neg a

/-- Convert to an integer format or Q32: rounded, then saturated; NaN gives 0. -/
def intConv (f frac : Nat) (rnd draw : Nat) : FV → Nat
  | .nan => 0
  | .inf neg => intCode f (if neg then (intRange f).1 else (intRange f).2)
  | .negZero => 0
  | .fin v =>
    let neg := decide (v < 0)
    let n := roundSteps rnd draw neg v.natAbs (300 - frac)
    intCode f (satInt f (if neg then -(n : Int) else n))

/-- Convert one value into a format that is not MX (Table 5-5). -/
def conv (f rnd draw : Nat) (ovfInf : Bool) (v : FV) : Nat :=
  match f with
  | 0x05 => fpConv 4 3 7 (448 * one300) 0 0x7F true false rnd draw v
  | 0x06 => fpConv 5 2 15 (57344 * one300) 0x7C 0x7E (!ovfInf) false rnd draw v
  | 0x0B => fpConv 8 7 127 ((2 ^ 8 - 1) * p2 120) 0x7F80 0x7FC0 false false rnd draw v
  | 0x0C => fpConv 5 10 15 (65504 * one300) 0x7C00 0x7E00 false false rnd draw v
  | 0x0D => fpConv 8 23 127 f32Max 0x7F800000 0x7FC00000 false true rnd draw v
  | 0x10 => intConv 0x10 31 rnd draw v
  | f => intConv f 0 rnd draw v

/-- The FP32 code of an FP32 value. -/
def f32Code (v : FV) : Nat := conv 0x0D 0 0 false v

/-- e_max of an MX format (R123). -/
def mxEmax (f : Nat) : Int :=
  match f with
  | 0x07 => 2 | 0x08 => 4 | 0x09 => 2 | _ => 0

/-- Convert one value, already scaled to its block, into an MX element. -/
def mxConv (f rnd draw : Nat) (v : FV) : Nat :=
  match f with
  | 0x07 => fpConv 2 1 1 (6 * one300) 0 0 true false rnd draw v
  | 0x08 => fpConv 3 2 3 (28 * one300) 0 0 true false rnd draw v
  | 0x09 => fpConv 2 3 1 (15 * p2 (-1)) 0 0 true false rnd draw v
  | _ => intCode 3 (Max.max (-127) (sext 8 (intConv 3 6 rnd draw v)))

/-- A block of results as its scale byte and its element codes (R123). `draw` gives each element's draw. -/
def mxBlock (f rnd : Nat) (draw : Nat → Nat) (vs : List FV) : Nat × List Nat :=
  if vs.any fun v => match v with | .nan => true | .inf _ => true | _ => false then (255, vs.map fun _ => 0) else
  let amax := (vs.map fun v => (fvVal v).natAbs).foldl Nat.max 0
  if amax = 0 then (0, vs.map fun _ => 0) else
  let x := Max.max (-127) (Min.min 127 ((Nat.log2 amax : Int) - 300 - mxEmax f))
  ((x + 127).toNat, vs.zipIdx.map fun (v, k) =>
    mxConv f rnd (draw k) (match v with
      | .fin a => .fin (if 0 ≤ x then a / (pow2 x.toNat : Int) else a * (pow2 (-x).toNat : Int))
      | a => a))

/-- Exact order of values with NaN apart: the first is larger. -/
def larger (a b : FV) : Bool :=
  match a, b with
  | .inf false, .inf false => false
  | .inf false, _ => true
  | _, .inf false => false
  | .inf true, _ => false
  | _, .inf true => true
  | a, b => decide (fvVal b < fvVal a)

/-! ### Reductions (R138, R139) -/

/-- d of R138 for `n` terms. -/
def redD (n : Nat) (fp32 : Bool) : Nat := (n + 15) / 16 + 5 + b2n fp32

/-- A candidate lies within the bound of R138 of the exact sum; a reduction so long that γ(d) has no meaning is left open. -/
def redOk (n d : Nat) (exact mag cand : Int) : Bool :=
  decide (2 ^ 24 ≤ d)
    || decide ((cand - exact).natAbs * (2 ^ 24 - d) ≤ d * mag.natAbs + (n + d) * (p2 (-126)).natAbs * (2 ^ 24 - d))

/-- A floating reduction with a bias: any FP32 value within the bound, drawn freely (R138; assumption 2). Beyond the FP32
range of the partial sums the value is left open. A reduction of no terms gives the bias (R132). -/
def redFloat (n : Nat) (fp32 : Bool) (terms : List FV) (bias : FV) (draw : Nat) : FV :=
  if n = 0 then bias else
  let all := bias :: terms
  let pos := all.any (· == .inf false)
  let neg := all.any (· == .inf true)
  if all.any (· == .nan) || (pos && neg) then .nan
  else
    let mag : Int := (all.map fun v => ((fvVal v).natAbs : Int)).foldl (· + ·) 0
    let cand := f32Of (draw % 2 ^ 32)
    if f32Max < mag then cand
    else if pos then .inf false
    else if neg then .inf true
    else
      let exact := (all.map fvVal).foldl (· + ·) 0
      match cand with
      | .fin c => if redOk n (redD n fp32) exact mag c then .fin c else f32 exact
      | .negZero => if redOk n (redD n fp32) exact mag 0 then .negZero else f32 exact
      | _ => f32 exact

/-- An integer reduction: exact while the magnitudes fit, otherwise any INT32 value (R139; assumption 2). -/
def redInt (terms : List Int) (bias : Int) (draw : Nat) : Int :=
  let mag := (terms.map fun t => (t.natAbs : Int)).foldl (· + ·) (bias.natAbs : Int)
  if mag ≤ 2 ^ 31 - 1 then terms.foldl (· + ·) bias else sext 32 draw

/-! ### Functions with a bound (Table 5-7) -/

/-- FP32 division within 1 ulp (R141, R145; assumption 2). -/
def fDiv (a b : FV) (draw : Nat) : FV :=
  match a, b with
  | .nan, _ => .nan
  | _, .nan => .nan
  | .inf _, .inf _ => .nan
  | .inf n, b => .inf (n != fvNeg b)
  | a, .inf n => fvZero (fvNeg a != n)
  | a, b =>
    let neg := fvNeg a != fvNeg b
    if fvVal b = 0 then (if fvVal a = 0 then .nan else .inf neg)
    else if fvVal a = 0 then fvZero neg
    else
      let q := (fvVal a * one300).tdiv (fvVal b)
      let near := f32 q
      match f32Of (draw % 2 ^ 32) with
      | .fin c =>
        if decide ((c * fvVal b - fvVal a * one300).natAbs ≤ (ulp32 q * fvVal b).natAbs) then .fin c else near
      | _ => near

/-- A value that the spec leaves open altogether; no NaN (assumption 2). -/
def fOpen (draw : Nat) : FV :=
  match f32Of (draw % 2 ^ 32) with
  | .nan => .fin 0
  | v => v

/-- A gate-pipeline input: INT32 and Q32 above 2^24 are rounded to FP32, all else is exact (R140). -/
def gateIn (v : FV) : FV := fRound v

end Sys2Proof.Machine
end

