-- ==== Sys2Proof/Machine/Hmap.lean ====
section
/-!
DEFINITION. The Hurdle map (14): the occupancy tree and its edits, the clearance of one sphere against tree and SDF, a
Stride record and its verification, and the stop Stride. Lengths are whole numbers of 2^-300 mm, in which every
coordinate and every cube face is exact.
-/

namespace Sys2Proof.Machine

open Sys2Proof

/-! ### The tree (R338, R341) -/

/-- The children of a cube: a cube of one kind has eight of its kind. -/
def VTree.kids : VTree → List VTree
  | .cube k => List.replicate 8 (.cube k)
  | .split c0 c1 c2 c3 c4 c5 c6 c7 => [c0, c1, c2, c3, c4, c5, c6, c7]

/-- A cube with eight children: equal ones that are not SPLIT are merged (R338). -/
def VTree.join (l : List VTree) : VTree :=
  let g := fun (n : Nat) => l.getD n (.cube .unknown)
  match g 0 with
  | .cube k => if l.all (· == .cube k) then .cube k else .split (g 0) (g 1) (g 2) (g 3) (g 4) (g 5) (g 6) (g 7)
  | _ => .split (g 0) (g 1) (g 2) (g 3) (g 4) (g 5) (g 6) (g 7)

/-- SPLIT cubes. -/
def VTree.splits : VTree → Nat
  | .cube _ => 0
  | .split c0 c1 c2 c3 c4 c5 c6 c7 =>
    1 + c0.splits + c1.splits + c2.splits + c3.splits + c4.splits + c5.splits + c6.splits + c7.splits

/-- Nodes in use: the root's, and one for each SPLIT cube below it. -/
def VTree.nodes (t : VTree) : Nat := Nat.max 1 t.splits

/-- Set the cube at the end of a path of children; where a node is needed and none is free, the cube reached is set
instead (R341, step 3). The flag says so. -/
def VTree.put (k : VKind) : List Nat → Nat → Bool → VTree → VTree × Bool
  | [], _, _, _ => (.cube k, false)
  | c :: p, free, root, t =>
    match t with
    | .cube j =>
      if j = k then (t, false)
      else if !root && free == 0 then (.cube k, true)
      else
        let (u, co) := VTree.put k p (if root then free else free - 1) false (.cube j)
        (.join (t.kids.set c u), co)
    | _ =>
      let (u, co) := VTree.put k p free false (t.kids.getD c (.cube .unknown))
      (.join (t.kids.set c u), co)

/-- The children on the way to the cube of side 2^level leaves that contains a leaf. -/
def leafPath (levels level x y z : Nat) : List Nat :=
  (List.range (levels - level)).map fun k =>
    let b := levels - 1 - k
    b2n (bitAt x b) + 2 * b2n (bitAt y b) + 4 * b2n (bitAt z b)

/-- KIND of a child word or an edit (R338, R341). -/
def kindOf : Nat → VKind
  | 0 => .free
  | 1 => .occupied
  | _ => .unknown

/-- KIND as a child word codes it (R338). -/
def kindCode : VKind → Nat
  | .free => 0
  | .occupied => 1
  | .unknown => 3

/-! ### One sphere (R342) -/

/-- The bits of a square root, highest first. -/
def distBits (v : Nat) : Nat → Nat → Nat
  | 0, y => y
  | n + 1, y =>
    let y' := y + pow2 n
    distBits v n (if y' * y' ≤ v then y' else y)

/-- The square root, rounded down. -/
def isqrt (v : Nat) : Nat := distBits v (Nat.log2 v / 2 + 1) 0

/-- How far a coordinate lies outside an interval. -/
def gap (x lo hi : Int) : Nat := if x < lo then (lo - x).toNat else if hi < x then (x - hi).toNat else 0

/-- What the descent works with: the centre, (CLEAR_CAP + r)², whether UNKNOWN counts. -/
structure Probe where
  x : Int
  y : Int
  z : Int
  reach : Nat
  unk : Bool

/-- The squared distance to a cube given by its minimum corner and side. -/
def Probe.dist2 (q : Probe) (x y z side : Int) : Nat :=
  let a := gap q.x x (x + side)
  let b := gap q.y y (y + side)
  let c := gap q.z z (z + side)
  a * a + b * b + c * c

/-- The least of two squared distances. -/
def min2 : Option Nat → Option Nat → Option Nat
  | none, b => b
  | a, none => a
  | some a, some b => some (Nat.min a b)

/-- A cube counts as an obstacle. -/
def Probe.hits (q : Probe) : VKind → Bool
  | .free => false
  | .occupied => true
  | .unknown => q.unk

/-- The least squared distance to an obstacle within a cube, and the tests made below it (R342). -/
def VTree.scan (q : Probe) : VTree → Int → Int → Int → Int → Option Nat × Nat
  | .cube k, x, y, z, side => (if q.hits k then some (q.dist2 x y z side) else none, 0)
  | .split c0 c1 c2 c3 c4 c5 c6 c7, x, y, z, side =>
    let h := side / 2
    let one := fun (r : Option Nat × Nat) (x y z : Int) => if q.reach ≤ q.dist2 x y z h then ((none, 0) : Option Nat × Nat) else r
    let rs := [one (c0.scan q x y z h) x y z, one (c1.scan q (x + h) y z h) (x + h) y z,
      one (c2.scan q x (y + h) z h) x (y + h) z, one (c3.scan q (x + h) (y + h) z h) (x + h) (y + h) z,
      one (c4.scan q x y (z + h) h) x y (z + h), one (c5.scan q (x + h) y (z + h) h) (x + h) y (z + h),
      one (c6.scan q x (y + h) (z + h) h) x (y + h) (z + h), one (c7.scan q (x + h) (y + h) (z + h) h) (x + h) (y + h) (z + h)]
    (rs.foldl (fun a r => min2 a r.1) none, 8 + (rs.map (·.2)).foldl (· + ·) 0)

/-- What a batch counts as it goes, and whether it has met a poisoned cell. -/
structure HAcc where
  tests : Nat := 0
  /-- spheres that fell back, and of these the ones answered from the SDF -/
  fell : Nat := 0
  answered : Nat := 0
  sdfBroken : Bool := false
  spheres : Nat := 0
  deriving DecidableEq, Repr

/-- The measure of one sphere: CLEAR, SRC, and whether it fell back. -/
structure HClear where
  clear : FV
  src : Nat
  fell : Bool := false
  deriving DecidableEq, Repr

/-- The query parameters of a block (Table 14-1). -/
structure HPar where
  cap : FV
  testCap : Nat
  unk : Bool
  clearMin : FV
  deriving DecidableEq, Repr

/-- The parameters of a 128-byte block. -/
def hPar (b : List Byte) : HPar :=
  let v := ofBytes b
  { cap := f32Of (v >>> 480 % 2 ^ 32), testCap := v >>> 512 % 2 ^ 16, unk := bitAt v 528,
    clearMin := f32Of (v >>> 384 % 2 ^ 32) }

/-- A sphere in exact coordinates: centre and radius. -/
structure Sphere where
  x : FV
  y : FV
  z : FV
  r : FV
  deriving DecidableEq, Repr

/-- A finite value. -/
def FV.isFin : FV → Bool
  | .fin _ => true
  | .negZero => true
  | _ => false

/-- A value in 2^-300 mm, exact. -/
def mmOf (v : FV) : Int := 1000 * fvVal v

/-- A clearance within R342's bound of an exact value: any FP32 value not above `d − r` capped, nor more than the tolerance
below it, drawn freely; otherwise the next FP32 value below (assumption 2). `d2` is the squared distance. -/
def clearWithin (d2 : Option Nat) (r cap tol : Int) (draw : Nat) : FV :=
  -- x ≤ sqrt d2 − r, and x ≤ cap
  let below := fun (x : Int) => decide (x ≤ cap) && match d2 with
    | none => true
    | some d => decide (x + r ≤ 0) || decide (((x + r) * (x + r)).toNat ≤ d)
  -- the exact value is at most x
  let above := fun (x : Int) => decide (cap ≤ x) || match d2 with
    | none => false
    | some d => decide (0 ≤ x + r) && decide (d ≤ ((x + r) * (x + r)).toNat)
  let e := match d2 with
    | none => cap
    | some d => Min.min cap ((isqrt d : Int) - r)
  let near := f32Of (conv 0x0D 3 0 false (.fin (e / 1000)))
  match f32Of (draw % 2 ^ 32) with
  | .fin v => if below (1000 * v) && above (1000 * v + tol) then .fin v else near
  | _ => near

namespace State

/-- An FP32 register. -/
def fpReg (s : State) (k : Nat) : FV := f32Of (s.reg k).toNat

/-- The tolerance of R342 at a centre: 2^-20 of 1 m and the distance from the origin, rounded up. -/
def clearTol (s : State) (c : Sphere) : Int :=
  let d := fun (a : FV) (k : Nat) => mmOf a - mmOf (s.fpReg k)
  let (a, b, e) := (d c.x Reg.HURDLE_MAP_ORIGIN_X, d c.y Reg.HURDLE_MAP_ORIGIN_Y, d c.z Reg.HURDLE_MAP_ORIGIN_Z)
  ((1000 * one300 + (isqrt (a * a + b * b + e * e).toNat : Int) + 1) / 2 ^ 20 : Int) + 1

/-- The SDF cell a centre lies in (R343). -/
def sdfCell (s : State) (c : Sphere) : Option Nat :=
  let h := s.fpReg Reg.HURDLE_SDF_CELL
  let idx := fun (a : FV) (k n : Nat) =>
    if !(s.fpReg k).isFin then none else
    let i := (fvVal a - fvVal (s.fpReg k)) / fvVal h
    if 0 ≤ i ∧ i < n then some i.toNat else none
  if !h.isFin || decide (fvVal h ≤ 0) then none else
  match idx c.x Reg.HURDLE_SDF_ORIGIN_X (s.fld Reg.HURDLE_SDF_CFG_NX), idx c.y Reg.HURDLE_SDF_ORIGIN_Y (s.fld Reg.HURDLE_SDF_CFG_NY),
        idx c.z Reg.HURDLE_SDF_ORIGIN_Z (s.fld Reg.HURDLE_SDF_CFG_NZ) with
  | some i, some j, some k => some (i + s.fld Reg.HURDLE_SDF_CFG_NX * (j + s.fld Reg.HURDLE_SDF_CFG_NY * k))
  | _, _, _ => none

/-- A sphere answered by the fall-back (R343, R352); with a unit that is not finite its value is left open. -/
def sdfAnswer (s : State) (p : HPar) (c : Sphere) (a : HAcc) (draw : Nat) : HClear × HAcc :=
  let a := { a with tests := a.tests + 2, fell := a.fell + 1 }
  let none_ := ({ clear := .inf true, src := 2, fell := true } : HClear)
  if !s.flag Reg.HURDLE_SDF_CFG_EN || s.flag Reg.HURDLE_ERR_SDF_BROKEN || a.sdfBroken then (none_, a) else
  match s.sdfCell c, s.fpReg Reg.HURDLE_SDF_UNIT with
  | some n, u =>
    let at_ := s.fld (if s.flag Reg.HURDLE_SDF_CFG_ACTIVE then Reg.HURDLE_SDF_BASE1_ADDR else Reg.HURDLE_SDF_BASE0_ADDR) * 64 + 2 * n
    if s.poisonedAt at_ then (none_, { a with sdfBroken := true })
    else if !u.isFin then ({ clear := fOpen draw, src := 1, fell := true }, { a with answered := a.answered + 1 })
    else
      let h := mmOf (s.fpReg Reg.HURDLE_SDF_CELL)
      let half := ((isqrt (3 * h * h).toNat : Int) + 2) / 2
      let e := sext 16 (s.natAt at_ 2) * mmOf u - half - mmOf c.r
      ({ clear := clearWithin none 0 (Min.min (mmOf p.cap) e) (s.clearTol c) draw, src := 1, fell := true },
       { a with answered := a.answered + 1 })
  | none, _ => (none_, a)

/-- The clearance of one sphere (R342, R343). -/
def sphereClear (s : State) (p : HPar) (c : Sphere) (a : HAcc) : HClear × HAcc :=
  let draw := Config.freeNat s.freeCtr (2 ^ 50 + a.spheres)
  let a := { a with spheres := a.spheres + 1 }
  if !(c.x.isFin && c.y.isFin && c.z.isFin && c.r.isFin) || decide (fvVal c.r < 0) then
    ({ clear := .inf true, src := 2 }, a)
  else if s.flag Reg.HURDLE_STAT_TREE_BROKEN || s.flag Reg.HURDLE_CTL_SRC then s.sdfAnswer p c a draw
  else
    let (ox, oy, oz) := (s.fpReg Reg.HURDLE_MAP_ORIGIN_X, s.fpReg Reg.HURDLE_MAP_ORIGIN_Y, s.fpReg Reg.HURDLE_MAP_ORIGIN_Z)
    let side : Int := s.fld Reg.HURDLE_MAP_CFG_LEAF_MM * one300 * 2 ^ s.fld Reg.HURDLE_MAP_CFG_LEVELS
    let reach := mmOf p.cap + mmOf c.r
    let q : Probe := { x := mmOf c.x, y := mmOf c.y, z := mmOf c.z, reach := (reach * reach).toNat, unk := p.unk }
    let (x, y, z) := (mmOf ox, mmOf oy, mmOf oz)
    let r := s.hurdle.tree.scan q x y z side
    let tests := Nat.max r.2 8
    if p.testCap ≠ 0 ∧ p.testCap ≤ tests then s.sdfAnswer p c { a with tests := a.tests + p.testCap } draw
    else
      let a := { a with tests := a.tests + tests }
      if !(ox.isFin && oy.isFin && oz.isFin) then ({ clear := fOpen draw, src := 0 }, a) else
      let inside := fun (v lo : Int) => Min.min (v - lo) (lo + side - v)
      let face := Min.min (inside q.x x) (Min.min (inside q.y y) (inside q.z z))
      let out : Option Nat := if q.unk then (if face ≤ 0 then some 0 else some (face * face).toNat) else none
      ({ clear := clearWithin (min2 r.1 out) (mmOf c.r) (mmOf p.cap) (s.clearTol c) draw, src := 0 }, a)

end State

/-! ### Strides (R346, R347) -/

/-- A rotation, row-major, and a translation. -/
abbrev Pose := List FV

/-- A pose from twelve words. -/
def poseOf (ws : List W32) : Pose := ws.map fun w => f32Of w.toNat

/-- An exact sum. -/
def exAdd (a b : FV) : FV := if a.isFin && b.isFin then .fin (fvVal a + fvVal b) else .nan

/-- R c + T, exact (R347, step 1). -/
def moveSphere (p : Pose) (c : Sphere) : Sphere :=
  let g := fun (i : Nat) => p.getD i .nan
  let row := fun (i : Nat) => exAdd (exAdd (exAdd (fMulExact (g (3 * i)) c.x) (fMulExact (g (3 * i + 1)) c.y))
    (fMulExact (g (3 * i + 2)) c.z)) (g (9 + i))
  { x := row 0, y := row 1, z := row 2, r := c.r }

/-- The head of a Stride record that satisfies R346: its sphere count. -/
def strideCount (head : List Byte) : Option Nat :=
  let n := sliceNat head 0 1
  let m := sliceNat head 2 2
  if 1 ≤ n ∧ n ≤ 64 ∧ 1 ≤ m ∧ m ≤ 256 then some (n * m) else none

/-- A sphere from its sixteen bytes. -/
def sphereOf (b : List Byte) : Sphere :=
  { x := f32Of (sliceNat b 0 4), y := f32Of (sliceNat b 4 4), z := f32Of (sliceNat b 8 4), r := f32Of (sliceNat b 12 4) }

/-- The verification of a Stride: the clearance, whether a sphere was UNRESOLVED or fell back, how many spheres were
measured. -/
structure HVerify where
  clear : FV := .inf true
  unresolved : Bool := false
  fell : Bool := false
  count : Nat := 0
  deriving DecidableEq, Repr

/-- The verified Stride is feasible (R347, step 3). -/
def HVerify.ok (v : HVerify) (p : HPar) : Bool := !larger p.clearMin v.clear && !v.unresolved

namespace State

/-- Measure spheres in order until one lies below CLEAR_MIN (R347, step 2); `get` gives sphere n. -/
def verifyFrom (s : State) (p : HPar) (pose : Pose) (get : Nat → Sphere) : Nat → Nat → HVerify → HAcc → HVerify × HAcc
  | 0, _, v, a => (v, a)
  | fuel + 1, n, v, a =>
    let (c, a) := s.sphereClear p (moveSphere pose (get n)) a
    let v := { v with
      clear := if n = 0 then c.clear else if larger v.clear c.clear then c.clear else v.clear
      unresolved := v.unresolved || c.src == 2
      fell := v.fell || c.fell
      count := n + 1 }
    if larger p.clearMin c.clear then ({ v with clear := c.clear }, a)
    else s.verifyFrom p pose get fuel (n + 1) v a

/-- The stop Stride's verification (R349, R350). -/
def verifyStop (s : State) (p : HPar) (pose : Pose) (a : HAcc) : HVerify × HAcc :=
  s.verifyFrom p pose (fun n => sphereOf ((s.hurdle.stop.drop (16 + 16 * n)).take 16)) ((strideCount s.hurdle.stop).getD 0) 0 {} a

/-- What a batch's measures leave in the registers (R343, R352). -/
def hurdleCount (s : State) (a : HAcc) : State :=
  let s := (s.rise Reg.HURDLE_TESTS_ALL a.tests).bump Reg.HURDLE_CNT_FALLBACKS a.answered
  if a.sdfBroken then s.setFld Reg.HURDLE_ERR_SDF_BROKEN 1 else s

/-- The stop Stride is verified at the pose of record, if there is one (R349). -/
def stopVerify (s : State) : State :=
  match s.hurdle.pose with
  | none => s
  | some (ws, blk) =>
    let p := hPar blk
    let (v, a) := s.verifyStop p (poseOf ws) {}
    let s := (s.hurdleCount a).bumpFree
    let s := (s.setFld Reg.HURDLE_STOP_EPOCH_ALL (s.fld Reg.HURDLE_EPOCH_EPOCH)).setFld Reg.HURDLE_STOP_CLEAR_ALL (f32Code v.clear)
    let s := s.setFld Reg.HURDLE_STOP_STAT_OK (b2n (v.ok p))
    if !v.ok p && s.flag Reg.HURDLE_STOP_TALLY_EN then s.tallyAdd (s.fld Reg.HURDLE_STOP_TALLY_INDEX) 1 else s

/-- The record at a physical address, if the unit can read it and it satisfies R346. -/
def strideAt (s : State) (pa : Nat) : Option (List Byte) :=
  let ok := fun (a : Nat) => (s.isVdHome (a / 65536) || s.region a == .nand) && !s.poisonedAt a
  if !ok pa then none else
  match strideCount (s.bytesAt pa 16) with
  | none => none
  | some n =>
    let len := 16 + 16 * n
    if (List.range ((pa + len - 1) / 65536 - pa / 65536 + 1)).all fun k => ok (65536 * (pa / 65536 + k))
    then some (s.bytesAt pa len) else none

/-- A LOAD takes effect (R349). -/
def stopLoad (s : State) (pa index : Nat) : State :=
  let s := { s with hurdle := { s.hurdle with load := none } }
  match s.strideAt pa with
  | none => s.setFld Reg.HURDLE_STOP_STAT_ERR 1
  | some b =>
    let s := { s with hurdle := { s.hurdle with stop := b } }
    let s := (s.setFld Reg.HURDLE_STOP_STAT_LOADED 1).setFld Reg.HURDLE_STOP_STAT_INDEX index
    s.stopVerify

/-- A LOAD that waits takes effect between batches (R349). -/
def hurdleSettle (s : State) : State :=
  match s.hurdle.load with
  | some (pa, index) => if s.hurdle.runs.isEmpty then s.stopLoad pa index else s
  | none => s

/-- Free map nodes. -/
def nodesFree (s : State) : Nat := s.fld Reg.HURDLE_MAP_NODES_NODES - s.hurdle.tree.nodes

/-- Set the tree, and NODES_FREE with it. -/
def setTree (s : State) (t : VTree) : State :=
  let s := { s with hurdle := { s.hurdle with tree := t } }
  s.setFld Reg.HURDLE_STAT_NODES_FREE s.nodesFree

end State

/-! ### The map region (R338) -/

/-- The eight child words of a node, with SPLIT children numbered upward from `next`, and the nodes below it: their bytes
in order of number (assumption 20). -/
def VTree.words : VTree → Nat → List (List Nat) × Nat
  | .cube k, next => ([List.replicate 8 (2 ^ 30 * kindCode k)], next)
  | .split c0 c1 c2 c3 c4 c5 c6 c7, next =>
    let one := fun (t : VTree) (f : Nat → List (List Nat) × Nat) (a : List Nat × List (List Nat) × Nat) =>
      match t with
      | .cube k => (a.1 ++ [2 ^ 30 * kindCode k], a.2.1, a.2.2)
      | _ =>
        let (l, n) := f (a.2.2 + 1)
        (a.1 ++ [2 * 2 ^ 30 + a.2.2 % 2 ^ 20], a.2.1 ++ l, n)
    let a := one c7 c7.words (one c6 c6.words (one c5 c5.words (one c4 c4.words (one c3 c3.words (one c2 c2.words
      (one c1 c1.words (one c0 c0.words ([], [], next))))))))
    (a.1 :: a.2.1, a.2.2)

/-- The bytes of the nodes in use. -/
def VTree.bytes (t : VTree) : List Byte := (t.words 1).1.flatMap fun n => n.flatMap (toBytes 4)

end Sys2Proof.Machine
end

