-- ==== Sys2Proof/Machine/Moves.lean ====
section
/-!
DEFINITION. MOVE operations as the Teller takes them apart into page moves (R107, R224, R225, R229, R230).
-/

namespace Sys2Proof.Machine

open Sys2Proof

/-- What the start of a MOVE comes to. -/
inductive MoveStart where
  | started (s : State)
  | fault (code unit : Nat) (detail va : W64) (tag : Nat)

/-- The page an element of a copy is moved by: its first byte's. -/
def elemVpn (d : Desc) (ix : List Nat) : Nat := (BitVec.ofInt 64 (elemBit d ix / 8)).toNat / 65536

/-- The page a scale byte is moved by. -/
def scaleVpn (d : Desc) (k : Nat) : Nat := (BitVec.ofInt 64 ((dBase d : Int) + 64 * dScale d + k)).toNat / 65536

/-- The descriptor whose pages carry a copy or a fill: the destination, or the source of a copy to a local space. -/
def moveKey (o : AsyncOp) : Option Desc :=
  if dSpace o.dO = 0 then some o.dO else if o.mn = .mcopy ∧ dSpace o.dA = 0 then some o.dA else none

/-- A fill as bytes and words of its element width. -/
def fillCode (o : AsyncOp) : Nat := o.len.toNat % 2 ^ fmtBits (dFmt o.dO)

namespace State

/-- The operation writes every byte of a virtual page (R238). -/
def coversPage (o : AsyncOp) (vpn : Nat) : Bool :=
  (((dBytes o.dO).filter fun b => (BitVec.ofInt 64 b).toNat / 65536 == vpn).eraseDups).length == 65536

/-- A destination byte of a copy or fill: a poisoned page that is written whole is no fault (R238). -/
def destAcc (s : State) (c : Nat) (o : AsyncOp) (va : W64) : TAcc :=
  match s.ledAcc c true (dRo o.dO) va with
  | .fault 6 unit d v => (match s.xlate c va with
    | .entry _ => if coversPage o (va.toNat / 65536) then .ok else .fault 6 unit d v
    | _ => .fault 6 unit d v)
  | a => a

/-- The checks of the bytes a copy or fill writes. -/
def destAll (s : State) (c : Nat) (o : AsyncOp) : TAcc :=
  if dSpace o.dO = 0 then accAll ((onePerPage (dBytes o.dO)).map (s.destAcc c o))
  else s.tensorAcc c o.dO (dBytes o.dO) true

/-- The checks of the bytes a copy or menter reads. -/
def srcAll (s : State) (c : Nat) (o : AsyncOp) : TAcc :=
  if o.mn = .mfill then .ok else s.tensorAcc c o.dA (dBytes o.dA) false

/-- The home page of a virtual page, for a page that may be poisoned. -/
def rawHome (s : State) (c vpn : Nat) : Option Nat :=
  match s.xlate c (BitVec.ofNat 64 (65536 * vpn)) with
  | .entry e => some (bitsOf e 16 28)
  | _ => none

/-- Queue one page move for each virtual page. -/
def queuePages (s : State) (c id : Nat) (kind : MoveKind) (vpns : List Nat) : State :=
  vpns.foldl (fun s v => match s.rawHome c v with
    | some p => s.queueMove { ctx := c, op := some id, page := p, vpn := v, kind := kind }
    | none => s) s

/-- The bytes a menter writes: the elements of DS packed in order, then its scales. -/
def enterBytes (s : State) (c : Nat) (d : Desc) : List Nat :=
  let w := fmtBits (dFmt d)
  let v := (dStored d).foldr (fun ix acc => s.elemCode c d ix + 2 ^ w * acc) 0
  let n := ((dStored d).length * w + 7) / 8
  (List.range n).map (fun k => v / 256 ^ k % 256) ++
    (List.range (scaleBytes d).length).map fun k => s.scaleCode c d k 0

/-- How many bytes that is. -/
def enterLen (d : Desc) : Nat := ((dStored d).length * fmtBits (dFmt d) + 7) / 8 + (scaleBytes d).length

/-- One page a menter names: it must lie in the backed NAND view (R107, R218, R230). -/
def enterAcc (s : State) (c : Nat) (va : W64) : TAcc :=
  match s.xlate c va with
  | .unmapped => .fault 4 0 0 va
  | .poisoned p => .fault 6 4 (BitVec.ofNat 64 p) va
  | .entry e => match s.region (65536 * bitsOf e 16 28) with
    | .nand => .ok
    | .nandAbsent => if s.present 6 then .fault 4 0 0 va else .fault 7 0 6 va
    | _ => .fault 5 0 0 va

/-- mraise and mdrop, page by page upward; the first page that faults ends it (R221, R225). -/
def raisePages (s : State) (c id : Nat) (drop tier : Bool) : List Nat → MoveStart
  | [] => .started s
  | v :: t =>
    let va := BitVec.ofNat 64 (65536 * v)
    match s.check c va false false false with
    | .fault code unit d => .fault code (if code = 6 then unit else 4) d va 0
    | .ok pa =>
      let s := s.noteTlb c va
      (if drop then s.dropClaim c (pa / 65536) else s.raisePage c (some id) v (pa / 65536) tier).raisePages c id drop tier t

/-- A check that is no fault lets a move start. -/
def thenStart (a : TAcc) (tag : Nat) (k : MoveStart) : MoveStart :=
  match a with
  | .fault code unit d va => .fault code (if code = 6 then unit else 4) d va tag
  | _ => k

/-- A MOVE starts: its addresses are checked, and its page moves are queued. -/
def startMove (s : State) (c : Nat) (o : AsyncOp) : MoveStart :=
  let s := s.modCtx c fun x => { x with ops := x.ops.map fun p => if p.id = o.id then { p with state := .running } else p }
  match o.mn with
  | .mraise => s.raisePages c o.id false o.tier (vpnsOf o.addr o.len)
  | .mdrop => s.raisePages c o.id true false (vpnsOf o.addr o.len)
  | .mcopy | .mfill =>
    thenStart (s.destAll c o) (dTag o.dO) (thenStart (s.srcAll c o) (dTag o.dA) (match moveKey o with
      | some d => .started (s.queuePages c o.id (if o.mn = .mcopy then .copy else .fill)
          ((onePerPage (dBytes d)).map fun v => v.toNat / 65536))
      | none => .started s))
  | .menter =>
    let n := BitVec.ofNat 64 (enterLen o.dA)
    let vpns := vpnsOf o.addr n
    if !(s.ctx c).nandWr then .fault 5 4 0 o.addr 0 else
    thenStart (accAll (vpns.map fun v => s.enterAcc c (BitVec.ofNat 64 (65536 * v)))) 0
      (thenStart (s.srcAll c o) (dTag o.dA) (.started (s.queuePages c o.id .enter vpns)))
  | _ => .started s

/-- Copy or fill what one page move carries: the elements and scales whose page it is (R229). -/
def copyPage (s : State) (c : Nat) (o : AsyncOp) (vpn : Option Nat) : State :=
  let here := fun (d : Desc) (ix : List Nat) => match vpn with
    | some v => elemVpn d ix == v
    | none => true
  let key := (moveKey o).getD o.dO
  let ixs := (dStored o.dO).filter (here key)
  if o.mn = .mfill then s.writeElems c o.dO (ixs.map fun ix => (ix, fillCode o)) []
  else
    let sc := (List.range (scaleBytes o.dO).length).filter fun k => match vpn with
      | some v => scaleVpn key k == v
      | none => true
    s.writeElems c o.dO (ixs.map fun ix => (ix, s.elemCode c o.dA ix)) (sc.map fun k => (k, s.scaleCode c o.dA k 0))

end State

end Sys2Proof.Machine
end

