-- ==== Sys2Proof/Machine/Contexts.lean ====
section
/-!
DEFINITION. Contexts at work (03, 10): faults, the issue of one instruction, accesses of a context's virtual range,
asynchronous operations from hand-over to completion, fences, and the commands that end waits and take Receipts.
-/

namespace Sys2Proof.Machine

open Sys2Proof

namespace State

/-! ### Faults (R87 to R90) -/

/-- A fault is detected (R90): the first is recorded, each later one raises COUNT. After an exit or in a safe-state
reset no record is written, and the fault is dropped (assumption 12). -/
def faultCtx (s : State) (c : Nat) (f : FaultInfo) : State :=
  let x := s.ctx c
  if x.stage = .undefined then s else
  match x.td with
  | none => s.setCtx c { x with td := some .fault, fault := some f }
  | some .exit | some .ssr => s
  | some _ => s.setCtx c { x with faultCount := satAdd 8 x.faultCount 1 }

/-- A precise fault of the instruction at the context's program counter (R87). -/
def precise (s : State) (c code : Nat) (detail : W64) (vaddr : W64 := 0) (unit : Nat := 0) (tag : Nat := 0) : State :=
  s.faultCtx c { code := code, imprecise := false, unit := unit, tag := tag, pc := (s.ctx c).pc, vaddr := vaddr,
                 lane15 := s.laneVal 15, detail := detail }

/-- DETAIL as a number. -/
def illegalOperand (s : State) (c i : Nat) : State := s.precise c 2 (BitVec.ofNat 64 i)

/-! ### Issue (R69, R70, R95) -/

/-- The context may issue: the Starter runs, the context is resident, blocked in nothing and not torn down. -/
def issuable (s : State) (c : Nat) : Bool :=
  let x := s.ctx c
  s.flag Reg.START_CTL_EN && !s.flag Reg.PWR_STAT_THERM_TRIP && x.stage == .resident && x.wait.isNone && x.td.isNone

/-- What an access of a context comes to. -/
inductive MemOut where
  | ok (bs : List Byte) (s : State)
  /-- a page under a move: the access waits (R228) -/
  | wait
  | fault (code unit : Nat) (detail : W64)

/-- The context reads bytes within one page. -/
def ctxLoad (s : State) (c : Nat) (va : W64) (n : Nat) : MemOut :=
  match s.check c va false false false with
  | .fault code unit d => .fault code unit d
  | .ok pa =>
    if s.movingAt pa then .wait else
    let (bs, s) := (s.noteTlb c va).agentRead pa n
    .ok bs s

/-- The context writes bytes within one page. -/
def ctxStore (s : State) (c : Nat) (va : W64) (bs : List Byte) (ro : Bool) : MemOut :=
  match s.check c va true false ro with
  | .fault code unit d => .fault code unit d
  | .ok pa =>
    if s.movingAt pa then .wait else
    .ok [] (((s.noteTlb c va).agentWrite pa bs).mirror c va pa bs)

/-- A read whose fault is the instruction's own; while the access waits nothing happens (R228). -/
def withLoad (s : State) (c : Nat) (va : W64) (n : Nat) (k : List Byte → State → State) : State :=
  match s.ctxLoad c va n with
  | .ok bs s => k bs s
  | .wait => s
  | .fault code unit d => s.precise c code d va unit

/-- A write whose fault is the instruction's own. -/
def withStore (s : State) (c : Nat) (va : W64) (bs : List Byte) (k : State → State) : State :=
  match s.ctxStore c va bs false with
  | .ok _ s => k s
  | .wait => s
  | .fault code unit d => s.precise c code d va unit

/-- The fetch at the program counter (R70, R218): go on, wait, or fault. -/
def withFetch (s : State) (c : Nat) (k : State → State) : State :=
  let pc := (s.ctx c).pc
  match s.check c pc false true false with
  | .fault code unit d => s.precise c code d pc unit
  | .ok pa => if s.movingAt pa then s else k (s.noteTlb c pc)

/-- One instruction of a context, from its fetch through the predicate and the encoding check of R95. The command
names the instruction that was fetched (assumption 7). -/
def runN (s : State) (i : Issue) (m : Mn) (o : NOps) (k : State → State) : State :=
  let c := i.ctx.val
  if !s.issuable c then s else
  s.withFetch c fun s =>
    if !s.selected c i.neg i.sel then s.pcNext c
    else
      let w : NWord := ⟨i.neg, i.sel, m, o⟩
      if reservedUse w then s.precise c 1 (BitVec.ofNat 64 ((encodeN w).toNat / 2 ^ 64)) else k s

/-! ### Jobs (R260) -/

/-- The active budget entries that bind a context. -/
def entriesOf (s : State) (c : Nat) : List Nat :=
  (List.range 64).filter fun b => s.flag (Reg.START_BCFG_EN b) && s.fld (Reg.START_BCFG_CONTEXT b) == c

/-- A job begins: an lwrel has ended SATISFIED. -/
def jobBegin (s : State) (c : Nat) : State :=
  let es := s.entriesOf c
  let s := s.modCtx c fun x => { x with job := true }
  { s with starter := { s.starter with
      charge := s.starter.charge.filter fun e => !es.contains e.1,
      overrun := s.starter.overrun.filter fun b => !es.contains b } }

/-- A job ends: its charge joins MAX, and a demotion ends (R260, R261). -/
def jobEnd (s : State) (c : Nat) : State :=
  if !(s.ctx c).job then s else
  let s := (s.entriesOf c).foldl (fun s b =>
    let ch := Nat.min (mget (fun _ => 0) s.starter.charge b) (2 ^ 31 - 1)
    if s.fld (Reg.START_BSTAT_MAX b) < ch then s.setFld (Reg.START_BSTAT_MAX b) ch else s) s
  s.modCtx c fun x => { x with job := false, demoted := false }

/-! ### Asynchronous operations (R81 to R84, R245) -/

/-- An operation of a context by its number. -/
def opOf (s : State) (c id : Nat) : Option AsyncOp := (s.ctx c).ops.find? fun o => o.id == id

/-- Change an operation. -/
def modOp (s : State) (c id : Nat) (f : AsyncOp → AsyncOp) : State :=
  s.modCtx c fun x => { x with ops := x.ops.map fun o => if o.id = id then f o else o }

/-- The ordering group of a unit (Table 3-4): Field and gate pipeline, Sprint, or none. -/
def groupOf : KUnit → Option Nat
  | .field | .gate => some 0
  | .sprint => some 1
  | _ => none

/-- No earlier operation of the context stands before it in its group (Table 3-4). -/
def isHead (s : State) (c id : Nat) : Bool :=
  match s.opOf c id with
  | none => false
  | some o => match groupOf o.unit with
    | none => true
    | some g => match (s.ctx c).ops.find? fun p => groupOf p.unit == some g with
      | some p => p.id == id
      | none => false

/-- UNIT code of Table 3-6. -/
def unitCode : KUnit → Nat
  | .field => 1 | .gate => 2 | .sprint => 3 | .teller => 4 | .hurdle => 6 | .fusion => 7

/-- Bit of a fence mask (R84). -/
def fenceBit : KUnit → Nat
  | .field | .gate => 0 | .sprint => 1 | .teller => 2 | .hurdle => 3 | .fusion => 4

/-- A stream (R196). -/
def strm (s : State) (n : Nat) : Option Strm := mget (fun _ => none) s.stream.streams n

/-- A chunk has been admitted: it claims every stream it names (R200, R201). -/
def admitted (s : State) (c : Nat) (o : AsyncOp) : Bool := o.streams.all fun n => match s.strm n with
  | some x => x.claims.contains (c, o.id)
  | none => false

/-- A chunk may start, as far as its streams are concerned: admitted, and all resident (R202). -/
def chunkIn (s : State) (c : Nat) (o : AsyncOp) : Bool := s.admitted c o && o.streams.all fun n => match s.strm n with
  | some x => x.place == .resident
  | none => false

/-- An operation whose Receipt allows it goes on: to admission of its streams, to the Starter, or to its unit. -/
def opGo (s : State) (c id : Nat) : State :=
  s.modOp c id fun o => { o with state :=
    match o.unit with
    | .teller => .ready
    | _ => if s.chunkIn c o then .ready else .admitWait }

/-- An operation starts, as far as its Receipt is concerned (R284); a busy one waits. -/
def opStart (s : State) (c id : Nat) (count : Bool) : State :=
  match s.opOf c id with
  | none => s
  | some o => match o.rcpt with
    | none => s.opGo c id
    | some va => match s.check c va false false false with
      | .fault _ _ _ => s.opGo c id
      | .ok pa => match s.producerStart pa (.op c id) count with
        | (.busy, s) => s.modOp c id fun o => { o with state := .rcptWait }
        | (.overwritten q l, s) => (s.modOp c id fun o => { o with seqTaken := some (q, l) }).opGo c id
        | (_, s) => s.opGo c id

/-! ### The pipes of the Fusion unit and the queue of the Hurdle unit (R314, R337) -/

/-- An operation stands before another in a queue by class, then by issue: keys of class and order. -/
def qBefore (a b : Nat × Nat × Nat × Nat) : Bool := decide (a.1 < b.1) || (a.1 == b.1 && decide (a.2.1 < b.2.1))

/-- The operations of a unit that wait for it: class, order, context, number. -/
def waitingOps (s : State) (u : KUnit) (f : Mn → Bool) : List (Nat × Nat × Nat × Nat) :=
  (s.ctxs.filter fun e => e.2.td.isNone).flatMap fun e => (e.2.ops.filter fun o => o.unit == u && o.state == .ready && f o.mn).map
    fun o => (e.2.cls.val, o.order, e.1, o.id)

/-- The first in order of class, then of issue. -/
def firstOp (s : State) (u : KUnit) (f : Mn → Bool) : Option (Nat × Nat × Nat × Nat) :=
  bestBy qBefore (s.waitingOps u f)

/-- A Fusion kernel starts: it reads the tables as they stand (R326, R330). -/
def fusionRun (s : State) (c id : Nat) : FRun :=
  { ctx := c, id := id, bank := s.fld Reg.FUSION_STAT_BANK, tables := s.fusion.tables }

/-- Each idle pipe of the Fusion unit takes its next kernel (R314). -/
def pumpFusion (s : State) : State :=
  let s := match s.fusion.xform, s.firstOp .fusion (fun m => m != .kftrack) with
    | none, some (_, _, c, id) =>
      ({ s with fusion := { s.fusion with xform := some (s.fusionRun c id) } } : State).modOp c id
        fun o => { o with state := .running }
    | _, _ => s
  match s.fusion.tracker, s.firstOp .fusion (fun m => m == .kftrack) with
  | none, some (_, _, c, id) =>
    ({ s with fusion := { s.fusion with tracker := some (s.fusionRun c id) } } : State).modOp c id
      fun o => { o with state := .running }
  | _, _ => s

/-- The Lane a khfinish's block names: DLANE. -/
def opDlane (o : AsyncOp) : Nat := sliceNat o.params 88 1 % 16

/-- A Hurdle batch starts. -/
def hurdleStart (s : State) (c id : Nat) : State :=
  match s.opOf c id with
  | none => s
  | some o => ({ s with hurdle := { s.hurdle with
      runs := s.hurdle.runs ++ [{ ctx := c, id := id, lane := s.laneVal (opDlane o) }] } } : State).modOp c id
        fun o => { o with state := .running }

/-- Class of a batch in progress. -/
def runClass (s : State) (h : HRun) : Nat := (s.ctx h.ctx).cls.val

/-- A batch in progress goes back to the queue and starts again later (R337). -/
def hurdleRestart (s : State) (h : HRun) : State :=
  (({ s with hurdle := { s.hurdle with runs := s.hurdle.runs.filter (· != h) } } : State).modOp h.ctx h.id
    fun o => { o with state := .ready }).bump Reg.HURDLE_CNT_RESTARTS

/-- The running batch of the Hurdle unit, if it has not yielded. -/
def hurdleRunning (s : State) : Option HRun := s.hurdle.runs.find? fun h => !h.yielded

/-- Batches in progress that yielded: the last one resumes. -/
def hurdleResume (s : State) : State :=
  match s.hurdle.runs.reverse with
  | h :: t => { s with hurdle := { s.hurdle with runs := t.reverse ++ [{ h with yielded := false }] } }
  | [] => s

/-- The batch that runs is a khmap. -/
def isMapRun (s : State) (h : HRun) : Bool := match s.opOf h.ctx h.id with
  | some o => o.mn == .khmap
  | none => false

/-- The Hurdle unit takes the next batch of its queue, if it may (R337, R340). -/
def pumpHurdle (s : State) : State :=
  let s := s.hurdleSettle
  if !s.flag Reg.HURDLE_CTL_EN then s else
  match s.firstOp .hurdle (fun _ => true) with
  | none => if s.hurdleRunning.isNone then s.hurdleResume else s
  | some (k, _, c, id) =>
    let isMap : Bool := match s.opOf c id with
      | some o => o.mn == .khmap
      | none => false
    if isMap then
      let s := (s.hurdle.runs.filter fun h => decide (k < s.runClass h) && !s.isMapRun h).foldl hurdleRestart s
      if s.hurdle.runs.isEmpty then s.hurdleStart c id
      else if s.hurdleRunning.isNone then s.hurdleResume else s
    else match s.hurdleRunning, s.hurdle.runs.getLast? with
      | some _, _ => s
      | none, some h => if k < s.runClass h then s.hurdleStart c id else s.hurdleResume
      | none, none => s.hurdleStart c id

/-- Forget a run that has ended, and a chunk's claims. -/
def dropRuns (s : State) (c id : Nat) : State :=
  let gone := fun (r : Option FRun) => r.filter fun x => !(x.ctx == c && x.id == id)
  { s with fusion := { s.fusion with xform := gone s.fusion.xform, tracker := gone s.fusion.tracker }
           hurdle := { s.hurdle with runs := s.hurdle.runs.filter fun h => !(h.ctx == c && h.id == id) }
           stream := { s.stream with streams := s.stream.streams.map fun e =>
             (e.1, e.2.map fun x => { x with claims := x.claims.filter (· != (c, id)) }) } }

/-- The Teller starts every MOVE handed to it while it is enabled, in order of issue; one whose addresses fault does
nothing more (R87, R224). -/
def pumpTeller (s : State) : State :=
  if !s.flag Reg.TELLER_CTL_EN then s else
  let ws := sortBy (fun (a b : Nat × Nat × Nat × Nat) => decide (a.2.1 < b.2.1)) (s.waitingOps .teller fun _ => true)
  ws.foldl (fun s w => match s.opOf w.2.2.1 w.2.2.2 with
    | some o => (match s.startMove w.2.2.1 o with
      | .started s => s
      | .fault code unit d va tag =>
        (s.modCtx w.2.2.1 fun x => { x with ops := x.ops.filter fun p => p.id != o.id }).faultCtx w.2.2.1
          { code := code, imprecise := true, unit := unit, tag := tag, pc := o.pc, vaddr := va,
            lane15 := s.laneVal 15, detail := d })
    | none => s) s

/-! ### Reflex bindings (R165) -/

/-- The binding of an engine. -/
def bindOf (s : State) (e : Nat) : Option RxBind := mget (fun _ => none) s.sprint.binds e

/-- C_rx of a parameter block (R167). -/
def rxCycles (p : List Byte) : Nat :=
  let n := fun (l : Nat) => sliceNat p (16 + 16 * l) 2 % 512
  let layers := sliceNat p 1 1 % 8
  48 + ((List.range (layers + 1)).map fun l =>
    2 * (if l = 0 then sliceNat p 2 1 % 128 else n (l - 1)) * ((n l + 15) / 16) + 24).foldl (· + ·) 0

/-- Set or end the binding of an engine, and show it in the engine's registers. -/
def setBind (s : State) (e : Nat) (b : Option RxBind) : State :=
  let s := { s with sprint := { s.sprint with binds := mset (fun _ => none) s.sprint.binds e b } }
  let (on, p, m, c, y) := match b with
    | some b => (1, b.pacer, b.mask, b.ctx, rxCycles b.params)
    | none => (0, 0, 0, 0, 0)
  ((((s.setFld (Reg.SPRINT_ENG_STAT_RX_BOUND e) on).setFld (Reg.SPRINT_ENG_STAT_RX_PACER e) p).setFld
    (Reg.SPRINT_ENG_STAT_RX_CH_MASK e) m).setFld (Reg.SPRINT_ENG_STAT_RX_CONTEXT e) c).setFld (Reg.SPRINT_RX_CYC_BUDGET e) y

/-- PACER and CH_MASK of a parameter block. -/
def rxTarget (p : List Byte) : Nat × Nat := (sliceNat p 0 1 % 16, sliceNat p 0 1 / 16)

/-- The engine whose binding is a context's for a Pacer and channels. -/
def rxEngine (s : State) (c pacer mask : Nat) : Option Nat := (List.range 8).find? fun e => match s.bindOf e with
  | some b => b.ctx == c && b.pacer == pacer && b.mask == mask
  | none => false

/-- A binding covers one of some channels of a Pacer. -/
def rxTaken (s : State) (pacer mask : Nat) : Bool := (List.range 8).any fun e => match s.bindOf e with
  | some b => b.pacer == pacer && (b.mask &&& mask) != 0
  | none => false

/-- An engine takes no new work (R164). -/
def engineOut (s : State) (e : Nat) : Bool := s.boot.enginesOut.contains e || s.flag (Reg.SPRINT_ENG_CTL_MAP_OUT e)

/-- A ksreflex that is its context's next Sprint work starts (R165): it binds the engine of the window once that is free,
or tells the binding to switch or to end. -/
def rxStart (s : State) (c : Nat) (o : AsyncOp) : State :=
  let (pacer, mask) := rxTarget o.params
  let go := fun (s : State) => s.modOp c o.id fun o => { o with state := .running }
  let flags := sliceNat o.params 1 1
  if bitAt flags 3 then match s.rxEngine c pacer mask with
    | none => go s
    | some e => match s.bindOf e with
      | some b => go (s.setBind e (if b.run.isSome then some { b with stop := some o.id } else none))
      | none => go s
  else if bitAt flags 4 then match s.rxEngine c pacer mask with
    | none => go s
    | some e => match s.bindOf e with
      | some b => go (s.setBind e (some { b with next := some (o.params, dBase o.dO, dExt o.dA 0, o.id) }))
      | none => go s
  else match (s.ctx c).swinEng with
    | none => s
    | some e => if (s.bindOf e).isSome || s.engineOut e || s.rxTaken pacer mask then s
      else go (s.setBind e (some { ctx := c, pacer := pacer, mask := mask, params := o.params, base := dBase o.dO,
                                   len := dExt o.dA 0 }))

/-- Every ksreflex that can start does. -/
def pumpReflex (s : State) : State :=
  (sortBy (fun (a b : Nat × Nat × Nat × Nat) => decide (a.2.1 < b.2.1)) (s.waitingOps .sprint fun m => m == .ksreflex)).foldl
    (fun s w => match s.opOf w.2.2.1 w.2.2.2 with
      | some o => if (s.ctx w.2.2.1).td.isNone then s.rxStart w.2.2.1 o else s
      | none => s) s

/-- The units take what waits for them. -/
def pump (s : State) : State := s.pumpFusion.pumpHurdle.pumpTeller.pumpReflex

/-- Every queued operation that nothing stands before starts. -/
def promote (s : State) (c : Nat) : State :=
  (((s.ctx c).ops.map (·.id)).foldl (fun s id => match s.opOf c id with
    | some o => if o.state = .queued ∧ s.isHead c id then s.opStart c id true else s
    | none => s) s).pump

/-- Hand an operation over (R81): it is queued, the context goes on. A seventeenth stalls the context's issue. -/
def handOver (s : State) (c : Nat) (o : AsyncOp) : State :=
  if 16 ≤ (s.ctx c).ops.length then s else
  let id := s.stamp
  let s := s.modCtx c fun x => { x with ops := x.ops ++ [{ o with id := id, order := id, pc := x.pc }] }
  (s.nextStamp.pcNext c).promote c

/-- An operation meets a fault after issue: imprecise (R87). The operation does nothing more. -/
def opFault (s : State) (c id code unit : Nat) (detail vaddr : W64) (tag : Nat) : State :=
  match s.opOf c id with
  | none => s
  | some o =>
    let s := (s.modCtx c fun x => { x with ops := x.ops.filter fun p => p.id != id }).dropRuns c id |>.pump
    s.faultCtx c { code := code, imprecise := true, unit := unit, tag := tag, pc := o.pc, vaddr := vaddr,
                   lane15 := s.laneVal 15, detail := detail }

/-! ### Fences and what follows them (R84, R85, R279, R286) -/

/-- Every masked unit's operations of a context have completed; a mask of 0 acts as all units (R84). -/
def fenceClear (s : State) (c mask : Nat) : Bool :=
  (s.ctx c).ops.all fun o => mask % 32 != 0 && !bitAt mask (fenceBit o.unit)

/-- tbarwait's arrival and wait (R279). -/
def barWaitNow (s : State) (c b slot : Nat) (pd : Fin 8) (sd : Fin 32) (dl : Option (Nat × W64)) : State :=
  let v := s.barOf b
  if v.broken then s.endWait c pd sd brokenOut else
  let s := s.barArrive b slot
  if later (s.barOf b).phase v.phase then s.endWait c pd sd satisfied
  else s.modCtx c fun x => { x with wait := some (.bar b v.phase pd sd dl), waitFrom := s.stamp }

/-- rpost: post, stall, or fault (R286). -/
def rpostNow (s : State) (c pa : Nat) : State :=
  match s.rcptWin pa with
  | none => s.precise c 5 0
  | some w =>
    if s.overMode w then s.precise c 5 0 else
    match s.producerPost pa (.op c 0) none false 0 c (match (s.ctx c).wait with | some (.rpost _) => false | _ => true) with
    | (.done, s) => (s.modCtx c fun x => { x with wait := none }).pcNext c
    | (_, s) => s.modCtx c fun x => { x with wait := some (.rpost pa) }

/-- What a context does once its fence has ended. -/
def afterFence (s : State) (c : Nat) (k : AfterFence) : State :=
  let s := s.modCtx c fun x => { x with wait := none }
  match k with
  | .nothing => s.pcNext c
  | .add t n => (s.tallyAdd t n.toNat).pcNext c
  | .sub t n => (s.tallySub t n.toNat).pcNext c
  | .arrive b slot => (s.barArrive b slot).pcNext c
  | .barwait b slot pd sd dl => s.barWaitNow c b slot pd sd dl
  | .post pa => s.rpostNow c pa

/-- Wait as a fence, then go on (R84, R85). -/
def fenceThen (s : State) (c mask : Nat) (k : AfterFence) : State :=
  if s.fenceClear c mask then s.afterFence c k
  else s.modCtx c fun x => { x with wait := some (.fence mask k) }

/-- A fence whose operations have all completed ends. -/
def fenceCheck (s : State) (c : Nat) : State :=
  match (s.ctx c).wait with
  | some (.fence mask k) => if (s.ctx c).td.isNone && s.fenceClear c mask then s.afterFence c k else s
  | _ => s

/-! ### Completion (R82) -/

/-- The end of an operation whose Receipt is posted: its Tally add, its claims, and what waited for it. -/
def opDone (s : State) (c id : Nat) : State :=
  match s.opOf c id with
  | none => s
  | some o =>
    let s := (s.modCtx c fun x => { x with ops := x.ops.filter fun p => p.id != id }).dropRuns c id
    let s := match o.tally with
      | some t => s.tallyAdd t 1
      | none => s
    ((s.endTrans c id).fenceCheck c).promote c

/-- Complete an operation whose data is visible (R82, R26, R284, R286). -/
def finishOp (s : State) (c id : Nat) (count : Bool) : State :=
  match s.opOf c id with
  | none => s
  | some o => match o.rcpt with
    | none => s.opDone c id
    | some va => match s.check c va false false false with
      | .fault code unit d => s.opFault c id code (if code = 6 then unit else unitCode o.unit) d va 0
      | .ok pa => match s.producerPost pa (.op c id) o.seqTaken o.emptyOut (unitCode o.unit) c count with
        | (.done, s) => s.opDone c id
        | (.busy, s) => s.modOp c id fun o => { o with state := .postWait }
        | (.outside, s) => s.opFault c id 5 (unitCode o.unit) 0 va 0

/-- A waiting producer of a context takes its Receipt, if it can now (R284): an operation not yet started, one at
its post, or the context's rpost. -/
def receiptTake (s : State) (c : Nat) : State :=
  match (s.ctx c).wait with
  | some (.rpost pa) => if (s.ctx c).td.isNone then s.rpostNow c pa else s
  | _ =>
    if (s.ctx c).td.isSome then s else
    match (s.ctx c).ops.find? fun o => o.state == .rcptWait || o.state == .postWait with
    | none => s
    | some o => if o.state = .rcptWait then (s.opStart c o.id false).pump else s.finishOp c o.id false

/-- A wait's deadline has come (R108). -/
def deadlineDue (s : State) (dl : Option (Nat × W64)) : Bool :=
  match dl with
  | some (n, v) => reached (s.laneVal n) v
  | none => false

/-- The predicate, scalar and deadline of a wait that may time out. -/
def waitParts : Wait → Option (Fin 8 × Fin 32 × Option (Nat × W64))
  | .tally _ _ pd sd dl => some (pd, sd, dl)
  | .bar _ _ pd sd dl => some (pd, sd, dl)
  | .lwrel pd sd dl => some (pd, sd, dl)
  | .rcpt _ _ pd sd dl => some (pd, sd, dl)
  | _ => none

/-- A wait with a deadline ends with TIMEOUT when its Lane has reached it (R108). -/
def waitDeadline (s : State) (c : Nat) : State :=
  match (s.ctx c).wait.bind waitParts with
  | some (pd, sd, dl) => if s.deadlineDue dl then s.endWait c pd sd timedOut else s
  | none => s

/-- An access of a running operation faults (R87). -/
def kernelFault (s : State) (c id : Nat) (va : W64) (write : Bool) : State :=
  match s.opOf c id with
  | none => s
  | some o =>
    if o.state = .running then
      match s.check c va write false false with
      | .fault code unit d =>
        let inD := fun (d : Desc) => dSpace d == 0 && decide (dBase d ≤ va.toNat)
        let tag := if write then dTag o.dO
          else if inD o.dA then dTag o.dA else if inD o.dB then dTag o.dB else dTag o.dC
        s.opFault c id code (if code = 6 then unit else unitCode o.unit) d va tag
      | .ok _ => s
    else s

end State

open State

/-- WAIT_DEADLINE (R108). -/
def execWaitDeadline (c : CtxId) (s : State) : Host.Outcome State Fault Refusal := .next (s.waitDeadline c)

/-- RECEIPT_TAKE (R284). -/
def execReceiptTake (c : CtxId) (s : State) : Host.Outcome State Fault Refusal := .next (s.receiptTake c)

end Sys2Proof.Machine
end

