-- ==== Sys2Proof/Machine/Hwact.lean ====
section
/-!
DEFINITION. What a hardware action acts on: the PWM bridges and their off level (R305 to R307), STO as the bridges
see it (R367, R368), the launch slots (R66, R429), and the CRC-32 of frames and records.
-/

namespace Sys2Proof.Machine

open Sys2Proof

/-! ### CRC-32 (IEEE 802.3) -/

/-- One bit of the reflected CRC-32. -/
def crcBit (c : W32) : W32 := if c.getLsbD 0 then (c >>> 1) ^^^ 0xEDB88320#32 else c >>> 1

/-- One byte of the CRC-32. -/
def crcByte (c : W32) (b : Byte) : W32 :=
  crcBit (crcBit (crcBit (crcBit (crcBit (crcBit (crcBit (crcBit (c ^^^ b.setWidth 32))))))))

/-- The CRC-32 of some bytes. -/
def crc32 (bs : List Byte) : W32 := ~~~ (bs.foldl crcByte 0xFFFFFFFF#32)

namespace State

/-! ### STO groups and bridges (R367, R368) -/

/-- A bridge of the island. -/
def bridge (s : State) (b : Nat) : Bridge := mget (fun _ => {}) s.island.bridges b

/-- Set a bridge. -/
def setBridge (s : State) (b : Nat) (v : Bridge) : State :=
  { s with island := { s.island with bridges := mset (fun _ => {}) s.island.bridges b v } }

/-- A byte of the Judge configuration in force. -/
def cfgByte (s : State) (a : Nat) : Nat := (mget (fun _ => (0 : Byte)) s.judge.cfg a).toNat

/-- Some bytes of the Judge configuration as a number. -/
def cfgNat (s : State) (a n : Nat) : Nat := ofBytes ((List.range n).map fun i => mget (fun _ => (0 : Byte)) s.judge.cfg (a + i))

/-- Channel A of a group is asserted: the Lemquevin die commands it. -/
def stoA (s : State) (g : Nat) : Bool := bitAt s.judge.cmd g

/-- Channel B of a group is asserted: by the stop line, by the island on its own, or while the island is in reset
(R368). -/
def stoB (s : State) (g : Nat) : Bool :=
  bitAt s.island.stopLine g || bitAt s.island.stoB g || (s.present 5 && s.island.reset)

/-- The STO group of a bridge (BRIDGE_GROUP). -/
def bridgeGroup (s : State) (b : Nat) : Nat := s.cfgByte (0x010 + b) % 4

/-- STO is asserted for a bridge: while either channel of its group is (R367). -/
def stoBridge (s : State) (b : Nat) : Bool := s.stoA (s.bridgeGroup b) || s.stoB (s.bridgeGroup b)

/-! ### Bridges (R305, R306) -/

/-- HALF: values below 300 act as 300. -/
def brHalf (s : State) (b : Nat) : Nat := Nat.max (s.fld (Reg.PWM_BR_CFG_HALF b)) 300

/-- The compare value of a phase. -/
def brCmp (br : Bridge) (p : Nat) : Nat := mget (fun _ => 0) br.cmp p

/-- The high-side command of a phase at a counter value. -/
def brOn (s : State) (b : Nat) (br : Bridge) (p : Nat) : Bool :=
  if s.flag (Reg.PWM_BR_CFG_EDGE b) then decide (br.counter < 2 * brCmp br p) else decide (br.counter < brCmp br p)

/-- The pulse of a side of a phase is emitted: after dead time it is not shorter than MIN_PULSE, and not empty. -/
def pulseOk (s : State) (b : Nat) (br : Bridge) (p : Nat) (high : Bool) : Bool :=
  let len := if high then 2 * brCmp br p else 2 * (s.brHalf b - brCmp br p)
  let full := if high then s.brHalf b ≤ brCmp br p else brCmp br p = 0
  full || decide (s.fld (Reg.PWM_BR_DT_DT b) + Nat.max (s.fld (Reg.PWM_BR_DT_MIN_PULSE b)) 1 ≤ len)

/-- The force bits of a bridge that the pair logic holds while the module stands by (R409). -/
def pairForced (s : State) (b : Nat) : Bool :=
  s.fld Reg.RELAY_PAIR_STAT_STATE != 0 && !s.flag Reg.RELAY_PAIR_STAT_DUTY
    && (if b = 11 then s.flag Reg.RELAY_PAIR_CFG2_BR_MASK11 else bitAt (s.fld Reg.RELAY_PAIR_CFG_BR_MASK) b)

/-- An off cause of R306 that stands for an output (force, trip, STO, EN 0), its Pacer's apart. -/
def offCause (s : State) (b o : Nat) : Bool :=
  bitAt (s.fld (Reg.PWM_BR_FORCE_FORCE b)) o || s.pairForced b || s.flag (Reg.PWM_BR_STAT_TRIP b) || s.stoBridge b
    || !s.flag (Reg.PWM_BR_CFG_EN b) || s.island.reset

/-- The output is at its off level (R305, R306). -/
def outOff (s : State) (b o : Nat) : Bool :=
  s.offCause b o || mget (fun _ => 0) (s.bridge b).driver o == 0 || !bitAt (s.bridge b).live o

/-- The level of an output's pin. -/
def pinLevel (s : State) (b o : Nat) : Bool :=
  let br := s.bridge b
  let pol := bitAt (s.fld (Reg.PWM_BR_CFG_POL b)) o
  if s.outOff b o then pol
  else if bitAt br.isDirect o then bitAt br.direct o
  else
    let high := o % 2 == 0
    ((bitAt br.cmd (o / 2) == high) && s.pulseOk b br (o / 2) high) != pol

/-- A number with the given bits. -/
def bitsWhere (n : Nat) (f : Nat → Bool) : Nat := (List.range n).foldl (fun a i => a + b2n (f i) * 2 ^ i) 0

/-- Settle a bridge after a change: outputs with an off cause wait for their next update, STO and PACER_OFF read as
they stand, the pins take their levels (R306). -/
def settleBridge (s : State) (b : Nat) : State :=
  if s.island.reset then s else
  let br := s.bridge b
  let driven := fun o => mget (fun _ => 0) br.driver o != 0
  let off := !((List.range 6).any driven) || (List.range 6).any fun o => driven o && !bitAt br.upd o
  let s := (s.setFld (Reg.PWM_BR_STAT_STO b) (b2n (s.stoBridge b))).setFld (Reg.PWM_BR_STAT_PACER_OFF b) (b2n off)
  let s := s.setBridge b { br with live := bitsWhere 6 fun o => bitAt br.live o && !s.offCause b o }
  s.setBridge b { s.bridge b with level := bitsWhere 6 (s.pinLevel b) }

/-- Settle every bridge and the STO bits of ISLAND_STAT after a change of STO. -/
def settleSto (s : State) : State :=
  if s.island.reset then s else
  let s := (s.setFld Reg.ISLAND_STAT_STO_A (b2n ((List.range 4).any s.stoA))).setFld Reg.ISLAND_STAT_STO_B
    (b2n ((List.range 4).any s.stoB))
  (List.range 12).foldl settleBridge s

/-- Recompute the commands of every phase from the counter. -/
def recmd (s : State) (b : Nat) : State :=
  let br := s.bridge b
  (s.setBridge b { br with cmd := bitsWhere 3 (s.brOn b br) }).settleBridge b

/-- Every pending compare value of a bridge takes effect. -/
def loadPending (br : Bridge) : Bridge :=
  (List.range 3).foldl (fun br p => match mget (fun _ => none) br.pend p with
    | some v => { br with cmp := mset (fun _ => 0) br.cmp p v, pend := mset (fun _ => none) br.pend p none }
    | none => br) br

/-! ### PWM Cue operations (Table 12-7) -/

/-- Set force bits of a bridge; bits that the pair logic holds stay set (R409). -/
def setForce (s : State) (b v : Nat) : State :=
  (s.setFld (Reg.PWM_BR_FORCE_FORCE b) (if s.pairForced b then 0x3F else v % 64)).settleBridge b

/-- The range of a PWM Cue's operation and target. -/
def pwmArgOk (arg : W32) : Bool :=
  let op := bitsOf (arg.setWidth 64) 8 8
  let t := bitsOf (arg.setWidth 64) 0 7
  ((op == 1 || op == 2) && decide (t < 72)) || (decide (3 ≤ op) && decide (op ≤ 6) && decide (t < 12))

/-- A PWM Cue's operation on the island. -/
def pwmOp (s : State) (op t : Nat) : State :=
  match op with
  | 1 => s.setForce (t / 6) (s.fld (Reg.PWM_BR_FORCE_FORCE (t / 6)) ||| 2 ^ (t % 6))
  | 2 => s.setForce (t / 6) (s.fld (Reg.PWM_BR_FORCE_FORCE (t / 6)) &&& (63 - 2 ^ (t % 6)))
  | 3 => s.setForce t 63
  | 4 => s.setForce t 0
  | 5 => (s.setBridge t { loadPending (s.bridge t) with counter := 0, up := true }).recmd t
  | _ => (s.setBridge t (loadPending (s.bridge t))).recmd t

/-- An STO_B Cue: the island asserts channel B in every group (R368). -/
def stoBCue (s : State) : State := ({ s with island := { s.island with stoB := 15 } } : State).settleSto

/-! ### Launch slots (R66, R429) -/

/-- Byte offset of a launch slot in the NET block. -/
def slotOff (p k : Nat) : Nat := 0x8000 + 0x2000 * p + 0x100 * k

/-- A byte of a launch slot's memory. -/
def slotByte (s : State) (off : Nat) : Byte := mget (fun _ => 0) s.net.slots off

/-- Write bytes into launch-slot memory. `judge` says whether the Judge writes: any other writer marks a
JUDGED_ONLY slot unjudged, the Judge marks it judged (R429). -/
def slotWrite (s : State) (off : Nat) (bs : List Byte) (judge : Bool) : State :=
  let p := (off - 0x8000) / 0x2000
  let k := (off - 0x8000) % 0x2000 / 0x100
  let w := bs.foldl (fun (a : Map Byte × Nat) b => (mset (fun _ => (0 : Byte)) a.1 a.2 b, a.2 + 1)) (s.net.slots, off)
  let s : State := { s with net := { s.net with slots := w.1 } }
  if judge then s.setFld (Reg.NET_LS_CFG_JUDGED p k) 1
  else if s.flag (Reg.NET_LS_CFG_JUDGED_ONLY p k) then s.setFld (Reg.NET_LS_CFG_JUDGED p k) 0 else s

/-- A frame as it leaves a port: padded to 60 bytes, its frame check sequence behind (R429). -/
def wireFrame (bs : List Byte) : List Byte :=
  let b := bs ++ List.replicate (60 - bs.length) 0
  b ++ toBytes 4 (crc32 b).toNat

/-- The module is the standby of a pair (R403, R409). -/
def isStandby (s : State) : Bool := s.fld Reg.RELAY_PAIR_STAT_STATE != 0 && !s.flag Reg.RELAY_PAIR_STAT_DUTY

/-- A context named in RELAY_CTX_MASK (R408). -/
def ctxMasked (s : State) (c : Nat) : Bool := bitAt (s.reg (Reg.RELAY_CTX_MASK (c / 32))).toNat (c % 32)

/-- A masked context that the standby holds in escrow (R408). -/
def heldBack (s : State) (c : Nat) : Bool := s.isStandby && s.ctxMasked c

/-- A FRAME_LAUNCH Cue: the state after, and whether the Cue counts one in MISSED (R66, R409). -/
def frameLaunch (s : State) (p k : Nat) : State × Bool :=
  if s.isStandby then (s, true)
  else if s.flag (Reg.NET_LS_CFG_JUDGED_ONLY p k) && !s.flag (Reg.NET_LS_CFG_JUDGED p k) then (s, true)
  else if !s.flag (Reg.NET_LS_CFG_EN p k) || !s.flag (Reg.NET_PORT_CFG_EN p) then (s, false)
  else
    let len := Nat.min (Nat.max (s.fld (Reg.NET_LS_CFG_LEN p k)) 60) 256
    let s' := s.emit (.frame p (wireFrame ((List.range len).map fun i => s.slotByte (slotOff p k + i))))
    (if s.flag (Reg.NET_LS_CFG_JUDGED_ONLY p k) then s'.setFld (Reg.NET_LS_CFG_JUDGED p k) 0 else s', false)

/-- A camera trigger output goes high for a width in ticks (R52). -/
def camTrigger (s : State) (k width : Nat) : State :=
  { s with lanes := { s.lanes with
      camTrig := mset (fun _ => none) s.lanes.camTrig k (some (s.lanes.ticks + width)) } }

end State

end Sys2Proof.Machine
end

