-- ==== Sys2Proof/Machine/Lanes.lean ====
section
/-!
DEFINITION. Lanes and Cues (02: R40 to R58, R470): the movement of a Lane, the firing of Cues, arming and disarming,
steps, and the commands of the LANE block except the dispatch of fired Cues and the captures.
-/

namespace Sys2Proof.Machine

open Sys2Proof

/-- Insert in a list by an order. -/
def insBy {α : Type} (le : α → α → Bool) (x : α) : List α → List α
  | [] => [x]
  | y :: t => if le x y then x :: y :: t else y :: insBy le x t

/-- A stable sort by insertion. -/
def sortBy {α : Type} (le : α → α → Bool) : List α → List α
  | [] => []
  | x :: t => insBy le x (sortBy le t)

/-- The ceiling of a quotient. -/
def ceilDiv (a b : Nat) : Nat := if b = 0 then 0 else (a + b - 1) / b

/-- The advance of a target: whole part and remainder carried (R54). -/
def advance (target : W64) (acc : Nat) (step : W64) (div : Nat) : W64 × Nat :=
  let a := acc + step.toNat
  (target + BitVec.ofNat 64 (a / div), a % div)

/-- The advance of a repeating target past a Lane value (R54): the target, the remainder, the extra periods. -/
def catchUp (lane target : W64) (acc : Nat) (step : W64) (div : Nat) : W64 × Nat × Nat :=
  let (t, a) := advance target acc step div
  let d := (lane - t).toInt
  if d < 0 ∨ step = 0 then (t, a, 0) else
  let k := ceilDiv ((d.toNat + 1) * div - a) step.toNat
  let b := a + k * step.toNat
  (t + BitVec.ofNat 64 (b / div), b % div, k)

namespace State

/-! ### Parts of the Lane unit -/

/-- A Cue. -/
def cue (s : State) (i : Nat) : Cue := mget (fun _ => {}) s.lanes.cues i

/-- Set a Cue. -/
def setCue (s : State) (i : Nat) (c : Cue) : State :=
  { s with lanes := { s.lanes with cues := mset (fun _ => {}) s.lanes.cues i c } }

/-- What a Lane that follows events keeps. -/
def laneEv (s : State) (n : Nat) : LaneEv := mget (fun _ => {}) s.lanes.ev n

/-- Set it. -/
def setLaneEv (s : State) (n : Nat) (e : LaneEv) : State :=
  { s with lanes := { s.lanes with ev := mset (fun _ => {}) s.lanes.ev n e } }

/-- Set the residue of a time Lane. -/
def setResidue (s : State) (n r : Nat) : State :=
  { s with lanes := { s.lanes with residue := mset (fun _ => 0) s.lanes.residue n r } }

/-- One more in MISSED of a Cue (R54, R56). -/
def cueMissed (s : State) (i k : Nat) : State := s.setCue i { s.cue i with missed := satAdd 16 (s.cue i).missed k }

/-! ### Releases (R253) -/

/-- A JOB_RELEASE: the context's lwrel ends, or the release is held, or it is dropped and counted. The flag says that
the context was undefined. -/
def jobRelease (s : State) (c : Nat) : State × Bool :=
  let s := if (s.ctx c).stage = .undefined then s else s.modCtx c fun x => { x with relAt := some s.uptime }
  let x := s.ctx c
  if x.stage = .undefined then (s, true) else
  match x.wait with
  | some (.lwrel pd sd _) => ((s.endWait c pd sd satisfied).jobBegin c, false)
  | _ =>
    if x.relPend then (s.setCtx c { x with relLost := satAdd 8 x.relLost 1 }, false)
    else (s.setCtx c { x with relPend := true }, false)

/-! ### Firing (R53 to R56) -/

/-- Queue a fired action for its dispatch (R55). -/
def queueFired (s : State) (i : Nat) (c : Cue) : State :=
  { s with lanes := { s.lanes with fired := s.lanes.fired ++ [⟨i, c.action, c.arg⟩] } }

/-- The action of a Cue at its fire (R55, R56): hardware actions at once, the others to the dispatch. -/
def cueAction (s : State) (i : Nat) : State :=
  let c := s.cue i
  let w : W64 := c.arg.setWidth 64
  match c.action with
  | 2 => if s.boot.computeReset then s.cueMissed i 1 else s.queueFired i c
  | 4 => if s.island.reset then s.cueMissed i 1 else s.pwmOp (bitsOf w 8 8) (bitsOf w 0 7)
  | 5 => s.stoBCue
  | 6 =>
    let (s, missed) := s.frameLaunch (bitsOf w 8 3) (bitsOf w 0 5)
    if missed then s.cueMissed i 1 else s
  | 7 => s.camTrigger (bitsOf w 0 3) (bitsOf w 16 16)
  | _ => s.queueFired i c

/-- A Cue after its fire (R54). -/
def cueAfter (s : State) (i : Nat) : State :=
  let c := s.cue i
  if c.rep = 1 then s.setCue i { c with armed := false }
  else
    let (t, a, k) := catchUp (s.laneVal c.lane) c.target c.acc c.step (Nat.max c.div 1)
    s.setCue i { c with target := t, acc := a, missed := satAdd 16 c.missed k,
                        rep := if c.rep = 0 then 0 else c.rep - 1 }

/-- A Cue fires (R53 to R56). -/
def fireCue (late : Bool) (s : State) (i : Nat) : State :=
  ((s.setCue i { s.cue i with late := late }).cueAction i).cueAfter i

/-- The armed Cues of a Lane that satisfy a test on their target, in ascending target order from a base value, ties
in ascending index (R55). -/
def cuesWhere (s : State) (n : Nat) (base : W64) (f : W64 → Bool) : List Nat :=
  let l := s.lanes.cues.filter fun e => e.2.armed && e.2.lane == n && f e.2.target
  (sortBy (fun (a b : Nat × Cue) => decide ((a.2.target - base).toInt < (b.2.target - base).toInt)
    || (a.2.target == b.2.target && decide (a.1 ≤ b.1))) l).map (·.1)

/-- Every lwait on a Lane whose value has been reached ends (R108). -/
def wakeLwait (n : Nat) (s : State) (c : Nat) : State :=
  match (s.ctx c).wait with
  | some (.lane m v pd sd) => if m = n ∧ reached (s.laneVal n) v then s.endWait c pd sd satisfied else s
  | _ => s

/-- A Lane takes a new value with a count of wraps (R40, R42): REVERSE, the Cues it crosses forward, the lwaits. -/
def laneMove (s : State) (n : Nat) (v : W64) (wraps : Int) (late : Bool) : State :=
  let old := s.laneVal n
  let due := if later v old then s.cuesWhere n old fun t => !reached old t && reached v t else []
  let s := (s.setReg (Reg.LANE_VALUE n) v).setFld (Reg.LANE_STAT_REVERSE n) (b2n (later old v))
  let s := s.setReg (Reg.LANE_EPOCH n) (s.reg (Reg.LANE_EPOCH n) + BitVec.ofInt 64 wraps)
  let s := due.foldl (fireCue late) s
  s.ctxIds.foldl (wakeLwait n) s

/-- A Lane moves by a signed amount of Lane units. -/
def laneAdd (s : State) (n : Nat) (d : Int) (late : Bool) : State :=
  let t := (s.laneVal n).toNat + d
  s.laneMove n (BitVec.ofInt 64 t) (t / 2 ^ 64) late

/-- A Lane takes a value that lies less than half its range away. -/
def laneTo (s : State) (n : Nat) (v : W64) : State := s.laneAdd n ((v - s.laneVal n).toInt) false

/-! ### The tick (R40) -/

/-- SRC of a Lane. -/
def laneSrc (s : State) (n : Nat) : Nat := s.fld (Reg.LANE_CFG_SRC n)

/-- The Lane follows a time source. -/
def isTimeLane (s : State) (n : Nat) : Bool := decide (s.laneSrc n < 2)

/-- One tick of an enabled time Lane. -/
def tickTime (s : State) (n : Nat) : State :=
  let res := mget (fun _ => 0) s.lanes.residue n
  let rate := sext 32 (s.fld (Reg.LANE_RATE_RATE n))
  let t : Int := 2 ^ 40 * (s.laneVal n).toNat + res + (s.reg (Reg.LANE_INCR n)).toNat * (2 ^ 40 + rate)
  (s.setResidue n (t % 2 ^ 40).toNat).laneMove n (BitVec.ofInt 64 (t / 2 ^ 40)) (t / 2 ^ 104) false

/-- The fraction of a FRAME_SYNC or PULSE_PHASE Lane at a tick (R46). -/
def tickFraction (s : State) (n : Nat) : State :=
  let e := s.laneEv n
  if e.seen < 2 ∨ e.interval = 0 then s else
  let f := Nat.min (2 ^ 32 * (s.lanes.ticks - e.lastTick) / e.interval) (2 ^ 32 - 1)
  s.laneTo n (BitVec.ofNat 64 (2 ^ 32 * ((s.laneVal n).toNat / 2 ^ 32) + f))

/-- One tick of a Lane. -/
def tickLane (s : State) (n : Nat) : State :=
  if !s.flag (Reg.LANE_CFG_EN n) then s
  else if s.isTimeLane n then s.tickTime n
  else if (s.laneSrc n == 4 || s.laneSrc n == 5) && !s.flag (Reg.LANE_STAT_SRC_LOST n) then s.tickFraction n
  else s

/-- A context's job is charged now (R260): an operation runs on a Heat or an engine, or it is ready to issue. -/
def charged (s : State) (c : Nat) : Bool :=
  let x := s.ctx c
  x.job && (x.ops.any (fun o => o.state == .running && o.pos.isSome) || s.issuable c)

/-- Charge every budget entry with Lane 15 nanoseconds (R260). -/
def chargeJobs (s : State) (ns : Nat) : State :=
  (List.range 64).foldl (fun s b =>
    let c := s.fld (Reg.START_BCFG_CONTEXT b)
    if s.flag (Reg.START_BCFG_EN b) && s.charged c then
      let ch := mget (fun _ => 0) s.starter.charge b + ns
      { s with starter := { s.starter with charge := mset (fun _ => 0) s.starter.charge b ch } }
    else s) s

/-- An always-on tick: SYS_UPTIME, every Lane, the charges of jobs. -/
def laneTick (s : State) : State :=
  let w0 := (s.laneVal 15).toNat / 2 ^ 32
  let s := s.setReg Reg.SYS_UPTIME (s.uptime + 5)
  let s : State := { s with lanes := { s.lanes with ticks := s.lanes.ticks + 1 } }
  let s := (List.range 16).foldl tickLane s
  s.chargeJobs ((2 ^ 32 + (s.laneVal 15).toNat / 2 ^ 32 - w0) % 2 ^ 32)

/-! ### Events of the other Lanes (R43, R45 to R48) -/

/-- A valid event of the source: SRC_LOST clears, RUN reads 1 (R48). -/
def laneAlive (s : State) (n : Nat) : State :=
  (s.setFld (Reg.LANE_STAT_SRC_LOST n) 0).setFld (Reg.LANE_STAT_RUN n) 1

/-- A frame start or a qualified pulse edge (R46). -/
def laneEdge (s : State) (n : Nat) : State :=
  let e := s.laneEv n
  let s := (s.setLaneEv n { e with seen := Nat.min (e.seen + 1) 2, lastTick := s.lanes.ticks,
                                    interval := s.lanes.ticks - e.lastTick }).laneAlive n
  let v := (s.laneVal n).toNat
  s.laneAdd n (2 ^ 32 - (v % 2 ^ 32 : Nat)) false

/-- The unwrapping rule of R47 on `w` bits. -/
def unwrap (seen : Bool) (prev : W64) (w inp : Nat) : W64 :=
  if seen then prev + BitVec.ofInt 64 (sext w (inp % 2 ^ w + 2 ^ w - prev.toNat % 2 ^ w)) else BitVec.ofNat 64 inp

/-- A position word of an ENCODER Lane (R45). -/
def lanePosition (s : State) (n bits word : Nat) : State :=
  let b := if bits = 0 then 32 else bits
  let e := s.laneEv n
  let p := unwrap e.posSeen e.pos b (word % 2 ^ b)
  let s := (s.setLaneEv n { e with pos := p, posSeen := true }).laneAlive n
  s.laneTo n (BitVec.ofNat 64 (p.toNat * 2 ^ (32 - b)))

/-- An event of a Lane's source. Events that the Lane does not follow do nothing. -/
def laneEvent (s : State) (n : Nat) (e : LaneEvent) : State :=
  if !s.flag (Reg.LANE_CFG_EN n) then s else
  let src := s.laneSrc n
  let mode := s.fld (Reg.ENC_CFG_MODE (s.fld (Reg.LANE_CFG_SRC_IDX n)))
  match e with
  | .count back =>
    if src = 2 ∧ mode = 1 then
      let d : Int := (s.reg (Reg.LANE_INCR n)).toNat
      (s.laneAlive n).laneAdd n (if back != s.flag (Reg.LANE_CFG_DIR_INV n) then -d else d) false
    else s
  | .position bits word => if src = 2 ∧ 2 ≤ mode then s.lanePosition n bits word.toNat else s
  | .carrierPeriod =>
    if src = 3 then (s.laneAlive n).laneAdd n (2 ^ 32 - ((s.laneVal n).toNat % 2 ^ 32 : Nat)) false else s
  | .carrierPhase num den =>
    if src = 3 ∧ den ≠ 0 then
      (s.laneAlive n).laneTo n (BitVec.ofNat 64
        (2 ^ 32 * ((s.laneVal n).toNat / 2 ^ 32) + Nat.min (2 ^ 32 * num / den) (2 ^ 32 - 1)))
    else s
  | .frameStart => if src = 4 then s.laneEdge n else s
  | .pulseEdge =>
    if src = 5 then
      let e := s.laneEv n
      if e.seen ≠ 0 ∧ s.lanes.ticks - e.lastTick < s.fld (Reg.LANE_CFG_DEBOUNCE n) then s else s.laneEdge n
    else s

/-- A stream of the Fusion unit departs (R321). -/
def streamDepart (s : State) (k : Nat) : State :=
  let st := s.fld (Reg.FSTR_STAT_STATE k)
  if st = 0 ∨ st = 4 then s else s.setFld (Reg.FSTR_STAT_STATE k) 4

/-- A port reports that a Lane's source has departed (R48), and so do the streams on it (R321). -/
def laneLost (s : State) (n : Nat) : State :=
  if s.flag (Reg.LANE_CFG_EN n) && !s.isTimeLane n then
    let s := (s.setFld (Reg.LANE_STAT_SRC_LOST n) 1).setFld (Reg.LANE_STAT_RUN n) 0
    ((List.range 64).filter fun k => s.fld (Reg.FSTR_CLOCK_SRC_LANE k) == n).foldl streamDepart s
  else s

/-- A GPTP Lane enters holdover (R48). -/
def gptpHoldover (s : State) (n : Nat) : State :=
  if s.flag (Reg.LANE_CFG_EN n) && s.laneSrc n == 1 then
    let d := s.fld (Reg.LANE_CFG_SRC_IDX n)
    let s := s.setFld (Reg.LANE_STAT_HOLDOVER n) 1
    if s.flag (Reg.PTP_DOM_CFG_EN d) then s.setFld (Reg.PTP_DOM_STAT_SYNC_LOST d) 1 else s
  else s

/-! ### LANE_CFG and LANE_VALUE (R43, R44, R60) -/

/-- The highest SRC_IDX of a class of Table 2-1. -/
def srcMax (src : Nat) : Nat :=
  match src with
  | 0 => 0 | 1 => 3 | 2 => 11 | 3 => 11 | _ => 7

/-- The source is present on the variant (R7, R43). -/
def srcPresent (s : State) (src : Nat) : Bool :=
  match src with
  | 1 => s.present 12
  | 2 | 3 => s.present 5
  | 4 => s.present 11
  | _ => true

/-- Another enabled Lane holds a gPTP slot. -/
def slotTaken (s : State) (n d : Nat) : Bool :=
  (List.range 16).any fun m => m != n && s.flag (Reg.LANE_CFG_EN m) && s.laneSrc m == 1
    && s.fld (Reg.LANE_CFG_SRC_IDX m) == d

/-- Every armed Cue of a Lane as if armed now (R44, R53). -/
def evalArmed (s : State) (n : Nat) : State :=
  let v := s.laneVal n
  (s.cuesWhere n v fun t => reached v t).foldl (fun s i =>
    if (s.cue i).pastDrop then s.setCue i { s.cue i with armed := false } else fireCue true s i) s

/-- A write of LANE_CFG (R43, R44, R60). -/
def laneCfg (n : Nat) (v : W32) (s : State) : State :=
  let w := v.setWidth 64
  let en := v.getLsbD 31
  let src := bitsOf w 0 4
  let idx := bitsOf w 8 4
  let was := s.flag (Reg.LANE_CFG_EN n)
  if 6 ≤ src ∨ srcMax src < idx ∨ s.srcPresent src = false ∨ (src = 1 ∧ en ∧ s.slotTaken n idx) then
    s.setFld (Reg.LANE_STAT_CFG_ERR n) 1
  else
    let s := (s.setFld (Reg.LANE_CFG_DEBOUNCE n) (bitsOf w 16 8)).setFld (Reg.LANE_CFG_DIR_INV n) (bitsOf w 15 1)
    let s := if was then s
      else
        let s := if src ≠ s.laneSrc n ∨ idx ≠ s.fld (Reg.LANE_CFG_SRC_IDX n) then
          (s.setFld (Reg.LANE_STAT_SRC_LOST n) 0).setFld (Reg.LANE_STAT_HOLDOVER n) 0 else s
        (s.setFld (Reg.LANE_CFG_SRC n) src).setFld (Reg.LANE_CFG_SRC_IDX n) idx
    let s := s.setFld (Reg.LANE_CFG_EN n) (b2n en)
    let s := s.setFld (Reg.LANE_STAT_RUN n) (b2n (en && !s.flag (Reg.LANE_STAT_SRC_LOST n)))
    if en && !was then ((s.setLaneEv n {}).setResidue n 0).evalArmed n
    else if !en && was && s.laneSrc n == 1 then
      let d := s.fld (Reg.LANE_CFG_SRC_IDX n)
      if s.flag (Reg.PTP_DOM_CFG_EN d) then
        (s.setFld (Reg.PTP_DOM_CFG_EN d) 0).setFld (Reg.PTP_DOM_STAT_CFG_ERR d) 1
      else s
    else s

/-- Reading control space needs any right other than JUDGE (R433). -/
def canRead (s : State) (r : Nat) : Bool := Nat.land (s.standing r) 0x17FF != 0

/-- A control-space read: without standing it is denied and counted (R433, R435). -/
def readBy (s : State) (r off : Nat) (f : State → State) : State :=
  if s.canRead r then f s else (s.deny r 0xD (0xF0000000 + off)).answer r .denied

/-- The key of an epoch latch. -/
def latchKey (r n : Nat) : Nat := 16 * r + n

/-- A 64-bit read of LANE_VALUE (R42). -/
def laneValueRead (r n : Nat) (s : State) : State :=
  let l := mset (fun _ => none) s.lanes.latch (latchKey r n) (some (s.reg (Reg.LANE_EPOCH n)))
  let s : State := { s with lanes := { s.lanes with latch := l } }
  s.answer r .ok (s.laneVal n)

/-- The epoch a requester reads: its latch, else the live count (R42). -/
def epochSeen (s : State) (r n : Nat) : W64 :=
  (mget (fun _ => none) s.lanes.latch (latchKey r n)).getD (s.reg (Reg.LANE_EPOCH n))

/-- A 64-bit read of LANE_EPOCH: the latch is consumed (R42). -/
def laneEpochRead (r n : Nat) (s : State) : State :=
  let v := s.epochSeen r n
  let s : State := { s with lanes := { s.lanes with latch := mset (fun _ => none) s.lanes.latch (latchKey r n) none } }
  s.answer r .ok v

/-- A write of LANE_VALUE: only while EN is 0, and then no update (R44). -/
def laneValueWrite (n : Nat) (v : W64) (s : State) : State :=
  if s.flag (Reg.LANE_CFG_EN n) then s else s.setReg (Reg.LANE_VALUE n) v

/-! ### Steps (R49 to R51) -/

/-- An accepted step: a Lane whose EN is 0 is frozen (R44). -/
def laneStepNow (s : State) (n : Nat) (step : W64) : State :=
  if s.flag (Reg.LANE_CFG_EN n) then s.laneAdd n step.toInt true else s

/-- A write of LANE_STEP (R49). -/
def laneStep (r n : Nat) (step : W64) (s : State) : State :=
  if step.toInt.natAbs ≤ 2 ^ 32 * s.fld (Reg.LANE_STEP_LIM_LIMIT n) then s.laneStepNow n step
  else (s.setFld (Reg.LANE_STAT_JUMP_REFUSED n) 1).incident 7 r 0x100 (BitVec.ofNat 64 n)

/-- Requesters that may give hardware actions (R50, R58). -/
def hwPath (r : Nat) : Bool := decide (r < 18) || r == 34 || r == 35

/-- A write of LANE_STEP_FORCE (R50). -/
def laneForce (n : Nat) (step : W64) (s : State) : State :=
  if s.lanes.cues.any fun e => e.2.armed && e.2.lane == n && decide (4 ≤ e.2.action) then
    s.setFld (Reg.LANE_STAT_STEP_BLOCKED n) 1
  else s.laneStepNow n step

/-! ### Arming and disarming (R57, R58, R470) -/

/-- ARG lies in the ranges of Tables 2-2 and 12-7. -/
def cueArgOk (action : Nat) (arg : W32) : Bool :=
  let w : W64 := arg.setWidth 64
  match action with
  | 1 => bitsOf w 16 16 != 0
  | 4 => pwmArgOk arg
  | 6 => decide (bitsOf w 8 3 < 4)
  | 7 => bitsOf w 16 16 != 0
  | _ => true

/-- The unit an action targets is present (R4, R470). -/
def cueUnit (s : State) (action : Nat) : Bool :=
  match action with
  | 4 => s.present 5
  | 6 => s.present 12
  | 7 => s.present 11
  | _ => true

/-- REPEAT and STEP of an entry (R54, R470). -/
def cueStepOk (rep : Nat) (step : W64) : Bool := rep == 1 || (step != 0 && decide (step.toNat < 2 ^ 63))

/-- The source of an arm as a rank: contexts before ports (R57). -/
def portRank (r : Nat) : Nat := 1000 + r

/-- An arm meets an earlier arm of its index in the same tick: 0 no conflict, 1 it loses, 2 it wins (R57). -/
def armMeets (s : State) (i rank : Nat) : Nat :=
  match mget (fun _ => none) s.lanes.armLast i with
  | some (t, k) => if t ≠ s.lanes.ticks ∨ k = rank then 0 else if k < rank ∨ (k < 1000 ∧ rank < 1000) then 1 else 2
  | none => 0

/-- CUE_STAT of a requester's copy. -/
def cueStat (s : State) (r i err : Nat) (read : Bool) : State :=
  let c := s.cue i
  s.setReg (stg r Reg.CUE_STAT) (BitVec.ofNat 64 (2 ^ 16 * (if read then c.missed else 0) + 2 ^ 8 * err
    + b2n c.late * 4 + b2n c.owner.isSome * 2 + b2n c.armed))

/-- The arm takes its index (R53, R57, R470 steps 6 and 7): the state and ERR. -/
def armTake (s : State) (i rank : Nat) (c : Cue) : State × Nat :=
  match s.armMeets i rank with
  | 1 => (s, 5)
  | m =>
    let s := match mget (fun _ => none) s.lanes.armLast i with
      | some (_, k) => if m = 2 ∧ 1000 ≤ k then s.setFld (Fld.of Reg.CUE_STAT_ERR (k - 1000)) 5 else s
      | none => s
    let s : State := { s with lanes := { s.lanes with
      armLast := mset (fun _ => none) s.lanes.armLast i (some (s.lanes.ticks, rank)) } }
    let s := s.setCue i { c with armed := true }
    if s.flag (Reg.LANE_CFG_EN c.lane) && reached (s.laneVal c.lane) c.target then
      if c.pastDrop then (s.setCue i { c with armed := false }, 4) else (fireCue true s i, 0)
    else (s, 0)

/-- The staged entry of a requester. -/
def stagedCue (s : State) (r : Nat) : Cue :=
  { lane := s.fld (Fld.of Reg.CUE_CFG_LANE r), target := s.reg (stg r Reg.CUE_TARGET)
    action := s.fld (Fld.of Reg.CUE_CFG_ACTION r), arg := (s.reg (stg r Reg.CUE_ARG)).setWidth 32
    step := s.reg (stg r Reg.CUE_STEP), div := s.fld (Fld.of Reg.CUE_DIV_STEP_DIV r)
    rep := s.fld (Fld.of Reg.CUE_CFG_REPEAT r), pastDrop := s.flag (Fld.of Reg.CUE_CFG_PAST_DROP r) }

/-- A hardware action (R58). -/
def hwAction (a : Nat) : Bool := decide (4 ≤ a) && decide (a ≤ 7)

/-- CUE_CMD ARM, in the order of R470. -/
def cueArm (r : Nat) (s : State) : State :=
  let i := s.fld (Fld.of Reg.CUE_SEL_INDEX r)
  let c := s.stagedCue r
  if hwAction c.action && !(hwPath r && s.holds r 6) then
    (s.deny r 6 (0xF0000000 + Reg.CUE_CMD)).cueStat r i 6 false
  else if decide (8 ≤ c.action) || !cueStepOk c.rep c.step then s.cueStat r i 1 false
  else if !s.cueUnit c.action then s.cueStat r i 2 false
  else if !cueArgOk c.action c.arg then s.cueStat r i 1 false
  else if (s.cue i).armed && (s.cue i).owner.isSome && r != 34 && r != 35 then s.cueStat r i 3 false
  else
    let (s, err) := s.armTake i (portRank r) c
    s.cueStat r i err false

/-- CUE_CMD DISARM (R57, R58). -/
def cueDisarm (r : Nat) (s : State) : State :=
  let i := s.fld (Fld.of Reg.CUE_SEL_INDEX r)
  let c := s.cue i
  if c.armed && c.owner.isSome && r != 34 && r != 35 then s.cueStat r i 3 false
  else (s.setCue i { c with armed := false }).cueStat r i 0 false

/-- CUE_CMD READ (R52). -/
def cueRead (r : Nat) (s : State) : State :=
  let i := s.fld (Fld.of Reg.CUE_SEL_INDEX r)
  let c := s.cue i
  let s := s.setReg (stg r Reg.CUE_CFG) (BitVec.ofNat 64
    (2 ^ 16 * c.rep + 2 ^ 12 * c.lane + b2n c.pastDrop * 2 ^ 7 + c.action))
  let s := ((s.setReg (stg r Reg.CUE_TARGET) c.target).setReg (stg r Reg.CUE_STEP) c.step).setReg
    (stg r Reg.CUE_ARG) (c.arg.setWidth 64)
  (s.setReg (stg r Reg.CUE_DIV) (BitVec.ofNat 64 c.div)).cueStat r i 0 true

/-- A verdict sets the target of an armed Cue, as at arm (R362). -/
def cueRetarget (s : State) (i : Nat) (t : W64) : State :=
  let c := s.cue i
  if !c.armed then s else
  let c := { c with target := t, acc := 0 }
  let s := s.setCue i c
  if s.flag (Reg.LANE_CFG_EN c.lane) && reached (s.laneVal c.lane) t then
    if c.pastDrop then s.setCue i { c with armed := false } else fireCue true s i
  else s

/-- A camera trigger output returns low once its width has passed (R52). -/
def camPulseEnd (s : State) (k : Nat) : State :=
  match mget (fun _ => none) s.lanes.camTrig k with
  | some t => if t ≤ s.lanes.ticks then
      { s with lanes := { s.lanes with camTrig := mset (fun _ => none) s.lanes.camTrig k none } } else s
  | none => s

/-! ### Domain slots (R60) -/

/-- A write of PTP_DOM_CFG (R60). -/
def ptpDomCfg (d : Nat) (v : W32) (s : State) : State :=
  let w := v.setWidth 64
  let l := bitsOf w 24 4
  if v.getLsbD 31 && !(s.flag (Reg.LANE_CFG_EN l) && s.laneSrc l == 1 && s.fld (Reg.LANE_CFG_SRC_IDX l) == d) then
    s.setFld (Reg.PTP_DOM_STAT_CFG_ERR d) 1
  else
    let was := s.flag (Reg.PTP_DOM_CFG_EN d)
    let s := s.setReg (Reg.PTP_DOM_CFG d) ((v &&& 0x8FFFFFF0).setWidth 64)
    if v.getLsbD 31 && !was then (s.setFld (Reg.PTP_DOM_STAT_SYNC_SEEN d) 0).setFld (Reg.PTP_DOM_STAT_SYNC_LOST d) 0
    else s

end State

open State

/-- LANE_TICK (R40). -/
def execLaneTick (s : State) : Host.Outcome State Fault Refusal := .next s.laneTick

/-- LANE_SOURCE_EVENT (R43). -/
def execLaneSourceEvent (n : LaneId) (e : LaneEvent) (s : State) : Host.Outcome State Fault Refusal :=
  .next (s.laneEvent n e)

/-- LANE_CFG_WRITE (R43, R44). -/
def execLaneCfgWrite (r : Requester) (n : LaneId) (v : W32) (s : State) : Host.Outcome State Fault Refusal :=
  .next (s.permit r 5 (Reg.LANE_CFG n) (laneCfg n v))

/-- LANE_VALUE_READ (R42). -/
def execLaneValueRead (r : Requester) (n : LaneId) (s : State) : Host.Outcome State Fault Refusal :=
  .next (s.readBy r (Reg.LANE_VALUE n) (laneValueRead r n))

/-- LANE_EPOCH_READ (R42). -/
def execLaneEpochRead (r : Requester) (n : LaneId) (s : State) : Host.Outcome State Fault Refusal :=
  .next (s.readBy r (Reg.LANE_EPOCH n) (laneEpochRead r n))

/-- LANE_STEP (R49). -/
def execLaneStep (r : Requester) (n : LaneId) (step : W64) (s : State) : Host.Outcome State Fault Refusal :=
  .next (s.permit r 5 (Reg.LANE_STEP n) (laneStep r n step))

/-- LANE_STEP_FORCE (R50): from another path than those of R50 it is dropped and counted. -/
def execLaneStepForce (r : Requester) (n : LaneId) (step : W64) (s : State) : Host.Outcome State Fault Refusal :=
  .next (if hwPath r then s.permit r 6 (Reg.LANE_STEP_FORCE n) (laneForce n step)
    else s.deny r 6 (0xF0000000 + Reg.LANE_STEP_FORCE n))

/-- GPTP_HOLDOVER (R48). -/
def execGptpHoldover (n : LaneId) (s : State) : Host.Outcome State Fault Refusal := .next (s.gptpHoldover n)

/-- LANE_SOURCE_LOST (R48). -/
def execLaneSourceLost (n : LaneId) (s : State) : Host.Outcome State Fault Refusal := .next (s.laneLost n)

/-- CAM_TRIGGER_PULSE_END (R52). -/
def execCamTriggerPulseEnd (k : Fin 8) (s : State) : Host.Outcome State Fault Refusal := .next (s.camPulseEnd k)

/-- CUE_ARM (R470). -/
def execCueArm (r : Requester) (s : State) : Host.Outcome State Fault Refusal :=
  .next (s.permit r 5 Reg.CUE_CMD (cueArm r))

/-- CUE_DISARM (R58). -/
def execCueDisarm (r : Requester) (s : State) : Host.Outcome State Fault Refusal :=
  .next (s.permit r 5 Reg.CUE_CMD (cueDisarm r))

/-- CUE_READ (R52). -/
def execCueRead (r : Requester) (s : State) : Host.Outcome State Fault Refusal :=
  .next (s.permit r 5 Reg.CUE_CMD (cueRead r))

/-- PTP_DOM_CFG_WRITE (R60). -/
def execPtpDomCfgWrite (r : Requester) (d : Fin 4) (v : W32) (s : State) : Host.Outcome State Fault Refusal :=
  .next (s.permit r 5 (Reg.PTP_DOM_CFG d) (ptpDomCfg d v))

end Sys2Proof.Machine
end

