-- ==== Sys2Proof/Machine/Bridge.lean ====
section
/-!
DEFINITION. The TSN bridge and network time (R61 to R65, R428, R430, R444): filtering, forwarding, transparent-clock
correction, receive buffers, queues, gates, replication.
-/

namespace Sys2Proof.Machine

open Sys2Proof

/-! ### Frames -/

/-- A big-endian number of some bytes of a frame. -/
def beAt (b : List Byte) (off n : Nat) : Nat := ((b.drop off).take n).foldl (fun a x => 256 * a + x.toNat) 0

/-- A number as big-endian bytes. -/
def toBe (n v : Nat) : List Byte := (toBytes n v).reverse

/-- A frame with some bytes replaced. -/
def putAt (b : List Byte) (off : Nat) (x : List Byte) : List Byte := b.take off ++ x ++ b.drop (off + x.length)

/-- The frame carries a VLAN tag. -/
def tagged (b : List Byte) : Bool := beAt b 12 2 == 0x8100

/-- Where the EtherType behind the VLAN tag stands. -/
def typeOff (b : List Byte) : Nat := if tagged b then 16 else 12

/-- The frame's VID: its tag's, or the port's. -/
def frameVid (b : List Byte) (pvid : Nat) : Nat :=
  if tagged b && beAt b 14 2 % 4096 != 0 then beAt b 14 2 % 4096 else pvid

/-- The frame's priority code point. -/
def framePcp (b : List Byte) : Nat := if tagged b then beAt b 14 1 / 32 else 0

/-- The frame's destination and source addresses. -/
def frameDa (b : List Byte) : Nat := beAt b 0 6
/-- The source address. -/
def frameSa (b : List Byte) : Nat := beAt b 6 6

/-- The sequence number of an R-TAG, if the frame carries one. -/
def rtagOf (b : List Byte) : Option Nat := if beAt b (typeOff b) 2 = 0xF1C1 then some (beAt b (typeOff b + 4) 2) else none

/-- The frame without its R-TAG. -/
def dropRtag (b : List Byte) : List Byte := b.take (typeOff b) ++ b.drop (typeOff b + 6)

/-- The frame with an R-TAG. -/
def addRtag (b : List Byte) (seq : Nat) : List Byte :=
  b.take (typeOff b) ++ toBe 2 0xF1C1 ++ toBe 2 0 ++ toBe 2 seq ++ b.drop (typeOff b)

/-- A PTP message of a frame: where its header stands, and where its UDP checksum stands (R63). -/
def ptpOf (b : List Byte) : Option (Nat × Option Nat) :=
  let t := typeOff b
  if beAt b t 2 = 0x88F7 then some (t + 2, none)
  else
    let u := t + 2 + beAt b (t + 2) 1 % 16 * 4
    let port := beAt b (u + 2) 2
    if beAt b t 2 = 0x0800 ∧ beAt b (t + 11) 1 = 17 ∧ (port = 319 ∨ port = 320) then some (u + 8, some (u + 6)) else none

/-- messageType of a PTP header. -/
def ptpType (b : List Byte) (h : Nat) : Nat := beAt b h 1 % 16
/-- majorSdoId. -/
def ptpSdo (b : List Byte) (h : Nat) : Nat := beAt b h 1 / 16
/-- domainNumber. -/
def ptpDomain (b : List Byte) (h : Nat) : Nat := beAt b (h + 4) 1
/-- sequenceId. -/
def ptpSeq (b : List Byte) (h : Nat) : Nat := beAt b (h + 30) 2
/-- twoStepFlag. -/
def ptpTwoStep (b : List Byte) (h : Nat) : Bool := bitAt (beAt b (h + 6) 1) 1

/-- Event messages: Sync, Delay_Req, Pdelay_Req, Pdelay_Resp. -/
def ptpEvent (b : List Byte) (h : Nat) : Bool := decide (ptpType b h < 4)

/-- Add to correctionField; a UDP checksum becomes 0 (R63, R64). -/
def correct (b : List Byte) (h : Nat) (udp : Option Nat) (c : Int) : List Byte :=
  let v := (sext 64 (beAt b (h + 8) 8) + c) % (2 ^ 64 : Nat)
  let b := putAt b (h + 8) (toBe 8 v.toNat)
  match udp with
  | some u => putAt b u [0, 0]
  | none => b

namespace State

/-! ### Tables (R428, R444) -/

/-- A word of the gate lists and stream tables, by offset in the NET block. -/
def ntab (s : State) (off : Nat) : Nat := (mget (fun _ => (0 : W32)) s.net.tables off).toNat

/-- Set one. -/
def setNtab (s : State) (off v : Nat) : State :=
  { s with net := { s.net with tables := mset (fun _ => (0 : W32)) s.net.tables off (BitVec.ofNat 32 v) } }

/-- Some bits of an entry that stands at an offset. -/
def nbits (s : State) (off lo len : Nat) : Nat :=
  let w := s.ntab (off + lo / 32 * 4) + 2 ^ 32 * s.ntab (off + lo / 32 * 4 + 4)
  w / 2 ^ (lo % 32) % 2 ^ len

/-- Set some bits of one word of an entry. -/
def setNbits (s : State) (off lo len v : Nat) : State :=
  let a := off + lo / 32 * 4
  s.setNtab a (putBits (BitVec.ofNat 64 (s.ntab a)) (lo % 32) len v).toNat

/-- Count up in a 16-bit counter of an entry. -/
def nbump (s : State) (off lo : Nat) : State := s.setNbits off lo 16 (satAdd 16 (s.nbits off lo 16) 1)

/-! ### Gates (R428, R444) -/

/-- The entry of a list that is in force `t` ns into a cycle: its number, counted from `k`. An entry with interval 0
ends the list; the last entry holds until the cycle restarts. -/
def entryAt : List Nat → Nat → Nat → Option Nat → Option Nat
  | [], _, _, last => last
  | i :: r, t, k, last => if i = 0 then last else if t < i then some k else entryAt r (t - i) (k + 1) (some k)

/-- The entry a list has in force at a Lane value, number plus 1; 0 before its base and while it has no cycle. -/
def listEntry (lane base : W64) (cycle : Nat) (intervals : List Nat) : Nat :=
  if cycle = 0 ∨ later base lane then 0
  else match entryAt intervals ((lane - base).toNat / 2 ^ 32 % cycle) 0 none with
    | some k => k + 1
    | none => 0

/-- A port's gate list moves to the entry in force (R428). -/
def gateAdvance (s : State) (p : Nat) : State :=
  let iv := (List.range 256).map fun k => s.ntab (0x6000 + 0x400 * p + 4 * k) % 2 ^ 24
  let k := listEntry (s.laneVal (s.fld (Reg.LAUNCH_CFG_LANE p))) (s.reg (Reg.NET_GATE_BASE p))
    (s.fld (Reg.NET_GATE_CYCLE_ALL p)) iv
  { s with net := { s.net with gateAt := mset (fun _ => 0) s.net.gateAt p k } }

/-- The gate of a traffic class of a port is open. -/
def gateOpen (s : State) (p tc : Nat) : Bool :=
  let k := mget (fun _ => 0) s.net.gateAt p
  !s.flag (Reg.NET_PORT_CFG_GATE_EN p) || s.fld (Reg.NET_GATE_CYCLE_ALL p) == 0 || k == 0
    || bitAt (s.ntab (0x6000 + 0x400 * p + 4 * (k - 1))) (24 + tc)

/-- Offset of a stream gate. -/
def sgOff (g : Nat) : Nat := 0x7800 + 0x10 * g

/-- A stream gate moves to the list entry in force (R444). -/
def sgateAdvance (s : State) (g : Nat) : State :=
  let o := sgOff g
  let n := s.nbits o 16 8
  let b := s.nbits o 8 7
  let iv := (List.range n).map fun k => if b + k < 128 then s.ntab (0x7A00 + 4 * (b + k)) % 2 ^ 24 else 0
  let base := BitVec.ofNat 64 (s.ntab (o + 8) + 2 ^ 32 * s.ntab (o + 12))
  let k := listEntry (s.laneVal (s.nbits o 24 4)) base (s.ntab (o + 4)) iv
  { s with net := { s.net with sgateAt := mset (fun _ => 0) s.net.sgateAt g k } }

/-- The list entry a stream gate has in force, if its list runs. -/
def sgEntry (s : State) (g : Nat) : Option Nat :=
  let k := mget (fun _ => 0) s.net.sgateAt g
  let o := sgOff g
  if k = 0 ∨ s.nbits o 16 8 = 0 ∨ s.ntab (o + 4) = 0 then none else some (s.ntab (0x7A00 + 4 * (s.nbits o 8 7 + k - 1)))

/-- A stream gate lets frames pass. -/
def sgOpen (s : State) (g : Nat) : Bool :=
  s.nbits (sgOff g) 3 1 == 0 && match s.sgEntry g with
    | some e => bitAt e 31
    | none => s.nbits (sgOff g) 1 1 == 1

/-- The internal priority that a gate gives. -/
def sgIpv (s : State) (g : Nat) : Option Nat :=
  match (s.sgEntry g).filter fun e => bitAt e 27 with
  | some e => some (e / 2 ^ 28 % 8)
  | none => if s.nbits (sgOff g) 7 1 = 1 then some (s.nbits (sgOff g) 4 3) else none

/-! ### Filters (R444) -/

/-- PVID of a port: the internal port takes 1. -/
def pvidOf (s : State) (p : Nat) : Nat := if p < 4 then s.fld (Reg.NET_PORT_CFG_PVID p) else 1

/-- A filter matches a frame. -/
def filterHit (s : State) (p : Nat) (b : List Byte) (f : Nat) : Bool :=
  let o := 0x7000 + 0x20 * f
  s.nbits o 96 1 == 1 && bitAt (s.nbits o 64 4) p
    && (s.nbits o 61 1 == 1 || (s.ntab o + 2 ^ 32 * (s.ntab (o + 4) % 2 ^ 16)) == frameDa b)
    && (s.nbits o 60 1 == 1 || s.nbits o 48 12 == frameVid b (s.pvidOf p))
    && (s.nbits o 71 1 == 1 || s.nbits o 68 3 == framePcp b)

/-- What per-stream filtering makes of a frame of an external port: passed, and its internal priority. -/
def filterFrame (s : State) (p : Nat) (b : List Byte) : State × Bool × Nat :=
  match (List.range 64).find? (s.filterHit p b) with
  | none => (s, true, framePcp b)
  | some f =>
    let o := 0x7000 + 0x20 * f
    let g := s.nbits o 72 5
    let sdu := s.nbits o 80 14
    let tooLong := sdu != 0 && decide (sdu < b.length)
    let drop := fun (s : State) (at_ : Nat) => (s.nbump o at_).bump (Reg.NET_PORT_CNT_FILTERED p)
    if tooLong || s.nbits o 98 1 == 1 then
      let s := if tooLong && s.nbits o 97 1 == 1 then s.setNbits o 98 1 1 else s
      (drop s 144, false, 0)
    else if s.nbits o 77 1 == 1 && s.nbits (sgOff g) 0 1 == 1 then
      if s.sgOpen g then (s.nbump o 128, true, (s.sgIpv g).getD (framePcp b))
      else
        let s := if s.nbits (sgOff g) 2 1 = 1 then s.setNbits (sgOff g) 3 1 1 else s
        (drop s 160, false, 0)
    else (s.nbump o 128, true, framePcp b)

/-! ### IEEE 802.1CB (R444) -/

/-- Offset of a replication entry. -/
def cbOff (r : Nat) : Nat := 0x7C00 + 0x20 * r

/-- The lowest enabled entry of a port pair that matches a frame. -/
def cbEntry (s : State) (pair : Nat) (b : List Byte) (pvid : Nat) : Option Nat :=
  ((List.range 16).map (16 * pair + ·)).find? fun r =>
    s.nbits (cbOff r) 0 1 == 1 && s.nbits (cbOff r) 8 24 + 2 ^ 24 * s.nbits (cbOff r) 32 24 == frameDa b
      && s.nbits (cbOff r) 56 12 == frameVid b pvid

/-- HISTORY of an entry. -/
def cbHistory (s : State) (r : Nat) : Nat := Nat.min (Nat.max (s.nbits (cbOff r) 72 6) 1) 32

/-- Set the recovery history of an entry. -/
def setHistory (s : State) (r : Nat) (h : Option Nat) : State :=
  { s with net := { s.net with history := mset (fun _ => none) s.net.history r h } }

/-- Vector recovery of a received sequence number: the frame is accepted. -/
def recover (s : State) (r seq : Nat) : State × Bool :=
  let o := cbOff r
  let n := s.cbHistory r
  match mget (fun _ => none) s.net.history r with
  | none => (((s.setHistory r (some 1)).setNbits o 112 16 seq).nbump o 128, true)
  | some h =>
    let d := sext 16 (65536 + seq - s.nbits o 112 16)
    if (n : Int) ≤ d ∨ d ≤ -(n : Int) then (s.nbump o 176, false)
    else if d ≤ 0 then
      let i := (-d).toNat
      if bitAt h i then (s.nbump o 144, false)
      else (((s.setHistory r (some (h ||| 2 ^ i))).nbump o 160).nbump o 128, true)
    else
      let k := d.toNat
      let lost := ((List.range k).filter fun j => !bitAt h (n - 1 - j)).length
      let s := (List.range lost).foldl (fun s _ => s.nbump o 192) s
      let s := if d = 1 then s else s.nbump o 160
      (((s.setHistory r (some ((h * 2 ^ k + 1) % 2 ^ n))).setNbits o 112 16 seq).nbump o 128, true)

/-- A received frame passes the recovery of its port's pair: the frame that goes on, or none. -/
def recoverFrame (s : State) (p : Nat) (b : List Byte) : State × Option (List Byte) :=
  match rtagOf b, s.cbEntry (p / 2) b (s.pvidOf p) with
  | some seq, some r =>
    if s.nbits (cbOff r) 2 1 = 1 then
      let (s, ok) := s.recover r seq
      (s, if ok then some (dropRtag b) else none)
    else (s, some b)
  | _, _ => (s, some b)

/-- A recovery resets (R444). -/
def cbReset (r : Nat) (s : State) : State :=
  if (mget (fun _ => none) s.net.history r).isSome then (s.setHistory r none).nbump (cbOff r) 208 else s

/-! ### Network time (R61 to R64) -/

/-- The domain slot of a PTP message. -/
def slotOf (s : State) (b : List Byte) (h : Nat) : Option Nat :=
  (List.range 4).find? fun d => s.flag (Reg.PTP_DOM_CFG_EN d) && s.fld (Reg.PTP_DOM_CFG_DOMAIN_NUM d) == ptpDomain b h
    && s.fld (Reg.PTP_DOM_CFG_MAJOR_SDO_ID d) == ptpSdo b h

/-- The Lane on which a message is stamped. -/
def ptpLane (s : State) (b : List Byte) (h : Nat) : Nat := match s.slotOf b h with
  | some d => s.fld (Reg.PTP_DOM_CFG_LANE d)
  | none => 15

/-- A timestamp of the internal port (R61): a full FIFO takes no more. -/
def stampIn (s : State) (b : List Byte) (tx : Bool) : State :=
  match ptpOf b with
  | some (h, _) =>
    match s.slotOf b h with
    | some d =>
      if ptpEvent b h && decide (s.net.ts.length < 64) then
        let mword := BitVec.ofNat 32 (2 ^ 31 + 2 ^ 30 * b2n tx + 2 ^ 28 * d + 2 ^ 24 * ptpType b h + ptpSeq b h)
        { s with net := { s.net with ts := s.net.ts ++ [(mword, s.laneVal (s.ptpLane b h))] } }
      else s
    | none => s
  | none => s

/-- A Sync of a bound domain arrives (R48, R60): reception state, and the end of holdover. -/
def syncSeen (s : State) (p : Nat) (b : List Byte) : State :=
  match ptpOf b with
  | some (h, _) =>
    match s.slotOf b h with
    | some d =>
      if ptpType b h = 0 ∧ bitAt (s.fld (Reg.PTP_DOM_CFG_PORT_MASK d)) p then
        let n := s.fld (Reg.PTP_DOM_CFG_LANE d)
        let s := (s.setFld (Reg.PTP_DOM_STAT_SYNC_SEEN d) 1).setFld (Reg.PTP_DOM_STAT_SYNC_LOST d) 0
        (s.setFld (Reg.PTP_DOM_STAT_LAST_SEQ d) (ptpSeq b h)).setFld (Reg.LANE_STAT_HOLDOVER n) 0
      else s
    | none => s
  | none => s

/-- The correction of a message received on a port, in units of 2^-16 ns: its residence, and the link delay of a Sync
where the ingress port measures it (R63). -/
def corrOf (s : State) (p : Nat) (b : List Byte) (h : Nat) (res : W64) : Int :=
  let delay : Int := if ptpType b h = 0 ∧ p < 4 ∧ bitAt (s.fld Reg.TC_CFG_PDELAY_EN) p
    then (s.reg (Reg.PTP_PDELAY p)).toInt / 2 ^ 16 else 0
  res.toInt / 2 ^ 16 + delay

/-- A forwarded frame as it leaves an external port, corrected (R63, R64). -/
def ptpLeave (s : State) (p q : Nat) (b : List Byte) (res : W64) : State × List Byte :=
  match ptpOf b with
  | none => (s, b)
  | some (h, udp) =>
    if ptpEvent b h then
      let c := s.corrOf p b h res
      if ptpType b h = 0 ∧ ptpTwoStep b h ∧ !bitAt (s.fld Reg.TC_CFG_ONE_STEP) q then
        ({ s with net := { s.net with held := s.net.held ++ [⟨q, ptpSeq b h, ptpDomain b h, ptpSdo b h, c⟩] } }, b)
      else (s, correct b h udp c)
    else if ptpType b h = 8 then
      let same := fun (x : Held) => x.port == q && x.seq == ptpSeq b h && x.domain == ptpDomain b h && x.sdo == ptpSdo b h
      match s.net.held.find? same with
      | some x => ({ s with net := { s.net with held := s.net.held.erase x } }, correct b h udp x.corr)
      | none => (s, b)
    else (s, b)

/-- A held correction expires (R64). -/
def fupExpire (p : Nat) (seq : Nat) (s : State) : State :=
  match s.net.held.find? fun x => x.port == p && x.seq == seq with
  | some x => ({ s with net := { s.net with held := s.net.held.erase x } } : State).bump Reg.TC_STAT_FUP_EXPIRED
  | none => s

/-- A peer-delay exchange ends (R62). -/
def peerDelay (p : Nat) (delay : W64) (s : State) : State :=
  if bitAt (s.fld Reg.TC_CFG_PDELAY_EN) p then s.setReg (Reg.PTP_PDELAY p) delay else s

/-- A 64-bit read of TS_DATA (R61). -/
def tsRead (r : Nat) (s : State) : State :=
  match s.net.ts with
  | (_, v) :: t => ({ s with net := { s.net with ts := t } } : State).answer r .ok v
  | [] => s.answer r .ok 0

/-! ### Queues and launch times (R65) -/

/-- The frames that wait at a port. -/
def queueOf (s : State) (p : Nat) : List Queued := mget (fun _ => []) s.net.queues p

/-- Set them. -/
def setQueue (s : State) (p : Nat) (q : List Queued) : State :=
  { s with net := { s.net with queues := mset (fun _ => []) s.net.queues p q } }

/-- What becomes of the frame at the head of a queue. -/
inductive HeadAct where
  | send | wait | hold | dropAhead | dropLate
  deriving DecidableEq, Repr

/-- MAX_AHEAD in ns. -/
def maxAhead (s : State) (p : Nat) : Nat := 10000000 * Nat.min (Nat.max (s.fld (Reg.LAUNCH_CFG_MAX_AHEAD p)) 1) 214

/-- R65 on a frame at the head of its queue; `due` says that a held frame's launch value has been reached. -/
def headAct (s : State) (p : Nat) (f : Queued) (due : Bool) : HeadAct :=
  let open_ := if s.gateOpen p f.tc then HeadAct.send else .wait
  match f.launch with
  | none => open_
  | some t =>
    if !s.flag (Reg.LAUNCH_CFG_EN p) then open_ else
    let d := (t - s.laneVal (s.fld (Reg.LAUNCH_CFG_LANE p))).toInt
    if 0 < d then (if (2 ^ 32 * s.maxAhead p : Nat) ≤ d then .dropAhead else .hold)
    else if due && f.held then open_
    else if -d ≤ (2 ^ 32 * (1000 * s.fld (Reg.LAUNCH_CFG_LATE_WIN p)) : Nat) then open_
    else .dropLate

/-- Work on the head of a queue until a frame of it stays; fuel bounds the frames. -/
def runQueue : Nat → Bool → Nat → Nat → State → State
  | 0, _, _, _, s => s
  | n + 1, due, p, tc, s =>
    match (s.queueOf p).find? fun f => f.tc == tc with
    | none => s
    | some f =>
      let gone := s.setQueue p ((s.queueOf p).erase f)
      match s.headAct p f due with
      | .send => runQueue n false p tc (gone.emit (.frame p (wireFrame f.data)))
      | .dropAhead => runQueue n false p tc (gone.bump (Reg.LAUNCH_STAT_DROP_AHEAD p))
      | .dropLate => runQueue n false p tc (gone.bump (Reg.LAUNCH_STAT_DROP_LATE p))
      | .wait => s.setQueue p ((s.queueOf p).map fun x => if x = f then { x with held := false } else x)
      | .hold => s.setQueue p ((s.queueOf p).map fun x => if x = f then { x with held := true } else x)

/-- A queue's head is looked at. -/
def queueHead (p tc : Nat) (s : State) : State := runQueue ((s.queueOf p).length + 1) false p tc s

/-- The launch value of a held frame is reached. -/
def launchDue (p tc : Nat) (s : State) : State := runQueue ((s.queueOf p).length + 1) true p tc s

/-- A frame comes to a queue; alone in it, it is at the head. -/
def enqueue (s : State) (p tc : Nat) (launch : Option W64) (b : List Byte) : State :=
  let first := !(s.queueOf p).any fun f => f.tc == tc
  let s := s.setQueue p (s.queueOf p ++ [⟨tc, launch, false, b⟩])
  if first then s.queueHead p tc else s

/-! ### Forwarding (R428, R430) -/

/-- Multicast, broadcast included. -/
def isGroup (b : List Byte) : Bool := bitAt (beAt b 0 1) 0

/-- NET_MAC. -/
def netMac (s : State) : Nat := s.fld Reg.NET_MAC_MAC

/-- The learning table takes a source (R428): 4,096 entries, a full table learns no more. -/
def learnSa (s : State) (p : Nat) (b : List Byte) : State :=
  let vid := frameVid b (s.pvidOf p)
  if bitAt (frameSa b / 2 ^ 40) 0 then s else
  let l := s.net.learn.filter fun e => !(e.mac == frameSa b && e.vid == vid)
  if l.length < 4096 then { s with net := { s.net with learn := l ++ [⟨frameSa b, vid, p⟩] } } else s

/-- An entry of the learning table expires. -/
def ageOut (mac vid : Nat) (s : State) : State :=
  { s with net := { s.net with learn := s.net.learn.filter fun e => !(e.mac == mac && e.vid == vid) } }

/-- External ports in use other than the ingress port. -/
def others (s : State) (p : Nat) : List Nat := (List.range 4).filter fun q => q != p && s.flag (Reg.NET_PORT_CFG_EN q)

/-- The ports a frame goes to; 4 is the internal port (R428). -/
def egress (s : State) (p : Nat) (b : List Byte) : List Nat :=
  let inner := if frameDa b = 2 ^ 48 - 1 then true else p == 4 || s.flag (Reg.NET_PORT_CFG_INT_MC p)
  if isGroup b then s.others p ++ (if inner && p != 4 then [4] else [])
  else if frameDa b = s.netMac then (if p = 4 then [] else [4])
  else match s.net.learn.find? fun e => e.mac == frameDa b && e.vid == frameVid b (s.pvidOf p) with
    | some e => if e.port = p then [] else if e.port = 4 then [4] else (s.others p).filter (· == e.port)
    | none => s.others p

/-- A receive buffer matches a frame (R430). -/
def rxbHit (s : State) (p : Nat) (b : List Byte) (i : Nat) : Bool :=
  let et := s.fld (Reg.NET_RXB_ETYPE_ETYPE i)
  let vid := s.fld (Reg.NET_RXB_CFG_VID i)
  s.flag (Reg.NET_RXB_CFG_EN i) && bitAt (s.fld (Reg.NET_RXB_CFG_PORTS i)) p && frameDa b == s.fld (Reg.NET_RXB_MAC_MAC i)
    && (et == 0 || et == beAt b (typeOff b) 2) && (vid == 0 || vid == frameVid b (s.pvidOf p))

/-- A receive buffer takes a frame: 256 bytes, those past the frame's end left open (assumption 2). -/
def rxbTake (b : List Byte) (s : State) (i : Nat) : State :=
  let open_ := (List.range (256 - b.length)).map fun k => (Config.freeWord s.freeCtr k).setWidth 8
  let bs := (b ++ open_).take 256
  let w := bs.foldl (fun (a : Map Byte × Nat) x => (mset (fun _ => (0 : Byte)) a.1 a.2 x, a.2 + 1))
    (s.net.rxb, 0x4000 + 0x100 * i)
  (({ s with net := { s.net with rxb := w.1 } } : State).rise (Reg.NET_RXB_SEQ_ALL i)).bumpFree

/-- The frame leaves one port: to the internal port at once, to an external one through its queue. -/
def leavePort (p tc : Nat) (launch : Option W64) (res : W64) (b : List Byte) (s : State) (q : Nat) : State :=
  if q = 4 then ((s.syncSeen p b).stampIn b false).emit (.frame 4 b)
  else
    let (s, b) := if p = 4 then (s.stampIn b true, b) else s.ptpLeave p q b res
    s.enqueue q tc launch b

/-- Replication toward a port pair: an R-TAG, and both ports of the pair (R444). -/
def replicate (pvid : Nat) (a : State × List Byte × List Nat) (pair : Nat) : State × List Byte × List Nat :=
  let (s, b, qs) := a
  match s.cbEntry pair b pvid with
  | some r =>
    if s.nbits (cbOff r) 1 1 = 1 ∧ qs.any fun q => q / 2 == pair && q != 4 then
      let seq := s.nbits (cbOff r) 96 16
      let both := [2 * pair, 2 * pair + 1].filter fun q => s.flag (Reg.NET_PORT_CFG_EN q)
      (s.setNbits (cbOff r) 96 16 (seq + 1), addRtag b seq, qs.filter (fun q => q / 2 != pair || q == 4) ++ both)
    else (s, b, qs)
  | none => (s, b, qs)

/-- Forward a frame that has passed its filters. -/
def forward (s : State) (p tc : Nat) (launch : Option W64) (res : W64) (b : List Byte) : State :=
  let s := ((List.range 32).filter (s.rxbHit p b)).foldl (rxbTake b) (s.learnSa p b)
  let qs := s.egress p b
  let inner := qs.filter (· == 4)
  let s := inner.foldl (leavePort p tc launch res b) s
  (List.range 2).foldl (fun s pair =>
    let here := qs.filter fun q => q != 4 && q / 2 == pair
    let (s, c, out) := replicate (s.pvidOf p) (s, b, here) pair
    out.foldl (leavePort p tc launch res c) s) s

/-- A frame arrives on a port of the bridge (R428, R444); port 4 is the internal port. -/
def frameIn (p : Nat) (b : List Byte) (launch : Option W64) (res : W64) (s : State) : State :=
  if !s.present 12 || (decide (p < 4) && !s.flag (Reg.NET_PORT_CFG_EN p)) then s
  else if p = 4 then s.forward 4 (framePcp b) launch res b
  else
    let (s, ok, prio) := s.filterFrame p b
    if !ok then s else
    match s.recoverFrame p b with
    | (s, some b) => s.forward p prio none res b
    | (s, none) => s

/-- A port's gate list advances: frames that wait for a gate are looked at again. -/
def gateStep (p : Nat) (s : State) : State :=
  (List.range 8).foldl (fun s tc => s.queueHead p tc) (s.gateAdvance p)

end State

open State

/-- FUP_TIMEOUT (R64). -/
def execFupTimeout (p : Fin 4) (seq : W16) (s : State) : Host.Outcome State Fault Refusal :=
  .next (s.fupExpire p seq.toNat)

/-- PEER_DELAY (R62). -/
def execPeerDelay (p : Fin 4) (delay : W64) (s : State) : Host.Outcome State Fault Refusal := .next (s.peerDelay p delay)

/-- TS_DATA_READ (R61). -/
def execTsDataRead (r : Requester) (s : State) : Host.Outcome State Fault Refusal :=
  .next (s.readBy r Reg.TS_DATA (tsRead r))

/-- LAUNCH_QUEUE_HEAD (R65). -/
def execLaunchQueueHead (p : Fin 4) (tc : Fin 8) (s : State) : Host.Outcome State Fault Refusal := .next (s.queueHead p tc)

/-- LAUNCH_TIME_REACHED (R65). -/
def execLaunchTimeReached (p : Fin 4) (tc : Fin 8) (s : State) : Host.Outcome State Fault Refusal := .next (s.launchDue p tc)

/-- BRIDGE_FRAME_RECEIVE (R428). -/
def execBridgeFrameReceive (p : Fin 5) (data : List Byte) (launch : Option W64) (res : W64) (s : State) :
    Host.Outcome State Fault Refusal := .next (s.frameIn p data launch res)

/-- LEARNING_AGE_OUT (R428). -/
def execLearningAgeOut (mac : BitVec 48) (vid : BitVec 12) (s : State) : Host.Outcome State Fault Refusal :=
  .next (s.ageOut mac.toNat vid.toNat)

/-- GATE_LIST_ADVANCE (R428). -/
def execGateListAdvance (p : Fin 4) (s : State) : Host.Outcome State Fault Refusal := .next (s.gateStep p)

/-- STREAM_GATE_ADVANCE (R444). -/
def execStreamGateAdvance (g : Fin 32) (s : State) : Host.Outcome State Fault Refusal := .next (s.sgateAdvance g)

/-- RECOVERY_RESET (R444). -/
def execRecoveryReset (r : Fin 32) (s : State) : Host.Outcome State Fault Refusal := .next (s.cbReset r)

end Sys2Proof.Machine
end

