-- ==== Sys2Proof/Machine/PacerAlu.lean ====
section
/-!
DEFINITION. The fixed-point arithmetic of the Pacers (R296, R297): rounding, saturation, roots, the sine and cosine of
a fraction of a turn.
-/

namespace Sys2Proof.Machine

open Sys2Proof

/-- The nearest integer of a quotient, ties to even; the divisor is above 0. -/
def rneDiv (a : Int) (b : Nat) : Int :=
  let q := a / (b : Int)
  let r := a % (b : Int)
  if 2 * r < b then q else if (b : Int) < 2 * r then q + 1 else if q % 2 = 0 then q else q + 1

/-- The Q32 contents: the value saturated, and whether it was (R296). -/
def q32 (v : Int) : W32 × Bool :=
  if 2 ^ 31 ≤ v then (0x7FFFFFFF#32, true) else if v < -2 ^ 31 then (0x80000000#32, true) else (BitVec.ofInt 32 v, false)

/-- The accumulator's saturation (R296). -/
def acc96 (v : Int) : Int × Bool :=
  if 2 ^ 95 - 1 < v then (2 ^ 95 - 1, true) else if v < -(2 ^ 95 - 1) then (-(2 ^ 95 - 1), true) else (v, false)

/-- An integer scaled by a signed power of two, rounded. -/
def scaleRne (v : Int) (s : Int) : Int := if 0 ≤ s then v * 2 ^ s.toNat else rneDiv v (2 ^ (-s).toNat)

/-- The integer square root by bits, from bit `k - 1` down. -/
def sqrtBits : Nat → Nat → Nat → Nat
  | 0, _, r => r
  | k + 1, n, r => let t := r + 2 ^ k
    sqrtBits k n (if t * t ≤ n then t else r)

/-- The nearest integer to the square root of a number below 2^128. -/
def sqrtNear (n : Nat) : Nat :=
  let r := sqrtBits 64 n 0
  if r < n - r * r then r + 1 else r

/-- x/0 is the largest value of x's sign, 0/0 is 0, and both set SAT (R297). -/
def divQ (a b : Int) : W32 × Bool :=
  if b = 0 then (if a = 0 then 0 else if 0 < a then 0x7FFFFFFF#32 else 0x80000000#32, true)
  else q32 (if 0 < b then rneDiv (2 ^ 31 * a) b.toNat else rneDiv (-2 ^ 31 * a) (-b).toNat)

/-- The square root in Q32 (R297). -/
def sqrtQ (a : Int) : W32 × Bool := q32 (sqrtNear (2 ^ 31 * a.toNat) : Nat)

/-- Terms of the sine or cosine series in units of 2^-64: `t` the current term, `k` its power. -/
def trigTerms : Nat → Int → Nat → Int → Int
  | 0, _, _, _ => 0
  | f + 1, x2, k, t => t + trigTerms f x2 (k + 2) (-(t * x2 / 2 ^ 64) / (((k + 1) * (k + 2) : Nat) : Int))

/-- Half of pi in units of 2^-64. -/
def halfPi64 : Int := 28976077832308491370

/-- The sine of a fraction of a quarter turn, in units of 2^-64; the fraction is in units of 2^-30. -/
def sinQuarter (r : Nat) : Int :=
  let x := halfPi64 * r / 2 ^ 30
  trigTerms 16 (x * x / 2 ^ 64) 1 x

/-- The cosine of a fraction of a quarter turn. -/
def cosQuarter (r : Nat) : Int :=
  let x := halfPi64 * r / 2 ^ 30
  trigTerms 16 (x * x / 2 ^ 64) 0 (2 ^ 64)

/-- The sine of an unsigned fraction of a turn, in units of 2^-64. -/
def sinTurn (u : Nat) : Int :=
  let r := u % 2 ^ 30
  match u / 2 ^ 30 % 4 with
  | 0 => sinQuarter r
  | 1 => cosQuarter r
  | 2 => -sinQuarter r
  | _ => -cosQuarter r

/-- The cosine of an unsigned fraction of a turn, in units of 2^-64. -/
def cosTurn (u : Nat) : Int := sinTurn (2 ^ 30 + u)

/-- A content within 2^-27 of a value in units of 2^-64, and whether it saturates: which one is left open (R297;
assumption 2). -/
def nearTrig (ctr i : Nat) (v : Int) : W32 × Bool :=
  q32 (rneDiv v (2 ^ 33) + ((Config.freeNat ctr i % 33 : Nat) : Int) - 16)

/-- The phase of a sine and cosine pair in steps of a 4096th turn (R304): search in the first quadrant. -/
def phaseSearch : Nat → Nat → Int → Int → Nat
  | 0, k, _, _ => k
  | f + 1, k, x, y =>
    let t := k + 2 ^ f
    phaseSearch f (if x * sinQuarter (2 ^ 20 * t) ≤ y * cosQuarter (2 ^ 20 * t) then t else k) x y

/-- The phase of a sine and cosine pair, 0 to 4095. -/
def phase4096 (sine cosine : Int) : Nat :=
  if 0 ≤ sine then
    if 0 < cosine then phaseSearch 10 0 cosine sine else 1024 + phaseSearch 10 0 sine (-cosine)
  else if cosine < 0 then 2048 + phaseSearch 10 0 (-cosine) (-sine)
  else 3072 + phaseSearch 10 0 (-sine) cosine

/-- A hysteresis unit's step (R301): the unit, and whether a switch was suppressed by the limit. -/
def hystStep (h : Hyst) (band : Int) (dwell limit window : Nat) (e : Int) : Hyst × Bool :=
  let b := if band < 0 then 0 else band
  let h := if window ≠ 0 then (if window ≤ h.w + 1 then { h with w := 0, n := 0 } else { h with w := h.w + 1 }) else h
  let want := (!h.s && decide (b < e)) || (h.s && decide (e < -b))
  if 0 < h.d then ({ h with d := h.d - 1 }, false)
  else if want && (limit == 0 || decide (h.n < limit)) then ({ h with s := !h.s, d := dwell, n := h.n + 1 }, false)
  else (h, want)

end Sys2Proof.Machine
end

