-- ==== Sys2Proof/Machine/PacerCheck.lean ====
section
/-!
DEFINITION. Pacer memory, its instructions' encoding (Table 12-2) and the checks of arming and switching (R295).
-/

namespace Sys2Proof.Machine

open Sys2Proof

/-- A Pacer instruction's fields (R297). -/
structure PIns where
  op : Nat
  xd : Nat
  xa : Nat
  xb : Nat
  imm : Nat
  deriving DecidableEq, Repr

/-- The fields of an instruction word. -/
def pIns (w : W32) : PIns :=
  let n := w.toNat
  ⟨n / 2 ^ 26, n / 2 ^ 22 % 16, n / 2 ^ 18 % 16, n / 2 ^ 14 % 16, n % 2 ^ 14⟩

/-- The fields an opcode uses: XD, XA, XB, the width of IMM, and its cycles (Table 12-2). -/
def pForm : Nat → Option (Bool × Bool × Bool × Nat × Nat)
  | 0x00 | 0x01 | 0x18 | 0x39 => some (false, false, false, 0, 1)
  | 0x02 => some (true, false, false, 12, 1)
  | 0x03 => some (false, true, false, 12, 1)
  | 0x04 => some (true, false, false, 14, 1)
  | 0x05 => some (true, false, false, 10, 1)
  | 0x06 | 0x0B | 0x0C => some (true, true, false, 0, 1)
  | 0x08 | 0x09 | 0x0A | 0x0D | 0x0E | 0x0F | 0x11 => some (true, true, true, 0, 1)
  | 0x10 => some (true, true, false, 6, 1)
  | 0x19 => some (false, true, false, 0, 1)
  | 0x1A | 0x1B => some (false, true, false, 10, 1)
  | 0x1C => some (false, true, true, 0, 1)
  | 0x1D => some (true, false, false, 5, 1)
  | 0x20 => some (true, true, true, 0, 34)
  | 0x21 => some (true, true, false, 0, 20)
  | 0x22 => some (true, true, false, 0, 8)
  | 0x28 => some (true, true, false, 2, 1)
  | 0x30 => some (true, true, false, 12, 1)
  | 0x38 => some (false, false, false, 9, 1)
  | _ => none

/-- The cost of an instruction in cycles. -/
def pCost (i : PIns) : Nat := match pForm i.op with
  | some (_, _, _, _, c) => c
  | none => 0

/-- A defined encoding with its unused fields 0 (R295, point 3). -/
def pEncOk (i : PIns) : Bool :=
  match pForm i.op with
  | none => false
  | some (d, a, b, w, _) =>
    (d || i.xd == 0) && (a || i.xa == 0) && (b || i.xb == 0) && decide (i.imm < 2 ^ w)
      && !(i.op == 0x10 && i.imm == 0x20) && !(i.op == 0x22 && i.xd == 15) && !(i.op == 0x30 && decide (9 < i.xd))

/-- The address of an ld or st is one that it may use (Table 12-3). -/
def pAddrOk (i : PIns) : Bool :=
  if i.op = 0x02 then decide (i.imm < 0x44E) || (decide (0x480 ≤ i.imm) && decide (i.imm < 0x4D0))
  else if i.op = 0x03 then decide (i.imm < 0x400) || (decide (0x480 ≤ i.imm) && decide (i.imm < 0x4D0))
  else true

/-- The instruction names a coefficient. -/
def pUsesK (i : PIns) : Bool := i.op == 0x05 || i.op == 0x1A || i.op == 0x1B

namespace State

/-! ### Pacer memory (Table 12-8) -/

/-- A word of Pacer memory. -/
def pmem (s : State) (n w : Nat) : W32 := mget (fun _ => 0) s.island.mem (16384 * n + w)

/-- Set a word of Pacer memory. -/
def setPmem (s : State) (n w : Nat) (v : W32) : State :=
  { s with island := { s.island with mem := mset (fun _ => 0) s.island.mem (16384 * n + w) v } }

/-- An instruction of a program bank. -/
def pFetch (s : State) (n bank pc : Nat) : PIns := pIns (s.pmem n (2048 * bank + pc))

/-- CONTENT of a coefficient. -/
def kContent (s : State) (n bank k : Nat) : W32 := s.pmem n (0x1000 + 0x800 * bank + 2 * k)

/-- The second word of a coefficient: SH and its reserved bits. -/
def kHigh (s : State) (n bank k : Nat) : W32 := s.pmem n (0x1000 + 0x800 * bank + 2 * k + 1)

/-- SH of a coefficient. -/
def kShift (s : State) (n bank k : Nat) : Int := sext 5 (s.kHigh n bank k).toNat

/-- A word of a channel's configuration region. -/
def pCfg (s : State) (n c w : Nat) : W32 := s.pmem n (0x3000 + 0x100 * c + w)

/-- An entry of the input map, of the output map. -/
def inMap (s : State) (n c j : Nat) : W64 := (s.pCfg n c j).setWidth 64

/-- An entry of the output map. -/
def outMap (s : State) (n c j : Nat) : W64 := (s.pCfg n c (0x40 + j)).setWidth 64

/-- The FEAT_SRC byte of a feature slot. -/
def featSrc (s : State) (n c j : Nat) : Nat := (s.pCfg n c (0x50 + j / 4)).toNat / 2 ^ (8 * (j % 4)) % 256

/-- An entry is in use. -/
def mapEn (e : W64) : Bool := bitsOf e 31 1 == 1

/-- KIND of a map entry. -/
def mapKind (e : W64) : Nat := bitsOf e 16 8

/-- INDEX of a map entry. -/
def mapIdx (e : W64) : Nat := bitsOf e 0 16

/-! ### Parts of the island -/

/-- A Pacer. -/
def pacer (s : State) (n : Nat) : Pacer := mget (fun _ => {}) s.island.pacers n

/-- Set a Pacer. -/
def setPacer (s : State) (n : Nat) (p : Pacer) : State :=
  { s with island := { s.island with pacers := mset (fun _ => {}) s.island.pacers n p } }

/-- The key of a channel. -/
def chKey (n c : Nat) : Nat := 4 * n + c

/-- A channel. -/
def chan (s : State) (n c : Nat) : Chan := mget (fun _ => {}) s.island.chans (chKey n c)

/-- Set a channel. -/
def setChan (s : State) (n c : Nat) (x : Chan) : State :=
  { s with island := { s.island with chans := mset (fun _ => {}) s.island.chans (chKey n c) x } }

/-- Change a channel. -/
def modChan (s : State) (n c : Nat) (f : Chan → Chan) : State := s.setChan n c (f (s.chan n c))

/-- A Pacer runs: PACER_STAT.RUN. -/
def pacerRuns (s : State) (n : Nat) : Bool := s.flag (Reg.PACER_STAT_RUN n)

/-- The island is in HOLD (R310). -/
def islandHold (s : State) : Bool := s.flag Reg.ISLAND_STAT_HOLD

/-! ### The checks of R295 -/

/-- The span of a channel from a program counter: up to and including the first HALT, or none. -/
def pSpan (s : State) (n bank : Nat) : Nat → Nat → Option (List (Nat × PIns))
  | 0, _ => none
  | f + 1, pc =>
    if 2048 ≤ pc then none else
    let i := s.pFetch n bank pc
    if i.op = 0 then some [(pc, i)] else (pSpan s n bank f (pc + 1)).map ((pc, i) :: ·)

/-- The entry point of a channel in a program bank. -/
def pEntry (s : State) (n c bank : Nat) : Nat :=
  if bank = 0 then s.fld (Reg.PCH_ENTRY_ENTRY0 n c) else s.fld (Reg.PCH_ENTRY_ENTRY1 n c)

/-- The channels of a mask, ascending. -/
def chans4 (m : Nat) : List Nat := (List.range 4).filter (bitAt m)

/-- STEP_DIV: 0 acts as 1. -/
def pDiv (s : State) (n : Nat) : Nat := Nat.max (s.fld (Reg.PACER_DIV_STEP_DIV n)) 1

/-- STEP of a Pacer. -/
def pStep (s : State) (n : Nat) : W64 := s.reg (Reg.PACER_STEP n)

/-- The Lane of a Pacer. -/
def pLane (s : State) (n : Nat) : Nat := s.fld (Reg.PACER_TIME_LANE n)

/-- PERIOD_NS of a Pacer. -/
def pPeriod (s : State) (n : Nat) : Nat := s.fld (Reg.PACER_TIME_PERIOD_NS n)

/-- Check 1 of R295. -/
def pTimeOk (s : State) (n : Nat) : Bool :=
  let l := s.pLane n
  s.flag (Reg.LANE_CFG_EN l) && s.srcPresent (s.laneSrc l) && decide (1000 ≤ s.pPeriod n)
    && decide (s.pPeriod n ≤ 1000000) && s.pStep n != 0 && decide ((s.pStep n).toNat < 2 ^ 63)
    && (!s.isTimeLane l || decide (2 ^ 32 * s.pPeriod n ≤ (s.pStep n).toNat / s.pDiv n))

/-- An entry of an input map is valid (Table 12-5, Table 12-6). -/
def inOk (e : W64) : Bool :=
  !mapEn e || (bitsOf e 24 7 == 0 && match mapKind e with
    | 1 => decide (mapIdx e < 48)
    | 2 | 3 | 4 | 7 => decide (mapIdx e < 12)
    | 5 => decide (mapIdx e < 8)
    | 6 => bitsOf e 13 3 == 0 && bitsOf e 6 2 == 0
    | _ => false)

/-- An entry of an output map is valid on its own (R305). -/
def outOk (e : W64) : Bool :=
  !mapEn e || (bitsOf e 24 7 == 0 && match mapKind e with
    | 1 => decide (mapIdx e < 36)
    | 2 => decide (mapIdx e < 72)
    | 3 => bitsOf e 15 1 == 0 && bitsOf e 6 2 == 0
    | _ => false)

/-- A FEAT_SRC byte is valid (R300). -/
def featOk (b : Nat) : Bool := decide (b < 0x40) || b == 0xFF

/-- The outputs an entry of an output map claims. -/
def claimsOf (e : W64) : List Nat :=
  if !mapEn e then [] else match mapKind e with
    | 1 => [2 * mapIdx e, 2 * mapIdx e + 1]
    | 2 => [mapIdx e]
    | _ => []

/-- The output-map entries of some channels. -/
def outEntries (s : State) (n m : Nat) : List W64 :=
  (chans4 m).flatMap fun c => (List.range 16).map (s.outMap n c)

/-- The channels whose claims another Pacer holds: in force, and of a change that waits. -/
def claimMask (s : State) (n : Nat) : Nat :=
  if s.pacerRuns n then (s.pacer n).chEn ||| ((s.pacer n).change.map (·.1)).getD 0 else 0

/-- Output-map entries of every other armed Pacer and of the channels checked. -/
def allEntries (s : State) (n m : Nat) : List W64 :=
  s.outEntries n m ++ ((List.range 16).filter (· != n)).flatMap fun k => s.outEntries k (s.claimMask k)

/-- The bridges with a mapped phase. -/
def phaseBridges (es : List W64) : List Nat :=
  es.filterMap fun e => if mapEn e && mapKind e == 1 then some (mapIdx e / 3) else none

/-- No output is claimed twice, and no PWM_DIRECT slot stands on a bridge with a mapped phase (R295, R305). -/
def claimsOk (s : State) (n m : Nat) : Bool :=
  let es := s.allEntries n m
  decide ((es.flatMap claimsOf).Nodup)
    && es.all fun e => !(mapEn e && mapKind e == 2) || !(phaseBridges es).contains (mapIdx e / 6)

/-- The first program counter of some spans at which a test fails. -/
def firstBad (spans : List (List (Nat × PIns))) (ok : List (Nat × PIns) → Nat × PIns → Bool) : Option Nat :=
  spans.findSome? fun l => (l.find? fun e => !ok l e).map (·.1)

/-- A branch goes forward to a target inside the span (R295, point 4). -/
def branchOk (l : List (Nat × PIns)) (e : Nat × PIns) : Bool :=
  e.2.op != 0x30 || (e.2.imm != 0 && decide (e.1 + e.2.imm ≤ (l.getLast?.map (·.1)).getD 0))

/-- The checks of R295 in their order: ERR and ERR_PC of the first failure, or none. -/
def pacerCheck (s : State) (n m pb kb : Nat) : Option (Nat × Nat) :=
  if !s.pTimeOk n then some (1, 0) else
  let spans := (chans4 m).map fun c => s.pSpan n pb 2048 (s.pEntry n c pb)
  if spans.any Option.isNone then some (4, 0) else
  let sp := spans.filterMap id
  match firstBad sp fun _ e => pEncOk e.2 with
  | some pc => some (2, pc)
  | none =>
  match firstBad sp branchOk with
  | some pc => some (3, pc)
  | none =>
  match firstBad sp fun _ e => pAddrOk e.2 with
  | some pc => some (5, pc)
  | none =>
  match firstBad sp fun _ e => !pUsesK e.2 || decide ((s.kHigh n kb e.2.imm).toNat < 32) with
  | some pc => some (6, pc)
  | none =>
    if !(chans4 m).all (fun c => (List.range 64).all fun j => inOk (s.inMap n c j) && featOk (s.featSrc n c j)) then
      some (8, 0)
    else if !(s.outEntries n m).all outOk || !s.claimsOk n m then some (9, 0)
    else if (s.pPeriod n - 150) * 6 / 10 <
        (sp.map fun l => (l.map fun e => pCost e.2).foldl (· + ·) 8).foldl (· + ·) 0 then some (7, 0)
    else none

end State

end Sys2Proof.Machine
end

