-- ==== Sys2Proof/Machine/Pacer.lean ====
section
/-!
DEFINITION. The Pacers at work (R291 to R301, R308 to R313): arming, sample instants, the instructions, mailboxes.
-/

namespace Sys2Proof.Machine

open Sys2Proof

namespace State

/-! ### Drivers of the outputs (R305, R306) -/

/-- Give the claimed outputs of one bridge to a Pacer and take from it those it no longer claims. A fresh arm makes
every output wait for its first update. -/
def driveBridge (n : Nat) (claims direct : List Nat) (fresh : Bool) (s : State) (b : Nat) : State :=
  let br := s.bridge b
  let mine := fun o => claims.contains (6 * b + o)
  let was := fun o => mget (fun _ => 0) br.driver o == n + 1
  if !(List.range 6).any (fun o => mine o || was o) then s else
  let gone := fun o => (mine o || was o) && !(mine o && was o && !fresh)
  let drv := (List.range 6).foldl (fun m o =>
    if mine o then mset (fun _ => 0) m o (n + 1) else if was o then mset (fun _ => 0) m o 0 else m) br.driver
  (s.setBridge b { br with
    driver := drv
    upd := bitsWhere 6 fun o => bitAt br.upd o && !gone o
    live := bitsWhere 6 fun o => bitAt br.live o && !gone o
    isDirect := bitsWhere 6 fun o => if mine o then direct.contains (6 * b + o) else bitAt br.isDirect o && !was o
    }).settleBridge b

/-- Set the outputs that a Pacer drives to those that the maps of some channels claim. -/
def setDrivers (s : State) (n m : Nat) (fresh : Bool) : State :=
  let es := s.outEntries n m
  let direct := es.flatMap fun e => if mapKind e = 2 then claimsOf e else []
  (List.range 12).foldl (driveBridge n (es.flatMap claimsOf) direct fresh) s

/-- The Pacer stops: its outputs go to their off level and its network outputs stop (R295, R312). -/
def pacerOff (s : State) (n : Nat) : State :=
  let s := (s.setFld (Reg.PACER_STAT_RUN n) 0).setFld (Reg.PACER_CTL_EN n) 0
  (s.setPacer n { s.pacer n with change := none, stopping := false, sampled := false, exec := none }).setDrivers n 0 false

/-! ### Arming, stopping and switching (R295) -/

/-- A newly enabled channel: its registers, accumulator and hysteresis units start at 0. -/
def freshChan (n : Nat) (s : State) (c : Nat) : State :=
  s.modChan n c fun x => { x with xs := [], acc := 0, hyst := [], ran := false }

/-- Write CH_EN, KBANK and PBANK of PACER_CTL. -/
def ctlShow (s : State) (n ch pb kb : Nat) : State :=
  ((s.setFld (Reg.PACER_CTL_CH_EN n) ch).setFld (Reg.PACER_CTL_PBANK n) pb).setFld (Reg.PACER_CTL_KBANK n) kb

/-- Channels and banks come into force. -/
def pacerTake (s : State) (n ch pb kb : Nat) (fresh : Bool) : State :=
  let p := s.pacer n
  let new := if fresh then chans4 ch else (chans4 ch).filter fun c => !bitAt p.chEn c
  let s := s.setPacer n { p with chEn := ch, pbank := pb, kbank := kb, change := none }
  let s := new.foldl (freshChan n) s
  ((s.setFld (Reg.PACER_STAT_PBANK_ACT n) pb).setFld (Reg.PACER_STAT_KBANK_ACT n) kb).setDrivers n ch fresh

/-- ERR and ERR_PC of a check. -/
def pacerErr (s : State) (n err pc : Nat) : State :=
  (s.setFld (Reg.PACER_STAT_ERR n) err).setFld (Reg.PACER_STAT_ERR_PC n) pc

/-- A failed check: CH_EN, PBANK and KBANK read back their values in force. -/
def pacerFail (s : State) (n err pc : Nat) : State :=
  let p := s.pacer n
  (s.pacerErr n err pc).ctlShow n p.chEn p.pbank p.kbank

/-- The first instant of an arm (R293). -/
def firstInstant (s : State) (n : Nat) : W64 × Nat :=
  let f := s.reg (Reg.PACER_FIRST n)
  let v := s.laneVal (s.pLane n)
  if reached v f then
    let (t, a, _) := catchUp v f 0 (s.pStep n) (s.pDiv n)
    (t, a)
  else (f, 0)

/-- An arm whose checks have passed. -/
def pacerStart (s : State) (n ch pb kb : Nat) : State :=
  let (t, a) := s.firstInstant n
  let s := s.setPacer n { s.pacer n with next := t, acc := a, last := none, stopping := false, sampled := false, exec := none }
  let s := ((s.setFld (Reg.PACER_STAT_RUN n) 1).setFld (Reg.PACER_STAT_UE n) 0).setFld (Reg.PACER_CTL_EN n) 1
  ((s.pacerErr n 0 0).ctlShow n ch pb kb).pacerTake n ch pb kb true

/-- A write of PACER_CTL (R295, R310). -/
def pacerCtl (n : Nat) (v : W32) (s : State) : State :=
  if s.island.reset || !s.present 5 then s else
  let w := v.setWidth 64
  let ch := bitsOf w 24 4
  let pb := bitsOf w 16 1
  let kb := bitsOf w 17 1
  let p := s.pacer n
  if !v.getLsbD 31 then
    let s := (s.ctlShow n ch pb kb).setFld (Reg.PACER_CTL_EN n) 0
    if s.pacerRuns n then s.setPacer n { p with stopping := true } else s
  else if !s.pacerRuns n || p.stopping then
    match s.pacerCheck n ch pb kb with
    | some (e, pc) => s.pacerFail n e pc
    | none => s.pacerStart n ch pb kb
  else if (ch, pb, kb) = (p.chEn, p.pbank, p.kbank) then
    (s.setPacer n { p with change := none }).ctlShow n ch pb kb
  else if s.islandHold then s.pacerFail n 0xC 0
  else match s.pacerCheck n ch pb kb with
    | some (e, pc) => s.pacerFail n e pc
    | none => ((s.pacerErr n 0 0).ctlShow n ch pb kb).setPacer n { p with change := some (ch, pb, kb) }

/-! ### The update (R305) -/

/-- The compare value of a content. -/
def cmpOf (half : Nat) (x : W32) : Nat :=
  if x.toInt < 0 then 0 else Nat.min half ((2 ^ 30 + x.toNat * half) / 2 ^ 31)

/-- Outputs of a bridge receive an update: those without an off cause follow their commands again (R306). -/
def received (s : State) (b : Nat) (os : List Nat) : State :=
  let br := s.bridge b
  s.setBridge b { br with
    upd := bitsWhere 6 fun o => bitAt br.upd o || os.contains o
    live := bitsWhere 6 fun o => bitAt br.live o || (os.contains o && !s.offCause b o) }

/-- A PWM_PHASE slot's update. -/
def updPhase (s : State) (b p : Nat) (x : W32) : State :=
  let v := cmpOf (s.brHalf b) x
  let br := s.bridge b
  let load := s.fld (Reg.PWM_BR_CFG_LOAD b)
  let br := if load = 1 ∨ load = 2 then { br with pend := mset (fun _ => none) br.pend p (some v) }
    else { br with cmp := mset (fun _ => 0) br.cmp p v, pend := mset (fun _ => none) br.pend p none }
  ((s.setBridge b br).received b [2 * p, 2 * p + 1]).recmd b

/-- A PWM_DIRECT slot's update. -/
def updDirect (s : State) (b o : Nat) (x : W32) : State :=
  let br := s.bridge b
  let br := { br with direct := bitsWhere 6 fun k => if k = o then decide (0 < x.toInt) else bitAt br.direct k }
  ((s.setBridge b br).received b [o]).settleBridge b

/-- One output slot's update. -/
def updSlot (s : State) (e : W64) (x : W32) : State :=
  if !mapEn e then s else
  let i := mapIdx e
  match mapKind e with
  | 1 => s.updPhase (i / 3) (i % 3) x
  | 2 => s.updDirect (i / 6) (i % 6) x
  | 3 => s.slotWrite (slotOff (i / 2 ^ 13 % 4) (i / 2 ^ 8 % 32) + 4 * (i % 64)) (toBytes 4 x.toNat) false
  | _ => s

/-- The shadows of a channel that has run are applied to its outputs (R294). -/
def updChan (n : Nat) (s : State) (c : Nat) : State :=
  let x := s.chan n c
  if !x.ran then s else
  (List.range 16).foldl (fun s j => s.updSlot (s.outMap n c j) (mget (fun _ => 0) x.outs j)) s

/-! ### Latching (R294, R302, R303, R309) -/

/-- A TRIM gain: 0 acts as 1.0 (R388). -/
def trimGain (s : State) (off : Nat) : Nat :=
  let g := (mget (fun _ => (0 : Byte)) s.boot.mint.trim off).toNat + 256 * (mget (fun _ => (0 : Byte)) s.boot.mint.trim (off + 1)).toNat
  if g = 0 then 2 ^ 14 else g

/-- A signed 16-bit TRIM offset. -/
def trimOff (s : State) (off : Nat) : Int :=
  sext 16 ((mget (fun _ => (0 : Byte)) s.boot.mint.trim off).toNat + 256 * (mget (fun _ => (0 : Byte)) s.boot.mint.trim (off + 1)).toNat)

/-- The content of a corrected converter code (R302, R388). -/
def adcContent (s : State) (k code : Nat) : W32 :=
  (q32 (((code : Int) - s.trimOff (0xE0 + 4 * k)) * s.trimGain (0xE2 + 4 * k) * 4 - 2 ^ 31)).1

/-- The value of a sigma-delta sum (R303). -/
def sdContent (s : State) (i sum : Nat) : W32 :=
  let k := Nat.min (Nat.max (s.fld (Reg.SD_CFG_OSR_LOG2 i)) 3) 8
  let rn := 2 ^ (k * if s.flag (Reg.SD_CFG_ORDER i) then 2 else 3)
  (q32 (2 ^ 31 * ((2 * sum : Int) - rn) / rn)).1

/-- The reading of a sigma-delta input in what the instant sees. -/
def sdRead (env : List Reading) (i : Nat) : Option (Nat × Bool) :=
  env.findSome? fun r => match r with
    | .sd j sum ck => if j.val = i then some (sum, ck) else none
    | _ => none

/-- The code of an analog input. -/
def adcRead (env : List Reading) (k : Nat) : Option W16 :=
  env.findSome? fun r => match r with
    | .adc j code => if j.val = k then some code else none
    | _ => none

/-- The carrier counter of a bridge. -/
def carrierRead (env : List Reading) (b : Nat) : Option Nat :=
  env.findSome? fun r => match r with
    | .carrier j n => if j.val = b then some n else none
    | _ => none

/-- The latch of an instant finds an input: a converter code that no reading gives is left open (assumption 2). -/
def adcConvert (env : List Reading) (s : State) (k : Nat) : State :=
  let recent := match mget (fun _ => none) s.island.adc k with
    | some (t, _) => decide ((s.uptime - t).toNat < 150)
    | none => false
  if recent || !bitAt (s.fld Reg.ADC_CFG_EN) k then s else
  let code := (adcRead env k).getD ((Config.freeWord s.freeCtr (0x1000 + k)).setWidth 16)
  { s with island := { s.island with adc := mset (fun _ => none) s.island.adc k (some (s.uptime, code)) } }

/-- Faults an encoder port has reported, its position and its turns. -/
def enc (s : State) (e : Nat) : Encoder := mget (fun _ => {}) s.island.encs e

/-- Set an encoder port. -/
def setEnc (s : State) (e : Nat) (v : Encoder) : State :=
  { s with island := { s.island with encs := mset (fun _ => {}) s.island.encs e v } }

/-- The value an input entry latches, whether it is stale, and what its source stands at for the next latch
(Table 12-5). -/
def inputValue (s : State) (env : List Reading) (e : W64) (seen key : Nat) : W32 × Bool × Nat :=
  let i := mapIdx e
  let x := s.enc i
  let encStale := decide (x.faults ≠ seen) || (s.fld (Reg.ENC_CFG_MODE i) == 2 && x.busy)
  match mapKind e with
  | 1 => match sdRead env i with
    | some (sum, ck) =>
      if s.flag (Reg.SD_CFG_EN i) then (s.sdContent i sum, !ck || s.flag (Reg.SD_STAT_NO_CLOCK i), 0)
      else ((Config.freeWord s.freeCtr key).setWidth 32, !ck || s.flag (Reg.SD_STAT_NO_CLOCK i), 0)
    | none => ((Config.freeWord s.freeCtr key).setWidth 32, s.flag (Reg.SD_STAT_NO_CLOCK i), 0)
  | 2 => (x.pos, encStale, x.faults)
  | 3 => (BitVec.ofInt 32 x.turns, encStale, x.faults)
  | 4 => (x.pos * BitVec.ofNat 32 (Nat.max (s.fld (Reg.ENC_CFG_POLE_PAIRS i)) 1), encStale, x.faults)
  | 5 => match mget (fun _ => none) s.island.adc i with
    | some (_, code) => (if bitAt (s.fld Reg.ADC_CFG_EN) i then s.adcContent i code.toNat else 0, false, 0)
    | none => (0, false, 0)
  | 6 =>
    let b := i / 256 % 32
    let q := s.fld (Reg.NET_RXB_SEQ_ALL b)
    (BitVec.ofNat 32 (ofBytes ((List.range 4).map fun k =>
      mget (fun _ => (0 : Byte)) s.net.rxb (0x4000 + 0x100 * b + 4 * (i % 64) + k))), decide (q = seen), q)
  | 7 =>
    let h := s.brHalf i
    let n := (carrierRead env i).getD (Config.freeNat s.freeCtr key % (if s.flag (Reg.PWM_BR_CFG_EDGE i) then 2 * h else h + 1))
    ((q32 (rneDiv (2 ^ 31 * (n : Int)) (2 * h))).1, false, 0)
  | _ => (0, false, 0)

/-- Latch one input slot of a channel. -/
def latchIn (n c : Nat) (env : List Reading) (s : State) (j : Nat) : State :=
  let e := s.inMap n c j
  if !mapEn e then s else
  let x := s.chan n c
  let (v, st, q) := s.inputValue env e (mget (fun _ => 0) x.seen j) (256 * n + 64 * c + j)
  s.setChan n c { x with ins := mset (fun _ => 0) x.ins j v, seen := mset (fun _ => 0) x.seen j q,
                         stale := if st then x.stale ++ [j] else x.stale }

/-- A reflex binding covers a channel (R165): an engine reports it. -/
def reflexBound (s : State) (n c : Nat) : Bool :=
  (List.range 8).any fun e => s.flag (Reg.SPRINT_ENG_STAT_RX_BOUND e) && s.fld (Reg.SPRINT_ENG_STAT_RX_PACER e) == n
    && bitAt (s.fld (Reg.SPRINT_ENG_STAT_RX_CH_MASK e)) c

/-- The reflex inputs latch (R300). -/
def latchRx (n : Nat) (s : State) (c : Nat) : State :=
  let x := s.chan n c
  let ok := (List.range 4).all fun k => (mget (fun _ => none) x.rxNext k).isSome
  let hold := s.flag (Reg.PCH_CFG_RX_HOLD n c)
  let rxi := (List.range 4).foldl (fun m k => match mget (fun _ => none) x.rxNext k with
    | some v => mset (fun _ => 0) m k v
    | none => if hold then m else mset (fun _ => 0) m k 0) x.rxi
  let s := s.setChan n c { x with rxi := rxi, rxNext := [], rxOk := ok }
  if !ok && s.reflexBound n c then s.bump (Reg.PCH_STAT_RX_MISS n c) else s

/-- The mailbox latches the last commit that took effect 20 ns before the instant or earlier (R309). -/
def latchMbx (n : Nat) (s : State) (c : Nat) : State :=
  let x := s.chan n c
  match x.commits.find? fun m => decide (m.time + 20 ≤ s.uptime.toNat) with
  | some m => s.setChan n c { x with
      mbx := m.words, mbxSeq := m.seq, mbxNew := decide (m.seq ≠ x.mbxSeq)
      commits := x.commits.takeWhile fun k => !decide (k.time + 20 ≤ s.uptime.toNat) }
  | none => s.setChan n c { x with mbxNew := false }

/-- The feature slots are snapshotted (R294, R300). -/
def snapFeat (n : Nat) (s : State) (c : Nat) : State :=
  let x := s.chan n c
  s.setChan n c { x with featSnap := (List.range 64).foldl (fun m j =>
    let b := s.featSrc n c j
    mset (fun _ => 0) m j (if b < 64 then mget (fun _ => 0) x.ins b else mget (fun _ => 0) x.feat j)) [] }

/-- A channel latches at its instant (R294). -/
def latchChan (n : Nat) (env : List Reading) (t : W64) (s : State) (c : Nat) : State :=
  let s := s.modChan n c fun x => { x with stale := [], instant := t }
  let s := (List.range 64).foldl (latchIn n c env) s
  let s := if (s.chan n c).stale.isEmpty then s else s.setFld (Reg.PCH_STAT_STALE n c) 1
  ((s.latchMbx n c).latchRx n c).snapFeat n c

/-- A modulator whose reading carries clock edges is clocked (R302). -/
def sdClocked (s : State) : Reading → State
  | .sd i _ true => s.setFld (Reg.SD_STAT_NO_CLOCK i) 0
  | _ => s

/-- The analog inputs that some channels map. -/
def adcMapped (s : State) (n m : Nat) : List Nat :=
  (List.range 8).filter fun k => (chans4 m).any fun c => (List.range 64).any fun j =>
    mapEn (s.inMap n c j) && mapKind (s.inMap n c j) == 5 && mapIdx (s.inMap n c j) == k

/-- The Lane of a Pacer holds or moves backward (R293): PACER_STAT.SRC_HELD. -/
def srcHeld (s : State) (n : Nat) : Bool :=
  let l := s.pLane n
  !s.flag (Reg.LANE_CFG_EN l) || s.flag (Reg.LANE_STAT_SRC_LOST l) || s.flag (Reg.LANE_STAT_REVERSE l)

/-- The executed instant: the update, a change, the latches (R294, R295, R313). -/
def pacerPeriod (s : State) (n : Nat) (env : List Reading) (t : W64) : State :=
  let p := s.pacer n
  if p.stopping then s.pacerOff n else
  let s := (chans4 p.chEn).foldl (updChan n) s
  let s := match p.change with
    | some (ch, pb, kb) => s.pacerTake n ch pb kb false
    | none => s
  let s := env.foldl sdClocked s
  let m := (s.pacer n).chEn
  let s := (s.adcMapped n m).foldl (adcConvert env) s
  let s := (chans4 m).foldl (latchChan n env t) s
  let s := s.setPacer n { s.pacer n with last := some s.uptime, sampled := true }
  (s.rise (Reg.PACER_PERIODS_COUNT n)).bumpFree

/-- A sample instant (R293, R294). -/
def pacerInstant (n : Nat) (env : List Reading) (s : State) : State :=
  let p := s.pacer n
  let v := s.laneVal (s.pLane n)
  if s.island.reset || !s.pacerRuns n || s.srcHeld n || !reached v p.next then s else
  let (t, a, k) := catchUp v p.next p.acc (s.pStep n) (s.pDiv n)
  let near := match p.last with
    | some l => decide ((s.uptime - l).toNat < s.pPeriod n)
    | none => false
  if near then (s.setPacer n { p with next := t, acc := a }).bump (Reg.PACER_CNT_SKIPPED n) (k + 1)
  else if p.sampled || p.exec.isSome then s
  else ((s.setPacer n { p with next := t, acc := a }).bump (Reg.PACER_CNT_SKIPPED n) k).pacerPeriod n env p.next

/-! ### Execution (R294, R297) -/

/-- The next channel that executes, above or at a number. -/
def nextChan (s : State) (n from_ : Nat) : Option (Nat × Nat) :=
  let p := s.pacer n
  ((chans4 p.chEn).find? fun c => decide (from_ ≤ c)).map fun c => (c, s.pEntry n c p.pbank)

/-- Execution starts at S + 100 ns. -/
def pacerBegin (n : Nat) (s : State) : State :=
  let p := s.pacer n
  if p.sampled then s.setPacer n { p with sampled := false, exec := s.nextChan n 0 } else s

/-- Run the instruction at the program counter of the executing channel, if its opcode is the one named. -/
def pRun (s : State) (n op : Nat) (f : Nat → PIns → State → State) : State :=
  match (s.pacer n).exec with
  | none => s
  | some (c, pc) =>
    let i := s.pFetch n (s.pacer n).pbank pc
    if i.op = op then f c i s else s

/-- Move the program counter on. -/
def pAdvance (n k : Nat) (s : State) : State :=
  let p := s.pacer n
  match p.exec with
  | some (c, pc) => s.setPacer n { p with exec := some (c, pc + k) }
  | none => s

/-- A register X of a channel. -/
def px (s : State) (n c r : Nat) : Int := (mget (fun _ => (0 : W32)) (s.chan n c).xs r).toInt

/-- Write a register X. -/
def setPx (s : State) (n c r : Nat) (v : W32) : State :=
  s.modChan n c fun x => { x with xs := mset (fun _ => 0) x.xs r v }

/-- PCH_STAT.SAT (R296). -/
def setSat (s : State) (n c : Nat) (sat : Bool) : State := if sat then s.setFld (Reg.PCH_STAT_SAT n c) 1 else s

/-- Write a rounded and saturated result. -/
def putPx (s : State) (n c r : Nat) (v : W32 × Bool) : State := (s.setPx n c r v.1).setSat n c v.2

/-- Write the accumulator (R296). -/
def putAcc (s : State) (n c : Nat) (v : Int) : State :=
  let a := acc96 v
  (s.modChan n c fun x => { x with acc := a.1 }).setSat n c a.2

/-- An instruction that writes XD from its operands. -/
def pAlu (n op : Nat) (f : Int → Int → PIns → W32 × Bool) (s : State) : State :=
  s.pRun n op fun c i s => (s.putPx n c i.xd (f (s.px n c i.xa) (s.px n c i.xb) i)).pAdvance n 1

/-- An instruction that adds to the accumulator. -/
def pMac (n op : Nat) (f : State → Nat → PIns → Int) (s : State) : State :=
  s.pRun n op fun c i s => (s.putAcc n c ((s.chan n c).acc + f s c i)).pAdvance n 1

/-- The product of XA and a coefficient in units of 2^-78 (R296). -/
def kProduct (n : Nat) (s : State) (c : Nat) (i : PIns) : Int :=
  let kb := (s.pacer n).kbank
  s.px n c i.xa * (s.kContent n kb i.imm).toInt * 2 ^ (s.kShift n kb i.imm + 16).toNat

/-- What ld reads (Table 12-3). -/
def pLoad (s : State) (n c a : Nat) : W32 :=
  let x := s.chan n c
  if a < 0x400 then s.pmem n (0x2000 + 0x400 * c + a)
  else if a < 0x440 then mget (fun _ => 0) x.ins (a - 0x400)
  else if a < 0x448 then x.mbx.getD (a - 0x440) 0
  else if a < 0x44C then mget (fun _ => 0) x.rxi (a - 0x448)
  else if a = 0x44C then x.instant.setWidth 32
  else if a = 0x44D then (x.instant >>> 32).setWidth 32
  else if a < 0x4C0 then mget (fun _ => 0) x.feat (a - 0x480)
  else mget (fun _ => 0) x.outs (a - 0x4C0)

/-- What st writes (Table 12-3). -/
def pStore (s : State) (n c a : Nat) (v : W32) : State :=
  if a < 0x400 then s.setPmem n (0x2000 + 0x400 * c + a) v
  else if a < 0x4C0 then s.modChan n c fun x => { x with feat := mset (fun _ => 0) x.feat (a - 0x480) v }
  else s.modChan n c fun x => { x with outs := mset (fun _ => 0) x.outs (a - 0x4C0) v }

/-- An output that a channel drives is held off by force, trip or STO (Table 12-4). -/
def chForced (s : State) (n c : Nat) : Bool :=
  ((List.range 16).flatMap fun j => claimsOf (s.outMap n c j)).any fun o =>
    bitAt (s.fld (Reg.PWM_BR_FORCE_FORCE (o / 6))) (o % 6) || s.flag (Reg.PWM_BR_STAT_TRIP (o / 6)) || s.stoBridge (o / 6)

/-- A branch condition (Table 12-4). -/
def pCond (s : State) (n c cond : Nat) (a : Int) : Bool :=
  match cond with
  | 0 => true
  | 1 => decide (a < 0)
  | 2 => decide (0 ≤ a)
  | 3 => a == 0
  | 4 => a != 0
  | 5 => (s.chan n c).mbxNew
  | 6 => (s.chan n c).rxOk
  | 7 => !(s.chan n c).stale.isEmpty
  | 8 => s.islandHold
  | _ => s.chForced n c

/-- One hysteresis step of a channel (R301). -/
def pHyst (n c : Nat) (i : PIns) (s : State) : State :=
  let u := i.imm % 4
  let w := (s.pCfg n c (0x60 + 2 * u + 1)).toNat
  let h := mget (fun _ => {}) (s.chan n c).hyst u
  let (h, lim) := hystStep h (s.pCfg n c (0x60 + 2 * u)).toInt (w % 256) (w / 256 % 256) (w / 65536) (s.px n c i.xa)
  let s := s.modChan n c fun x => { x with hyst := mset (fun _ => {}) x.hyst u h }
  let s := if lim then s.setFld (Reg.PCH_STAT_HYST_LIM n c) 1 else s
  s.setPx n c i.xd (if h.s then 0x7FFFFFFF#32 else 0x80000000#32)

/-- The words of the state region at a halt (Table 12-8). -/
def haltWords (s : State) (n c : Nat) : List (Nat × W32) :=
  let x := s.chan n c
  let acc := (BitVec.ofInt 128 x.acc).toNat
  (List.range 64).map (fun j => (j, mget (fun _ => 0) x.ins j))
    ++ (List.range 16).map (fun j => (0x40 + j, mget (fun _ => 0) x.outs j))
    ++ (List.range 64).map (fun j => (0x50 + j, mget (fun _ => 0) x.feat j))
    ++ (List.range 4).map (fun j => (0x90 + j, mget (fun _ => 0) x.rxi j))
    ++ (List.range 8).map (fun j => (0x94 + j, x.mbx.getD j 0))
    ++ (List.range 16).map (fun j => (0xA0 + j, mget (fun _ => 0) x.xs j))
    ++ (List.range 4).map (fun j => (0xB0 + j, BitVec.ofNat 32 (acc / 2 ^ (32 * j))))
    ++ (List.range 4).flatMap fun u =>
      let h := mget (fun _ => {}) x.hyst u
      [(0xB4 + 4 * u, BitVec.ofNat 32 (b2n h.s)), (0xB5 + 4 * u, BitVec.ofNat 32 h.d),
       (0xB6 + 4 * u, BitVec.ofNat 32 h.n), (0xB7 + 4 * u, BitVec.ofNat 32 h.w)]

/-- HALT ends a channel's execution for the period. -/
def pHalt (n : Nat) (c : Nat) (s : State) : State :=
  let ws := s.haltWords n c
  let s := s.modChan n c fun x => { x with ran := true, snap := ws.foldl (fun m e => mset (fun _ => 0) m e.1 e.2) [] }
  s.setPacer n { s.pacer n with exec := s.nextChan n (c + 1) }

/-! ### Mailboxes (R308, R309) -/

/-- A commit takes effect. -/
def mbxTake (s : State) (n c : Nat) (ws : List W32) : State :=
  let s := s.rise (Reg.PCH_MBX_SEQ_SEQ n c)
  let q := BitVec.ofNat 32 (s.fld (Reg.PCH_MBX_SEQ_SEQ n c))
  s.modChan n c fun x => { x with commits := { time := s.uptime.toNat, seq := q, words := ws } :: x.commits }

/-- A commit is rejected. -/
def mbxReject (s : State) (n c : Nat) : State := s.setFld (Reg.PCH_STAT_MBX_REJ n c) 1

/-- A write of PCH_MBX_CMT (R308, R310). -/
def mbxCommit (r n c : Nat) (v : W32) (s : State) : State :=
  if s.island.reset || !s.present 5 || !v.getLsbD 0 then s else
  let src := s.fld (Reg.PCH_MBX_CFG_SRC n c)
  if src = 1 ∨ src = 2 ∨ s.islandHold then s.mbxReject n c
  else s.mbxTake n c ((List.range 8).map fun j => (s.reg (stg r (Reg.PCH_MBX_DATA n c j))).setWidth 32)

/-- The Judge commits to a mailbox (R27, R308). -/
def mbxJudge (s : State) (n c : Nat) (ws : List W32) : State :=
  if s.island.reset then s
  else if s.fld (Reg.PCH_MBX_CFG_SRC n c) = 2 then s.mbxTake n c ws else s.mbxReject n c

/-- The feed engine reads the record a post announces (R285, R308). -/
def mbxFeed (n c : Nat) (s : State) : State :=
  let w := s.fld (Reg.PCH_MBX_CFG_WIN n c)
  let pa := s.rcptAddr w (s.fld (Reg.PCH_MBX_CFG_RCPT n c))
  let src := s.fld (Reg.PCH_FEED_ADDR_ADDR n c) * 32
  if s.island.reset || s.boot.computeReset || s.fld (Reg.PCH_MBX_CFG_SRC n c) != 1 || s.rcptWin pa != some w
    || !s.isVdHome (src / 65536) || s.poisonedAt src || s.movingAt src then s else
  let st := rcptState (s.rcptWord pa)
  if s.overMode w && st == 0 then s.bump (Reg.PCH_STAT_FEED_SKIP n c)
  else if !s.overMode w && st != 1 then s
  else
    let ws := (List.range 8).map fun j => BitVec.ofNat 32 (s.natAt (src + 4 * j) 4)
    let s := if s.overMode w then s else (s.collectWord pa).2
    if s.islandHold then s.mbxReject n c else s.mbxTake n c ws

/-! ### Memory errors (R312) -/

/-- An error in Pacer memory. -/
def pacerEcc (n : Nat) (uncorrectable : Bool) (s : State) : State :=
  if s.island.reset then s
  else if uncorrectable then (s.setFld (Reg.PACER_STAT_UE n) 1).pacerOff n
  else s.bump (Reg.PACER_CNT_CE_COUNT n)

end State

open State

/-- PACER_ARM (R295). -/
def execPacerArm (r : Requester) (n : Fin 16) (v : W32) (s : State) : Host.Outcome State Fault Refusal :=
  .next (s.permit r 4 (Reg.PACER_CTL n) (pacerCtl n v))

/-- PACER_STOP (R295). -/
def execPacerStop (r : Requester) (n : Fin 16) (v : W32) (s : State) : Host.Outcome State Fault Refusal :=
  .next (s.permit r 4 (Reg.PACER_CTL n) (pacerCtl n v))

/-- PACER_SWITCH (R295). -/
def execPacerSwitch (r : Requester) (n : Fin 16) (v : W32) (s : State) : Host.Outcome State Fault Refusal :=
  .next (s.permit r 4 (Reg.PACER_CTL n) (pacerCtl n v))

/-- PACER_SAMPLE_INSTANT (R294). -/
def execPacerSampleInstant (n : Fin 16) (env : List Reading) (s : State) : Host.Outcome State Fault Refusal :=
  .next (s.pacerInstant n env)

/-- PACER_EXECUTION_START (R294). -/
def execPacerExecutionStart (n : Fin 16) (s : State) : Host.Outcome State Fault Refusal := .next (s.pacerBegin n)

/-- PACER_ECC_ERROR (R312). -/
def execPacerEccError (n : Fin 16) (uncorrectable : Bool) (s : State) : Host.Outcome State Fault Refusal :=
  .next (s.pacerEcc n uncorrectable)

/-- MAILBOX_COMMIT (R308). -/
def execMailboxCommit (r : Requester) (n : Fin 16) (c : Fin 4) (v : W32) (s : State) : Host.Outcome State Fault Refusal :=
  .next (s.permit r 4 (Reg.PCH_MBX_CMT n c) (mbxCommit r n c v))

/-- MAILBOX_FEED (R308). -/
def execMailboxFeed (n : Fin 16) (c : Fin 4) (s : State) : Host.Outcome State Fault Refusal := .next (s.mbxFeed n c)

/-- halt (R297). -/
def execPacerHalt (n : Fin 16) (s : State) : Host.Outcome State Fault Refusal :=
  .next (s.pRun n 0x00 fun c _ s => s.pHalt n c)

/-- nop (R297). -/
def execPacerNop (n : Fin 16) (s : State) : Host.Outcome State Fault Refusal :=
  .next (s.pRun n 0x01 fun _ _ s => s.pAdvance n 1)

/-- ld (R298). -/
def execPacerLd (n : Fin 16) (s : State) : Host.Outcome State Fault Refusal :=
  .next (s.pRun n 0x02 fun c i s => (s.setPx n c i.xd (s.pLoad n c i.imm)).pAdvance n 1)

/-- st (R298). -/
def execPacerSt (n : Fin 16) (s : State) : Host.Outcome State Fault Refusal :=
  .next (s.pRun n 0x03 fun c i s => (s.pStore n c i.imm (BitVec.ofInt 32 (s.px n c i.xa))).pAdvance n 1)

/-- ldi (R297). -/
def execPacerLdi (n : Fin 16) (s : State) : Host.Outcome State Fault Refusal :=
  .next (s.pAlu n 0x04 fun _ _ i => q32 (2 ^ 18 * sext 14 i.imm))

/-- ldk (R297). -/
def execPacerLdk (n : Fin 16) (s : State) : Host.Outcome State Fault Refusal :=
  .next (s.pRun n 0x05 fun c i s => (s.setPx n c i.xd (s.kContent n (s.pacer n).kbank i.imm)).pAdvance n 1)

/-- mov (R297). -/
def execPacerMov (n : Fin 16) (s : State) : Host.Outcome State Fault Refusal :=
  .next (s.pAlu n 0x06 fun a _ _ => q32 a)

/-- add (R297). -/
def execPacerAdd (n : Fin 16) (s : State) : Host.Outcome State Fault Refusal :=
  .next (s.pAlu n 0x08 fun a b _ => q32 (a + b))

/-- sub (R297). -/
def execPacerSub (n : Fin 16) (s : State) : Host.Outcome State Fault Refusal :=
  .next (s.pAlu n 0x09 fun a b _ => q32 (a - b))

/-- wsub: it wraps (R296, R297). -/
def execPacerWsub (n : Fin 16) (s : State) : Host.Outcome State Fault Refusal :=
  .next (s.pAlu n 0x0A fun a b _ => (BitVec.ofInt 32 (a - b), false))

/-- neg (R297). -/
def execPacerNeg (n : Fin 16) (s : State) : Host.Outcome State Fault Refusal :=
  .next (s.pAlu n 0x0B fun a _ _ => q32 (-a))

/-- abs (R297). -/
def execPacerAbs (n : Fin 16) (s : State) : Host.Outcome State Fault Refusal :=
  .next (s.pAlu n 0x0C fun a _ _ => q32 a.natAbs)

/-- min (R297). -/
def execPacerMin (n : Fin 16) (s : State) : Host.Outcome State Fault Refusal :=
  .next (s.pAlu n 0x0D fun a b _ => q32 (Min.min a b))

/-- max (R297). -/
def execPacerMax (n : Fin 16) (s : State) : Host.Outcome State Fault Refusal :=
  .next (s.pAlu n 0x0E fun a b _ => q32 (Max.max a b))

/-- mul (R297). -/
def execPacerMul (n : Fin 16) (s : State) : Host.Outcome State Fault Refusal :=
  .next (s.pAlu n 0x0F fun a b _ => q32 (rneDiv (a * b) (2 ^ 31)))

/-- shift (R297). -/
def execPacerShift (n : Fin 16) (s : State) : Host.Outcome State Fault Refusal :=
  .next (s.pAlu n 0x10 fun a _ i => q32 (scaleRne a (sext 6 i.imm)))

/-- clamp (R297). -/
def execPacerClamp (n : Fin 16) (s : State) : Host.Outcome State Fault Refusal :=
  .next (s.pRun n 0x11 fun c i s =>
    (s.putPx n c i.xd (q32 (Min.min (Max.max (s.px n c i.xd) (s.px n c i.xa)) (s.px n c i.xb)))).pAdvance n 1)

/-- aclr (R297). -/
def execPacerAclr (n : Fin 16) (s : State) : Host.Outcome State Fault Refusal :=
  .next (s.pRun n 0x18 fun c _ s => (s.putAcc n c 0).pAdvance n 1)

/-- ald (R297). -/
def execPacerAld (n : Fin 16) (s : State) : Host.Outcome State Fault Refusal :=
  .next (s.pRun n 0x19 fun c i s => (s.putAcc n c (2 ^ 47 * s.px n c i.xa)).pAdvance n 1)

/-- mac (R297). -/
def execPacerMac (n : Fin 16) (s : State) : Host.Outcome State Fault Refusal :=
  .next (s.pMac n 0x1A (kProduct n))

/-- msu (R297). -/
def execPacerMsu (n : Fin 16) (s : State) : Host.Outcome State Fault Refusal :=
  .next (s.pMac n 0x1B fun s c i => -kProduct n s c i)

/-- macx (R297). -/
def execPacerMacx (n : Fin 16) (s : State) : Host.Outcome State Fault Refusal :=
  .next (s.pMac n 0x1C fun s c i => 2 ^ 16 * (s.px n c i.xa * s.px n c i.xb))

/-- ast (R297). -/
def execPacerAst (n : Fin 16) (s : State) : Host.Outcome State Fault Refusal :=
  .next (s.pRun n 0x1D fun c i s =>
    (s.putPx n c i.xd (q32 (scaleRne (s.chan n c).acc (sext 5 i.imm - 47)))).pAdvance n 1)

/-- div (R297). -/
def execPacerDiv (n : Fin 16) (s : State) : Host.Outcome State Fault Refusal :=
  .next (s.pAlu n 0x20 fun a b _ => divQ a b)

/-- sqrt (R297). -/
def execPacerSqrt (n : Fin 16) (s : State) : Host.Outcome State Fault Refusal :=
  .next (s.pAlu n 0x21 fun a _ _ => sqrtQ a)

/-- sincos (R297): each within 2^-27, which one is left open (assumption 2). -/
def execPacerSincos (n : Fin 16) (s : State) : Host.Outcome State Fault Refusal :=
  .next (s.pRun n 0x22 fun c i s =>
    let u := (BitVec.ofInt 32 (s.px n c i.xa)).toNat
    (((s.putPx n c i.xd (nearTrig s.freeCtr 0 (sinTurn u))).putPx n c (i.xd + 1) (nearTrig s.freeCtr 1 (cosTurn u))).bumpFree).pAdvance n 1)

/-- hyst (R301). -/
def execPacerHyst (n : Fin 16) (s : State) : Host.Outcome State Fault Refusal :=
  .next (s.pRun n 0x28 fun c i s => (s.pHyst n c i).pAdvance n 1)

/-- br (R299). -/
def execPacerBr (n : Fin 16) (s : State) : Host.Outcome State Fault Refusal :=
  .next (s.pRun n 0x30 fun c i s => s.pAdvance n (if s.pCond n c i.xd (s.px n c i.xa) then i.imm else 1))

/-- setf (R297). -/
def execPacerSetf (n : Fin 16) (s : State) : Host.Outcome State Fault Refusal :=
  .next (s.pRun n 0x38 fun c i s =>
    let f := s.fld (Reg.PCH_STAT_FLAGS n c)
    let m := i.imm % 256
    (s.setFld (Reg.PCH_STAT_FLAGS n c) (if bitAt i.imm 8 then f ||| m else f &&& (255 - m))).pAdvance n 1)

/-- evt (R297). -/
def execPacerEvt (n : Fin 16) (s : State) : Host.Outcome State Fault Refusal :=
  .next (s.pRun n 0x39 fun c _ s =>
    (if s.flag (Reg.PCH_CFG_EVT_EN n c) then s.tallyAdd (s.fld (Reg.PCH_CFG_EVT_TALLY n c)) 1 else s).pAdvance n 1)

end Sys2Proof.Machine
end

