-- ==== Sys2Proof/Machine/Island.lean ====
section
/-!
DEFINITION. The Reflex island around the Pacers (R291, R302 to R306, R310): drive inputs, encoders, carriers, HOLD,
the island's reset, the Pacer memory window.
-/

namespace Sys2Proof.Machine

open Sys2Proof

namespace State

/-! ### Sigma-delta inputs (R302, R303) -/

/-- A bridge trips (R303): PWM_BR_STAT.TRIP is latched and its outputs go off. -/
def sdTrip (k v : Nat) (s : State) : State :=
  let x := sext 16 v
  if s.island.reset || !s.flag (Reg.SD_CFG_EN k) || !s.flag (Reg.SD_CFG_TRIP_EN k)
    || !(decide (sext 16 (s.fld (Reg.SD_TRIP_HI k)) < x) || decide (x < sext 16 (s.fld (Reg.SD_TRIP_LO k)))) then s
  else
    let s := s.setFld (Reg.SD_STAT_TRIPPED k) 1
    let b := s.fld (Reg.SD_CFG_TRIP_BR k)
    if b < 12 then (s.setFld (Reg.PWM_BR_STAT_TRIP b) 1).settleBridge b else s

/-- No modulator clock edge for 1 µs (R302). -/
def sdNoClock (k : Nat) (s : State) : State := if s.island.reset then s else s.setFld (Reg.SD_STAT_NO_CLOCK k) 1

/-! ### Encoder ports (R304) -/

/-- An encoder port departs: the Lanes that follow it hold (R48). -/
def encDepart (s : State) (e : Nat) : State :=
  ((List.range 16).filter fun n => s.laneSrc n == 2 && s.fld (Reg.LANE_CFG_SRC_IDX n) == e).foldl laneLost s

/-- A fault of an encoder port; timeouts and amplitude faults count toward LOST. -/
def encFault (s : State) (e : Nat) (f : Fld) (run : Bool) : State :=
  let x := s.enc e
  let x := { x with faults := x.faults + 1, run := if run then x.run + 1 else x.run }
  let s := (s.setEnc e x).setFld f 1
  if run && decide (8 ≤ x.run) && !s.flag (Reg.ENC_STAT_LOST e) then (s.setFld (Reg.ENC_STAT_LOST e) 1).encDepart e else s

/-- A valid word or sample: LOST clears. -/
def encValid (s : State) (e : Nat) : State :=
  (s.setEnc e { s.enc e with run := 0 }).setFld (Reg.ENC_STAT_LOST e) 0

/-- A position of `num` in `den` steps a turn: the fraction and the turns. A port of 0 lines states no position: it is
left open (assumption 2). -/
def encPlace (s : State) (e : Nat) (num : Int) (den : Nat) : State :=
  let x := s.enc e
  if den = 0 then (s.setEnc e { x with pos := (Config.freeWord s.freeCtr 0).setWidth 32,
                                       turns := (Config.freeWord s.freeCtr 1).toInt }).bumpFree
  else s.setEnc e { x with pos := BitVec.ofNat 32 (2 ^ 32 * (num % den).toNat / den), turns := num / den }

/-- LINES. -/
def encLines (s : State) (e : Nat) : Nat := s.fld (Reg.ENC_CFG_LINES e)

/-- The phase of a sine and cosine pair after trims (R388); a pair of zeros states none (assumption 2). -/
def sincosPhase (s : State) (e : Nat) (sine cosine : Int) : Nat :=
  let y := (sine - s.trimOff (0x80 + 8 * e)) * s.trimGain (0x82 + 8 * e)
  let x := (cosine - s.trimOff (0x84 + 8 * e)) * s.trimGain (0x86 + 8 * e)
  if x = 0 ∧ y = 0 then Config.freeNat s.freeCtr 2 % 4096 else phase4096 y x

/-- What an encoder port sees (R304). -/
def encSample (e : Nat) (x : EncSample) (s : State) : State :=
  if s.island.reset then s else
  let mode := s.fld (Reg.ENC_CFG_MODE e)
  match x with
  | .count back =>
    if mode ≠ 1 then s else
    let v := s.enc e
    let c := v.count + if back then -1 else 1
    (s.setEnc e { v with count := c }).encPlace e c (4 * s.encLines e)
  | .illegal => if mode ≠ 1 then s else s.encFault e (Reg.ENC_STAT_ILLEGAL e) false
  | .sincos line sine cosine ok =>
    if mode ≠ 3 then s else
    let s := (s.encPlace e (4096 * line + s.sincosPhase e sine cosine) (4096 * s.encLines e)).bumpFree
    if ok then s.encValid e else s.encFault e (Reg.ENC_STAT_AMPL e) true

/-- An SSI transfer starts. -/
def ssiStart (e : Nat) (s : State) : State :=
  if s.island.reset || s.fld (Reg.ENC_CFG_MODE e) != 2 then s else s.setEnc e { s.enc e with busy := true }

/-- A Gray code as binary. -/
def ungray (w : Nat) : Nat := [16, 8, 4, 2, 1].foldl (fun x k => x ^^^ x / 2 ^ k) w

/-- An SSI word completes, or times out (R304, R47). -/
def ssiWord (e : Nat) (w : Option W32) (s : State) : State :=
  let x := s.enc e
  if s.island.reset || s.fld (Reg.ENC_CFG_MODE e) != 2 || !x.busy then s else
  match w with
  | none => (s.setEnc e { x with busy := false }).encFault e (Reg.ENC_STAT_SSI_TMO e) true
  | some w =>
    let b := if s.fld (Reg.ENC_CFG_BITS e) = 0 then 32 else s.fld (Reg.ENC_CFG_BITS e)
    let v := w.toNat % 2 ^ b
    let p := if s.flag (Reg.ENC_CFG_GRAY e) then ungray v else v
    let word := if x.seen then x.word + sext b (((p : Int) - x.word) % (2 ^ b : Nat)).toNat else p
    (s.setEnc e { x with busy := false, seen := true, word := word, pos := BitVec.ofNat 32 (p * 2 ^ (32 - b)),
                         turns := word / 2 ^ b }).encValid e

/-! ### Carriers (R305) -/

/-- A bridge's carrier reaches zero or its peak. -/
def carrierEdge (b : Nat) (peak : Bool) (s : State) : State :=
  let edge := s.flag (Reg.PWM_BR_CFG_EDGE b)
  if s.island.reset || !s.flag (Reg.PWM_BR_CFG_EN b) || (edge && peak) then s else
  let br := s.bridge b
  let load := s.fld (Reg.PWM_BR_CFG_LOAD b)
  let br := if load = 2 ∨ (load = 1 ∧ !peak) then loadPending br else br
  (s.setBridge b { br with counter := if peak then s.brHalf b else 0, up := !peak }).recmd b

/-- A bridge's carrier crosses a phase's compare value. -/
def compareMatch (b p : Nat) (s : State) : State :=
  let br := s.bridge b
  let c := brCmp br p
  if s.island.reset || !s.flag (Reg.PWM_BR_CFG_EN b) then s
  else if s.flag (Reg.PWM_BR_CFG_EDGE b) then (s.setBridge b { br with counter := 2 * c }).recmd b
  else if br.up then (s.setBridge b { br with counter := c }).recmd b
  else if c = 0 then s
  else (s.setBridge b { br with counter := c - 1 }).recmd b

/-! ### HOLD (R292, R310) -/

/-- The island enters HOLD; the cause of the entry stands until it returns to RUN. -/
def enterHold (s : State) (cause : Nat) : State :=
  if s.island.reset || !s.present 5 || s.islandHold then s else
  ((s.setFld Reg.ISLAND_STAT_HOLD 1).setFld Reg.ISLAND_STAT_HOLD_CAUSE cause).setFld Reg.ISLAND_CTL_HOLD 1

/-- A write of ISLAND_CTL.HOLD = 0 (R310). -/
def islandRun (r : Nat) (s : State) : State :=
  if s.island.reset || !s.present 5 then s
  else if s.boot.computeReset || s.flag Reg.ISLAND_STAT_FALLBACK || !(hwPath r && s.holds r 6) then
    s.setFld Reg.ISLAND_STAT_RUN_REFUSED 1
  else ((s.setFld Reg.ISLAND_STAT_HOLD 0).setFld Reg.ISLAND_STAT_HOLD_CAUSE 0).setFld Reg.ISLAND_CTL_HOLD 0

/-! ### The island's reset (R291) -/

/-- A key of a register of the PACER block, staged copies included. -/
def pacerKey (k : Nat) : Bool := k % 0x100000 / 0x10000 == 8

/-- The island is in reset: every PACER register holds its reset value and every output is off. -/
def islandToReset (s : State) : State :=
  { s with regs := s.regs.filter fun e => !pacerKey e.1
           island := { ({} : IslandUnit) with vioDrive := s.island.vioDrive, stopLine := s.island.stopLine } }

/-- ISL_REL rises: the island leaves reset and begins clearing its memory. -/
def islandRelease (s : State) : State :=
  let s : State := { s with boot := { s.boot with islRel := true } }
  if !s.island.reset || !s.present 5 then s
  else ({ s with island := { s.island with reset := false } } : State).settleSto

/-- The clearing ends. -/
def islandReady (s : State) : State :=
  if s.island.reset || !s.flag Reg.ISLAND_STAT_INIT_BUSY then s
  else ({ s with island := { s.island with mem := [] } } : State).setFld Reg.ISLAND_STAT_INIT_BUSY 0

/-! ### The Pacer memory window (R311) -/

/-- The window's word of Pacer memory that a requester's selection maps: Pacer and word number. -/
def winWord (s : State) (r off : Nat) : Nat × Nat :=
  (s.fld (Fld.of Reg.PACER_WIN_PACER r), (off - 0x8000) / 4 + if s.flag (Fld.of Reg.PACER_WIN_HALF r) then 0x2000 else 0)

/-- A read of one word through the window; what lies behind the state region reads 0 (R35). -/
def winRead (s : State) (r off : Nat) : W32 :=
  let (n, w) := s.winWord r off
  if w < 0x3400 then s.pmem n w
  else if w < 0x3800 then mget (fun _ => 0) (s.chan n ((w - 0x3400) / 0x100 % 4)).snap ((w - 0x3400) % 0x100)
  else 0

/-- A word stands in the banks in force of an armed Pacer, or in its configuration region (R311). -/
def winLocked (s : State) (n w : Nat) : Bool :=
  let p := s.pacer n
  s.pacerRuns n && (if w < 0x1000 then w / 0x800 == p.pbank else if w < 0x2000 then (w - 0x1000) / 0x800 == p.kbank
    else decide (0x3000 ≤ w) && decide (w < 0x3400))

/-- A write of one word through the window. -/
def winWrite (s : State) (r off : Nat) (v : W32) : State :=
  let (n, w) := s.winWord r off
  if s.flag Reg.ISLAND_STAT_INIT_BUSY || decide (0x3400 ≤ w) then s
  else if s.winLocked n w then s.setFld (Reg.PACER_STAT_WR_ACTIVE n) 1
  else s.setPmem n w v

end State

open State

/-- SD_TRIP (R303). -/
def execSdTrip (k : Fin 48) (value : BitVec 16) (s : State) : Host.Outcome State Fault Refusal :=
  .next (s.sdTrip k value.toNat)

/-- SD_NO_CLOCK (R302). -/
def execSdNoClock (k : Fin 48) (s : State) : Host.Outcome State Fault Refusal := .next (s.sdNoClock k)

/-- ENCODER_COUNT (R304). -/
def execEncoderCount (e : Fin 12) (x : EncSample) (s : State) : Host.Outcome State Fault Refusal :=
  .next (s.encSample e x)

/-- SSI_TRANSFER_START (R304). -/
def execSsiTransferStart (e : Fin 12) (s : State) : Host.Outcome State Fault Refusal := .next (s.ssiStart e)

/-- SSI_WORD_COMPLETE (R304). -/
def execSsiWordComplete (e : Fin 12) (word : Option W32) (s : State) : Host.Outcome State Fault Refusal :=
  .next (s.ssiWord e word)

/-- CARRIER_ZERO (R305). -/
def execCarrierZero (b : Fin 12) (peak : Bool) (s : State) : Host.Outcome State Fault Refusal :=
  .next (s.carrierEdge b peak)

/-- PWM_COMPARE_MATCH (R305). -/
def execPwmCompareMatch (b : Fin 12) (phase : Fin 3) (s : State) : Host.Outcome State Fault Refusal :=
  .next (s.compareMatch b phase)

/-- ISLAND_HOLD (R310). -/
def execIslandHold (r : Requester) (s : State) : Host.Outcome State Fault Refusal :=
  .next (s.permit r 4 Reg.ISLAND_CTL fun s => s.enterHold 0)

/-- ISLAND_RUN (R310): a requester with neither HWCUE nor UNIT is denied, any other refusal sets RUN_REFUSED. -/
def execIslandRun (r : Requester) (s : State) : Host.Outcome State Fault Refusal :=
  .next (if s.holds r 4 then s.islandRun r else s.permit r 6 Reg.ISLAND_CTL (islandRun r))

/-- ISLAND_RESET_RELEASE (R291). -/
def execIslandResetRelease (s : State) : Host.Outcome State Fault Refusal := .next s.islandRelease

/-- ISLAND_INIT_COMPLETE (R291). -/
def execIslandInitComplete (s : State) : Host.Outcome State Fault Refusal := .next s.islandReady

/-- VIO_DRIVE_CHANGE (R446): without VIO_DRIVE the PWM outputs are in high impedance. -/
def execVioDriveChange (up : Bool) (s : State) : Host.Outcome State Fault Refusal :=
  .next { s with island := { s.island with vioDrive := up } }

end Sys2Proof.Machine
end

