-- ==== Sys2Proof/Machine/Fusion.lean ====
section
/-!
DEFINITION. The streams, the clock estimates and the Clearing buffer of the Fusion unit (R315 to R327), and the
captures that feed its clock pairs (R55, R59).
-/

namespace Sys2Proof.Machine

open Sys2Proof

namespace State

/-! ### Streams (R315) -/

/-- A stream. -/
def fstr (s : State) (k : Nat) : FStream := mget (fun _ => {}) s.fusion.streams k

/-- Set a stream. -/
def setFstr (s : State) (k : Nat) (v : FStream) : State :=
  { s with fusion := { s.fusion with streams := mset (fun _ => {}) s.fusion.streams k v } }

/-- STATE of a stream (Table 13-1). -/
def fState (s : State) (k : Nat) : Nat := s.fld (Reg.FSTR_STAT_STATE k)

/-- Set STATE of a stream. -/
def setFState (s : State) (k v : Nat) : State := s.setFld (Reg.FSTR_STAT_STATE k) v

/-- A stream whose stamps are taken as they are. -/
def isIdentity (s : State) (k : Nat) : Bool := s.fld (Reg.FSTR_CLOCK_PAIR k) == 0

/-- A stream is locked (R319). -/
def isLocked (s : State) (k : Nat) : Bool := s.isIdentity k || decide (8 ≤ (s.fstr k).good)

/-- LOCKED, OFFSET and RATE as the estimate stands. -/
def showClock (s : State) (k : Nat) : State :=
  let st := s.fstr k
  ((s.setFld (Reg.FSTR_STAT_LOCKED k) (b2n (s.isLocked k))).setReg (Reg.FSTR_OFFSET k) (st.yRef - st.xRef)).setReg
    (Reg.FSTR_RATE k) ((BitVec.ofInt 32 st.rate).setWidth 64)

/-- Some ns, µs or ms in Lane units. -/
def nsLane (n : Nat) : W64 := BitVec.ofNat 64 (2 ^ 32 * n)

/-- The fusion Lane's value. -/
def fusionLane (s : State) : W64 := s.laneVal (s.fld Reg.FUSION_CTL_LANE)

/-- The estimate of a source stamp (R318). -/
def clockOf (st : FStream) (x : W64) : W64 :=
  let d := (x - st.xRef).toInt
  st.yRef + BitVec.ofInt 64 (d + d * st.rate / 2 ^ 40)

/-- A stream leaves the buffer: its samples are discarded. -/
def dropSamples (s : State) (k : Nat) : State :=
  { s with fusion := { s.fusion with samples := s.fusion.samples.filter fun x => x.stream != k } }

/-- DESYNC (R320). -/
def desync (s : State) (k : Nat) : State :=
  (((s.setFState k 3).setFstr k { s.fstr k with paired := false, mon := [] }).dropSamples k).incident 6 0x47 0x100
    (BitVec.ofNat 64 k)

/-- The drift monitor on a pair of a member (R320). -/
def monitor (s : State) (k : Nat) (y : W64) (off : Int) : State :=
  if s.fState k != 2 || s.isIdentity k then s else
  let ms := Nat.max (s.fld Reg.FUSION_RETRO_MON_MS) 1
  let from_ := s.fusionLane - nsLane (1000000 * ms)
  let m := ((y, off) :: (s.fstr k).mon).filter fun e => reached e.1 from_
  let s := s.setFstr k { s.fstr k with mon := m }
  let hi := (m.map (·.2)).foldl Max.max off
  let lo := (m.map (·.2)).foldl Min.min off
  if (2 ^ 32 * (1000 * s.fld (Reg.FSTR_CFG_PERIOD_US k)) : Nat) < hi - lo then s.desync k else s

/-- A pair's step of the estimate (R318). A rate outside 32 bits is left open (assumption 2). -/
def pairStep (s : State) (k : Nat) (x y : W64) : FStream :=
  let st := s.fstr k
  let dx := (x - st.xRef).toInt
  let yhat := clockOf st x
  let e := (y - yhat).toInt
  let r := if dx = 0 then st.rate else st.rate + (2 ^ 40 * e).tdiv dx / 2 ^ s.fld (Reg.FSTR_CLOCK_K_RATE k)
  let r := if -(2 ^ 31) ≤ r ∧ r < 2 ^ 31 then r else sext 32 (Config.freeWord s.freeCtr k).toNat
  let ok := decide (e.natAbs ≤ 2 ^ 32 * s.fld (Reg.FSTR_TOL_LOCK_NS k))
  { st with xRef := x, yRef := yhat + BitVec.ofInt 64 (e / 2 ^ s.fld (Reg.FSTR_CLOCK_K_OFF k)), rate := r,
            good := if ok then Nat.min (st.good + 1) 8 else 0 }

/-- A clock pair of a stream (R318 to R320). -/
def clockPair (s : State) (k : Nat) (x y : W64) : State :=
  let st := s.fstr k
  if !st.paired || s.fState k == 3 then
    let s := s.setFstr k { st with xRef := x, yRef := y, rate := 0, good := 0, paired := true }
    ((if s.fState k = 3 then s.setFState k 1 else s).showClock k).monitor k y (y - x).toInt
  else
    let st := s.pairStep k x y
    ((s.setFstr k st).bumpFree.showClock k).monitor k y (st.yRef - st.xRef).toInt

/-! ### Captures (R59) -/

/-- The FIFO of a capture unit. -/
def fifo (s : State) (m : Nat) : List W64 := mget (fun _ => []) s.lanes.fifos m

/-- Set it. -/
def setFifo (s : State) (m : Nat) (l : List W64) : State :=
  ({ s with lanes := { s.lanes with fifos := mset (fun _ => []) s.lanes.fifos m l } } : State).setFld
    (Reg.CAP_STAT_LEVEL m) l.length

/-- A stream takes one entry of each of its capture FIFOs together, while both have one (R318); the number of pairs is
bounded by the FIFOs' depth. -/
def capturePairs : Nat → State → Nat → State
  | 0, s, _ => s
  | n + 1, s, k =>
    let a := s.fld (Reg.FSTR_CLOCK_CAP_A k)
    let b := s.fld (Reg.FSTR_CLOCK_CAP_B k)
    if s.fState k != 0 && s.fld (Reg.FSTR_CLOCK_PAIR k) == 1 && !s.boot.computeReset && a != b then
      match s.fifo a, s.fifo b with
      | x :: t, y :: u => capturePairs n (((s.setFifo a t).setFifo b u).clockPair k x y) k
      | _, _ => s
    else s

/-- The pairs a stream may take from its FIFOs. -/
def capturePair (s : State) (k : Nat) : State := capturePairs 8 s k

/-- A capture unit takes a value; streams take their pairs before it where its FIFO is full, and after it. -/
def capPush (s : State) (m : Nat) (v : W64) : State :=
  let s := if (s.fifo m).length < 8 then s else (List.range 64).foldl capturePair s
  let l := s.fifo m
  if l.length < 8 then (List.range 64).foldl capturePair (s.setFifo m (l ++ [v]))
  else s.setFld (Reg.CAP_STAT_OVF m) 1

/-- The value of a Lane an eighth of a tick or more after its last tick: time Lanes are resolved to 0.625 ns. -/
def captureVal (s : State) (n eighth : Nat) : W64 :=
  if s.isTimeLane n && s.flag (Reg.LANE_CFG_EN n) then
    let rate := sext 32 (s.fld (Reg.LANE_RATE_RATE n))
    s.laneVal n + BitVec.ofInt 64 ((s.reg (Reg.LANE_INCR n)).toNat * (2 ^ 40 + rate) * eighth / 8 / 2 ^ 40)
  else s.laneVal n

/-- A capture unit follows an edge of an input. -/
def captures (s : State) (m input : Nat) (rising : Bool) : Bool :=
  s.flag (Reg.CAP_CFG_EN m) && s.fld (Reg.CAP_CFG_INPUT m) == input
    && bitAt (s.fld (Reg.CAP_CFG_EDGE m)) (if rising then 0 else 1)

/-- An edge of a capture input. -/
def captureEdge (input : Nat) (rising : Bool) (eighth : Nat) (s : State) : State :=
  (List.range 32).foldl (fun s m =>
    if s.captures m input rising then s.capPush m (s.captureVal (s.fld (Reg.CAP_CFG_LANE m)) eighth) else s) s

/-- A 64-bit read of CAP_DATA (R59). -/
def capRead (r m : Nat) (s : State) : State :=
  match s.fifo m with
  | v :: t => (s.setFifo m t).answer r .ok v
  | [] => s.answer r .ok 0

/-! ### The dispatch of fired Cues (R55, R56) -/

/-- The action of a fired Cue at its dispatch. -/
def dispatchOne (s : State) (f : FiredCue) : State :=
  let w : W64 := f.arg.setWidth 64
  match f.action with
  | 1 => s.tallyAdd (bitsOf w 0 14) (bitsOf w 16 16)
  | 2 =>
    if s.boot.computeReset then s.cueMissed f.index 1
    else
      let (s, undef) := s.jobRelease (bitsOf w 0 8)
      if undef then s.cueMissed f.index 1 else s
  | 3 =>
    let m := bitsOf w 8 5
    if s.flag (Reg.CAP_CFG_EN m) then s.capPush m (s.laneVal (bitsOf w 0 4)) else s.cueMissed f.index 1
  | _ => s

/-- The Cue engine dispatches the oldest fired action. -/
def dispatchNext (s : State) : State :=
  match s.lanes.fired with
  | [] => s
  | f :: t => ({ s with lanes := { s.lanes with fired := t } } : State).dispatchOne f

/-! ### Admission (R316) -/

/-- A byte of the tables. -/
def ftab (s : State) (off : Nat) : Byte := mget (fun _ => (0 : Byte)) s.fusion.tables off

/-- The offset of a transform entry of a bank. -/
def frameOff (b f : Nat) : Nat := 0x8000 + 0x1000 * b + 0x40 * f

/-- VALID of a transform entry. -/
def frameValid (s : State) (b f : Nat) : Bool := (s.ftab (frameOff b f + 49)).getLsbD 0

/-- A frame that a stream may take. -/
def frameFree (s : State) (f : Nat) : Bool :=
  !s.frameValid 0 f && !s.frameValid 1 f
    && !(List.range 64).any fun k => s.flag (Reg.FSTR_CFG_EN k) && s.fld (Reg.FSTR_CFG_FRAME k) == f

/-- A staged field of an admission. -/
def adm (s : State) (r : Nat) (f : Fld) : Nat := s.fld (f.of r)

/-- NO_LANE of R316. -/
def admitLane (s : State) (r : Nat) : Bool :=
  let l := s.adm r Reg.FADM_CLOCK_SRC_LANE
  let fl := s.fld Reg.FUSION_CTL_LANE
  let a := s.adm r Reg.FADM_CLOCK_CAP_A
  let b := s.adm r Reg.FADM_CLOCK_CAP_B
  let pair := s.adm r Reg.FADM_CLOCK_PAIR
  s.flag (Reg.LANE_STAT_RUN l) && !(pair == 0 && l != fl)
    && !(pair == 1 && !(s.flag (Reg.CAP_CFG_EN a) && s.flag (Reg.CAP_CFG_EN b) && s.fld (Reg.CAP_CFG_LANE a) == l
      && s.fld (Reg.CAP_CFG_LANE b) == fl))

/-- FUSION_ADMIT_INFO of the caller. -/
def admitInfo (s : State) (r err f k : Nat) : State :=
  s.setReg (stg r Reg.FUSION_ADMIT_INFO) (BitVec.ofNat 64 (2 ^ 24 * err + 2 ^ 8 * f + k))

/-- An admission that passes its checks. -/
def admitTake (s : State) (r k f : Nat) : State :=
  let put := fun (s : State) (dst src : Nat) => s.setReg dst (s.reg (stg r src))
  let s := put (put (put (put (put (put s (Reg.FSTR_CFG k) Reg.FADM_CFG) (Reg.FSTR_CLOCK k) Reg.FADM_CLOCK)
    (Reg.FSTR_FEED k) Reg.FADM_FEED) (Reg.FSTR_TOL k) Reg.FADM_TOL) (Reg.FSTR_ADDR k) Reg.FADM_ADDR)
    (Reg.FSTR_LAT k) Reg.FADM_LAT
  let s := (s.setFld (Reg.FSTR_CFG_EN k) 1).setFld (Reg.FSTR_CFG_FRAME k) f
  (((s.setFState k 1).setFstr k { lastIn := s.uptime }).showClock k).admitInfo r 0 f k

/-- ADMIT (R316). -/
def fusionAdmit (r : Nat) (s : State) : State :=
  if s.boot.computeReset then s else
  match (List.range 64).find? fun k => s.fState k == 0 with
  | none => (s.bump Reg.FUSION_REFUSE_NO_STREAM).admitInfo r 1 0 0
  | some k =>
    match (List.range 64).find? s.frameFree with
    | none => (s.bump Reg.FUSION_REFUSE_NO_FRAME).admitInfo r 2 0 0
    | some f =>
      if !s.admitLane r then (s.bump Reg.FUSION_REFUSE_NO_LANE).admitInfo r 3 0 0
      else if s.adm r Reg.FADM_CLOCK_PAIR = 3 ∨ !s.winOn (s.adm r Reg.FADM_FEED_WIN) then
        (s.bump Reg.FUSION_REFUSE_BAD_CFG).admitInfo r 4 0 0
      else s.admitTake r k f

/-- Write a byte of the tables. -/
def setFtab (s : State) (off : Nat) (b : Byte) : State :=
  { s with fusion := { s.fusion with tables := mset (fun _ => (0 : Byte)) s.fusion.tables off b } }

/-- RETIRE (R316). -/
def fusionRetire (r : Nat) (k : Nat) (s : State) : State :=
  if s.boot.computeReset then s else
  if s.fState k = 0 then s.admitInfo r 0 0 k else
  let f := s.fld (Reg.FSTR_CFG_FRAME k)
  let a := frameOff (1 - s.fld Reg.FUSION_STAT_BANK) f + 49
  let s := (s.setFtab a (s.ftab a &&& 0xFE)).dropSamples k
  let s := (s.setFld (Reg.FSTR_CFG_EN k) 0).setFState k 0
  ((s.setFld (Reg.FSTR_STAT_LOCKED k) 0).setFstr k {}).admitInfo r 0 f k

/-! ### The Clearing buffer (R322 to R325) -/

/-- STEP_DIV of the instants. -/
def stepDiv (s : State) : Nat := Nat.max (s.fld Reg.FUSION_INST_CFG_STEP_DIV) 1

/-- Some instants from one on, with the remainder carried. -/
def instantsFrom (s : State) : Nat → W64 → Nat → List W64
  | 0, _, _ => []
  | n + 1, t, a =>
    let (t', a') := advance t a (s.reg Reg.FUSION_INST_STEP) s.stepDiv
    t :: instantsFrom s n t' a'

/-- The eight instants held. -/
def instants (s : State) : List W64 := s.instantsFrom 8 s.fusion.next s.fusion.acc

/-- A stream in PROBATION that may become a member: locked, its frame VALID in the active bank (Table 13-1). -/
def mayJoin (s : State) (k : Nat) : Bool :=
  s.fState k == 1 && s.isLocked k && s.frameValid (s.fld Reg.FUSION_STAT_BANK) (s.fld (Reg.FSTR_CFG_FRAME k))

/-- An instant opens: streams join from it on. -/
def openInstant (s : State) (t : W64) : State :=
  (List.range 64).foldl (fun s k =>
    if s.mayJoin k then (s.setFState k 2).setFstr k { s.fstr k with since := t, mon := [] } else s) s

/-- A sample enters the buffer of a member (R322, R325). -/
def sampleIn (s : State) (k : Nat) (y : W64) (seq : W32) (count : Nat) (data : List Byte) : State :=
  let st := s.fstr k
  let s := s.setFstr k { st with top := match st.top with
    | some t => some (if later y t then y else t)
    | none => some y }
  let put := fun (s : State) (i : W64) (late : Bool) => ({ s with fusion := { s.fusion with
    samples := s.fusion.samples ++ [⟨k, y, seq, count, data, i, late⟩] } } : State)
  let isLate := match s.fusion.newest with
    | some n => !later y n
    | none => false
  if isLate then
    let n := s.fusion.newest.getD 0
    let retro := 100000 * Nat.min (s.fld Reg.FUSION_RETRO_RETRO) 500
    if reached y (n - nsLane retro) then
      ((put s 0 true).bump Reg.FUSION_CNT_LATE_APPLIED).incident 5 0x47 0x100 (BitVec.ofNat 64 (0x100 + k))
    else (s.bump Reg.FUSION_CNT_LATE_DROPPED).incident 5 0x47 0x100 (BitVec.ofNat 64 k)
  else match s.instants.find? fun i => reached i y with
    | some i => put s i false
    | none => s.bump (Reg.FSTR_STAT_AHEAD k)

/-- The record an intake reads is sound: its Receipt, its address. -/
def intakeOk (s : State) (k : Nat) : Bool :=
  let w := s.fld (Reg.FSTR_FEED_WIN k)
  let pa := s.rcptAddr w (s.fld (Reg.FSTR_FEED_RCPT k))
  let src := s.fld (Reg.FSTR_ADDR_ADDR k) * 64
  !s.boot.computeReset && s.flag (Reg.FSTR_CFG_EN k) && s.rcptWin pa == some w && s.isVdHome (src / 65536)
    && !s.poisonedAt src && !s.movingAt src

/-- The record is taken: pair, conversion, entry (R317, R318, R321). -/
def intakeTake (s : State) (k : Nat) (rec : List Byte) : State :=
  let x : W64 := if s.flag (Reg.FSTR_CLOCK_STAMP_W k) then BitVec.ofNat 64 (2 ^ 32 * sliceNat rec 0 4)
    else BitVec.ofNat 64 (sliceNat rec 0 8)
  let count := Nat.min (sliceNat rec 12 2) 1024
  let s := s.setFstr k { s.fstr k with lastIn := s.uptime }
  let s := if s.fState k = 4 then (s.setFState k 1).setFstr k { s.fstr k with paired := false, good := 0, mon := [] } else s
  let s := if s.fld (Reg.FSTR_CLOCK_PAIR k) = 2 then
      s.clockPair k x (s.fusionLane - nsLane (s.fld (Reg.FSTR_LAT_ALL k))) else s.showClock k
  if s.fState k != 2 || !s.flag Reg.FUSION_CTL_EN then s else
  let y := if s.isIdentity k then x else clockOf (s.fstr k) x
  s.sampleIn k y (BitVec.ofNat 32 (sliceNat rec 8 4)) count ((rec.drop 64).take (32 * count))

/-- A post starts intake of a sample record (R317); the intake stands at the post. -/
def sampleIntake (k : Nat) (s : State) : State :=
  if !s.intakeOk k then s else
  let w := s.fld (Reg.FSTR_FEED_WIN k)
  let pa := s.rcptAddr w (s.fld (Reg.FSTR_FEED_RCPT k))
  let src := s.fld (Reg.FSTR_ADDR_ADDR k) * 64
  let st := rcptState (s.rcptWord pa)
  if s.overMode w && st == 0 then s.bump (Reg.FSTR_STAT_FEED_SKIP k)
  else if !s.overMode w && st != 1 then s
  else
    let count := Nat.min (s.natAt (src + 12) 2) 1024
    let rec_ := s.bytesAt src (64 + 32 * count)
    let s := if s.overMode w then s else (s.collectWord pa).2
    s.intakeTake k rec_

/-- STREAM_DEPARTURE: a source lost, or no intake for 8 periods (R321). -/
def departure (k : Nat) (s : State) : State :=
  let quiet := decide (1000 * (8 * s.fld (Reg.FSTR_CFG_PERIOD_US k)) ≤ (s.uptime - (s.fstr k).lastIn).toNat)
  if s.flag (Reg.LANE_STAT_SRC_LOST (s.fld (Reg.FSTR_CLOCK_SRC_LANE k))) || quiet then s.streamDepart k else s

/-- A stream is waited for at an instant. -/
def isWaited (s : State) (i : W64) (k : Nat) : Bool :=
  s.fState k == 2 && s.flag (Reg.FSTR_CFG_WAIT k) && reached i (s.fstr k).since

/-- A member is cleared for an instant (R323). -/
def isCleared (s : State) (i : W64) (k : Nat) : Bool :=
  s.fState k == 2 && match (s.fstr k).top with
    | some y => reached y (i - nsLane (1000 * s.fld (Reg.FSTR_TOL_TOL_US k)))
    | none => false

/-- LIMIT in Lane units. -/
def fLimit (s : State) : W64 := nsLane (100000 * Nat.min (Nat.max (s.fld Reg.FUSION_INST_CFG_LIMIT) 1) 500)

/-- Every stream waited for is cleared, and the Lane has reached the instant. -/
def relCleared (s : State) (i : W64) : Bool :=
  reached s.fusionLane i && (List.range 64).all fun k => !s.isWaited i k || s.isCleared i k

/-- The oldest instant may be released (R323). -/
def mayRelease (s : State) : Bool :=
  let i := s.fusion.next
  s.relCleared i || reached s.fusionLane (i + s.fLimit) || later s.fusionLane (s.instants.getLastD i)

/-- The samples of the set of an instant, in their order: the first 128, and the rest. -/
def setSamples (s : State) (i : W64) : List FSample × List FSample :=
  let l := sortBy (fun (a b : FSample) => decide ((a.y - i).toInt < (b.y - i).toInt)
    || (a.y == b.y && decide (a.stream ≤ b.stream))) (s.fusion.samples.filter fun x => x.late || x.inst == i)
  (l.take 128, l.drop 128)

/-- Counts that fit a slot: entries lose measurements from the last backward (R324). -/
def fitCounts (room : Nat) : List Nat → List Nat
  | [] => []
  | c :: t => Nat.min c room :: fitCounts (room - Nat.min c room) t

/-- The entries of a set with their data offsets. -/
def setEntries : Nat → List (FSample × Nat) → List Byte
  | _, [] => []
  | off, (x, c) :: t =>
    toBytes 8 x.y.toNat ++ [BitVec.ofNat 8 x.stream, BitVec.ofNat 8 (b2n x.late)] ++ toBytes 2 c ++ toBytes 4 off
      ++ toBytes 4 x.seq.toNat ++ List.replicate 12 0 ++ setEntries (off + 32 * c) t

/-- A mask of streams. -/
def streamMask (f : Nat → Bool) : Nat := bitsWhere 64 f

/-- The bytes of a set record before its data, and the data (Table 13-3). -/
def setRecord (s : State) (i : W64) (seq : Nat) (timeout : Bool) (pages : Nat) : List Byte × List Byte :=
  let xs := (s.setSamples i).1
  let cs := fitCounts ((65536 * pages - 4160) / 32) (xs.map (·.count))
  let trunc := decide (cs ≠ xs.map (·.count))
  (toBytes 8 i.toNat ++ toBytes 8 seq ++ toBytes 8 (streamMask (s.isWaited i)) ++ toBytes 8 (streamMask (s.isCleared i))
    ++ toBytes 8 (streamMask fun k => s.fState k == 3) ++ toBytes 2 xs.length
    ++ [BitVec.ofNat 8 (b2n timeout + 2 * b2n trunc)] ++ List.replicate 21 0 ++ setEntries 4160 (xs.zip cs),
   (xs.zip cs).flatMap fun e => e.1.data.take (32 * e.2))

/-- Write a set and hand it on: data, note, Receipt, Tally (R26, R324). -/
def writeSet (s : State) (i : W64) (timeout : Bool) : State :=
  let seq := (s.reg Reg.FUSION_SET_SEQ).toNat + 1
  let slots := Nat.min (Nat.max (s.fld Reg.FUSION_SET_CFG_SLOTS) 1) 64
  let pages := Nat.min (Nat.max (s.fld Reg.FUSION_SET_CFG_SLOT_PAGES) 1) 16
  let base := 65536 * (s.fld Reg.FUSION_SET_BASE_ADDR + seq % slots * pages)
  let pa := s.rcptAddr (s.fld Reg.FUSION_REL_RCPT_WIN) (s.fld Reg.FUSION_REL_RCPT_RCPT)
  let (head, data) := s.setRecord i seq timeout pages
  let me := Producer.unit 7 0
  let (tk, s) := s.producerStart pa me false
  let s := if s.isVdHome (base / 65536) then (s.agentWrite base head).agentWrite (4160 + base) data else s
  let s := (s.producerPost pa me (match tk with | .overwritten q l => some (q, l) | _ => none) false 7 0x100 false).2
  let s := s.setReg Reg.FUSION_SET_SEQ (BitVec.ofNat 64 seq)
  if s.flag Reg.FUSION_REL_TALLY_EN then s.tallyAdd (s.fld Reg.FUSION_REL_TALLY_INDEX) 1 else s

/-- Release the oldest instant (R323, R324): the set, then the next instant opens. -/
def releaseOne (s : State) : State :=
  let i := s.fusion.next
  let opens := (s.instantsFrom 9 i s.fusion.acc).getLastD i
  let drop := (s.setSamples i).2
  let s := s.writeSet i (!s.relCleared i)
  let s := drop.foldl (fun s x => s.bump (Reg.FSTR_STAT_AHEAD x.stream)) s
  let (t, a) := advance i s.fusion.acc (s.reg Reg.FUSION_INST_STEP) s.stepDiv
  let s : State := { s with fusion := { s.fusion with
    next := t, acc := a, newest := some i
    samples := s.fusion.samples.filter fun x => !(x.late || x.inst == i) } }
  s.openInstant opens

/-- Release instants in order while their conditions hold, at most the eight held. -/
def releaseLoop : Nat → State → State
  | 0, s => s
  | n + 1, s => if s.mayRelease then releaseLoop n s.releaseOne else s

/-- INSTANT_RELEASE (R323). -/
def instantRelease (s : State) : State :=
  if s.flag Reg.FUSION_CTL_EN && !s.boot.computeReset then releaseLoop 8 s else s

/-! ### FUSION_CTL (R324, R326) -/

/-- The links of a chain from a frame of a bank to its root, in units of fuel; none when it breaks R326. -/
def chainOf (s : State) (b : Nat) : Nat → Nat → Option (List Nat)
  | 0, _ => none
  | n + 1, f =>
    if !s.frameValid b f then none else
    let p := (s.ftab (frameOff b f + 48)).toNat
    if p = 0xFF then some [f]
    else if p = 0x40 then (if n = 0 then none else some [f, 64])
    else if p < 64 then (chainOf s b n p).map (f :: ·)
    else none

/-- The swap of the transform banks (R326). -/
def fusionSwap (s : State) : State :=
  let b := 1 - s.fld Reg.FUSION_STAT_BANK
  if (List.range 64).all fun f => !s.frameValid b f || (s.chainOf b 4 f).isSome then s.setFld Reg.FUSION_STAT_BANK b
  else s.setFld Reg.FUSION_STAT_CHAIN_ERR 1

/-- EN = 1 is written while EN is 0 (R324): the buffer starts at FIRST. -/
def fusionStart (s : State) : State :=
  let w := s.fld Reg.FUSION_REL_RCPT_WIN
  if s.winOn w && !s.overMode w then s.setFld Reg.FUSION_STAT_CFG_ERR 1 else
  let s := (s.setFld Reg.FUSION_CTL_EN 1).setFld Reg.FUSION_STAT_OPEN 8
  let f := s.reg Reg.FUSION_INST_FIRST
  ({ s with fusion := { s.fusion with next := f, acc := 0, newest := none, samples := [] } } : State).openInstant f

/-- EN = 0 is written: the buffer stops and holds no instant. -/
def fusionStop (s : State) : State :=
  let s := (s.setFld Reg.FUSION_CTL_EN 0).setFld Reg.FUSION_STAT_OPEN 0
  { s with fusion := { s.fusion with samples := [] } }

/-- A write of FUSION_CTL. -/
def fusionCtl (v : W32) (s : State) : State :=
  if s.boot.computeReset then s else
  let w := v.setWidth 64
  let en := s.flag Reg.FUSION_CTL_EN
  let s := if en then s else s.setFld Reg.FUSION_CTL_LANE (bitsOf w 24 4)
  let s := if v.getLsbD 28 then s.fusionSwap else s
  if v.getLsbD 31 && !en then s.fusionStart else if !v.getLsbD 31 && en then s.fusionStop else s

/-- An error in Tracker memory (R336). -/
def trackerEcc (slot : Nat) (uncorrectable : Bool) (s : State) : State :=
  if !uncorrectable then s.bump Reg.FUSION_ERR_CE_COUNT else
  let s := if s.flag Reg.FUSION_ERR_UE then s else (s.setFld Reg.FUSION_ERR_UE 1).setFld Reg.FUSION_ERR_UE_SLOT slot
  match mget (fun _ => none) s.fusion.tracks slot with
  | some t => { s with fusion := { s.fusion with
      tracks := mset (fun _ => none) s.fusion.tracks slot (some { t with bad := true }) } }
  | none => s

end State

open State

/-- CUE_ACTION_DISPATCH (R55). -/
def execCueActionDispatch (s : State) : Host.Outcome State Fault Refusal := .next s.dispatchNext

/-- CAPTURE_EDGE (R59). -/
def execCaptureEdge (input : Byte) (rising : Bool) (eighth : Fin 8) (s : State) : Host.Outcome State Fault Refusal :=
  .next (s.captureEdge input.toNat rising eighth)

/-- CAP_DATA_READ (R59). -/
def execCapDataRead (r : Requester) (m : Fin 32) (s : State) : Host.Outcome State Fault Refusal :=
  .next (s.readBy r (Reg.CAP_DATA m) (capRead r m))

/-- ADMIT (R316). -/
def execFusionAdmit (r : Requester) (s : State) : Host.Outcome State Fault Refusal :=
  .next (s.permit r 4 Reg.FUSION_ADMIT_CMD (fusionAdmit r))

/-- RETIRE (R316). -/
def execRetire (r : Requester) (k : Fin 64) (s : State) : Host.Outcome State Fault Refusal :=
  .next (s.permit r 4 Reg.FUSION_ADMIT_CMD (fusionRetire r k))

/-- SAMPLE_INTAKE (R317). -/
def execSampleIntake (k : Fin 64) (s : State) : Host.Outcome State Fault Refusal := .next (s.sampleIntake k)

/-- STREAM_DEPARTURE (R321). -/
def execStreamDeparture (k : Fin 64) (s : State) : Host.Outcome State Fault Refusal := .next (s.departure k)

/-- INSTANT_RELEASE (R323). -/
def execInstantRelease (s : State) : Host.Outcome State Fault Refusal := .next s.instantRelease

/-- TRANSFORM_SWAP (R326). -/
def execTransformSwap (r : Requester) (v : W32) (s : State) : Host.Outcome State Fault Refusal :=
  .next (s.permit r 4 Reg.FUSION_CTL (fusionCtl v))

/-- FUSION_ENABLE (R324). -/
def execFusionEnable (r : Requester) (v : W32) (s : State) : Host.Outcome State Fault Refusal :=
  .next (s.permit r 4 Reg.FUSION_CTL (fusionCtl v))

/-- TRACKER_ECC_ERROR (R336). -/
def execTrackerEccError (slot : Fin 1024) (uncorrectable : Bool) (s : State) : Host.Outcome State Fault Refusal :=
  .next (s.trackerEcc slot uncorrectable)

end Sys2Proof.Machine
end

