-- ==== Sys2Proof/Machine/Func.lean ====
section
/-!
DEFINITION. The functions of the gate pipeline and of attention (05, 07): their exact values in units of 2^-300, computed
with an error far below every bound of the spec, and the free choice of an FP32 value within a bound (R138, R145, R175,
R178, R180).
-/

namespace Sys2Proof.Machine

open Sys2Proof

/-! ### Exact values -/

/-- ln 2. -/
def ln2U : Int := 0xb17217f7d1cf79abc9e3b39803f2f6af40f343267298b62d8a0d175b8baafa2be7b876206de

/-- 2π. -/
def twoPiU : Int := 0x6487ed5110b4611a62633145c06e0e68948127044533e63a0105df531d89cd9128a5043cc71a

/-- 1/√(2π). -/
def invSqrt2PiU : Int := 0x662114cf50d942343f2cf1402eae38bfd3829f30512706d8c0471b4802639d2e9df8ac55447

/-- A product in units. -/
def uMul (a b : Int) : Int := a * b / one300

/-- A power series: each term is the last one times `r` over `den n`. -/
def uSeries (r : Int) (den : Nat → Nat) : Nat → Nat → Int → Int → Int
  | 0, _, _, acc => acc
  | fuel + 1, n, t, acc =>
    let t := uMul t r / (den n : Int)
    uSeries r den fuel (n + 1) t (acc + t)

/-- e^x; beyond the range of FP32 a value that lies beyond it as well. -/
def uExp (x : Int) : Int :=
  if 104 * one300 < x then p2 151
  else if x < -220 * one300 then 0
  else
    let k := x / ln2U
    let t := uSeries (x - k * ln2U) id 80 1 one300 one300
    if 0 ≤ k then t * pow2 k.toNat else t / pow2 (-k).toNat

/-- The terms t z^(2n) / (2n + 1). -/
def atanhTerms (z2 : Int) : Nat → Nat → Int → Int
  | 0, _, _ => 0
  | fuel + 1, n, t => t / (2 * n + 1 : Nat) + atanhTerms z2 fuel (n + 1) (uMul t z2)

/-- ln of a positive number. -/
def uLn (a : Int) : Int :=
  let e : Int := (Nat.log2 a.toNat : Int) - 300
  let m := if 0 ≤ e then a / pow2 e.toNat else a * pow2 (-e).toNat
  let z := (m - one300) * one300 / (m + one300)
  e * ln2U + 2 * atanhTerms (uMul z z) 96 0 z

/-- cos of an angle in [0, 2π). -/
def uCos (y : Int) : Int := uSeries (-uMul y y) (fun n => (2 * n - 1) * (2 * n)) 60 1 one300 one300
/-- sin of an angle in [0, 2π). -/
def uSin (y : Int) : Int := uSeries (-uMul y y) (fun n => 2 * n * (2 * n + 1)) 60 1 y y

/-- SIGMOID. -/
def uSigmoid (x : Int) : Int := one300 * one300 / (one300 + uExp (-x))

/-- TANH. -/
def uTanh (x : Int) : Int :=
  let u := uExp (-2 * (x.natAbs : Int))
  let v := (one300 - u) * one300 / (one300 + u)
  if x < 0 then -v else v

/-- SOFTPLUS (R141). -/
def uSoftplus (x : Int) : Int := Max.max x 0 + uLn (one300 + uExp (-(x.natAbs : Int)))

/-- The normal distribution function Φ (R141). -/
def uPhi (x : Int) : Int :=
  if 12 * one300 < x then one300 else if x < -12 * one300 then 0 else
  one300 / 2 + uMul (uMul invSqrt2PiU (uExp (-uMul x x / 2))) (uSeries (uMul x x) (fun n => 2 * n + 1) 500 1 x x)

/-- A function of Table 4-15 on a finite input: codes 3 GELU to 8 SOFTPLUS. -/
def uAct (fn : Nat) (x : Int) : Int :=
  match fn with
  | 3 => uMul x (uPhi x)
  | 4 => uMul x (uSigmoid x)
  | 5 => uSigmoid x
  | 6 => uTanh x
  | 7 => uExp x
  | _ => uSoftplus x

/-- The θ of pair `i` of R175: ROPE_BASE^(-2i/d), rounded to FP32. -/
def ropeTheta (base : Int) (d i : Nat) : Int := fvVal (f32 (uExp (-(((2 * i : Nat) : Int) * uLn base) / ((Nat.max d 1 : Nat) : Int))))

/-! ### Free values within a bound -/

/-- γ(d) of R138 from above; one for a `d` to which it does not apply. -/
def uGamma (d : Nat) : Int := if d < 2 ^ 23 then d * one300 / (2 ^ 24 - d) + 1 else one300

/-- An FP32 value within a distance of an exact value, drawn freely: a draw outside the bound counts as the nearest value
(assumption 2). -/
def openNear (exact tol : Int) (draw : Nat) : FV :=
  match f32Of (draw % 2 ^ 32) with
  | .fin c => if ((c - exact).natAbs : Int) ≤ tol then .fin c else f32 exact
  | .negZero => if (exact.natAbs : Int) ≤ tol then .negZero else f32 exact
  | .inf neg => if f32Max < exact.natAbs + tol ∧ neg = decide (exact < 0) then .inf neg else f32 exact
  | .nan => f32 exact

/-- 2 ulp or 2^-30, whichever is larger (Table 5-7). -/
def actTol (exact : Int) : Int := Max.max (2 * ulp32 exact) (p2 (-30))

/-- An element rotated by an angle with FP32 rounding: sin and cos are within 2^-22 (R175); `high` selects the second
element of the pair. -/
def roped (pos theta : Int) (high : Bool) (a b : FV) (draw : Nat) : FV :=
  match a, b with
  | .nan, _ => .nan
  | _, .nan => .nan
  | .inf _, _ => f32Of (draw % 2 ^ 32)
  | _, .inf _ => f32Of (draw % 2 ^ 32)
  | a, b =>
    let y := pos * theta % twoPiU
    let x := fvVal a
    let z := fvVal b
    let exact := if high then uMul x (uSin y) + uMul z (uCos y) else uMul x (uCos y) - uMul z (uSin y)
    let e := uMul (p2 (-22)) (x.natAbs + z.natAbs)
    openNear exact (e + ulp32 (exact.natAbs + e) / 2 + 1) draw

/-- A vector of one head rotated at a position (R175): element `i` is paired with the one half the vector away. -/
def ropeVec (base : FV) (pos : Int) (v : List FV) (draw : Nat → Nat) : List FV :=
  let d := v.length
  let half := d / 2
  (List.range d).map fun i =>
    let j := i % Nat.max half 1
    roped pos (ropeTheta (fvVal base) d j) (decide (half ≤ i)) (v.getD j .nan) (v.getD (j + half) .nan) (draw i)

/-- A softmax row in exact terms (R179): the weight of each score, exp(σ - max), and their sum; −∞ weighs nothing. -/
def softWeights (xs : List FV) : Int × List Int × Int :=
  let fin := xs.filterMap fun v => match v with
    | .fin a => some a
    | .negZero => some 0
    | _ => none
  let m := fin.foldl Max.max (fin.headD 0)
  let ws := xs.map fun v => match v with
    | .fin a => uExp (a - m)
    | .negZero => uExp (-m)
    | _ => 0
  (m, ws, ws.foldl (· + ·) 0)

/-- One element of a softmax row without NaN or +∞, within the bounds of R180. -/
def softVal (xs : List FV) (i : Nat) (log : Bool) (draw : Nat) : FV :=
  let (m, ws, sum) := softWeights xs
  let x := xs.getD i .nan
  let g := 2 * uGamma (redD xs.length false)
  if x = .inf true then (if log then .inf true else .fin 0)
  else if log then
    let y := fvVal x - m - uLn sum
    openNear y (p2 (-21) + g + uMul (p2 (-23)) y.natAbs) draw
  else
    let y := ws.getD i 0 * one300 / sum
    openNear y (uMul (p2 (-21) + g) y + p2 (-30)) draw

end Sys2Proof.Machine
end

