-- ==== Sys2Proof/Machine/Kdefs.lean ====
section
/-!
DEFINITION. What a kernel copies at issue, its parameter block (Tables 5-4, 6-1), and the checks of shapes and formats of
the Field, gate-pipeline and Sprint kernels in the order of R95 and R471.
-/

namespace Sys2Proof.Machine

open Sys2Proof

/-- A kernel with everything it copied at issue (R81, R103). -/
structure KIn where
  mn : Mn
  o : OpK
  dO : Desc
  dA : Desc
  dB : Desc
  dC : Desc
  /-- the parameter block, or the default parameters -/
  blk : List Byte
  extra : List Byte := []
  deriving DecidableEq, Repr

/-- Whether each of DO, DA, DB, DC is named (R96, Table 4-14). -/
def kNamed (k : KIn) : Bool × Bool × Bool × Bool :=
  let u := kOperands k.mn
  let q := kOptional k.mn
  (u.1, u.2.1 && !(q.2.1 && k.o.dA.val == 0), u.2.2.1 && !(q.2.2.1 && k.o.dB.val == 0),
   u.2.2.2 && !(q.2.2.2 && k.o.dC.val == 0))

/-- DA is present. -/
def hasA (k : KIn) : Bool := (kNamed k).2.1
/-- DB is present. -/
def hasB (k : KIn) : Bool := (kNamed k).2.2.1
/-- DC is present. -/
def hasC (k : KIn) : Bool := (kNamed k).2.2.2

/-- The operands named: slot and descriptor, in ascending operand index. -/
def kDescs (k : KIn) : List (Nat × Desc) :=
  let n := kNamed k
  (if n.1 then [(k.o.dO.val, k.dO)] else []) ++ (if n.2.1 then [(k.o.dA.val, k.dA)] else [])
    ++ (if n.2.2.1 then [(k.o.dB.val, k.dB)] else []) ++ if n.2.2.2 then [(k.o.dC.val, k.dC)] else []

/-! ### Parameter blocks -/

/-- The length of a kernel's parameter block in bytes. -/
def blockLen : Mn → Nat
  | .ksreflex => 144
  | .khfinish | .khstride | .khquery => 128
  | _ => 64

/-- A field of the parameter block. -/
def pf (k : KIn) (lo len : Nat) : Nat := (ofBytes k.blk >>> lo) % 2 ^ len

/-- The parameters a kernel takes with SP = S0. -/
def defaultBlock (m : Mn) : List Byte :=
  toBytes (blockLen m) (match m with
    | .kmatmul | .ksmatmul | .ksoftmax => 0x3F800000
    | .kconv | .ksconv => 2 ^ 208 + (2 ^ 128 + (2 ^ 112 + (2 ^ 96 + (0x3F800000 + 2 ^ 80))))
    | .kpool => 2 ^ 128 + (2 ^ 112 + (2 * 2 ^ 80 + 2 * 2 ^ 96)) + 2 * 2 ^ 224 + 2 * 2 ^ 240
    | .kreduce => 1
    | .kact => 0x3C23D70A
    | .knorm => 0x3727C5AC
    | _ => 0)

/-- OUT_SCALE and OUT_ZERO apply no scale (R130, R135). -/
def plainScale (k : KIn) : Bool := pf k 0 32 == 0x3F800000 && pf k 32 32 == 0

/-- The kernels with the scaling of R130. -/
def isMul : Mn → Bool
  | .kmatmul | .kconv | .ksmatmul | .ksconv => true
  | _ => false

/-- An integer-only operation (R135). -/
def intOnly (k : KIn) : Bool :=
  (kDescs k).all (fun e => isInt (dFmt e.2)) && (!isMul k.mn || plainScale k) && !(k.mn == .kact && k.o.imm == 2)

/-- An FP32 parameter is not finite. -/
def badFp (v : Nat) : Bool := v / 2 ^ 23 % 256 == 255

/-- CLEAR_CAP is not positive and finite (R344). -/
def badCap (k : KIn) : Bool := badFp (pf k 480 32) || bitAt (pf k 480 32) 31 || f32Of (pf k 480 32) == .fin 0

/-- The parameter block of a kattn is out of range (R171). -/
def badAttn (k : KIn) : Bool :=
  let base := f32Of (pf k 96 32)
  badFp (pf k 0 32) || pf k 32 2 == 3 || (pf k 32 2 == 2 && pf k 64 32 == 0) || decide (1024 < pf k 128 11)
    || pf k 36 28 != 0 || pf k 139 53 != 0 || pf k 240 16 != 0 || pf k 304 208 != 0
    || (pf k 34 1 == 0 && (pf k 128 11 != 0 || pf k 192 48 != 0 || pf k 256 48 != 0))
    || (if pf k 35 1 = 1 then badFp (pf k 96 32) || !larger base (fvInt 1) else pf k 96 32 != 0)

/-- A parameter-block field is out of range (R130, R141, R143, R150, R179, R209, R329, R333, R344). -/
def badBlock (k : KIn) : Bool :=
  match k.mn with
  | .kmatmul => pf k 66 446 != 0
  | .ksmatmul => pf k 65 447 != 0
  | .kconv | .ksconv =>
    (k.mn == .ksconv && pf k 65 1 != 0) || pf k 66 14 != 0 || pf k 224 288 != 0 || pf k 80 16 == 0 || pf k 96 16 == 0
      || pf k 112 16 == 0 || pf k 128 16 == 0 || pf k 208 16 == 0
  | .kpool =>
    pf k 0 66 != 0 || pf k 67 13 != 0 || pf k 256 256 != 0 || pf k 80 16 == 0 || pf k 96 16 == 0 || pf k 112 16 == 0
      || pf k 128 16 == 0 || pf k 208 16 != 0 || pf k 224 16 == 0 || pf k 240 16 == 0
  | .kreduce => pf k 0 6 == 0 || decide (2 ^ dRank k.dA ≤ pf k 0 6)
  | .kact => k.o.imm == 2 && pf k 32 480 != 0
  | .ksoftmax => pf k 33 479 != 0
  | .kgates => pf k 0 128 != 0 || pf k 176 336 != 0
  | .kattn => badAttn k
  | .kscan | .kcell => pf k 0 2 == 3 || (k.mn == .kscan && pf k 0 2 != 2) || pf k 3 61 != 0 || pf k 112 16 != 0 || pf k 176 336 != 0
  | .khmap => pf k 4 508 != 0 || pf k 2 2 == 2
  | .khquery => pf k 0 480 != 0 || pf k 529 495 != 0 || badCap k
  | .khstride => pf k 529 47 != 0 || pf k 624 400 != 0 || badCap k || (List.range 15).any fun n => badFp (pf k (32 * n) 32)
  | .khfinish => pf k 0 384 != 0 || pf k 416 64 != 0 || pf k 529 111 != 0 || pf k 712 8 != 0 || pf k 768 256 != 0
      || badCap k || badFp (pf k 384 32) || decide (8 < pf k 708 4)
  | .kfego => pf k 0 4 == 0 || pf k 6 26 != 0 || pf k 64 448 != 0 || badFp (pf k 32 32) || f32Of (pf k 32 32) == .fin 0
      || bitAt (pf k 32 32) 31
  | .kftrack => pf k 64 8 == 0 || pf k 72 4 == 0 || pf k 77 435 != 0
  | _ => false

/-- IMM is out of range (Table 4-14). -/
def badImm (m : Mn) (imm : Nat) : Bool :=
  match m with
  | .kpool | .knorm | .kftrack => decide (1 < imm)
  | .kreduce => decide (3 < imm)
  | .kact => decide (8 < imm)
  | .keltw => decide (5 < imm)
  | .kgates => decide (2 < imm)
  | .kfxform => decide (63 < imm)
  | _ => imm != 0

/-! ### Windows (R148 to R152) -/

/-- KW and KH: the weights' dimensions, or the pooling window. -/
def winW (k : KIn) : Nat := if k.mn = .kpool then pf k 240 16 else dDim k.dB 1
/-- KH. -/
def winH (k : KIn) : Nat := if k.mn = .kpool then pf k 224 16 else dDim k.dB 2
/-- G of R148: GROUPS, 1 where it is 0. -/
def groups (k : KIn) : Nat := Nat.max (pf k 208 16) 1

/-- An output extent (R151). -/
def outExt (inp padA padB dil win stride : Nat) : Nat :=
  let e := inp + padA + padB
  let d := dil * (win - 1) + 1
  if win = 0 ∨ e < d then (if win = 0 ∧ stride ≠ 0 then (e + dil - 1) / stride + 1 else 0) else (e - d) / stride + 1

/-- W_out. -/
def outW (k : KIn) : Nat := outExt (dDim k.dA 1) (pf k 176 16) (pf k 192 16) (pf k 128 16) (winW k) (pf k 96 16)
/-- H_out. -/
def outH (k : KIn) : Nat := outExt (dDim k.dA 2) (pf k 144 16) (pf k 160 16) (pf k 112 16) (winH k) (pf k 80 16)

/-! ### Shapes (R471): the first operand that fails, by its slot -/

/-- The extents of DO's elements along dimension 0 for N results: twice N under COMPLEX with an FP32 DO. -/
def cplxTwice (k : KIn) (n : Nat) : Nat := if k.o.cplx ∧ dFmt k.dO = 0x0D then 2 * n else n

/-- Every dimension has DO's extent or extent 1 (R127, R141). -/
def broadcasts (d e : Desc) (from_ : Nat) : Bool :=
  dRank d == dRank e && (List.range (dRank e)).all fun j => decide (j < from_) || dExt d j == dExt e j || dExt d j == 1

/-- Rank 1 with at least some elements (R345 to R350, R329, R333). -/
def listOf (d : Desc) (least : Nat) : Bool := dRank d == 1 && decide (least ≤ dExt d 0)

/-- Number of gates (Table 8-1). -/
def gateW (gs : Nat) : Nat := if gs = 2 then 2 else 4

/-- H of a chunk: half of DB's columns for kscan, their share of a gate for kcell (Table 8-2). -/
def chunkH (k : KIn) : Nat := if k.mn = .kscan then dExt k.dB 1 / 2 else dExt k.dB 1 / gateW (pf k 0 2)

/-- Which operands of a kscan or kcell satisfy Table 8-2: DO, DA, DB, DC. -/
def chunkShapes (k : KIn) : Bool × Bool × Bool × Bool :=
  let (e, tn, sn) := (dExt k.dA 0, dExt k.dA 1, dExt k.dA 2)
  let h := chunkH k
  let g := gateW (pf k 0 2)
  (dExts k.dO == [h, if pf k 2 1 = 1 then 1 else tn, sn], dRank k.dA == 3 && decide (sn ≤ 256),
   dRank k.dB == 2 && (if k.mn = .kscan then dExt k.dB 0 == e && dExt k.dB 1 % 2 == 0
      else dExt k.dB 1 % g == 0 && dExt k.dB 0 == e + h) && (!dSparse k.dB || dExt k.dB 0 % 32 == 0),
   dExts k.dC == [tn, sn])

/-- PAGED of a kattn. -/
def isPaged (k : KIn) : Bool := pf k 34 1 == 1

/-- A length-table entry of a kattn, from what was read at issue (Table 7-3). -/
structure LenEnt where
  qOff : Nat
  qLen : Nat
  row : Nat
  kvLen : Nat
  append : Bool
  deriving DecidableEq, Repr

/-- The pool geometry of a kattn, from the header read at issue (Table 7-5). -/
structure Pool where
  ring : Nat
  ringLog : Nat
  tpp : Nat
  fmt : Nat
  hkv : Nat
  dim : Nat
  deriving DecidableEq, Repr

/-- The pool of a kattn. -/
def poolIn (k : KIn) : Pool :=
  { ring := sliceNat k.extra 24 6, ringLog := sliceNat k.extra 32 1 % 32, tpp := 2 ^ (sliceNat k.extra 33 1 % 16)
    fmt := sliceNat k.extra 34 1 % 64, hkv := sliceNat k.extra 35 1 % 128, dim := sliceNat k.extra 36 2 % 512 }

/-- Entry `e` of the length table read at issue. -/
def lenEnt (k : KIn) (e : Nat) : LenEnt :=
  let g := fun (o n : Nat) => sliceNat k.extra (128 + 16 * e + o) n
  { qOff := g 0 4, qLen := g 4 2, row := g 6 2, kvLen := g 8 4, append := g 12 1 % 2 == 1 }

/-- The entries of the length table. -/
def lenEnts (k : KIn) : List LenEnt := if isPaged k then (List.range (pf k 128 11)).map (lenEnt k) else []

/-- A reserved bit of a length-table entry is set (R182). -/
def badEnts (k : KIn) : Bool :=
  isPaged k && (List.range (pf k 128 11)).any fun e =>
    sliceNat k.extra (128 + 16 * e + 12) 1 / 2 != 0 || sliceNat k.extra (128 + 16 * e + 14) 2 != 0

/-- R173 is breached by a query position below 0. -/
def posBreach (k : KIn) (q kv : Nat) : Bool := (pf k 32 2 != 0 || pf k 35 1 == 1) && decide (kv < q)

/-- The checks of R182 on the length table. -/
def entsOk (k : KIn) : Bool :=
  let es := lenEnts k
  let ix := es.zipIdx
  es.all (fun e => decide (e.qOff + e.qLen ≤ dDim k.dA 2) && decide (e.row < dDim k.dB 1)
      && !(e.append && dDim k.dC 3 == 0) && !posBreach k e.qLen e.kvLen)
    && ix.all fun (a, i) => ix.all fun (b, j) => decide (j ≤ i) ||
      (!(decide (a.qOff < b.qOff + b.qLen) && decide (b.qOff < a.qOff + a.qLen))
        && !(a.row == b.row && (a.append || b.append)))

/-- Which operands of a kattn satisfy R169 and R182: DO, DA, DB, DC. -/
def attnShapes (k : KIn) : Bool × Bool × Bool × Bool :=
  let (dO, dA, dB, dC) := (k.dO, k.dA, k.dB, k.dC)
  let d := dExt dA 0
  let okD := d % 16 == 0 && decide (16 ≤ d) && decide (d ≤ 256)
  if isPaged k then
    let p := poolIn k
    (dRank dO == 3 && dExts dO == dExts dA, dRank dA == 3 && okD && d == p.dim && dExt dA 1 % p.hkv == 0 && entsOk k,
     dRank dB == 2 && dSpace dB == 0 && !dRo dB,
     dRank dC == 4 && dExt dC 0 == d && dExt dC 1 == p.hkv && dExt dC 2 == 2 && (dExt dC 3 == dExt dA 2 || dExt dC 3 == 0))
  else
    let h := dExt dB 1
    (dRank dO == 4 && dExts dO == dExts dA,
     dRank dA == 4 && okD && (decide (h = 0) || dExt dA 1 % h == 0) && !posBreach k (dExt dA 2) (dDim dB 2),
     dRank dB == 4 && dExt dB 0 == d && decide (1 ≤ h) && decide (h ≤ 64) && dExt dB 3 == dDim dA 3,
     dRank dC == 4 && dExts dC == dExts dB)

/-- Which operands satisfy the shape rules of their kernel: DO, DA, DB, DC. -/
def shapesOk (k : KIn) : Bool × Bool × Bool × Bool :=
  let (dO, dA, dB, dC) := (k.dO, k.dA, k.dB, k.dC)
  let same := fun (d e : Desc) => dExts d == dExts e
  match k.mn with
  | .kmatmul | .ksmatmul =>
    (decide (2 ≤ dRank dO) && dExt dO 0 == cplxTwice k (dDim dB 1) && dExt dO 1 == dDim dA 1,
     broadcasts dA dO 2,
     broadcasts dB dO 2 && dDim dB 0 == dDim dA 0 && (!dSparse dB || dExt dB 0 % 32 == 0),
     broadcasts dC dO 1 && dExt dC 0 == dExt dO 0)
  | .kconv | .ksconv =>
    let g := groups k
    (dRank dO == 4 && dExts dO == [cplxTwice k (dDim dB 3), outW k, outH k, dDim dA 3],
     dRank dA == 4 && dDim dA 0 % g == 0,
     dRank dB == 4 && dDim dB 0 == dDim dA 0 / g && dDim dB 3 % g == 0 && (!dSparse dB || dExt dB 0 % 32 == 0),
     dExts dC == [cplxTwice k (dDim dB 3)])
  | .kpool => (dExts dO == [dDim dA 0, outW k, outH k, dDim dA 3], dRank dA == 4, true, true)
  | .kreduce =>
    (dRank dO == dRank dA && (List.range (dRank dA)).all fun j =>
        dExt dO j == (if bitAt (pf k 0 6) j then 1 else dExt dA j), true, true, true)
  | .kact => (true, broadcasts dA dO 0, true, true)
  | .keltw => (true, broadcasts dA dO 0, broadcasts dB dO 0, true)
  | .knorm => (same dO dA, true, dExts dB == [dExt dA 0], dExts dC == [dExt dA 0])
  | .ksoftmax => (same dO dA, true, true, true)
  | .kgates =>
    let gw := if k.o.imm = 2 then 2 else 4
    let h := dExt dA 0 / gw
    let w := if k.o.imm = 0 then 2 * h else h
    (dExts dO == [w, dDim dA 1], dRank dA == 2 && dExt dA 0 % gw == 0, dExts dB == [w, dDim dA 1], true)
  | .kargmax | .ksargmax =>
    (dRank dO == dRank dA && dExt dO 0 == 1 && (dExts dO).drop 1 == (dExts dA).drop 1
      && !(dFmt dO == 0x0E && decide (32768 < dExt dA 0)), true, true, true)
  | .kcvt =>
    let two := fun (d e : Desc) => dRank d == dRank e && dExt d 0 == 2 * dExt e 0 && (dExts d).drop 1 == (dExts e).drop 1
    ((if dFmt dA = 0x11 ∧ dFmt dO = 0x0D then two dO dA
      else if dFmt dA = 0x0D ∧ dFmt dO = 0x11 then two dA dO else same dO dA), true, true, true)
  | .kattn => attnShapes k
  | .kscan | .kcell => chunkShapes k
  | .ksreflex => (listOf k.dO (if pf k 11 1 = 1 then 0 else dDim k.dA 0) && dSpace k.dO == 2,
      pf k 11 1 == 1 || (dRank k.dA == 1 && dSpace k.dA != 1), true, true)
  | .khquery => (listOf dO (64 + 8 * dDim dA 1), dRank dA == 2 && dExt dA 0 == 4 && decide (dExt dA 1 ≤ 65536), true, true)
  | .khstride => (listOf dO (128 + dDim dA 0), dRank dA == 1 && dExt dA 0 % 16 == 0 && decide (dExt dA 0 ≤ 65536), true, true)
  | .khfinish => (listOf dO 64, dRank dA == 1, true, true)
  | .khmap => (true, dRank dA == 1 && dExt dA 0 % 8 == 0 && decide (dExt dA 0 ≤ 524288), true, true)
  | .kfxform => (same dO dA, dRank dA == 2 && (dExt dA 0 == 3 || dExt dA 0 == 6), true, true)
  | .kfego => (dRank dO == 1 && dExt dO 0 == 64, dRank dA == 2 && dExt dA 0 == 7, true, true)
  | .kftrack => (listOf dO 131136, dRank dA == 1, true, true)
  | _ => (true, true, true, true)

/-- The space of an operand is one its unit reaches (R117, R161). -/
def spaceOk (m : Mn) (d : Desc) : Bool :=
  match m with
  | .ksconv | .ksmatmul | .ksargmax | .ksreflex => dSpace d != 1
  | .khquery | .khstride | .khfinish | .khmap | .kfxform | .kfego | .kftrack => dSpace d == 0
  | _ => dSpace d != 2

/-- The slot of the first operand whose test fails. -/
def firstMisfit (k : KIn) (t : Bool × Bool × Bool × Bool) : Option Nat :=
  let n := kNamed k
  let bad := fun (named ok : Bool) (d : Desc) => named && !(ok && spaceOk k.mn d)
  if bad n.1 t.1 k.dO then some k.o.dO.val
  else if bad n.2.1 t.2.1 k.dA then some k.o.dA.val
  else if bad n.2.2.1 t.2.2.1 k.dB then some k.o.dB.val
  else if bad n.2.2.2 t.2.2.2 k.dC then some k.o.dC.val
  else none

/-! ### Formats (R119, R124, R128, R129, R471): the first operand refused, by its format code -/

/-- The group of Table 5-3 a format is multiplied in: 1 integer, 2 FP8 and MX, 3 16-bit, 4 FP32, 5 CFP16. -/
def mulGroup (f : Nat) : Nat :=
  if 1 ≤ f ∧ f ≤ 4 then 1 else if 5 ≤ f ∧ f ≤ 0x0A then 2 else if f = 0x0B ∨ f = 0x0C then 3
  else if f = 0x0D then 4 else if f = 0x11 then 5 else 0

/-- Role S of Table 5-2. -/
def roleS (f : Nat) : Bool := decide (1 ≤ f) && decide (f ≤ 7) || f == 0x0A
/-- Role G of Table 5-2. -/
def roleG (f : Nat) : Bool := decide (1 ≤ f) && decide (f ≤ 0x0F)
/-- FP32, BF16 or FP16. -/
def isF (f : Nat) : Bool := f == 0x0B || f == 0x0C || f == 0x0D

/-- The integer path of a product (R128). -/
def intPath (k : KIn) : Bool := mulGroup (dFmt k.dA) == 1

/-- Which operands have an accepted format: DO, DA, DB, DC. -/
def fmtsOk (k : KIn) : Bool × Bool × Bool × Bool :=
  let (fO, fA, fB, fC) := (dFmt k.dO, dFmt k.dA, dFmt k.dB, dFmt k.dC)
  match k.mn with
  | .kmatmul | .kconv =>
    ((if k.o.cplx then fO == 0x11 || fO == 0x0D else roleG fO)
      && (!k.o.accum || (if intPath k then fO == 0x0F && plainScale k else fO == 0x0D)),
     (if k.o.cplx then fA == 0x11 else mulGroup fA != 0 && fA != 0x11),
     mulGroup fB == mulGroup fA && (!dSparse k.dB || (roleS fB && !k.o.cplx)),
     (if k.o.cplx then fC == 0x11 || fC == 0x0D else if intPath k then fC == 0x0F else isF fC))
  | .ksmatmul | .ksconv =>
    ((roleG fO && !(decide (5 ≤ fO) && decide (fO ≤ 0x0B)) || fO == 0x10) && (!k.o.accum || (fO == 0x0F && plainScale k)),
     mulGroup fA == 1, mulGroup fB == 1 && !dSparse k.dB, fC == 0x0F)
  | .kpool => (roleG fO && !isMx fO, roleG fA, true, true)
  | .kreduce | .kact => (roleG fO, roleG fA, true, true)
  | .keltw => (roleG fO, roleG fA, roleG fB, true)
  | .knorm => (roleG fO, roleG fA, isF fB, isF fC)
  | .ksoftmax => (roleG fO && !isMx fO, roleG fA && !isMx fA, true, true)
  | .kgates => (isF fO, isF fA, isF fB, true)
  | .kargmax => (fO == 0x0E || fO == 0x0F, roleG fA, true, true)
  | .ksargmax => (fO == 0x0E || fO == 0x0F, fA == 3 || fA == 4 || fA == 0x0C || fA == 0x0E || fA == 0x0F, true, true)
  | .kcvt =>
    (true, (if fA = 0x11 then fO == 0x11 || fO == 0x0D else if fO = 0x11 then fA == 0x0D else true), true, true)
  | .kattn =>
    let kv := fun (f : Nat) => f == 5 || f == 6 || f == 0x0B || f == 0x0C
    let out := isF fO || fO == 5 || fO == 6
    if isPaged k then (out, kv fA && mulGroup fA == mulGroup (poolIn k).fmt, fB == 0x0F, fC == (poolIn k).fmt)
    else (out, kv fA, kv fB && mulGroup fB == mulGroup fA, fC == fB)
  | .ksreflex => (fO == 4, pf k 11 1 == 1 || fA == 4, true, true)
  | .khquery => (fO == 4, fA == 0x0D, true, true)
  | .khstride | .khfinish | .khmap | .kftrack => (fO == 4, fA == 4, true, true)
  | .kfxform => (fO == 0x0D, fA == 0x0D, true, true)
  | .kfego => (fO == 4, fA == 0x0D, true, true)
  | .kscan | .kcell =>
    (isF fO, mulGroup fA != 0 && fA != 0x11, mulGroup fB == mulGroup fA && (!dSparse k.dB || roleS fB), fC == 4)
  | _ => (true, true, true, true)

/-- SPARSE is accepted only on the weights of a product (R124). -/
def sparseOk (k : KIn) (isB : Bool) (d : Desc) : Bool :=
  !dSparse d || (isB && (k.mn == .kmatmul || k.mn == .kconv || k.mn == .kscan || k.mn == .kcell))

/-- The format code of the first operand refused. -/
def firstFmt (k : KIn) : Option Nat :=
  let n := kNamed k
  let t := fmtsOk k
  let bad := fun (named ok isB : Bool) (d : Desc) => named && !(ok && sparseOk k isB d)
  if bad n.1 t.1 false k.dO then some (dFmt k.dO)
  else if bad n.2.1 t.2.1 false k.dA then some (dFmt k.dA)
  else if bad n.2.2.1 t.2.2.1 true k.dB then some (dFmt k.dB)
  else if bad n.2.2.2 t.2.2.2 false k.dC then some (dFmt k.dC)
  else none

end Sys2Proof.Machine
end

