-- ==== Sys2Proof/Machine/Kcalc.lean ====
section
/-!
DEFINITION. What the Field, gate-pipeline and Sprint kernels write (05, 06): the codes of DO's elements and scales, from
the operands as they stand. Values within a stated bound, and stochastic draws, are drawn with the step's counter.
-/

namespace Sys2Proof.Machine

open Sys2Proof

/-- Codes to write: elements by index, scales by place. -/
abbrev KOut := List (List Nat × Nat) × List (Nat × Nat)

/-- A result before output conversion: a value, or a code that no conversion changes. -/
inductive KRes where
  | val (v : FV)
  | code (n : Nat)

/-- An index with 0 in each dimension of extent 1. -/
def clampIx (d : Desc) (ix : List Nat) : List Nat := List.zipWith (fun e a => if e = 1 then 0 else a) (dExts d) ix

/-- The smallest value of a format, −∞ where it has one (R143, R156). -/
def smallest (f : Nat) : KRes :=
  if f = 0x06 then .code 0xFC else if isMx f then .val (.fin (-(8 * p2 127))) else .val (.inf true)

/-- The largest value of a format. -/
def largest (f : Nat) : KRes :=
  if f = 0x06 then .code 0x7C else if isMx f then .val (.fin (8 * p2 127)) else .val (.inf false)

/-- The value a result stands for in FP32. -/
def resVal (f : Nat) : KRes → FV
  | .val v => v
  | .code n => codeVal f n

namespace State

/-- A draw of the operation that completes. -/
def draw (s : State) (n : Nat) : Nat := Config.freeNat s.freeCtr n

/-- The value of a stored element, scaled by its block (R122, R125). -/
def valAt (s : State) (c : Nat) (d : Desc) (ix : List Nat) : FV :=
  let code := s.elemCode c d ix
  if isMx (dFmt d) then
    mxVal (dFmt d) code (s.scaleCode c d (ix.headD 0 / if dSparse d then 16 else 32)
      (rowNum ((dExts d).drop 1) (ix.drop 1)))
  else codeVal (dFmt d) code

/-- The codes of DO for a result function on index and place (R123, R135 to R137). -/
def outAll (s : State) (k : KIn) (f : List Nat → Nat → KRes) : KOut :=
  let fO := dFmt k.dO
  let rnd := k.o.rnd.val
  let ovf := isMul k.mn && pf k 64 1 == 1
  if isMx fO then
    let blocks := dExt k.dO 0 / 32
    let rows := idxAll ((dExts k.dO).drop 1)
    let one := fun (l : Nat) (row : List Nat) (j : Nat) =>
      let ixs := (List.range 32).map fun e => (32 * j + e) :: row
      let place := fun (e : Nat) => 32 * (j + blocks * l) + e
      let (sc, codes) := mxBlock fO rnd (fun e => s.draw (4 * place e + 1))
        (ixs.zipIdx.map fun (ix, e) => resVal fO (f ix (place e)))
      (ixs.zip codes, (j + blocks * l, sc))
    let all := rows.zipIdx.flatMap fun (row, l) => (List.range blocks).map (one l row)
    (all.flatMap (·.1), all.map (·.2))
  else
    ((idxAll (dExts k.dO)).zipIdx.map fun (ix, n) => (ix, match f ix n with
      | .val v => conv fO rnd (s.draw (4 * n + 1)) ovf v
      | .code c => c), [])

/-! ### Products (R127 to R134, R148 to R154) -/

/-- The pairs of indices of A and of stored B along one reduction run, from their indices behind dimension 0; with
sparsity the metadata names A's index (R125). `base` is A's first channel. -/
def runPairs (s : State) (c : Nat) (dB : Desc) (len base : Nat) (restA restB : List Nat) : List (List Nat × List Nat) :=
  if dSparse dB then
    (List.range (len / 4)).flatMap fun g =>
      let nib := s.sparseCode c dB g (rowNum ((dExts dB).drop 1) restB)
      [((base + 4 * g + nib % 4) :: restA, (2 * g) :: restB),
       ((base + 4 * g + nib / 4 % 4) :: restA, (2 * g + 1) :: restB)]
  else (List.range len).map fun a => ((base + a) :: restA, a :: restB)

/-- The input row or column of a tap, if it is no padding (R151). -/
def tapAt (y stride pad dil tap ext : Nat) : Option Nat :=
  let r : Int := (y * stride + tap * dil : Nat) - (pad : Int)
  if 0 ≤ r ∧ r < ext then some r.toNat else none

/-- The taps of an output position: window row and column, input row and column. -/
def taps (k : KIn) (x y : Nat) : List (Nat × Nat × Nat × Nat) :=
  (List.range (winH k)).flatMap fun a => (List.range (winW k)).filterMap fun b =>
    match tapAt y (pf k 80 16) (pf k 144 16) (pf k 112 16) a (dDim k.dA 2),
          tapAt x (pf k 96 16) (pf k 176 16) (pf k 128 16) b (dDim k.dA 1) with
    | some row, some col => some (a, b, row, col)
    | _, _ => none

/-- The pairs multiplied for result index `ix`, dimension 0 counting results (R127, R148). -/
def mulPairs (s : State) (c : Nat) (k : KIn) (ix : List Nat) : List (List Nat × List Nat) :=
  match k.mn with
  | .kmatmul | .ksmatmul =>
    let n := ix.headD 0
    let m := (ix.drop 1).headD 0
    let b := ix.drop 2
    s.runPairs c k.dB (dDim k.dA 0) 0 (m :: (clampIx k.dA (0 :: 0 :: b)).drop 2) (n :: (clampIx k.dB (0 :: 0 :: b)).drop 2)
  | _ =>
    let co := ix.headD 0
    let x := (ix.drop 1).headD 0
    let y := (ix.drop 2).headD 0
    let nb := (ix.drop 3).headD 0
    let cg := dDim k.dB 0
    let o := co / Nat.max (dDim k.dB 3 / groups k) 1
    (taps k x y).flatMap fun (a, b, row, col) => s.runPairs c k.dB cg (o * cg) [col, row, nb] [b, a, co]

/-- The reduction length (R138, R154). -/
def mulLen (k : KIn) : Nat :=
  match k.mn with
  | .kmatmul | .ksmatmul => dDim k.dA 0
  | _ => winH k * winW k * dDim k.dB 0

/-- The index of a bias: DC's own, or the output channel (R127, R148). -/
def biasIx (k : KIn) (ix : List Nat) : List Nat :=
  match k.mn with
  | .kmatmul | .ksmatmul => clampIx k.dC ix
  | _ => [ix.headD 0]

/-- The bias of a result. -/
def biasAt (s : State) (c : Nat) (k : KIn) (ix : List Nat) : FV := if hasC k then s.valAt c k.dC (biasIx k ix) else .fin 0

/-- One product (R134): exact, or rounded for FP32 by FP32. -/
def prod (fA : Nat) (a b : FV) : FV := if fA = 0x0D then fMul a b else fMulExact a b

/-- Scaling and ACCUM of the floating path (R130): the old value, where it is added. -/
def scaled (k : KIn) (v : FV) (old : Option FV) : FV :=
  let r := fMul v (f32Of (pf k 0 32))
  match old with
  | some w => fAdd r w
  | none => r

/-- A whole number of an FV. -/
def wholeOf (v : FV) : Int := fvVal v / one300

/-- A result of a product that is not complex (R130). -/
def mulRes (s : State) (c : Nat) (k : KIn) (ix : List Nat) (n : Nat) : KRes :=
  let ps := s.mulPairs c k ix
  let terms := ps.map fun p => prod (dFmt k.dA) (s.valAt c k.dA p.1) (s.valAt c k.dB p.2)
  let bias := s.biasAt c k ix
  let fO := dFmt k.dO
  if intPath k then
    let v := redInt (terms.map wholeOf) (wholeOf bias) (s.draw (4 * n))
    if plainScale k then
      if isInt fO then .code (intCode fO (satInt fO (if k.o.accum then v + wholeOf (s.valAt c k.dO ix) else v)))
      else .val (fvInt v)
    else
      let r := fMul (f32 (v * one300)) (f32Of (pf k 0 32))
      .val (if isInt fO then fAdd r (f32 (sext 32 (pf k 32 32) * one300)) else r)
  else
    let v := redFloat (mulLen k) (dFmt k.dA == 0x0D) terms bias (s.draw (4 * n))
    .val (scaled k v (if k.o.accum then some (s.valAt c k.dO ix) else none))

/-- The components of a complex element: CFP16, or interleaved FP32 (R129). -/
def cplxAt (s : State) (c : Nat) (d : Desc) (ix : List Nat) : FV × FV :=
  if dFmt d = 0x11 then
    let w := s.elemCode c d ix
    (codeVal 0x0C (w % 65536), codeVal 0x0C (w / 65536))
  else
    let i0 := ix.headD 0
    (s.valAt c d ((2 * i0) :: ix.drop 1), s.valAt c d ((2 * i0 + 1) :: ix.drop 1))

/-- A complex result (R131), from the index that counts results. -/
def cplxRes (s : State) (c : Nat) (k : KIn) (ix : List Nat) (n : Nat) : FV × FV :=
  let conj := pf k 65 1 == 1
  let ps := (s.mulPairs c k ix).map fun p =>
    let b := s.cplxAt c k.dB p.2
    (s.cplxAt c k.dA p.1, (b.1, if conj then fNeg b.2 else b.2))
  let bias := if hasC k then s.cplxAt c k.dC (biasIx k ix) else (.fin 0, .fin 0)
  let re := ps.flatMap fun p => [fMulExact p.1.1 p.2.1, fNeg (fMulExact p.1.2 p.2.2)]
  let im := ps.flatMap fun p => [fMulExact p.1.2 p.2.1, fMulExact p.1.1 p.2.2]
  let old := if k.o.accum then some (s.cplxAt c k.dO ix) else none
  (scaled k (redFloat (2 * mulLen k) false re bias.1 (s.draw (4 * n))) (old.map (·.1)),
   scaled k (redFloat (2 * mulLen k) false im bias.2 (s.draw (4 * n + 2))) (old.map (·.2)))

/-- Complex output: CFP16, or interleaved FP32. -/
def cplxOut (s : State) (k : KIn) (f : List Nat → Nat → FV × FV) : KOut :=
  let rnd := k.o.rnd.val
  if dFmt k.dO = 0x11 then
    ((idxAll (dExts k.dO)).zipIdx.map fun (ix, n) =>
      let v := f ix n
      (ix, conv 0x0C rnd (s.draw (4 * n + 1)) false v.1 + 65536 * conv 0x0C rnd (s.draw (4 * n + 3)) false v.2), [])
  else
    let exts := (dExt k.dO 0 / 2) :: (dExts k.dO).drop 1
    ((idxAll exts).zipIdx.flatMap fun (ix, n) =>
      let v := f ix n
      [((2 * ix.headD 0) :: ix.drop 1, conv 0x0D rnd (s.draw (4 * n + 1)) false v.1),
       ((2 * ix.headD 0 + 1) :: ix.drop 1, conv 0x0D rnd (s.draw (4 * n + 3)) false v.2)], [])

/-- kmatmul, kconv, ksmatmul, ksconv. -/
def mulOut (s : State) (c : Nat) (k : KIn) : KOut :=
  if k.o.cplx then s.cplxOut k (s.cplxRes c k) else s.outAll k (s.mulRes c k)

/-! ### Pooling and reduction (R143, R155 to R157) -/

/-- The real elements of a pooling window. -/
def poolIxs (k : KIn) (ix : List Nat) : List (List Nat) :=
  (taps k ((ix.drop 1).headD 0) ((ix.drop 2).headD 0)).map fun (_, _, row, col) => [ix.headD 0, col, row, (ix.drop 3).headD 0]

/-- The nearest FP32 quotient by a whole number. -/
def fDivInt (a : FV) (n : Nat) : FV :=
  match a with
  | .fin v => if n = 0 then .nan else f32 (v.tdiv n)
  | a => if n = 0 then .nan else a

/-- The largest of some values. -/
def maxAll (l : List FV) : FV := l.foldl fMax (.inf true)
/-- The smallest of some values. -/
def minAll (l : List FV) : FV := l.foldl fMin (.inf false)

/-- kpool. -/
def poolRes (s : State) (c : Nat) (k : KIn) (ix : List Nat) (n : Nat) : KRes :=
  let vs := (poolIxs k ix).map fun a => gateIn (s.valAt c k.dA a)
  if k.o.imm = 0 then
    if vs.isEmpty then smallest (dFmt k.dO) else .val (maxAll vs)
  else if vs.isEmpty then .val (.fin 0)
  else
    let m := if pf k 66 1 = 1 then winH k * winW k else vs.length
    .val (fDiv (redFloat vs.length false vs (.fin 0) (s.draw (4 * n))) (fvInt m) (s.draw (4 * n + 2)))

/-- The indices of DA reduced into one output (R143). -/
def reduceIxs (k : KIn) (ix : List Nat) : List (List Nat) :=
  let ax := pf k 0 6
  idxAll ((List.range (dRank k.dA)).map fun j => if bitAt ax j then dExt k.dA j else 1) |>.map fun a =>
    (List.range (dRank k.dA)).map fun j => if bitAt ax j then a.getD j 0 else ix.getD j 0

/-- kreduce. -/
def reduceRes (s : State) (c : Nat) (k : KIn) (ix : List Nat) (n : Nat) : KRes :=
  let vs := (reduceIxs k ix).map fun a => gateIn (s.valAt c k.dA a)
  let fO := dFmt k.dO
  let old := if k.o.accum then some (gateIn (s.valAt c k.dO ix)) else none
  let sum := redFloat vs.length false vs (.fin 0) (s.draw (4 * n))
  let join := fun (g : FV → FV → FV) (v : FV) => match old with
    | some w => KRes.val (g v w)
    | none => .val v
  if k.o.imm = 0 then join fAdd sum
  else if k.o.imm = 3 then join fAdd (if vs.isEmpty then .nan else fDivInt sum vs.length)
  else if vs.isEmpty ∧ old.isNone then (if k.o.imm = 1 then smallest fO else largest fO)
  else if k.o.imm = 1 then join fMax (maxAll vs) else join fMin (minAll vs)

/-! ### The gate pipeline (R140 to R145, R160, R179, R209) -/

/-- An activation function (Table 4-15, R141); a function of Table 5-7 with a bound of 2 ulp is drawn within it (R145;
assumption 2). -/
def actFn (fn : Nat) (slope x : FV) (draw : Nat) : FV :=
  match x with
  | .nan => .nan
  | x =>
    match fn with
    | 0 => x
    | 1 => if fvNeg x then .fin 0 else x
    | 2 => if fvNeg x && x != .negZero then fMul slope x else x
    | f =>
      let atInf := fun (neg : Bool) => match f with
        | 3 | 4 => if neg then FV.negZero else .inf false
        | 5 => if neg then .fin 0 else fvInt 1
        | 6 => fvInt (if neg then -1 else 1)
        | _ => if neg then .fin 0 else .inf false
      match x with
      | .inf neg => atInf neg
      | x => let y := uAct f (fvVal x); openNear y (actTol y) draw

/-- kact (R106, R141): the function codes of Table 4-15. -/
def actRes (s : State) (c : Nat) (k : KIn) (ix : List Nat) (n : Nat) : KRes :=
  .val (actFn k.o.imm.toNat (f32Of (pf k 0 32)) (gateIn (s.valAt c k.dA (clampIx k.dA ix))) (s.draw (4 * n)))

/-- keltw. -/
def eltwRes (s : State) (c : Nat) (k : KIn) (ix : List Nat) (n : Nat) : KRes :=
  let a := gateIn (s.valAt c k.dA (clampIx k.dA ix))
  let b := gateIn (s.valAt c k.dB (clampIx k.dB ix))
  .val (match k.o.imm.toNat with
    | 0 => fAdd a b
    | 1 => fAdd a (fNeg b)
    | 2 => fMul a b
    | 3 => fMax a b
    | 4 => fMin a b
    | _ => fDiv a b (s.draw (4 * n)))

/-- The largest y of `n` bits below 2^top with y² v at most one. -/
def rsqrtBits (v : Nat) : Nat → Nat → Nat → Nat
  | 0, _, y => y
  | n + 1, bit, y =>
    let y' := y + pow2 bit
    rsqrtBits v n (bit - 1) (if y' * y' * v ≤ pow2 450 * pow2 450 then y' else y)

/-- The reciprocal square root within 2 ulp (Table 5-7; assumption 2). -/
def fRsqrt (v : FV) (draw : Nat) : FV :=
  match v with
  | .nan => .nan
  | .inf true => .nan
  | .inf false => .fin 0
  | .negZero => .inf true
  | .fin a =>
    if a = 0 then .inf false else if a < 0 then .nan
    else
      let near := f32 (rsqrtBits a.toNat 180 366 0)
      match f32Of (draw % 2 ^ 32) with
      | .fin y =>
        let u := 2 * ulp32 y
        if decide (u ≤ y) && decide ((y - u) * (y - u) * a ≤ one300 * one300 * one300)
            && decide (one300 * one300 * one300 ≤ (y + u) * (y + u) * a) then .fin y else near
      | _ => near

/-- knorm (R142): the row's mean and the factor, then each element. -/
def normRes (s : State) (c : Nat) (k : KIn) (ix : List Nat) (_ : Nat) : KRes :=
  let m := dExt k.dA 0
  let row := ix.drop 1
  let l := rowNum ((dExts k.dA).drop 1) row
  let d := fun (j : Nat) => s.draw (4 * (m * l) + 2 ^ 40 * (j + 1))
  let xs := (List.range m).map fun a => gateIn (s.valAt c k.dA (a :: row))
  let mean := if k.o.imm = 0 then fDivInt (redFloat m false xs (.fin 0) (d 0)) m else .fin 0
  let ys := xs.map fun x => fAdd x (fNeg mean)
  let var := fDivInt (redFloat m false (ys.map fun y => fMul y y) (.fin 0) (d 1)) m
  let r := fRsqrt (fAdd var (f32Of (pf k 0 32))) (d 2)
  let y := fMul (ys.getD (ix.headD 0) .nan) r
  let y := if hasB k then fMul y (s.valAt c k.dB [ix.headD 0]) else y
  .val (if hasC k then fAdd y (s.valAt c k.dC [ix.headD 0]) else y)

/-- ksoftmax (R179, R180), with SCALE × x exact. -/
def softmaxRes (s : State) (c : Nat) (k : KIn) (ix : List Nat) (n : Nat) : KRes :=
  let xs := (List.range (dExt k.dA 0)).map fun a => fMulExact (f32Of (pf k 0 32)) (gateIn (s.valAt c k.dA (a :: ix.drop 1)))
  .val (if xs.any fun v => v == .nan || v == .inf false then .nan
    else softVal xs (ix.headD 0) (pf k 32 1 == 1) (s.draw (4 * n)))

/-- The new state of one column of a gate set (Table 8-1): pre-activations, carried state, draws. -/
def cellStep (gs h : Nat) (p st : Nat → FV) (dr : Nat → Nat) : Nat → FV := fun a =>
  let sig := fun (v : FV) (d : Nat) => actFn 5 (.fin 0) v (dr d)
  let tanh := fun (v : FV) (d : Nat) => actFn 6 (.fin 0) v (dr d)
  let comp := fun (v : FV) => fAdd (fvInt 1) (fNeg v)
  let e := a % Nat.max h 1
  let g := fun (j : Nat) => p (j * h + e)
  match gs with
  | 0 =>
    let c' := fAdd (fMul (sig (g 1) (8 * e)) (st (h + e))) (fMul (sig (g 0) (8 * e + 1)) (tanh (g 2) (8 * e + 2)))
    if a < h then fMul (sig (g 3) (8 * e + 3)) (tanh c' (8 * e + 4)) else c'
  | 1 =>
    let n := tanh (fAdd (g 2) (fMul (sig (g 0) (8 * e)) (g 3))) (8 * e + 1)
    let z := sig (g 1) (8 * e + 2)
    fAdd (fMul (comp z) n) (fMul z (st e))
  | _ =>
    let al := sig (g 0) (8 * e)
    fAdd (fMul al (st e)) (fMul (comp al) (g 1))

/-- Width multiplier of the carried state (Table 8-1). -/
def sigmaW (gs : Nat) : Nat := if gs = 0 then 2 else 1

/-- A bias of BIAS_VA, 0 where it is 0 (Table 8-3). -/
def gateBias (s : State) (c : Nat) (k : KIn) (j : Nat) : FV :=
  let va := pf k 128 48
  if va = 0 then .fin 0 else f32Of (ofBytes ((List.range 4).map fun b => BitVec.ofNat 8 (s.ledByte c (BitVec.ofNat 64 (va + 4 * j + b)))))

/-- kgates (R209). -/
def gatesRes (s : State) (c : Nat) (k : KIn) (ix : List Nat) (_ : Nat) : KRes :=
  let gs := k.o.imm.toNat
  let h := dExt k.dA 0 / gateW gs
  let col := (ix.drop 1).headD 0
  let p := fun (j : Nat) => fAdd (gateIn (s.valAt c k.dA [j, col])) (s.gateBias c k j)
  let st := fun (j : Nat) => gateIn (s.valAt c k.dB [j, col])
  .val (cellStep gs h p st (fun j => s.draw (2 ^ 40 + 8 * h * col + j)) (ix.headD 0))

/-- The index of a channel argmax (R160). -/
def argmaxOf (vs : List FV) : Int :=
  match vs.zipIdx with
  | [] => -1
  | (v0, _) :: t =>
    if vs.any (· == .nan) then vs.idxOf FV.nan
    else ((t.foldl (fun (b : FV × Nat) e => if larger e.1 b.1 then e else b) (v0, 0)).2 : Nat)

/-- kargmax and ksargmax. -/
def argmaxRes (s : State) (c : Nat) (k : KIn) (ix : List Nat) (_ : Nat) : KRes :=
  .code (intCode (dFmt k.dO) (argmaxOf ((List.range (dExt k.dA 0)).map fun a => s.valAt c k.dA (a :: ix.drop 1))))

/-- kcvt (R144). -/
def cvtOut (s : State) (c : Nat) (k : KIn) : KOut :=
  if dFmt k.dA = 0x11 ∨ dFmt k.dO = 0x11 then s.cplxOut k fun ix _ => s.cplxAt c k.dA ix
  else s.outAll k fun ix _ => .val (gateIn (s.valAt c k.dA ix))

/-- What an arithmetic kernel writes. -/
def calcOut (s : State) (c : Nat) (k : KIn) : KOut :=
  match k.mn with
  | .kmatmul | .kconv | .ksmatmul | .ksconv => s.mulOut c k
  | .kpool => s.outAll k (s.poolRes c k)
  | .kreduce => s.outAll k (s.reduceRes c k)
  | .kact => s.outAll k (s.actRes c k)
  | .keltw => s.outAll k (s.eltwRes c k)
  | .knorm => s.outAll k (s.normRes c k)
  | .ksoftmax => s.outAll k (s.softmaxRes c k)
  | .kgates => s.outAll k (s.gatesRes c k)
  | .kargmax | .ksargmax => s.outAll k (s.argmaxRes c k)
  | .kcvt => s.cvtOut c k
  | _ => ([], [])

/-! ### The bytes an arithmetic kernel accesses (R153) -/

/-- The bytes of some elements with their scales and, with SPARSE, all metadata. -/
def usedBytes (d : Desc) (ixs : List (List Nat)) : List Int :=
  if ixs.isEmpty then [] else
  elemsBytes d ixs ++ (if isMx (dFmt d) then ixs.map fun ix =>
    (dBase d : Int) + 64 * dScale d + ((ix.headD 0 / 32 + dExt d 0 / 32 * rowNum ((dExts d).drop 1) (ix.drop 1) : Nat) : Int) else [])
    ++ sparseBytes d

/-- The indices of DA that some tap of some window names (R153). -/
def windowIxs (k : KIn) : List (List Nat) :=
  let pos := (List.range (outH k)).flatMap fun y => (List.range (outW k)).flatMap fun x =>
    (taps k x y).map fun (_, _, row, col) => (col, row)
  (pos.eraseDups).flatMap fun (col, row) =>
    (List.range (dDim k.dA 3)).flatMap fun nb => (List.range (dDim k.dA 0)).map fun ch => [ch, col, row, nb]

/-- What is read of DA. -/
def readA (k : KIn) : List Int :=
  match k.mn with
  | .kconv | .ksconv | .kpool => usedBytes k.dA (windowIxs k)
  | _ => dBytes k.dA

/-- DO has no element. -/
def emptyOutK (k : KIn) : Bool := dEmpty k.dO

/-- The bytes of the biases of a kgates, in the virtual range (Table 8-3). -/
def gateBiasBytes (k : KIn) : List Int :=
  if k.mn = .kgates ∧ pf k 128 48 ≠ 0 then (List.range (4 * dExt k.dA 0)).map fun b => ((pf k 128 48 + b : Nat) : Int) else []

/-- The accesses of an arithmetic kernel: each operand's descriptor, bytes and direction, DO read as well under ACCUM; none
where DO is empty (R130, R132, R152). -/
def calcAcc (k : KIn) : List (Desc × List Int × Bool) :=
  if emptyOutK k then [] else
  [(k.dA, readA k, false)] ++ (if hasB k then [(k.dB, dBytes k.dB, false)] else [])
    ++ (if hasC k then [(k.dC, dBytes k.dC, false)] else []) ++ [(dSet k.dA 57 2 0, gateBiasBytes k, false)]
    ++ (if k.o.accum then [(k.dO, dBytes k.dO, false)] else []) ++ [(k.dO, dBytes k.dO, true)]

end State

end Sys2Proof.Machine
end

