-- ==== Sys2Proof/Machine/Khurdle.lean ====
section
/-!
DEFINITION. The Hurdle kernels and commands (14): query batches, ranking, the finish check, map updates, the enable, the
stop Stride and memory errors.
-/

namespace Sys2Proof.Machine

open Sys2Proof

/-- What a kernel of the Hurdle or Fusion unit comes to: the bytes it writes to the start of DO, other spans of its
context's range it reads, and the state but for DO. -/
structure BOut where
  dst : List Nat
  reads : List (W64 × Nat)
  st : State

/-- A number as bytes. -/
def nBytes (n v : Nat) : List Nat := (List.range n).map fun k => v / 256 ^ k % 256

/-- Some bytes of 0. -/
def zeros (n : Nat) : List Nat := List.replicate n 0

namespace State

/-- Byte `i` of a rank-1 UINT8 operand; one behind its end holds a value left open (assumption 2). -/
def listByte (s : State) (c : Nat) (d : Desc) (i : Nat) : Nat :=
  if i < dExt d 0 then s.elemCode c d [i] else s.draw (2 ^ 60 + i) % 256

/-- A number from a rank-1 UINT8 operand. -/
def listNat (s : State) (c : Nat) (d : Desc) (off n : Nat) : Nat :=
  (List.range n).foldr (fun k acc => s.listByte c d (off + k) + 256 * acc) 0

/-- Bytes of a context's virtual range. -/
def ctxBytes (s : State) (c : Nat) (va : Nat) (n : Nat) : List Byte :=
  (List.range n).map fun k => BitVec.ofNat 8 (s.ledByte c (BitVec.ofNat 64 (va + k)))

/-- MAP_EPOCH. -/
def epoch (s : State) : Nat := s.fld Reg.HURDLE_EPOCH_EPOCH

/-- The counts of a batch that ends (R343, HURDLE_BATCHES). -/
def batchEnd (s : State) (a : HAcc) : State := (s.hurdleCount a).rise Reg.HURDLE_BATCHES_ALL

/-! ### khquery (R345) -/

/-- The measures of n spheres in order. -/
def queryAll (s : State) (p : HPar) (get : Nat → Sphere) : Nat → Nat → HAcc → List HClear × HAcc
  | 0, _, a => ([], a)
  | fuel + 1, n, a =>
    let (c, a) := s.sphereClear p (get n) a
    let (l, a) := s.queryAll p get fuel (n + 1) a
    (c :: l, a)

/-- khquery. -/
def hQuery (s : State) (c : Nat) (k : KIn) : BOut :=
  let n := dExt k.dA 1
  let at_ := fun (j i : Nat) => f32Of (s.elemCode c k.dA [j, i])
  let (l, a) := s.queryAll (hPar k.blk) (fun i => ⟨at_ 0 i, at_ 1 i, at_ 2 i, at_ 3 i⟩) n 0 {}
  { dst := nBytes 8 s.epoch ++ nBytes 8 a.tests ++ nBytes 4 n ++ nBytes 4 a.fell ++ zeros 40
      ++ l.flatMap fun e => nBytes 4 (f32Code e.clear) ++ [e.src, 0, 0, 0]
    reads := [], st := s.batchEnd a }

/-! ### Lattice and candidates (R346, R347) -/

/-- A Stride of a lattice: none where it breaks R346; and the spans read to find it. -/
def strideOf (s : State) (c lat n : Nat) : Option (Nat × List Byte) × List (W64 × Nat) :=
  let va := fun (o : Nat) => BitVec.ofNat 64 (lat + o)
  let count := sliceNat (s.ctxBytes c lat 4) 0 4
  if count = 0 ∨ 65536 < count ∨ count ≤ n then (none, [(va 0, 4)]) else
  let off := sliceNat (s.ctxBytes c (lat + 64 + 8 * n) 8) 0 8
  let r := [(va 0, 4), (va (64 + 8 * n), 8)]
  if off % 16 ≠ 0 then (none, r) else
  let head := s.ctxBytes c (lat + off) 16
  let r := r ++ [(va off, 16)]
  match strideCount head with
  | none => (none, r)
  | some _ => (some (lat + off, head), r)

/-- The result of a candidate. -/
structure Cand where
  stride : Nat
  score : FV
  v : HVerify
  bad : Bool
  feasible : Bool
  cand : Nat
  deriving DecidableEq, Repr

/-- Verify a Stride of a lattice at a pose: its outcome, END and COST of its record; none with BAD_INDEX. -/
def verifyStride (s : State) (c lat n : Nat) (p : HPar) (pose : Pose) (a : HAcc) :
    Option (HVerify × Nat × FV) × HAcc × List (W64 × Nat) :=
  match s.strideOf c lat n with
  | (none, r) => (none, a, r)
  | (some (va, head), r) =>
    let m := (strideCount head).getD 0
    let (v, a) := s.verifyFrom p pose (fun i => sphereOf (s.ctxBytes c (va + 16 + 16 * i) 16)) m 0 {} a
    (some (v, sliceNat head 8 4, f32Of (sliceNat head 4 4)), a, r ++ [(BitVec.ofNat 64 (va + 16), 16 * v.count)])

/-- The rank of a score; a score that is no number ranks at a value left open (assumption 2). -/
def scoreKey (s : State) (e : Cand) : FV := match e.score with
  | .nan => fOpen (s.draw (2 ^ 61 + e.cand))
  | v => v

/-- Evaluate the candidates from index `i` on. -/
def rankFrom (s : State) (c : Nat) (k : KIn) (p : HPar) (pose : Pose) : Nat → Nat → HAcc → List Cand × HAcc × List (W64 × Nat)
  | 0, _, a => ([], a, [])
  | fuel + 1, i, a =>
    let n := s.listNat c k.dA (16 * i) 4
    let bias := f32Of (s.listNat c k.dA (16 * i + 4) 4)
    let (r, a, rd) := s.verifyStride c (pf k 576 48) n p pose a
    let e : Cand := match r with
      | none => { stride := n, score := fOpen (s.draw (2 ^ 62 + 2 * i)), v := { clear := fOpen (s.draw (2 ^ 62 + 2 * i + 1)) },
                  bad := true, feasible := false, cand := i }
      | some (v, _, cost) =>
        let short := fMax (.fin 0) (fAdd (f32Of (pf k 416 32)) (fNeg v.clear))
        { stride := n, score := fAdd (fAdd cost bias) (fMul (f32Of (pf k 448 32)) short), v := v, bad := false,
          feasible := v.ok p, cand := i }
    let (l, a, rds) := s.rankFrom c k p pose fuel (i + 1) a
    (e :: l, a, rd ++ rds)

/-- An entry of a ranked list (R347). -/
def candBytes (e : Cand) : List Nat :=
  nBytes 4 e.stride ++ nBytes 4 (f32Code e.score) ++ nBytes 4 (f32Code e.v.clear) ++ nBytes 2 e.cand
    ++ [b2n e.feasible + 2 * b2n e.v.fell + 4 * b2n e.v.unresolved + 8 * b2n e.bad, 0]

/-- khstride (R347). -/
def hStride (s : State) (c : Nat) (k : KIn) : BOut :=
  let n := dExt k.dA 0 / 16
  let p := hPar k.blk
  let ws := (List.range 12).map fun i => BitVec.ofNat 32 (pf k (32 * i) 32)
  let (l, a, rd) := s.rankFrom c k p (poseOf ws) n 0 {}
  let good := sortBy (fun (x y : Cand) => larger (s.scoreKey y) (s.scoreKey x)) (l.filter (·.feasible))
  { dst := nBytes 8 s.epoch ++ nBytes 8 a.tests ++ nBytes 4 n ++ nBytes 4 good.length ++ nBytes 8 (pf k 576 48)
      ++ ws.flatMap (fun w => nBytes 4 w.toNat) ++ zeros 48
      ++ (good ++ l.filter fun e => !e.feasible).flatMap candBytes
    reads := rd, st := s.batchEnd a }

/-! ### khfinish (R350) -/

/-- The search of R350 for an output among the list's entries. -/
structure Find where
  tried : Nat := 0
  cut : Bool := false
  /-- rank, Stride and verification of the entry that passes -/
  hit : Option (Nat × HVerify × Nat) := none
  acc : HAcc := {}
  reads : List (W64 × Nat) := []

/-- The loop of R350. `cutAt` says of a rank whether the deadline has come when it is checked. -/
def findFrom (s : State) (c : Nat) (k : KIn) (p : HPar) (pose : Pose) (lat count alts : Nat) (cutAt : Nat → Bool) :
    Nat → Nat → Find → Find
  | 0, _, f => f
  | fuel + 1, i, f =>
    if alts < f.tried ∨ count ≤ i then f
    else if s.listByte c k.dA (128 + 16 * i + 14) % 2 = 0 then s.findFrom c k p pose lat count alts cutAt fuel (i + 1) f
    else if cutAt i then { f with cut := true }
    else
      let (r, a, rd) := s.verifyStride c lat (s.listNat c k.dA (128 + 16 * i) 4) p pose f.acc
      let f := { f with tried := f.tried + 1, acc := a, reads := f.reads ++ rd }
      match r with
      | some (v, fin, _) => if v.ok p then { f with hit := some (i, v, fin) }
        else s.findFrom c k p pose lat count alts cutAt fuel (i + 1) f
      | none => s.findFrom c k p pose lat count alts cutAt fuel (i + 1) f

/-- The deadline check at a rank: certain where the Lane had reached the limit as the batch started, or has not as it
completes; otherwise left open (assumption 2). -/
def finishCut (s : State) (k : KIn) (start : W64) (i : Nat) : Bool :=
  let limit := BitVec.ofNat 64 (pf k 640 64) - BitVec.ofNat 64 (2 ^ 32 * pf k 736 32)
  let now := s.laneVal (pf k 704 4)
  if reached start limit then true else if !reached now limit then false else Config.freeBit s.freeCtr i

/-- khfinish (R350). -/
def hFinish (s : State) (c : Nat) (k : KIn) (start : W64) : BOut :=
  let p := hPar k.blk
  let le := s.listNat c k.dA 0 8
  let ws := (List.range 12).map fun i => BitVec.ofNat 32 (s.listNat c k.dA (32 + 4 * i) 4)
  let pose := poseOf ws
  let count := Nat.min (s.listNat c k.dA 16 4) ((dExt k.dA 0 - 128) / 16)
  let f := s.findFrom c k p pose (s.listNat c k.dA 24 8) count (pf k 708 4) (s.finishCut k start) count (pf k 720 16) {}
  let old := b2n (decide (0 < (BitVec.ofNat 64 s.epoch - BitVec.ofNat 64 le).toInt)) * 8 + b2n f.cut * 2
  let (stride, source, flags, v, cand, fin, a) : Nat × Nat × Nat × HVerify × Nat × Nat × HAcc := match f.hit with
    | some (i, v, fin) =>
      (s.listNat c k.dA (128 + 16 * i) 4, f.tried - 1, 0, v, s.listNat c k.dA (128 + 16 * i + 12) 2, fin, f.acc)
    | none =>
      let (v, a) := s.verifyStop p pose f.acc
      (s.fld Reg.HURDLE_STOP_STAT_INDEX, 0xFF, b2n (v.ok p), v, 0xFFFF, sliceNat s.hurdle.stop 8 4, a)
  let st := s.batchEnd a
  let st := if source = 0xFF then st.bump Reg.HURDLE_FINISH_CNT_STOP
    else if 0 < source then st.bump Reg.HURDLE_FINISH_CNT_ALTERNATE else st
  let st := { st with hurdle := { st.hurdle with pose := some (ws, k.blk) } }
  { dst := nBytes 4 stride ++ [source, flags + old + 4 * b2n v.fell, f.tried, 0] ++ nBytes 4 (f32Code v.clear) ++ zeros 4
      ++ nBytes 8 s.epoch ++ nBytes 8 le ++ nBytes 8 a.tests ++ nBytes 2 cand ++ zeros 2 ++ nBytes 4 fin ++ zeros 16
    reads := f.reads, st := st.setFld Reg.HURDLE_STOP_STAT_VALID 1 }

/-! ### khmap (R341) -/

/-- One edit (R341, steps 2 and 3). -/
def hEdit (c : Nat) (k : KIn) (s : State) (e : Nat) : State :=
  let g := fun (o n : Nat) => s.listNat c k.dA (8 * e + o) n
  let (x, y, z, op, lv) := (g 0 2, g 2 2, g 4 2, g 6 1, g 7 1)
  let levels := s.fld Reg.HURDLE_MAP_CFG_LEVELS
  let out := fun (v : Nat) => decide (2 ^ levels ≤ v)
  if out x || out y || out z || decide (levels ≤ lv) || decide (2 < op) then s.bump Reg.HURDLE_MAP_STAT_SKIPPED else
  let (t, co) := s.hurdle.tree.put (kindOf op) (leafPath levels lv x y z) s.nodesFree true
  if co && op == 0 then s else
  let s := s.setTree t
  if co then s.bump Reg.HURDLE_MAP_STAT_COARSENED else s

/-- khmap (R341). -/
def hMap (s : State) (c : Nat) (k : KIn) : BOut :=
  let s0 := if pf k 1 1 = 1 then
      (s.setTree (.cube (kindOf (pf k 2 2)))).setFld Reg.HURDLE_STAT_TREE_BROKEN 0 else s
  let s1 := (List.range (dExt k.dA 0 / 8)).foldl (hEdit c k) s0
  let s2 := if pf k 0 1 = 1 then
      (s1.setFld Reg.HURDLE_SDF_CFG_ACTIVE (1 - s1.fld Reg.HURDLE_SDF_CFG_ACTIVE)).setFld Reg.HURDLE_ERR_SDF_BROKEN 0 else s1
  { dst := [], reads := [], st := ((s2.rise Reg.HURDLE_EPOCH_EPOCH).stopVerify).rise Reg.HURDLE_BATCHES_ALL }

/-- What a Hurdle batch comes to. -/
def hurdleOut (s : State) (c : Nat) (k : KIn) (start : W64) : BOut :=
  match k.mn with
  | .khquery => s.hQuery c k
  | .khstride => s.hStride c k
  | .khfinish => s.hFinish c k start
  | _ => s.hMap c k

/-! ### Enable and disable (R338, R339, R353) -/

/-- The map region satisfies R338: Vault frames or DRAM homes, none of them the home of a mapped page. -/
def mapRegionOk (s : State) : Bool :=
  let n := s.fld Reg.HURDLE_MAP_NODES_NODES
  let b := s.fld Reg.HURDLE_MAP_BASE_ADDR * 64
  decide (1 ≤ n) && decide (n ≤ 1048576) &&
    ((List.range ((b + 32 * n - 1) / 65536 - b / 65536 + 1)).all fun k => s.isVdHome (b / 65536 + k)) &&
    !s.anyMapped fun p => decide (b / 65536 ≤ p) && decide (p ≤ (b + 32 * n - 1) / 65536)

/-- A write of HURDLE_CTL with EN = 1 (R339); SRC is written with it. -/
def hurdleEnable (src : Bool) (s : State) : State :=
  let s := s.setFld Reg.HURDLE_CTL_SRC (b2n src)
  if s.flag Reg.HURDLE_CTL_EN then s else
  let lv := s.fld Reg.HURDLE_MAP_CFG_LEVELS
  let mm := s.fld Reg.HURDLE_MAP_CFG_LEAF_MM
  if !s.flag Reg.HURDLE_STOP_STAT_LOADED || decide (lv = 0) || decide (16 < lv) || decide (mm < 2) || decide (64 < mm)
      || !s.mapRegionOk then s.setFld Reg.HURDLE_STAT_CFG_ERR 1
  else (((s.setFld Reg.HURDLE_CTL_EN 1).setTree (.cube .unknown)).rise Reg.HURDLE_EPOCH_EPOCH).pump

/-- The map region holds the nodes in use. -/
def mapFlush (s : State) : State :=
  let b := s.fld Reg.HURDLE_MAP_BASE_ADDR * 64
  (s.hurdle.tree.bytes.zipIdx).foldl (fun (s : State) e => s.setHome (b + e.2) e.1) s

/-- Every Hurdle operation of a context that has not completed goes, without fault (R353). -/
def hurdleDropAll (s : State) : State :=
  let all := s.ctxs.flatMap fun e => (e.2.ops.filter fun o => o.unit == .hurdle && (o.state == .ready || o.state == .running)).map
    fun o => (e.1, o.id)
  all.foldl (fun s q =>
    let s := (s.modCtx q.1 fun x => { x with ops := x.ops.filter fun o => o.id != q.2 }).dropRuns q.1 q.2
    (((s.endTrans q.1 q.2).releaseHolds fun _ p => p == .op q.1 q.2).fenceCheck q.1).promote q.1) s

/-- A write of HURDLE_CTL with EN = 0 (R353). -/
def hurdleDisable (src : Bool) (s : State) : State :=
  let s := s.setFld Reg.HURDLE_CTL_SRC (b2n src)
  if !s.flag Reg.HURDLE_CTL_EN then s else
  let s := (s.mapFlush.setFld Reg.HURDLE_CTL_EN 0).setFld Reg.HURDLE_STAT_NODES_FREE 0
  let s := { s with hurdle := { s.hurdle with tree := .cube .unknown, pose := none } }
  (s.setFld Reg.HURDLE_STOP_STAT_VALID 0).hurdleDropAll.hurdleSettle

/-- A write of HURDLE_STOP_CMD (R349): with EN it waits for the batch in progress. -/
def stopCmd (load : Bool) (index : Nat) (s : State) : State :=
  if !load then s else
  ({ s with hurdle := { s.hurdle with load := some (s.fld Reg.HURDLE_STOP_ADDR_ADDR * 16, index) } } : State).hurdleSettle

/-- BATCH_YIELD (R337): the running query batch gives way to a query batch of a higher class. -/
def batchYield (s : State) : State :=
  match s.hurdleRunning, s.firstOp .hurdle (fun _ => true) with
  | some h, some (k, _, c, id) =>
    let isMap : Bool := match s.opOf c id with
      | some o => o.mn == .khmap
      | none => false
    if s.isMapRun h || isMap || decide (s.runClass h ≤ k) then s
    else ({ s with hurdle := { s.hurdle with runs := s.hurdle.runs.map fun q => if q = h then { q with yielded := true } else q } }
      : State).pump
  | _, _ => s

/-- The unit is there and its domain is out of reset (R4, R22). -/
def hurdleLive (s : State) : Bool := s.present 3 && !s.boot.computeReset

/-- HURDLE_ECC_ERROR (R352). -/
def hurdleEcc (s : State) : HurdleErr → State
  | .corrected => s.bump Reg.HURDLE_ERR_CE_COUNT
  | .cache sdf => (s.setFld Reg.HURDLE_ERR_UE 1).setFld (if sdf then Reg.HURDLE_ERR_SDF_BROKEN else Reg.HURDLE_STAT_TREE_BROKEN) 1
  | .poisoned page =>
    let a := 65536 * page.toNat
    if !s.poisonedAt a || !s.flag Reg.HURDLE_CTL_EN then s else
    let b := s.fld Reg.HURDLE_MAP_BASE_ADDR * 64
    let inMap := decide (b / 65536 ≤ page.toNat) && decide (page.toNat ≤ (b + 32 * s.fld Reg.HURDLE_MAP_NODES_NODES - 1) / 65536)
    let n := 2 * s.fld Reg.HURDLE_SDF_CFG_NX * s.fld Reg.HURDLE_SDF_CFG_NY * s.fld Reg.HURDLE_SDF_CFG_NZ
    let b := s.fld (if s.flag Reg.HURDLE_SDF_CFG_ACTIVE then Reg.HURDLE_SDF_BASE1_ADDR else Reg.HURDLE_SDF_BASE0_ADDR) * 64
    let inSdf := decide (b / 65536 ≤ page.toNat) && decide (65536 * page.toNat < b + n)
    let s := if inMap then s.setFld Reg.HURDLE_STAT_TREE_BROKEN 1 else s
    if inSdf then s.setFld Reg.HURDLE_ERR_SDF_BROKEN 1 else s

end State

open State

/-- HURDLE_ENABLE (R339). -/
def execHurdleEnable (r : Requester) (src : Bool) (s : State) : Host.Outcome State Fault Refusal :=
  .next (s.permit r 4 Reg.HURDLE_CTL fun s => if s.hurdleLive then s.hurdleEnable src else s)

/-- HURDLE_DISABLE (R353). -/
def execHurdleDisable (r : Requester) (src : Bool) (s : State) : Host.Outcome State Fault Refusal :=
  .next (s.permit r 4 Reg.HURDLE_CTL fun s => if s.hurdleLive then s.hurdleDisable src else s)

/-- STOP_STRIDE_LOAD (R349). -/
def execStopStrideLoad (r : Requester) (index : BitVec 16) (s : State) : Host.Outcome State Fault Refusal :=
  .next (s.permit r 4 Reg.HURDLE_STOP_CMD fun s => if s.hurdleLive then s.stopCmd true index.toNat else s)

/-- BATCH_YIELD (R337). -/
def execBatchYield (s : State) : Host.Outcome State Fault Refusal := .next (s.clocked fun s => s.batchYield)

/-- HURDLE_ECC_ERROR (R352). -/
def execHurdleEccError (e : HurdleErr) (s : State) : Host.Outcome State Fault Refusal := .next (s.hurdleEcc e)

end Sys2Proof.Machine
end

