-- ==== Sys2Proof/Machine/Kfusion.lean ====
section
/-!
DEFINITION. The Fusion kernels (13): point transforms, the pose from correspondences, and the Tracker's prediction, update
and out-of-sequence update.
-/

namespace Sys2Proof.Machine

open Sys2Proof

/-! ### FP32 vectors and matrices (R134) -/

/-- A matrix by rows. -/
abbrev Mat := List (List FV)

/-- An inner product, from the first term on. -/
def dotF (a b : List FV) : FV := (List.zipWith fMul a b).foldl fAdd (.fin 0)
/-- Matrix by vector. -/
def mvF (m : Mat) (v : List FV) : List FV := m.map fun r => dotF r v
/-- The transpose, `n` columns. -/
def mtF (m : Mat) (n : Nat) : Mat := (List.range n).map fun j => m.map fun r => r.getD j .nan
/-- Matrix product, `n` columns. -/
def mmF (a b : Mat) (n : Nat) : Mat := let t := mtF b n; a.map fun r => t.map fun c => dotF r c
/-- Sum. -/
def maF (a b : Mat) : Mat := List.zipWith (List.zipWith fAdd) a b
/-- Scaled by a number. -/
def msF (k : FV) (a : Mat) : Mat := a.map fun r => r.map (fMul k)
/-- Negated. -/
def mnF (a : Mat) : Mat := a.map fun r => r.map fNeg
/-- A diagonal matrix. -/
def diagF (d : List FV) : Mat :=
  (List.range d.length).map fun i => (List.range d.length).map fun j => if i = j then d.getD i .nan else .fin 0
/-- The unit matrix. -/
def unitF (n : Nat) : Mat := diagF (List.replicate n (fvInt 1))

/-- FP32 division to nearest. -/
def divF (a b : FV) : FV := fDiv a b 0x7FC00000

/-- One step of the elimination on column `j` of an augmented matrix. -/
def elimCol (m : Mat) (j : Nat) : Mat :=
  let p := m.getD j []
  let p := p.map fun v => divF v (p.getD j .nan)
  (List.range m.length).map fun i =>
    let r := m.getD i []
    if i = j then p else List.zipWith (fun a b => fAdd a (fNeg (fMul (r.getD j .nan) b))) r p

/-- The inverse of a positive definite matrix of `n` rows. -/
def invF (m : Mat) (n : Nat) : Mat :=
  ((List.range n).foldl elimCol (List.zipWith (· ++ ·) m (unitF n))).map fun r => r.drop n

/-! ### kfxform (R328) -/

/-- A value of one link within its bound of an exact value, drawn freely; otherwise the nearest (assumption 2). -/
def linkVal (exact mag : Int) (draw : Nat) : FV :=
  match f32Of (draw % 2 ^ 32) with
  | .fin v => if decide (2 ^ 21 * (v - exact).natAbs ≤ mag.natAbs) then .fin v else f32 exact
  | _ => f32 exact

/-- A point through one link; with `t` absent it is rotated only. -/
def linkMap (r : Nat → FV) (t : Option (Nat → FV)) (p : List FV) (draw : Nat → Nat) : List FV :=
  let g := fun (i : Nat) => p.getD i .nan
  let rows := (List.range 3).map fun i => (List.range 3).map fun j => fMulExact (r (3 * i + j)) (g j)
  let tv := fun (i : Nat) => match t with
    | some f => f i
    | none => .fin 0
  let sums := rows.map fun l => (l.map fvVal).foldl (· + ·) 0
  let mag : Int := (sums.map fun (v : Int) => (v.natAbs : Int)).foldl (· + ·) 0
    + ((List.range 3).map fun i => ((fvVal (tv i)).natAbs : Int)).foldl (· + ·) 0
  (List.range 3).map fun i =>
    let row := rows.getD i []
    if row.all FV.isFin && (tv i).isFin then linkVal (sums.getD i 0 + fvVal (tv i)) mag (draw i)
    else (row.foldl fAdd (.fin 0)) |> fun v => fAdd v (tv i)

namespace State

/-- An FP32 word of the tables a kernel works with. -/
def tabF (s : State) (off : Nat) : FV := f32Of (ofBytes ((List.range 4).map fun k => s.ftab (off + k)))

/-- The tables as a kernel copied them at its start (R326, R330). -/
def withRun (s : State) (run : FRun) : State := { s with fusion := { s.fusion with tables := run.tables } }

/-- The offset of a link: a frame of the bank, or the EGO entry. -/
def linkOff (b f : Nat) : Nat := if f = 64 then 0xA000 else frameOff b f

/-- One point of DA through a chain. -/
def xformPoint (s : State) (t : State) (b : Nat) (chain : List Nat) (n : Nat) (pt : List FV) : List FV :=
  (chain.zipIdx.foldl (fun (p : List FV) (e : Nat × Nat) =>
    let o := linkOff b e.1
    let d := fun (i : Nat) => s.draw (2 ^ 20 * n + 16 * e.2 + i)
    linkMap (fun i => t.tabF (o + 4 * i)) (some fun i => t.tabF (o + 36 + 4 * i)) (p.take 3) d
      ++ if p.length = 6 then linkMap (fun i => t.tabF (o + 4 * i)) none (p.drop 3) (fun i => d (i + 8)) else []) pt)

/-- kfxform: the elements of DO, or none where the chain is broken (R326). -/
def fXform (s : State) (c : Nat) (k : KIn) (run : FRun) : Option KOut :=
  let t := s.withRun run
  match t.chainOf run.bank 4 k.o.imm.toNat with
  | none => none
  | some chain =>
    let w := dExt k.dA 0
    some ((List.range (dExt k.dA 1)).flatMap fun n =>
      let p := s.xformPoint t run.bank chain n ((List.range w).map fun i => s.valAt c k.dA [i, n])
      (List.range w).map fun i => ([i, n], f32Code (p.getD i .nan)), [])

/-! ### kfego (R329) -/

/-- A rotation: orthonormal within 2^-20, and proper. -/
def isRotation (r : List FV) : Bool :=
  let g := fun (i j : Nat) => fvVal (r.getD (3 * i + j) .nan)
  let ok := fun (a b : Nat) =>
    let v : Int := g 0 a * g 0 b + g 1 a * g 1 b + g 2 a * g 2 b - if a = b then one300 * one300 else 0
    decide (2 ^ 20 * v.natAbs ≤ (one300 * one300).natAbs)
  let det := g 0 0 * (g 1 1 * g 2 2 - g 1 2 * g 2 1) - g 0 1 * (g 1 0 * g 2 2 - g 1 2 * g 2 0) + g 0 2 * (g 1 0 * g 2 1 - g 1 1 * g 2 0)
  r.all FV.isFin && (List.range 3).all (fun a => (List.range 3).all fun b => ok a b) && decide (0 < det)

/-- Set the first bytes of the EGO entry. -/
def putEgo (s : State) (bs : List Nat) : State :=
  (bs.zipIdx).foldl (fun s e => s.setFtab (0xA000 + e.2) (BitVec.ofNat 8 e.1)) s

/-- kfego: the record it writes, drawn within R329, and whether a weight is negative (assumption 2). -/
def fEgo (s : State) (c : Nat) (k : KIn) : Bool × BOut :=
  let n := dExt k.dA 1
  let ws := (List.range n).map fun i => s.valAt c k.dA [6, i]
  let r := (List.range 9).map fun i => f32Of (s.draw i % 2 ^ 32)
  let r := if isRotation r then r else [1, 0, 0, 0, 1, 0, 0, 0, 1].map fvInt
  let t := (List.range 3).map fun i => fOpen (s.draw (16 + i))
  let none_ := ws.all fun w => fvVal w = 0 && w.isFin
  let degen := none_ || Config.freeBit s.freeCtr 0
  let upd := pf k 5 1 == 1 && !degen
  let pose := (r ++ t).flatMap fun v => nBytes 4 (f32Code v)
  let sum := if none_ then .fin 0 else fOpen (s.draw 20)
  (ws.any fun w => fvNeg w && w != .negZero,
   { dst := pose ++ nBytes 4 (f32Code (fOpen (s.draw 19))) ++ nBytes 4 (f32Code sum) ++ [b2n degen + 2 * b2n upd] ++ zeros 7
     reads := [], st := if upd then s.putEgo pose else s })

/-! ### The Tracker (R330 to R333) -/

/-- A number that a filter formula gives, as FP32 evaluation in some order gives it (R333; assumption 2). -/
def filt (s : State) (i : Nat) (v : FV) : FV :=
  f32Of (Config.filterWord s.freeCtr i (BitVec.ofNat 32 (f32Code v))).toNat

/-- A word as FP32. -/
def fw (w : W32) : FV := f32Of w.toNat
/-- FP32 as a word. -/
def wf32 (v : FV) : W32 := BitVec.ofNat 32 (f32Code v)

/-- The state of a track in matrices: dimension, x, P. -/
structure TState where
  n : Nat
  x : List FV
  p : Mat

/-- A track's stored state. -/
def tState (n : Nat) (x p : List W32) : TState :=
  { n := n, x := (x.take n).map fw
    p := (List.range n).map fun i => (List.range n).map fun j => fw (p.getD (12 * Nat.min i j + Nat.max i j) 0) }

/-- x as the Tracker stores it. -/
def TState.xs (t : TState) : List W32 := (t.x.map wf32) ++ List.replicate (12 - t.n) 0
/-- The upper triangle of P as the Tracker stores it. -/
def TState.ps (t : TState) : List W32 :=
  (List.range 144).map fun k => if k / 12 ≤ k % 12 then wf32 (((t.p.getD (k / 12) []).getD (k % 12) (.fin 0))) else 0

/-- A Lane difference in seconds. -/
def secondsOf (d : W64) : FV := f32 (d.toInt * one300 / (2 ^ 32 * 10 ^ 9))

/-- The dimension of a motion model. -/
def modelN (s : State) (j : Nat) : Nat := Nat.min (s.ftab (0xC000 + 0x400 * j)).toNat 12

/-- Prediction by a motion model over a Lane difference (R330, R331, step 1). -/
def tPredict (s : State) (j : Nat) (t : TState) (d : W64) (draw : Nat) : TState :=
  if d = 0 then t else
  let o := 0xC000 + 0x400 * j
  let dt := secondsOf d
  let a : Mat := (List.range t.n).map fun i => (List.range t.n).map fun k => s.tabF (o + 16 + 4 * (12 * i + k))
  let f := maF (maF (unitF t.n) (msF dt a)) (msF (divF (fMul dt dt) (fvInt 2)) (mmF a a t.n))
  let q := diagF ((List.range t.n).map fun i => fMul (s.tabF (592 + o + 4 * i)) dt)
  let p := maF (mmF (mmF f t.p t.n) (mtF f t.n) t.n) q
  { t with x := (mvF f t.x).zipIdx.map fun (v, i) => s.filt (1024 * draw + i) v
           p := p.zipIdx.map fun (r, i) => r.zipIdx.map fun (v, k) => s.filt (1024 * draw + 16 + 12 * i + k) v }

/-- The indices a stream measures (R330). -/
def hIdx (s : State) (str : Nat) : List Nat :=
  ((List.range 6).map fun i => (s.ftab (0xB000 + 0x40 * str + i)).toNat).takeWhile (· != 0xFF)

/-- H of a stream for a dimension. -/
def hMat (s : State) (str n : Nat) : Mat := (s.hIdx str).map fun h => (List.range n).map fun j => if j = h then fvInt 1 else .fin 0

/-- A measurement of a set entry. -/
structure Meas where
  z : List FV
  vscale : FV
  cls : Nat
  noBirth : Bool

/-- R × VSCALE of a stream. -/
def rDiag (s : State) (str : Nat) (vscale : FV) : List FV :=
  (s.hIdx str).zipIdx.map fun (_, i) => fMul (s.tabF (0xB000 + 0x40 * str + 8 + 4 * i)) vscale

/-- ν and S⁻¹ of a measurement against a state (R331, step 2). -/
def innov (s : State) (str : Nat) (t : TState) (z r : List FV) : List FV × Mat :=
  let h := s.hMat str t.n
  let sm := maF (mmF (mmF h t.p t.n) (mtF h t.n) h.length) (diagF r)
  (List.zipWith (fun a b => fAdd a (fNeg b)) z (mvF h t.x), invF sm h.length)

/-- The squared distance of a pair (R331, step 2). -/
def dist2 (s : State) (str : Nat) (t : TState) (z r : List FV) (draw : Nat) : FV :=
  let (nu, si) := s.innov str t z r
  s.filt (1000 + 1024 * draw) (dotF nu (mvF si nu))

/-- The update of a state by a measurement (R331, step 4). -/
def tUpdate (s : State) (str : Nat) (t : TState) (z r : List FV) (draw : Nat) : TState :=
  let h := s.hMat str t.n
  let m := h.length
  let (nu, si) := s.innov str t z r
  let k := mmF (mmF t.p (mtF h t.n) m) si m
  let ikh := maF (unitF t.n) (mnF (mmF k h t.n))
  let p := maF (mmF (mmF ikh t.p t.n) (mtF ikh t.n) t.n) (mmF (mmF k (diagF r) m) (mtF k m) t.n)
  { t with x := (List.zipWith fAdd t.x (mvF k nu)).zipIdx.map fun (v, i) => s.filt (300 + 1024 * draw + i) v
           p := p.zipIdx.map fun (q, i) => q.zipIdx.map fun (v, j) => s.filt (320 + 1024 * draw + 12 * i + j) v }

/-- The counts of a kernel, and its draws used. -/
structure TCnt where
  assoc : Nat := 0
  births : Nat := 0
  deletions : Nat := 0
  applied : Nat := 0
  short : Nat := 0
  n : Nat := 0

/-- A track slot. -/
def track (s : State) (i : Nat) : Option Track := mget (fun _ => none) s.fusion.tracks i
/-- Set a track slot. -/
def setTrack (s : State) (i : Nat) (t : Option Track) : State :=
  { s with fusion := { s.fusion with tracks := mset (fun _ => none) s.fusion.tracks i t } }
/-- The history of a slot, newest first. -/
def thist (s : State) (i : Nat) : List FHist := mget (fun _ => []) s.fusion.hist i
/-- Set the history of a slot: at most eight entries. -/
def setThist (s : State) (i : Nat) (h : List FHist) : State :=
  { s with fusion := { s.fusion with hist := mset (fun _ => []) s.fusion.hist i (h.take 8) } }
/-- The slots in use, in order. -/
def slots (s : State) : List Nat := (s.fusion.tracks.filter fun e => e.2.isSome).map (·.1)

/-- A track's state with the slot it stands in. -/
def stOf (t : Track) : TState := tState t.n t.x t.p

/-- Delete a track. -/
def dropTrack (s : State) (i : Nat) : State := (s.setTrack i none).setThist i []

/-- Greedy assignment in ascending squared distance (R331, step 3): slot and measurement. -/
def assign : List (FV × Nat × Nat) → List (Nat × Nat) → List (Nat × Nat)
  | [], a => a
  | (_, i, m) :: t, a => assign t (if a.any (fun e => e.1 == i || e.2 == m) then a else a ++ [(i, m)])

/-- The eligible pairs of some track states and measurements, in order (R331, steps 2 and 3). -/
def pairsOf (s : State) (str : Nat) (ts : List (Nat × Nat × TState)) (ms : List (Meas × Nat)) (draw : Nat) :
    List (FV × Nat × Nat) :=
  let gate := s.tabF (0xB000 + 0x40 * str + 32)
  sortBy (fun (a b : FV × Nat × Nat) => larger b.1 a.1) (ts.flatMap fun (i, cls, t) => ms.filterMap fun (m, j) =>
    let ok := match m.vscale with
      | .fin v => decide (0 < v)
      | _ => false
    if !ok || (s.hIdx str).isEmpty || !(cls == m.cls || cls == 0 || m.cls == 0) then none else
    let d := s.dist2 str t m.z (s.rDiag str m.vscale) (draw + 1024 * i + j)
    if d == .nan || gate == .nan || larger d gate then none else some (d, i, j))

/-- The measurements of entry `e` of a set, with their numbers. -/
def measOf (s : State) (c : Nat) (d : Desc) (e : Nat) (m : Nat) : List (Meas × Nat) :=
  let o := 64 + 32 * e
  let off := s.listNat c d (o + 12) 4
  (List.range (Nat.min (s.listNat c d (o + 10) 2) 1024)).map fun i =>
    let b := off + 32 * i
    ({ z := (List.range m).map fun q => f32Of (s.listNat c d (b + 4 * q) 4)
       vscale := f32Of (s.listNat c d (b + 24) 4), cls := s.listNat c d (b + 28) 2
       noBirth := s.listByte c d (b + 30) % 2 == 1 }, i)

/-- Every track is predicted to a time, and stored (R331, step 1). -/
def predictAll (s : State) (y : W64) (n : Nat) : State :=
  s.slots.foldl (fun (q : State) i => match q.track i with
    | some t =>
      let p := s.tPredict t.model (stOf t) (y - t.last) (n + i)
      q.setTrack i (some { t with x := p.xs, p := p.ps, last := y })
    | none => q) s

/-- A taken pair updates its track (R331, step 4). -/
def takePair (s : State) (str confirm : Nat) (y : W64) (m : Meas) (i n : Nat) : State :=
  match s.track i with
  | none => s
  | some t =>
    let r := s.rDiag str m.vscale
    let u := s.tUpdate str (stOf t) m.z r (n + i)
    let h : FHist := { id := t.id, time := y, x := t.x, p := t.p, z := m.z.map wf32, r := r.map wf32, stream := str }
    (s.setTrack i (some { t with x := u.xs, p := u.ps, misses := 0, hits := t.hits + 1,
                                 conf := t.conf || decide (confirm ≤ t.hits + 1) })).setThist i (h :: s.thist i)

/-- A birth (R331, step 5). -/
def birth (s : State) (str : Nat) (y : W64) (m : Meas) : Option State :=
  let j := (s.ftab (0xB000 + 0x40 * str + 36)).toNat % 8
  match (List.range 1024).find? fun i => (s.track i).isNone with
  | none => none
  | some i =>
    let n := s.modelN j
    let idx := s.hIdx str
    let r := s.rDiag str m.vscale
    let at_ := fun (l : List FV) (q : Nat) => (idx.zip l).findSome? fun e => if e.1 = q then some e.2 else none
    let x := (List.range n).map fun q => (at_ m.z q).getD (.fin 0)
    let p := diagF ((List.range n).map fun q => (at_ r q).getD (s.tabF (640 + (0xC000 + 0x400 * j) + 4 * q)))
    let t : TState := { n := n, x := x, p := p }
    some (({ s with fusion := { s.fusion with nextId := s.fusion.nextId + 1 } } : State).setTrack i
      (some { id := s.fusion.nextId, conf := false, model := j, misses := 0, hits := 0, cls := m.cls, last := y, n := n,
              x := t.xs, p := t.ps, born := y }))

/-- One entry without LATE (R331). -/
def entryIn (c : Nat) (k : KIn) (a : State × TCnt) (e : Nat) : State × TCnt :=
  let (s, cnt) := a
  let o := 64 + 32 * e
  let y := BitVec.ofNat 64 (s.listNat c k.dA o 8)
  let str := s.listNat c k.dA (o + 8) 1 % 64
  let ms := s.measOf c k.dA e (s.hIdx str).length
  let s := s.predictAll y cnt.n
  let old := s.slots
  let ts := old.filterMap fun i => (s.track i).map fun t => (i, t.cls, stOf t)
  let as := assign (s.pairsOf str ts ms (2048 + cnt.n)) []
  let s := as.foldl (fun s p => match ms[p.2]? with
    | some (m, _) => s.takePair str (pf k 72 4) y m p.1 (2 ^ 22 + cnt.n)
    | none => s) s
  let birthEn := (s.ftab (0xB000 + 0x40 * str + 36)).getLsbD 7 && pf k 76 1 == 0
  let cands := ms.filter fun (m, j) => birthEn && !m.noBirth && !(as.any fun p => p.2 == j) && (match m.vscale with
    | .fin v => decide (0 < v)
    | _ => false) && !(s.hIdx str).isEmpty
  let (s, born) := cands.foldl (fun (q : State × Nat) m => match q.1.birth str y m.1 with
    | some s => (s, q.2 + 1)
    | none => q) (s, 0)
  let (s, gone) := (old.filter fun i => !as.any fun p => p.1 == i).foldl (fun (q : State × Nat) i => match q.1.track i with
    | some t =>
      if pf k 64 8 < t.misses + 1 || !t.conf then (q.1.dropTrack i, q.2 + 1)
      else (q.1.setTrack i (some { t with misses := t.misses + 1 }), q.2)
    | none => q) (s, 0)
  (s, { cnt with assoc := cnt.assoc + as.length, births := cnt.births + born, deletions := cnt.deletions + gone,
                 n := 2 ^ 23 + cnt.n })

/-- The state of a track just after an update of its history. -/
def afterHist (s : State) (t : Track) (h : FHist) (draw : Nat) : TState :=
  s.tUpdate h.stream (tState t.n h.x h.p) (h.z.map fw) (h.r.map fw) draw

/-- A track's state at a past time: from the last update of its history not later (R332). -/
def rewind (s : State) (i : Nat) (t : Track) (y : W64) (draw : Nat) : Option TState :=
  match (s.thist i).find? fun h => h.id == t.id && !later h.time y with
  | none => none
  | some h => some (s.tPredict t.model (s.afterHist t h draw) (y - h.time) (draw + 1))

/-- Replay the updates behind a point, oldest first: the entries with their new states, the time and the state reached. -/
def replay (s : State) (t : Track) : List FHist → W64 → TState → Nat → List FHist × W64 × TState
  | [], y, x, _ => ([], y, x)
  | h :: l, y, x, draw =>
    let q := s.tPredict t.model x (h.time - y) draw
    let u := s.tUpdate h.stream q (h.z.map fw) (h.r.map fw) (draw + 1)
    let (r, y', x') := s.replay t l h.time u (draw + 2)
    ({ h with x := q.xs, p := q.ps } :: r, y', x')

/-- A taken measurement of a late entry (R332). -/
def takeLate (s : State) (str confirm : Nat) (y : W64) (m : Meas) (i n : Nat) : State :=
  match s.track i with
  | none => s
  | some t =>
    match s.rewind i t y (n + 16 * i) with
    | none => s
    | some q =>
      let r := s.rDiag str m.vscale
      let u := s.tUpdate str q m.z r (n + 16 * i + 2)
      let h : FHist := { id := t.id, time := y, x := q.xs, p := q.ps, z := m.z.map wf32, r := r.map wf32, stream := str }
      let newer := ((s.thist i).filter fun g => later g.time y).reverse
      let older := (s.thist i).filter fun g => !later g.time y
      let (l, y', x') := s.replay t newer y u (n + 16 * i + 3)
      let fin := s.tPredict t.model x' (t.last - y') (n + 16 * i + 15)
      (s.setTrack i (some { t with x := fin.xs, p := fin.ps, hits := t.hits + 1,
                                   conf := t.conf || decide (confirm ≤ t.hits + 1) })).setThist i (l.reverse ++ h :: older)

/-- One LATE entry (R332). -/
def entryLate (c : Nat) (k : KIn) (a : State × TCnt) (e : Nat) : State × TCnt :=
  let (s, cnt) := a
  let o := 64 + 32 * e
  let y := BitVec.ofNat 64 (s.listNat c k.dA o 8)
  let str := s.listNat c k.dA (o + 8) 1 % 64
  let ms := s.measOf c k.dA e (s.hIdx str).length
  let there := s.slots.filterMap fun i => (s.track i).bind fun t => if later t.born y then none else some (i, t)
  let short := (there.filter fun q => (s.rewind q.1 q.2 y 0).isNone).length
  let ts := there.filterMap fun q => (s.rewind q.1 q.2 y (cnt.n + 4 * q.1)).map fun x => (q.1, q.2.cls, x)
  let as := assign (s.pairsOf str ts ms (2 ^ 14 + cnt.n)) []
  let s := as.foldl (fun s p => match ms[p.2]? with
    | some (m, _) => s.takeLate str (pf k 72 4) y m p.1 (2 ^ 22 + cnt.n)
    | none => s) s
  (s, { cnt with applied := cnt.applied + as.length, short := cnt.short + short, n := 2 ^ 23 + cnt.n })

/-- Tracks that an uncorrectable error has hit are deleted (R336). -/
def dropBad (a : State × TCnt) : State × TCnt :=
  let bad := a.1.slots.filter fun i => match a.1.track i with
    | some t => t.bad
    | none => false
  (bad.foldl dropTrack a.1, { a.2 with deletions := a.2.deletions + bad.length })

/-- An entry of the output (R333). -/
def trackBytes (s : State) (time : W64) (n i : Nat) (t : Track) : List Nat :=
  let q := if later t.last time then stOf t else s.tPredict t.model (stOf t) (time - t.last) (n + i)
  nBytes 4 t.id.toNat ++ [b2n t.conf, t.model, t.misses, 0] ++ nBytes 2 t.cls ++ nBytes 8 t.last.toNat
    ++ q.xs.flatMap (fun w => nBytes 4 w.toNat)
    ++ ((List.range 12).flatMap fun j => nBytes 4 (q.ps.getD (13 * j) 0).toNat) ++ zeros 14

/-- The entries of the set in the order they are processed (R331, R332), each with LATE. -/
def trackOrder (s : State) (c : Nat) (k : KIn) : List (Nat × Bool) :=
  let n := if k.o.imm = 1 ∧ hasA k then Nat.min (s.listNat c k.dA 40 2) 128 else 0
  let all := (List.range n).map fun e => (e, s.listByte c k.dA (64 + 32 * e + 9) % 2 == 1)
  all.filter (fun e => !e.2) ++ all.filter (·.2)

/-- Process some entries on the tables copied at the start (R330). -/
def trackRun (s : State) (c : Nat) (k : KIn) (es : List (Nat × Bool)) : State × TCnt :=
  es.foldl (fun a e => if e.2 then entryLate c k a e.1 else entryIn c k a e.1) (dropBad (s, {}))

/-- The tables as they stand come back after a kernel. -/
def backFrom (s live : State) : State := { s with fusion := { s.fusion with tables := live.fusion.tables } }

/-- kftrack (R331 to R333). -/
def fTrack (s : State) (c : Nat) (k : KIn) (run : FRun) : BOut :=
  let w := s.withRun run
  let es := w.trackOrder c k
  let (u, cnt) := w.trackRun c k es
  let time := BitVec.ofNat 64 (pf k 0 64)
  let ts := u.slots.filterMap fun i => (u.track i).map fun t => (i, t)
  { dst := nBytes 8 time.toNat ++ nBytes 2 ts.length ++ nBytes 2 cnt.assoc ++ nBytes 2 cnt.births ++ nBytes 2 cnt.deletions
      ++ nBytes 2 cnt.applied ++ nBytes 2 cnt.short ++ nBytes 2 es.length ++ zeros 42
      ++ ts.flatMap fun q => u.trackBytes time cnt.n q.1 q.2
    reads := [], st := u.backFrom s }

/-- A kftrack whose context is torn down stops after an entry: which were applied is left open (R335; assumption 2). -/
def trackStop (s : State) (c : Nat) (k : KIn) (run : FRun) : State :=
  let w := s.withRun run
  let es := w.trackOrder c k
  (w.trackRun c k (es.take (s.draw 0 % (es.length + 1)))).1.backFrom s

end State

end Sys2Proof.Machine
end

