-- ==== Sys2Proof/Machine/Kattn.lean ====
section
/-!
DEFINITION. Attention and the key-value cache (07): the pool agent's appends with copy-on-write, and what a kattn reads and
writes as it completes.
-/

namespace Sys2Proof.Machine

open Sys2Proof

/-- The kernel of an operation, with everything it copied at issue. -/
def kinOf (o : AsyncOp) : KIn :=
  { mn := o.mn, o := o.k, dO := o.dO, dA := o.dA, dB := o.dB, dC := o.dC, blk := o.params, extra := o.extra }

/-- No page (R186). -/
def noPage : Nat := 0xFFFFFFFF

/-- Bytes of an element of K and V. -/
def kvWidth (p : Pool) : Nat := fmtBits p.fmt / 8

/-- The byte of an element in a KV page: value region or key region (R186). -/
def kvOff (p : Pool) (val : Bool) (h t i : Nat) : Nat :=
  (b2n val * (p.tpp * p.hkv * p.dim) + (h * p.tpp + t) * p.dim + i) * kvWidth p

/-- The first key visible to some query whose first position is `q0` (R174). -/
def firstKey (k : KIn) (q0 : Int) : Nat :=
  if pf k 32 2 = 2 then (Max.max 0 (q0 - (pf k 64 32 : Nat) + 1)).toNat else 0

/-- A key is visible to a query (R174). -/
def keySeen (k : KIn) (q : Int) (key : Nat) : Bool :=
  match pf k 32 2 with
  | 0 => true
  | 1 => decide ((key : Int) ≤ q)
  | _ => decide ((key : Int) ≤ q) && decide (q - (pf k 64 32 : Nat) < key)

/-- The position of query `j` of an entry (R173). -/
def qPos (e : LenEnt) (j : Nat) : Int := (e.kvLen : Int) - e.qLen + j

/-- The keys an entry's queries see, as a range. -/
def keysOf (k : KIn) (e : LenEnt) : List Nat :=
  if e.qLen = 0 then [] else
  let lo := firstKey k (qPos e 0)
  (List.range (e.kvLen - lo)).map (lo + ·)

/-- The tokens appended: how many, and the position of the first. -/
def appended (e : LenEnt) : Nat × Nat := if e.append then (e.qLen, e.kvLen - e.qLen) else (0, e.kvLen)

/-- The page columns an append touches (R189). -/
def colsOf (p : Pool) (e : LenEnt) : List Nat :=
  let (n, first) := appended e
  if n = 0 ∨ e.kvLen = 0 then [] else
  (List.range ((e.kvLen - 1) / p.tpp - first / p.tpp + 1)).map (first / p.tpp + ·)

namespace State

/-- A number of a context's virtual range. -/
def ctxNat (s : State) (c va n : Nat) : Nat := ofBytes (s.ctxBytes c va n)

/-- Write a number into a context's virtual range. -/
def ctxPut (s : State) (c va n v : Nat) : State :=
  (List.range n).foldl (fun s k => s.ledPut c (BitVec.ofNat 64 (va + k)) (v / 256 ^ k % 256)) s

/-- The virtual address of a page's header. -/
def hdrVa (pg : Nat) : Nat := 0xFFC0 + 65536 * pg

/-- A page-table entry. -/
def ptEnt (s : State) (c : Nat) (k : KIn) (row col : Nat) : Nat := s.elemCode c k.dB [col, row]

/-- Set a page-table entry. -/
def ptPut (s : State) (c : Nat) (k : KIn) (row col pg : Nat) : State := s.writeElems c k.dB [([col, row], pg)] []

/-- REFCOUNT of a page: 0 counts as 1. -/
def refCount (s : State) (c pg : Nat) : Nat := Nat.max (s.ctxNat c (hdrVa pg) 4) 1

/-- What an entry's check gives (Table 7-4). -/
def entCheck (s : State) (c : Nat) (k : KIn) (e : LenEnt) : Nat :=
  let p := poolIn k
  let (n, first) := appended e
  if dExt k.dB 0 * p.tpp < e.kvLen then 1
  else if (keysOf k e).any fun q => (n == 0 || decide (q < first)) && s.ptEnt c k e.row (q / p.tpp) == noPage then 2
  else 0

/-- A page popped from the free ring (R187). -/
def ringPop (s : State) (c : Nat) (k : KIn) : Nat × State :=
  let p := poolIn k
  let va := pf k 256 48
  let tail := s.ctxNat c (va + 8) 8
  let overwritten := decide (2 ^ p.ringLog < (2 ^ 64 + s.ctxNat c va 8 - tail) % 2 ^ 64)
  let pg := if overwritten then s.draw (2 ^ 55 + tail) % 2 ^ 32 else s.ctxNat c (p.ring + 4 * (tail % 2 ^ p.ringLog)) 4
  (pg, s.ctxPut c (va + 8) 8 ((tail + 1) % 2 ^ 64))

/-- One touched column of an append (R189). -/
def appendCol (c : Nat) (k : KIn) (e : LenEnt) (s : State) (col : Nat) : State :=
  let p := poolIn k
  let first := (appended e).2
  let slot0 := if col = first / p.tpp then first % p.tpp else 0
  let last := Nat.min (e.kvLen - 1 - col * p.tpp) (p.tpp - 1)
  let pg := s.ptEnt c k e.row col
  let fresh := fun (s : State) (nw fill : Nat) =>
    ((s.ctxPut c (hdrVa nw) 4 1).ctxPut c (hdrVa nw + 4) 2 fill).ctxPut c (hdrVa nw + 16) 4 0
  let s := if pg = noPage then
      let (nw, s) := s.ringPop c k
      (fresh s nw 0).ptPut c k e.row col nw
    else if 1 < s.refCount c pg then
      let (nw, s) := s.ringPop c k
      let len := slot0 * p.dim * kvWidth p
      let span := fun (s : State) (o n : Nat) =>
        (List.range n).foldl (fun s b => s.ledPut c (BitVec.ofNat 64 (65536 * nw + o + b))
          (s.ledByte c (BitVec.ofNat 64 (65536 * pg + o + b)))) s
      let s := (List.range p.hkv).foldl (fun s h => span (span s (kvOff p false h 0 0) len) (kvOff p true h 0 0) len) s
      let s := fresh (span s 0xFFC0 64) nw slot0
      (s.ptPut c k e.row col nw).ctxPut c (hdrVa pg) 4 (s.refCount c pg - 1)
    else s
  let cur := s.ptEnt c k e.row col
  s.ctxPut c (hdrVa cur + 4) 2 (Nat.max (s.ctxNat c (hdrVa cur + 4) 2) (last + 1))

/-- The code an appended element is stored as, at a position (R175). -/
def appendCode (s : State) (c : Nat) (k : KIn) (val : Bool) (i h tok : Nat) (pos : Int) : Nat :=
  let at_ := fun (i : Nat) => s.elemCode c k.dC [i, h, b2n val, tok]
  if val || pf k 35 1 == 0 then at_ i else
  let p := poolIn k
  let draw := fun (i : Nat) => s.draw (2 ^ 56 + (tok * p.hkv + h) * p.dim + i)
  conv p.fmt 0 0 false ((ropeVec (f32Of (pf k 96 32)) pos ((List.range p.dim).map fun i => codeVal p.fmt (at_ i)) draw).getD i .nan)

/-- Store the appended keys and values (R189, R190): `src` is the state DC is read in. -/
def appendData (src : State) (c : Nat) (k : KIn) (e : LenEnt) (s : State) : State :=
  let p := poolIn k
  let toks := (List.range (appended e).1).filter fun j => decide (0 ≤ qPos e j)
  toks.foldl (fun s j =>
    let pos := (qPos e j).toNat
    let pg := s.ptEnt c k e.row (pos / p.tpp)
    (List.range p.hkv).foldl (fun s h => (List.range p.dim).foldl (fun s i => [false, true].foldl (fun s val =>
      s.ctxPut c (65536 * pg + kvOff p val h (pos % p.tpp) i) (kvWidth p) (src.appendCode c k val i h (e.qOff + j) pos)) s) s) s) s

/-- The virtual pages an entry's append touches, before and after it: its table entries, headers, ring and pool header. -/
def appendAcc (s t : State) (c : Nat) (k : KIn) (e : LenEnt) : TAcc :=
  let p := poolIn k
  let cols := colsOf p e
  let led := fun (w : Bool) (va : Nat) => s.ledAcc c w false (BitVec.ofNat 64 va)
  let old := (cols.map (s.ptEnt c k e.row)).filter (· != noPage)
  let new := (cols.map (t.ptEnt c k e.row)).filter (· != noPage)
  let tail := s.ctxNat c (pf k 256 48 + 8) 8
  let pops := (2 ^ 64 + t.ctxNat c (pf k 256 48 + 8) 8 - tail) % 2 ^ 64
  let ptIx := ((keysOf k e).map (· / p.tpp) ++ cols).eraseDups.map fun col => [col, e.row]
  accAll ([led true (pf k 256 48)] ++ [s.tensorAcc c k.dB (elemsBytes k.dB ptIx) false,
      if cols.isEmpty then .ok else s.tensorAcc c k.dB (elemsBytes k.dB (cols.map fun col => [col, e.row])) true]
    ++ (old ++ new).eraseDups.map (fun pg => led true (hdrVa pg))
    ++ (List.range (Nat.min pops (2 ^ p.ringLog))).map (fun j => led false (p.ring + 4 * ((tail + j) % 2 ^ p.ringLog)))
    ++ [s.tensorAcc c k.dC (elemsBytes k.dC ((List.range (appended e).1).flatMap fun j =>
         idxAll [p.dim, p.hkv, 2] |>.map fun ix => ix ++ [e.qOff + j])) false])

/-- One entry of an append (R184, R189): its status and the state after it; none while LOCK is held
(R188). -/
def appendEnt (s : State) (c : Nat) (k : KIn) (e : LenEnt) : Option (Nat × State) :=
  let p := poolIn k
  let va := pf k 256 48
  let st := s.entCheck c k e
  if st ≠ 0 then some (st, s)
  else if (appended e).1 = 0 then some (0, s)
  else if s.ctxNat c (va + 16) 8 ≠ 0 then none
  else
    let need := ((colsOf p e).filter fun col =>
      let pg := s.ptEnt c k e.row col
      pg == noPage || decide (1 < s.refCount c pg)).length
    if (2 ^ 64 + s.ctxNat c va 8 - s.ctxNat c (va + 8) 8) % 2 ^ 64 < need then some (3, s)
    else some (0, appendData s c k e ((colsOf p e).foldl (appendCol c k e) s))

/-- The transient claims on the pages an append touched (R192). -/
def claimCols (c id : Nat) (k : KIn) (e : LenEnt) (s : State) : State :=
  (((colsOf (poolIn k) e).map (s.ptEnt c k e.row)).filter (· != noPage)).foldl (fun s pg => match s.homeOf c pg with
    | some h => s.takeTrans c id h
    | none => s) s

/-- KV_APPEND: the pool agent does the next entry of a paged kattn, before the first tile pass; it goes on while the
operation is pre-empted (R189, R191). -/
def kvAppend (s : State) (c id : Nat) : State :=
  match s.opOf c id with
  | none => s
  | some o =>
    let k := kinOf o
    if o.mn ≠ .kattn ∨ (o.state ≠ .running ∧ o.state ≠ .saved) ∨ (s.ctx c).td.isSome then s else
    match (lenEnts k)[o.kv.length]? with
    | none => s
    | some e => match s.appendEnt c k e with
      | none => s
      | some (st, t) => match (if st = 1 then TAcc.ok else s.appendAcc t c k e) with
        | .wait => s
        | .fault code unit d va => s.opFault c id code (if code = 6 then unit else 1) d va (dTag o.dB)
        | .ok => (if st = 0 then claimCols c id k e t.bumpFree else t).modOp c id fun o => { o with kv := o.kv ++ [st] }

/-! ### The result (R173 to R178) -/

/-- What a query row comes to: zero, NaN, left open, or the weights of its keys with the bound of R178 as a fraction of the
largest value, in units. -/
inductive AttnRow where
  | zero
  | nan
  | free
  | weights (ps : List Int) (bound : Int)

/-- The weights of a row from its query and its visible keys, after rotation (R176 to R178). -/
def attnWeights (k : KIn) (fp8 : Bool) (q : List FV) (ks : List (List FV)) : AttnRow :=
  let scale := f32Of (pf k 0 32)
  let scores := ks.map fun key =>
    let ts := List.zipWith fMulExact q key
    let pos := ts.any (· == .inf false)
    let neg := ts.any (· == .inf true)
    fMulExact scale (if ts.any (· == .nan) || (pos && neg) then .nan else if pos then .inf false else if neg then .inf true
      else .fin ((ts.map fvVal).foldl (· + ·) 0))
  if scores.any fun x => x == .nan || x == .inf false then .nan
  else if scores.all (· == .inf true) then .zero
  else
    let (_, ws, _) := softWeights scores
    let sums := ks.map fun key => ((List.zipWith fMulExact q key).map fun x => ((fvVal x).natAbs : Int)).foldl (· + ·) 0
    let top := uMul (fvVal scale).natAbs (sums.foldl Max.max 0)
    let n16 := ((ks.length + 15) / 16 : Nat)
    let delta := uMul (uGamma ((q.length + 15) / 16 + 5)) top
      + uMul (p2 (-23)) ((scores.map fun x => ((fvVal x).natAbs : Int)).foldl Max.max 0) + 1
    let up := if fp8 then p2 (-4) + n16 * p2 (-18) else p2 (-11) + n16 * p2 (-25)
    if 80 * one300 < delta ∨ f32Max < top ∨ f32Max < sums.foldl Max.max 0 then .free
    else .weights ws (2 * (uExp delta - one300 + p2 (-20)) + 2 * up + uGamma (n16 + 5))

/-- One output element of a row from the visible keys' values at its dimension, within the bound of R178 (assumption 2). -/
def attnVal (r : AttnRow) (vs : List FV) (draw : Nat) : FV :=
  match r with
  | .zero => .fin 0
  | .nan => .nan
  | .free => f32Of (draw % 2 ^ 32)
  | .weights ws bound =>
    let vmax : Int := (vs.map fun v => ((fvVal v).natAbs : Int)).foldl Max.max 0
    if vs.any (fun v => !v.isFin) || decide (f32Max < 256 * (vs.length + 1) * (vmax + 1)) then f32Of (draw % 2 ^ 32)
    else
      let sum := ws.foldl (· + ·) 0
      openNear ((List.zipWith (fun w v => w * fvVal v) ws vs).foldl (· + ·) 0 / sum) (uMul bound vmax + 1) draw

/-- The elements of one query row and head: `q`, and the visible keys with functions that give their elements; a NaN in any
value read makes the whole row NaN (R177). -/
def attnRow (s : State) (k : KIn) (fp8 : Bool) (d draw : Nat) (q : List FV) (keys : List (List FV)) (val : Nat → List FV) :
    List Nat :=
  let r := if keys.isEmpty then .zero
    else if (List.range d).any fun i => (val i).any (· == .nan) then .nan
    else attnWeights k fp8 q keys
  (List.range d).map fun i =>
    let n := draw + 4 * i
    conv (dFmt k.dO) k.o.rnd.val (s.draw (n + 1)) false (attnVal r (val i) (s.draw n))

/-- A query or a dense key as it is multiplied: rotated with ROPE (R175). -/
def ropedIn (k : KIn) (pos : Int) (v : List FV) (draw : Nat → Nat) : List FV :=
  if pf k 35 1 = 1 then ropeVec (f32Of (pf k 96 32)) pos v draw else v

/-- Dense kattn (R169, R173). -/
def attnDense (s : State) (c : Nat) (k : KIn) : KOut :=
  let (d, hq, tn, l) := (dExt k.dA 0, dExt k.dA 1, dExt k.dA 2, dExt k.dB 2)
  let fp8 := dFmt k.dB == 5 || dFmt k.dB == 6
  ((idxAll [hq, tn, dExt k.dA 3]).flatMap fun ix =>
    let (h, t, b) := (ix.getD 0 0, ix.getD 1 0, ix.getD 2 0)
    let kh := h * dExt k.dB 1 / hq
    let keys := (List.range l).filter (keySeen k ((l : Int) - tn + t))
    let n := 1024 * rowNum [hq, tn, dExt k.dA 3] ix
    let row := s.attnRow k fp8 d n
      (ropedIn k ((l : Int) - tn + t) ((List.range d).map fun i => s.valAt c k.dA (i :: ix)) fun i => s.draw (n + 4 * i + 2))
      (keys.map fun (q : Nat) => ropedIn k (q : Int) ((List.range d).map fun i => s.valAt c k.dB [i, kh, q, b]) fun i =>
        s.draw (2 ^ 57 + rowNum (dExts k.dB) [i, kh, q, b]))
      (fun i => keys.map fun q => s.valAt c k.dC [i, kh, q, b])
    row.zipIdx.map fun (v, i) => (i :: ix, v), [])

/-- The entries of a paged kattn that were processed. -/
def goodEnts (k : KIn) (kv : List Nat) : List LenEnt := ((lenEnts k).zip kv).filterMap fun e => if e.2 = 0 then some e.1 else none

/-- Paged kattn (R169, R172, R173, R181, R183). -/
def attnPaged (s : State) (c : Nat) (k : KIn) (kv : List Nat) : KOut :=
  let p := poolIn k
  let hq := dExt k.dA 1
  let fp8 := p.fmt == 5 || p.fmt == 6
  ((goodEnts k kv).flatMap fun e =>
    let keys := keysOf k e
    (idxAll [hq, e.qLen]).flatMap fun ix =>
      let (h, j) := (ix.getD 0 0, ix.getD 1 0)
      let kh := h * p.hkv / hq
      let el := fun (val : Bool) (q i : Nat) =>
        codeVal p.fmt (s.ctxNat c (65536 * s.ptEnt c k e.row (q / p.tpp) + kvOff p val kh (q % p.tpp) i) (kvWidth p))
      let seen := keys.filter (keySeen k (qPos e j))
      let n := 1024 * (h + hq * (e.qOff + j))
      let row := s.attnRow k fp8 p.dim n
        (ropedIn k (qPos e j) ((List.range p.dim).map fun i => s.valAt c k.dA [i, h, e.qOff + j]) fun i => s.draw (n + 4 * i + 2))
        (seen.map fun q => (List.range p.dim).map (el false q)) (fun i => seen.map fun q => el true q i)
      row.zipIdx.map fun (v, i) => ([i, h, e.qOff + j], v), [])

/-- The virtual pages a paged kattn has accessed. -/
def attnPages (s : State) (c : Nat) (k : KIn) (kv : List Nat) : List Nat :=
  ((goodEnts k kv).flatMap fun e =>
    (((keysOf k e).map (· / (poolIn k).tpp) ++ colsOf (poolIn k) e).eraseDups.map (s.ptEnt c k e.row))).eraseDups.filter (· != noPage)

/-- The headers of the pages accessed (Table 7-6) and the STATUS bytes (R184). -/
def attnMarks (s : State) (c : Nat) (k : KIn) (kv : List Nat) : State :=
  let now := (2 ^ 32 * (s.reg (Reg.LANE_EPOCH 15)).toNat + (s.laneVal 15).toNat / 2 ^ 32) % 2 ^ 64
  let s := (s.attnPages c k kv).foldl (fun s pg =>
    (s.ctxPut c (hdrVa pg + 8) 8 now).ctxPut c (hdrVa pg + 16) 4 (satAdd 32 (s.ctxNat c (hdrVa pg + 16) 4) 1)) s
  kv.zipIdx.foldl (fun s e => s.ctxPut c (pf k 192 48 + 16 * e.2 + 13) 1 e.1) s

/-- What a kattn accesses as it completes. -/
def attnAcc (s : State) (c : Nat) (k : KIn) (kv : List Nat) : TAcc :=
  if !isPaged k then
    let l := dExt k.dB 2
    let tn := dExt k.dA 2
    let keys := (List.range l).filter fun q => (List.range tn).any fun t => keySeen k ((l : Int) - tn + t) q
    let ixs := idxAll [dExt k.dB 0, dExt k.dB 1] |>.flatMap fun a => keys.flatMap fun q =>
      (List.range (dExt k.dB 3)).map fun b => a ++ [q, b]
    if dEmpty k.dO then .ok else
    accAll [s.tensorAcc c k.dA (dBytes k.dA) false, s.tensorAcc c k.dB (elemsBytes k.dB ixs) false,
      s.tensorAcc c k.dC (elemsBytes k.dC ixs) false, s.tensorAcc c k.dO (dBytes k.dO) true]
  else
    let es := goodEnts k kv
    let rows := es.flatMap fun e => (idxAll [dExt k.dA 0, dExt k.dA 1, e.qLen]).map fun ix =>
      [ix.getD 0 0, ix.getD 1 0, e.qOff + ix.getD 2 0]
    let pt := es.flatMap fun e => ((keysOf k e).map (· / (poolIn k).tpp)).eraseDups.map fun col => [col, e.row]
    accAll ([s.tensorAcc c k.dA (elemsBytes k.dA rows) false, s.tensorAcc c k.dB (elemsBytes k.dB pt) false]
      ++ (s.attnPages c k kv).map (fun pg => s.ledAcc c true false (BitVec.ofNat 64 (hdrVa pg)))
      ++ [s.tensorAcc c k.dO (elemsBytes k.dO rows) true]
      ++ ((onePerPage (kv.zipIdx.map fun e => ((pf k 192 48 + 16 * e.2 + 13 : Nat) : Int))).map (s.ledAcc c true false)))

/-- The elements a kattn writes. -/
def attnOut (s : State) (c : Nat) (k : KIn) (kv : List Nat) : KOut := if isPaged k then s.attnPaged c k kv else s.attnDense c k

end State

open State

/-- KV_APPEND (R189). -/
def execKvAppend (c : CtxId) (id : Nat) (s : State) : Host.Outcome State Fault Refusal := .next (s.clocked fun s => s.kvAppend c.val id)

end Sys2Proof.Machine
end

