-- ==== Sys2Proof/Machine/Kstream.lean ====
section
/-!
DEFINITION. Streams and chunks (08): the Stream store's commands, admission, raises and lowers, and what kscan and kcell
compute.
-/

namespace Sys2Proof.Machine

open Sys2Proof

namespace State

/-! ### The Stream store (R196 to R205) -/

/-- Set a stream. -/
def setStrm (s : State) (n : Nat) (x : Option Strm) : State :=
  { s with stream := { s.stream with streams := mset (fun _ => none) s.stream.streams n x } }

/-- Change a stream. -/
def modStrm (s : State) (n : Nat) (f : Strm → Strm) : State := s.setStrm n ((s.strm n).map f)

/-- Elements of a carried state. -/
def strmLen (x : Strm) : Nat := sigmaW x.gate * x.h
/-- Granules of a carried state (R197). -/
def strmGran (x : Strm) : Nat := (4 * strmLen x + 255) / 256

/-- Registered streams by number. -/
def strms (s : State) : List (Nat × Strm) := s.stream.streams.filterMap fun e => e.2.map fun x => (e.1, x)

/-- A stream takes up room in the Stream store. -/
def inStore (x : Strm) : Bool := x.place == .resident || x.place == .lowering

/-- Some streams fit the Stream store (R196, R197). -/
def strmsFit (l : List (Nat × Strm)) : Bool :=
  decide (l.length ≤ 1024) && decide ((l.map fun e => strmGran e.2).foldl (· + ·) 0 ≤ 32768)

/-- STREAM_STAT (R196, R197). -/
def streamStat (s : State) : W64 :=
  let l := s.strms.filter fun e => inStore e.2
  BitVec.ofNat 64 (2 ^ 16 * ((32768 - (l.map fun e => strmGran e.2).foldl (· + ·) 0) % 2 ^ 16) + l.length)

/-- The initial vector of a stream, and whether each of its bytes can be read (R198). -/
def strmInit (s : State) (x : Strm) : TAcc × List W32 :=
  let n := strmLen x
  if x.init = 0 then (.ok, List.replicate n 0) else
  (accAll ((onePerPage ((List.range (4 * n)).map fun k => ((x.init.toNat + k : Nat) : Int))).map (s.ledAcc x.owner false false)),
   (List.range n).map fun i => BitVec.ofNat 32 (s.ctxNat x.owner (x.init.toNat + 4 * i) 4))

/-- The state of a stream in its escrow span (R197). -/
def escRead (s : State) (x : Strm) : List W32 := (List.range (strmLen x)).map fun i => BitVec.ofNat 32 (s.natAt (x.esc + 4 * i) 4)

/-- Write a state into its escrow span. -/
def escWrite (s : State) (x : Strm) (vs : List W32) : State := s.putBytes x.esc (vs.flatMap fun w => toBytes 4 w.toNat)

/-- The carried state becomes the initial state (R198, R211); a vector that cannot be read is read by the next chunk. -/
def strmReset (s : State) (n : Nat) (x : Strm) : State :=
  match s.strmInit x with
  | (.ok, vs) =>
    let s := s.setStrm n (some { x with vals := if inStore x then vs else [], fresh := false })
    if x.place = .escrow then s.escWrite x vs else s
  | _ => s.setStrm n (some { x with fresh := true })

/-- STREAM_INFO.STATE. -/
def strmCode : Option Strm → Nat
  | none => 0
  | some x => match x.place with
    | .resident => 1 | .escrow => 2 | .raising => 3 | .lowering => 4 | .poisoned => 5

/-- STREAM_INFO of the caller. -/
def strmInfo (s : State) (r err n : Nat) : State :=
  let x := s.strm n
  s.setReg (stg r Reg.STREAM_INFO) (BitVec.ofNat 64 (2 ^ 24 * err
    + 2 ^ 16 * Nat.min ((x.map fun x => x.claims.length).getD 0) 255 + strmCode x))

/-- The selected stream of the caller. -/
def strmSel (s : State) (r : Nat) : Nat := s.fld (Fld.of Reg.STREAM_SEL_STREAM r)

/-- STREAM_CMD REGISTER (R196, R198). -/
def strmRegister (r : Nat) (s : State) : State :=
  let n := s.strmSel r
  let g := fun (f : Fld) => s.fld (f.of r)
  let x : Strm := { owner := g Reg.STREAM_DEF_OWNER, gate := g Reg.STREAM_DEF_GATE_SET, h := g Reg.STREAM_DEF_H,
                    esc := 256 * g Reg.STREAM_ESC_ADDR, init := BitVec.ofNat 64 (g Reg.STREAM_INIT_VA) }
  let b := 4 * strmLen x
  if x.gate = 3 ∨ b < 4 ∨ 65536 < b ∨ x.init.toNat % 64 ≠ 0 then s.strmInfo r 1 n
  else if (s.strm n).isSome then s.strmInfo r 4 n
  else if x.esc < 0x1000000000 ∨ 65536 * s.dramTop < x.esc + 256 * strmGran x then s.strmInfo r 5 n
  else ((s.setStrm n (some x)).strmReset n x).strmInfo r 0 n

/-- A command on an unclaimed, registered stream. -/
def onStrm (s : State) (r : Nat) (f : Nat → Strm → State → State) : State :=
  let n := s.strmSel r
  match s.strm n with
  | none => s.strmInfo r 3 n
  | some x => if x.claims.isEmpty then (f n x s).strmInfo r 0 n else s.strmInfo r 2 n

/-- STREAM_CMD UNREGISTER (R204). -/
def strmUnregister (r : Nat) (s : State) : State := s.onStrm r fun n _ s => s.setStrm n none
/-- STREAM_CMD RESET (R211); a poisoned stream stays poisoned. -/
def strmCmdReset (r : Nat) (s : State) : State :=
  s.onStrm r fun n x s => if x.place = .poisoned then s else s.strmReset n x
/-- STREAM_CMD FLUSH (R203). -/
def strmFlush (r : Nat) (s : State) : State :=
  s.onStrm r fun n x s => if x.place = .resident then s.setStrm n (some { x with place := .lowering }) else s

/-- STREAM_CMD READ. -/
def strmRead (r : Nat) (s : State) : State :=
  let n := s.strmSel r
  match s.strm n with
  | none => s.strmInfo r 3 n
  | some x =>
    let p := fun (s : State) (f : Fld) (v : Nat) => s.setFld (f.of r) v
    (p (p (p (p (p s Reg.STREAM_DEF_OWNER x.owner) Reg.STREAM_DEF_GATE_SET x.gate) Reg.STREAM_DEF_H x.h)
      Reg.STREAM_ESC_ADDR (x.esc / 256)) Reg.STREAM_INIT_VA x.init.toNat).strmInfo r 0 n

/-! ### Admission and movement (R200 to R205) -/

/-- Lower unclaimed resident streams, longest idle first, until the streams that stay fit (R202). -/
def makeRoom : Nat → State → State
  | 0, s => s
  | fuel + 1, s =>
    if strmsFit (s.strms.filter fun e => e.2.place == .resident || e.2.place == .raising) then s else
    match bestBy (fun (a b : Nat × Strm) => decide (a.2.lastDone < b.2.lastDone) || (a.2.lastDone == b.2.lastDone && decide (a.1 < b.1)))
        (s.strms.filter fun e => e.2.place == .resident && e.2.claims.isEmpty) with
    | some e => makeRoom fuel (s.setStrm e.1 (some { e.2 with place := .lowering }))
    | none => s

/-- A chunk that waits for its Receipt or its turn, or starts again after a swap, and is not admitted: class, order, context,
operation. -/
def chunksWaiting (s : State) : List (Nat × Nat × Nat × AsyncOp) :=
  s.ctxs.flatMap fun e =>
    if e.2.stage ≠ .resident ∨ e.2.td.isSome then [] else
    (e.2.ops.filter fun o => !o.streams.isEmpty && o.state != .running && o.state != .postWait && !s.admitted e.1 o).map
      fun o => (e.2.cls.val, o.order, e.1, o)

/-- The next chunk in order of class, then of issue (R201). -/
def nextChunk (s : State) : Option (Nat × Nat × Nat × AsyncOp) :=
  bestBy (fun (a b : Nat × Nat × Nat × AsyncOp) => decide (a.1 < b.1) || (a.1 == b.1 && decide (a.2.1 < b.2.1))) s.chunksWaiting

/-- A chunk whose streams are all resident goes to the Starter (R202). -/
def chunksGo (s : State) : State :=
  s.ctxs.foldl (fun s e => (s.ctx e.1).ops.foldl (fun s o =>
    if o.state = .admitWait ∧ s.chunkIn e.1 o then s.modOp e.1 o.id fun o => { o with state := .ready } else s) s) s

/-- A chunk that names a poisoned stream faults (R204, R207). -/
def chunkPoison (s : State) (c id : Nat) : State := s.opFault c id 6 5 (BitVec.allOnes 64) 0 0

/-- CHUNK_ADMISSION (R201, R202). How many cycles the chunk waited is left open (assumption 2). -/
def chunkAdmit (s : State) : State :=
  match s.nextChunk with
  | none => s
  | some (_, _, c, o) =>
    let mine := s.strms.filter fun e => o.streams.contains e.1
    if mine.length ≠ o.streams.length then s else
    if mine.any fun e => e.2.place == .poisoned then s.chunkPoison c o.id else
    let held := s.strms.filter fun e => !e.2.claims.isEmpty || o.streams.contains e.1
    if !strmsFit held then s else
    let s := mine.foldl (fun s e => s.modStrm e.1 fun x => { x with
      claims := (c, o.id) :: x.claims
      place := match x.place with
        | .escrow => .raising
        | .lowering => .resident
        | p => p }) s
    let s := (s.rise Reg.STREAM_ADMIT_CYC_CYCLES (Config.freeNat s.freeCtr (2 ^ 61))).bumpFree
    (makeRoom 1025 s).chunksGo

/-- Poison a stream (R204): every admitted chunk that names it faults. -/
def strmPoison (s : State) (n : Nat) : State :=
  match s.strm n with
  | none => s
  | some x =>
    let s := if s.flag Reg.STREAM_ERR_UE then s else (s.setFld Reg.STREAM_ERR_UE 1).setFld Reg.STREAM_UE_STREAM_STREAM n
    let s := s.setStrm n (some { x with place := .poisoned, vals := [] })
    x.claims.foldl (fun s q => s.chunkPoison q.1 q.2) s

/-- STREAM_RAISE_COMPLETE (R202, R204): it waits while the Stream store has no room. -/
def strmRaised (s : State) (n : Nat) (corrected ue : Bool) : State :=
  match s.strm n with
  | none => s
  | some x =>
    if x.place ≠ .raising then s else
    let s := if corrected then s.bump Reg.TELLER_CE_CNT_DRAM else s
    if ue then s.strmPoison n
    else if !strmsFit ((s.strms.filter fun e => inStore e.2) ++ [(n, x)]) then makeRoom 1025 s
    else ((s.setStrm n (some { x with place := .resident, vals := if x.fresh then [] else s.escRead x })).rise
      Reg.STREAM_SWAP_INS_COUNT).chunksGo

/-- STREAM_LOWER_COMPLETE (R203). -/
def strmLowered (s : State) (n : Nat) : State :=
  match s.strm n with
  | none => s
  | some x =>
    if x.place ≠ .lowering then s else
    let s := if x.fresh then s else s.escWrite x x.vals
    (s.setStrm n (some { x with place := .escrow, vals := [] })).rise Reg.STREAM_SWAP_OUTS_COUNT

/-- STREAM_STORE_ECC_ERROR (R204): a corrected word, or an uncorrectable one of a stream in the store. -/
def strmEcc (s : State) : Option Nat → State
  | none => s.bump Reg.STREAM_ERR_CE_COUNT
  | some n => match s.strm n with
    | some x => if inStore x then s.strmPoison n else s
    | none => s

/-- The streams of a context under teardown are unregistered, their states discarded (R199). -/
def strmTeardown (s : State) (c : Nat) : State :=
  { s with stream := { s.stream with streams := s.stream.streams.filter fun e => match e.2 with
      | some x => x.owner != c
      | none => false } }

/-- A context's chunks drop their claims as it is swapped to escrow (R200). -/
def strmSwapOut (s : State) (c : Nat) : State :=
  { s with stream := { s.stream with streams := s.stream.streams.map fun e =>
      (e.1, e.2.map fun x => { x with claims := x.claims.filter fun q => q.1 != c }) } }

/-! ### kscan and kcell (R206 to R212) -/

/-- The stream list of a chunk from what was read at issue. -/
def chunkList (k : KIn) : List Nat := if pf k 64 48 = 0 then [] else (List.range (dDim k.dA 2)).map fun i => sliceNat k.extra (4 * i) 2


/-- The stream list names streams the chunk may use (R207). -/
def chunkListOk (s : State) (c : Nat) (k : KIn) : Bool :=
  let l := chunkList k
  decide (l.eraseDups.length = l.length) && (List.range l.length).all (fun i => sliceNat k.extra (4 * i + 2) 2 == 0)
    && l.all fun n => match s.strm n with
      | some x => x.owner == c && x.gate == pf k 0 2 && x.h == chunkH k
      | none => false

/-- The streams of a chunk fit the Stream store by themselves (R201). -/
def chunkFits (s : State) (k : KIn) : Bool :=
  decide (((chunkList k).map fun n => ((s.strm n).map strmGran).getD 0).foldl (· + ·) 0 ≤ 32768)

/-- h as kcell multiplies it: converted to DA's format (R210). -/
def cellH (f : Nat) (h : List FV) : List FV :=
  if isMx f then
    (List.range ((h.length + 31) / 32)).flatMap fun b =>
      let blk := (h.drop (32 * b)).take 32
      let (sc, codes) := mxBlock f 0 (fun _ => 0) blk
      codes.map fun code => mxVal f code sc
  else h.map fun v => codeVal f (conv f 0 0 false v)

/-- The pre-activations of one step (R210). -/
def chunkPre (s : State) (c : Nat) (k : KIn) (t col : Nat) (h : List FV) (draw : Nat) : List FV :=
  let e := dExt k.dA 0
  let fA := dFmt k.dA
  let hs := if k.mn = .kcell then cellH fA h else []
  let len := e + hs.length
  (List.range (dExt k.dB 1)).map fun n =>
    let ps := s.runPairs c k.dB len 0 [] [n]
    let terms := ps.map fun p =>
      let a := p.1.headD 0
      prod fA (if a < e then s.valAt c k.dA [a, t, col] else hs.getD (a - e) .nan) (s.valAt c k.dB p.2)
    let b := s.gateBias c k n
    if intPath k then fAdd (f32 (redInt (terms.map wholeOf) 0 (s.draw (draw + n)) * one300)) b
    else redFloat len (fA == 0x0D) terms b (s.draw (draw + n))

/-- The progress of one column: the state, the sequential state of the segment, the sum of R212 and its steps, outputs. -/
structure ColRun where
  st : List FV
  seq : List FV
  sum : List Int
  steps : Nat
  outs : List (Nat × List FV)

/-- A state element within R212's bound of the sequential one, drawn freely (assumption 2). -/
def scanVal (seq : FV) (sum : Int) (steps draw : Nat) : FV :=
  let m := 2 * (Nat.log2 (2 * steps - 1)) + 2
  match seq, f32Of (draw % 2 ^ 32) with
  | .fin v, .fin x => if decide (2 ^ 23 * (x - v).natAbs ≤ m * sum.natAbs) then .fin x else .fin v
  | v, _ => v

/-- One step of a column (R210, R212). -/
def chunkStep (s : State) (c : Nat) (k : KIn) (init : List FV) (col : Nat) (r : ColRun) (t : Nat) : ColRun :=
  let gs := pf k 0 2
  let h := chunkH k
  let draw := 2 ^ 44 + 2 ^ 20 * (t + dExt k.dA 1 * col)
  let mark := hasC k && s.elemCode c k.dC [t, col] != 0
  let start := fun (l : List FV) => l.map fun v => ((fvVal v).natAbs : Int)
  let r := if mark then { r with st := init, seq := init, sum := start init, steps := 0 } else r
  let p := s.chunkPre c k t col (r.st.take h) draw
  let d := fun (n : Nat) => s.draw (2 ^ 18 + draw + n)
  let el := fun (l : List FV) (n : Nat) => l.getD n .nan
  if k.mn = .kscan then
    let a := (List.range h).map fun e => actFn 5 (.fin 0) (el p e) (d (2 * e))
    let b := (List.range h).map fun e => fMul (fAdd (fvInt 1) (fNeg (el a e))) (el p (h + e))
    let seq := (List.range h).map fun e => fAdd (fMul (el a e) (el r.seq e)) (el b e)
    let sum := (List.range h).map fun e => r.sum.getD e 0 + ((fvVal (el b e)).natAbs : Int)
    let st := (List.range h).map fun e => scanVal (el seq e) (sum.getD e 0) (r.steps + 1) (d (2 * e + 1))
    { r with st := st, seq := seq, sum := sum, steps := r.steps + 1, outs := r.outs ++ [(t, st)] }
  else
    let st := (List.range (sigmaW gs * h)).map (cellStep gs h (el p) (el r.st) d)
    { r with st := st, outs := r.outs ++ [(t, st.take h)] }

/-- A whole column: its outputs and the state it leaves. -/
def chunkCol (s : State) (c : Nat) (k : KIn) (st init : List FV) (col : Nat) : ColRun :=
  (List.range (dExt k.dA 1)).foldl (s.chunkStep c k init col)
    { st := st, seq := st, sum := st.map fun v => ((fvVal v).natAbs : Int), steps := 0, outs := [] }

/-- What a chunk comes to: DO's elements, and the states of its streams. -/
def chunkOut (s : State) (c : Nat) (k : KIn) : KOut × List (Nat × List W32) :=
  let l := chunkList k
  let zero := List.replicate (sigmaW (pf k 0 2) * chunkH k) (FV.fin 0)
  if dExt k.dA 1 = 0 ∨ dExt k.dA 2 = 0 then (([], []), []) else
  let cols := (List.range (dExt k.dA 2)).map fun col =>
    let x := l[col]?.bind s.strm
    let init := match x with
      | some x => (s.strmInit x).2.map fun w => f32Of w.toNat
      | none => zero
    let st := match x with
      | some x => if x.fresh then init else x.vals.map fun w => f32Of w.toNat
      | none => zero
    s.chunkCol c k st init col
  let last := pf k 2 1 == 1
  let rnd := k.o.rnd.val
  let es := cols.zipIdx.flatMap fun (r, col) => r.outs.flatMap fun (t, h) =>
    if last && t + 1 != dExt k.dA 1 then [] else
    let t' := if last then 0 else t
    h.zipIdx.map fun (v, e) => ([e, t', col], conv (dFmt k.dO) rnd (s.draw (rowNum (dExts k.dO) [e, t', col])) false v)
  ((es, []), (l.zip cols).map fun e => (e.1, e.2.st.map fun v => BitVec.ofNat 32 (f32Code v)))

/-- What a chunk accesses: its operands, the biases, and the initial vectors it applies. -/
def chunkAcc (s : State) (c : Nat) (k : KIn) : TAcc :=
  if dExt k.dA 1 = 0 ∨ dExt k.dA 2 = 0 then .ok else
  let bias := if pf k 128 48 = 0 then [] else
    (onePerPage ((List.range (4 * gateW (pf k 0 2) * chunkH k)).map fun b => ((pf k 128 48 + b : Nat) : Int))).map (s.ledAcc c false false)
  let marked := fun (col : Nat) => hasC k && (List.range (dExt k.dA 1)).any fun t => s.elemCode c k.dC [t, col] != 0
  let inits := (chunkList k).zipIdx.map fun (n, col) => match s.strm n with
    | some x => if x.fresh || marked col then (s.strmInit x).1 else .ok
    | none => .ok
  accAll ([s.tensorAcc c k.dA (dBytes k.dA) false, s.tensorAcc c k.dB (dBytes k.dB) false,
    if hasC k then s.tensorAcc c k.dC (dBytes k.dC) false else .ok] ++ bias ++ inits ++ [s.tensorAcc c k.dO (dBytes k.dO) true])

/-- A chunk's states are written (R205). -/
def chunkStore (s : State) (l : List (Nat × List W32)) : State :=
  l.foldl (fun s e => (s.modStrm e.1 fun x => { x with vals := e.2, fresh := false, lastDone := s.stamp })) s.nextStamp

end State

open State

/-- STREAM_REGISTER (R196). -/
def execStreamRegister (r : Requester) (s : State) : Host.Outcome State Fault Refusal :=
  .next (s.permit r 3 Reg.STREAM_CMD (strmRegister r))

/-- STREAM_UNREGISTER (R204). -/
def execStreamUnregister (r : Requester) (s : State) : Host.Outcome State Fault Refusal :=
  .next (s.permit r 3 Reg.STREAM_CMD (strmUnregister r))

/-- STREAM_RESET (R211). -/
def execStreamReset (r : Requester) (s : State) : Host.Outcome State Fault Refusal :=
  .next (s.permit r 3 Reg.STREAM_CMD (strmCmdReset r))

/-- STREAM_FLUSH (R203). -/
def execStreamFlush (r : Requester) (s : State) : Host.Outcome State Fault Refusal :=
  .next (s.permit r 3 Reg.STREAM_CMD (strmFlush r))

/-- STREAM_READ (R196). -/
def execStreamRead (r : Requester) (s : State) : Host.Outcome State Fault Refusal :=
  .next (s.permit r 3 Reg.STREAM_CMD (strmRead r))

/-- CHUNK_ADMISSION (R201). -/
def execChunkAdmission (s : State) : Host.Outcome State Fault Refusal := .next (s.clocked fun s => s.chunkAdmit)

/-- STREAM_RAISE_COMPLETE (R202, R204). -/
def execStreamRaiseComplete (n : BitVec 16) (corrected ue : Bool) (s : State) : Host.Outcome State Fault Refusal :=
  .next (s.clocked fun s => s.strmRaised n.toNat corrected ue)

/-- STREAM_LOWER_COMPLETE (R203). -/
def execStreamLowerComplete (n : BitVec 16) (s : State) : Host.Outcome State Fault Refusal := .next (s.clocked fun s => s.strmLowered n.toNat)

/-- STREAM_STORE_ECC_ERROR (R204). -/
def execStreamStoreEccError (n : Option (BitVec 16)) (s : State) : Host.Outcome State Fault Refusal :=
  .next (s.strmEcc (n.map (·.toNat)))

end Sys2Proof.Machine
end

