-- ==== Sys2Proof/Machine/Teller.lean ====
section
/-!
DEFINITION. The Teller's commands (09): page moves from acceptance to completion, menter's commit, errors of the memory
tiers and poison, scrub, translations, page commands and pools.
-/

namespace Sys2Proof.Machine

open Sys2Proof

namespace State

/-! ### Page moves (R224 to R230) -/

/-- Change the moves that satisfy a test. -/
def modMoves (s : State) (f : Move → Bool) (g : Move → Move) : State :=
  { s with teller := { s.teller with moves := s.teller.moves.map fun m => if f m then g m else m } }

/-- The claimant a move stands for. -/
def moveOwner (m : Move) : Claimant := (m.ctx, m.op.getD 0)

/-- Count a page move accepted (R228, point 6). -/
def moveSeq (s : State) : State := s.rise Reg.TELLER_MOVE_SEQ_COUNT

/-- A move waits and its context may have it accepted: a context under teardown may not (R263, step 3). -/
def moveWaits (s : State) (m : Move) : Bool := !m.inFlight && (s.ctx m.ctx).td.isNone

/-- The waiting page move accepted next: by class of its context, then by issue (R224). -/
def nextMove (s : State) : Option Move :=
  bestBy (fun (a b : Move) =>
    let ka := (s.ctx a.ctx).cls.val
    let kb := (s.ctx b.ctx).cls.val
    decide (ka < kb) || (ka == kb && decide (a.order < b.order))) (s.teller.moves.filter s.moveWaits)

/-- An accepted move on a page is being performed. -/
def pageBusy (s : State) (p : Nat) : Bool := s.teller.moves.any fun m => m.page == p && m.started

/-- The end of some page moves: the transient claims end, and each MOVE left without page moves completes (R224). -/
def endMoves (s : State) (f : Move → Bool) : State :=
  let gone := s.teller.moves.filter f
  let s := { s with teller := { s.teller with moves := s.teller.moves.filter fun m => !f m } }
  let s := gone.foldl (fun s m =>
    if s.teller.moves.any fun q => q.inFlight && q.page == m.page && moveOwner q == moveOwner m then s
    else (s.modPage m.page fun g => { g with trans := g.trans.filter (· != moveOwner m) }).stampEnd m.page) s
  let s := s.rise Reg.TELLER_MOVE_DONE_COUNT
  ((gone.map moveOwner).eraseDups).foldl (fun s q =>
    if q.2 = 0 || s.teller.moves.any fun m => moveOwner m == q then s else s.finishOp q.1 q.2 true) s

/-- The page a raise into a part finds a frame by demoting, if any is free or can be freed (R226). -/
def takeFrame (s : State) (toDram : Bool) : Option (Option Nat) :=
  if s.framesFree toDram then some none else (s.victim toDram).map some

/-- Begin the demotion of a page: a page move of its own (R222, R226). -/
def beginDemote (s : State) (c v : Nat) : State :=
  let s := (s.modPage v fun g => { g with state := .lowering }).moveSeq
  ({ s with teller := { s.teller with moves := s.teller.moves ++
      [{ ctx := c, op := none, page := v, kind := .demote, inFlight := true, started := true, order := s.stamp }] } }
    : State).nextStamp

/-- The bytes of one page that a menter programs. -/
def enterData (s : State) (m : Move) : List (Nat × Byte) :=
  match m.op.bind (s.opOf m.ctx) with
  | none => []
  | some o =>
    ((s.enterBytes m.ctx o.dA).zipIdx.filterMap fun (b, k) =>
      let a := o.addr.toNat + k
      if a / 65536 = m.vpn then some (a % 65536, BitVec.ofNat 8 b) else none)

/-- Perform the first accepted move of a page that has none in progress; a raise that needs nothing, or is short, ends
at once (R225, R226, R228). Fuel bounds the moves that end at once. -/
def startPage : Nat → State → Nat → State
  | 0, s, _ => s
  | fuel + 1, s, p =>
    if s.pageBusy p then s else
    match bestBy (fun (a b : Move) => decide (a.order < b.order)) (s.teller.moves.filter fun m => m.page == p && m.inFlight) with
    | none => s
    | some m =>
      let same := fun (q : Move) => q.page == p && q.inFlight && q.kind == m.kind && q.order == m.order
      match m.kind with
      | .raise toDram =>
        let same := fun (q : Move) => q.page == p && q.inFlight && q.kind == .raise toDram
        if (s.page p).state = .poisoned ∨ !s.raiseNeedsMove p toDram then startPage fuel (s.endMoves same) p
        else match s.takeFrame toDram with
          | none => startPage fuel ((s.bump Reg.TELLER_SHORT_CNT_RAISE_SHORT).endMoves same) p
          | some none => (s.modMoves same fun q => { q with started := true }).modPage p fun g => { g with state := .raising }
          | some (some v) =>
            ((s.modMoves same fun q => { q with started := true, after := some v }).modPage p
              fun g => { g with state := .raising }).beginDemote m.ctx v
      | .enter => s.modMoves same fun q => { q with started := true, data := s.enterData m }
      | _ => s.modMoves same fun q => { q with started := true }

/-- How many moves a page has: the fuel of `startPage`. -/
def pageFuel (s : State) : Nat := s.teller.moves.length + 1

/-- Accept the next waiting page move (R224): two raises of one page share one (R228, point 3). -/
def moveAccept (s : State) : State :=
  if !s.flag Reg.TELLER_CTL_EN || decide (512 ≤ s.movesInFlight) then s else
  match s.nextMove with
  | none => s
  | some m =>
    let shared := match m.kind with
      | .raise _ => s.teller.moves.find? fun (q : Move) => q.page == m.page && q.inFlight && q.kind == m.kind
      | _ => (none : Option Move)
    let s := s.takeTrans m.ctx (m.op.getD 0) m.page
    match shared with
    | some q => s.modMoves (fun x => x.order == m.order && x.page == m.page)
        fun x => { x with inFlight := true, started := q.started, after := q.after }
    | none =>
      let s := (s.moveSeq).modMoves (fun x => x.order == m.order && x.page == m.page) fun x => { x with inFlight := true }
      startPage s.pageFuel s m.page

/-- The demotion of a raise's frame has ended: the raise has the frame, or the page kept it (R222) and the raise looks
for another. -/
def frameFreed (s : State) (v : Nat) (kept : Bool) : State :=
  match s.teller.moves.find? fun m => m.started && m.after == some v with
  | none => s
  | some m =>
    let same := fun (q : Move) => q.page == m.page && q.started && q.after == some v
    let dram := match m.kind with
      | .raise d => d
      | _ => false
    if !kept || s.framesFree dram then s.modMoves same fun q => { q with after := none }
    else match s.victim dram with
      | some u => (s.modMoves same fun q => { q with after := some u }).beginDemote m.ctx u
      | none =>
        let s := (s.modPage m.page fun g => { g with state := if g.inPool then .raised else .home }).bump
          Reg.TELLER_SHORT_CNT_RAISE_SHORT
        let s := s.endMoves same
        startPage s.pageFuel s m.page

/-- A demotion ends (R222): the copy is written back, and the frame freed unless a claim was taken. -/
def demoteDone (s : State) (p : Nat) : State :=
  let s := s.writeBack p
  let kept := !noClaim (s.page p)
  let s := if kept then s.modPage p fun g => { g with state := .raised, dirty := false }
    else s.modPage p fun g => { g with state := .home, inPool := false, dirty := false, pool := none }
  let s := (s.endMoves fun m => m.page == p && m.started).frameFreed p kept
  startPage s.pageFuel s p

/-- One page of a copy or fill is carried (R229, R238). -/
def copyDone (s : State) (p : Nat) (m : Move) : State :=
  let fin := fun (s : State) =>
    let s := s.endMoves fun q => q.page == p && q.order == m.order
    startPage s.pageFuel s p
  match m.op.bind (s.opOf m.ctx) with
  | none => fin s
  | some o =>
    match accAll [s.destAll m.ctx o, s.srcAll m.ctx o] with
    | .wait => s
    | .fault code unit d va =>
      fin (s.opFault m.ctx o.id code (if code = 6 then unit else 4) d va (dTag o.dO))
    | .ok =>
      let s := if (s.page p).state = .poisoned ∧ coversPage o m.vpn then s.modPage p fun g => { g with state := .home } else s
      fin (s.copyPage m.ctx o (some m.vpn))

/-- PAGE_MOVE_COMPLETE: the move performed on a page ends. A menter's ends at its commit. -/
def moveDone (s : State) (p : Nat) : State :=
  match s.teller.moves.find? fun m => m.page == p && m.started with
  | none => s
  | some m => match m.kind with
    | .demote => s.demoteDone p
    | .enter => s
    | .raise toDram =>
      if m.after.isSome then s else
      let fin := fun (s : State) =>
        let s := s.endMoves fun q => q.page == p && q.started
        startPage s.pageFuel s p
      if (s.page p).state = .poisoned then
        fin ((s.teller.moves.filter fun q => q.page == p && q.started).foldl (fun s q => match q.op with
          | some id => s.opFault q.ctx id 6 4 (BitVec.ofNat 64 p) (BitVec.ofNat 64 (65536 * q.vpn)) 0
          | none => s) s)
      else fin (s.modPage p fun g => { g with state := .raised, inPool := toDram, dirty := false })
    | _ => s.copyDone p m

/-! ### The NAND tier (R230, R233 to R236) -/

/-- The view page of a home page, and the channels of its two entries. -/
def nandChannel (p : Nat) (second : Bool) : Nat := ((p - 0x800000) + if second then 8 else 0) % 16

/-- A home page of the NAND view. -/
def isNandHome (s : State) (p : Nat) : Bool := s.region (65536 * p) == .nand

/-- The entries that can be programmed: those whose channel is in service. -/
def nandUp (s : State) (p : Nat) : Nat :=
  b2n (bitAt (s.fld Reg.TELLER_NAND_CH_UP) (nandChannel p false))
    + 2 * b2n (bitAt (s.fld Reg.TELLER_NAND_CH_UP) (nandChannel p true))

/-- MENTER_COMMIT (R230): once no other claim holds the page, the new content is the page's. -/
def enterCommit (s : State) (p : Nat) : State :=
  match s.teller.moves.find? fun m => m.page == p && m.started && m.kind == .enter with
  | none => s
  | some m =>
    let g := s.page p
    if !g.claims.isEmpty || g.trans.any (· != moveOwner m) || s.nandUp p = 0 then s else
    let s := s.modPage p fun g => { g with state := .home, inPool := false, dirty := false, pool := none, entries := s.nandUp p }
    let s := m.data.foldl (fun (s : State) e => s.setHome (65536 * p + e.1) e.2) (s.dropResidues (65536 * p) 65536)
    let s := s.endMoves fun q => q.page == p && q.order == m.order
    startPage s.pageFuel s p

/-- Tier code of a home page (Table 20-3). -/
def homeTier (s : State) (p : Nat) : Nat :=
  match s.region (65536 * p) with
  | .vault => 0
  | .nand => 2
  | _ => 1

/-- A page becomes POISONED (R238). -/
def poison (s : State) (p : Nat) : State :=
  if (s.page p).state = .poisoned then s else
  let t := s.homeTier p
  let s := s.modPage p fun g => { g with state := .poisoned, inPool := false, dirty := false }
  let s := { s with overlay := s.overlay.filter fun e => e.1 / 65536 != p }
  let s := s.incident 9 0x44 0x100 (BitVec.ofNat 64 (65536 * p + t))
  let s := s.setFld Reg.TELLER_POISON_LAST_PAGE p
  s.setFld (match t with
    | 0 => Reg.TELLER_ERR_VAULT_UE
    | 1 => Reg.TELLER_ERR_DRAM_UE
    | _ => Reg.TELLER_ERR_NAND_BOTH_UE) 1

/-- Entries rewritten by recovery or scrub. -/
def rewritten (s : State) (n : Nat) : State := s.bump Reg.TELLER_NAND_CNT_REWRITTEN n

/-- The module is paired (R236). -/
def isPaired (s : State) : Bool := s.fld Reg.RELAY_PAIR_STAT_STATE != 0

/-- Both entries of a page have failed (R236): a paired module waits for its partner's page. -/
def bothFailed (s : State) (p : Nat) : State :=
  let s := s.setFld Reg.TELLER_ERR_NAND_BOTH_UE 1
  if s.isPaired then s else s.poison p

/-- NAND_ENTRY_REWRITE (R234): an entry had an uncorrectable codeword at a read; the other entry serves it. -/
def entryRewrite (s : State) (p : Nat) (second : Bool) : State :=
  let g := s.page p
  if !s.isNandHome p || g.entries = 0 || g.state = .poisoned then s
  else if bitAt g.entries (if second then 0 else 1) then
    let s := ((s.bump Reg.TELLER_NAND_CNT_RECOVERED).rewritten 1).setFld Reg.TELLER_ERR_NAND_ENTRY_UE 1
    s.modPage p fun g => { g with entries := g.entries ||| (s.nandUp p &&& if second then 2 else 1) }
  else s.bothFailed p

/-- PARTNER_FETCH_COMPLETE (R236). -/
def partnerFetch (s : State) (p : Nat) (data : Option (List Byte)) : State :=
  if !s.isNandHome p || !s.isPaired || (s.page p).state = .poisoned then s else
  match data with
  | none => s.poison p
  | some bs =>
    let s := ((bs.take 65536).zipIdx).foldl (fun (s : State) e => s.setHome (65536 * p + e.2) e.1) s
    let s := (s.bump Reg.TELLER_SHORT_CNT_PARTNER).rewritten (b2n (bitAt (s.nandUp p) 0) + b2n (bitAt (s.nandUp p) 1))
    s.modPage p fun g => { g with entries := s.nandUp p }

/-- NAND_SCRUB (R235): both entries of a written page are read. -/
def nandScrub (s : State) (p : Nat) (a b : NandRead) : State :=
  let g := s.page p
  if !s.flag Reg.TELLER_CTL_SCRUB_EN || !s.isNandHome p || g.entries = 0 || g.state = .poisoned then s else
  let a := if bitAt g.entries 0 then some a else none
  let b := if bitAt g.entries 1 then some b else none
  let ok := fun (x : Option NandRead) => x == some .good || x == some .weak
  if !ok a && !ok b then s.bothFailed p else
  let again := fun (x : Option NandRead) => b2n (x == some .weak || x == some .bad)
  let s := if a = some .bad ∨ b = some .bad then s.setFld Reg.TELLER_ERR_NAND_ENTRY_UE 1 else s
  if again a + again b = 0 then s else s.rewritten (again a + again b)

/-! ### Errors of the Vault, DRAM and the reserve (R237) -/

/-- The context is torn down with POISONED by the Teller (R237, R263). -/
def contextLost (s : State) (c unit : Nat) : State :=
  s.faultCtx c { code := 6, imprecise := true, unit := unit, tag := 0, pc := (s.ctx c).pc, vaddr := 0,
                 lane15 := s.laneVal 15, detail := BitVec.allOnes 64 }

/-- MEMORY_UE (R237). -/
def memoryUe (s : State) : MemErr → State
  | .corrected dram => s.bump (if dram then Reg.TELLER_CE_CNT_DRAM else Reg.TELLER_CE_CNT_VAULT)
  | .home p => if (s.isVdHome p.toNat || s.inHurdleMap (65536 * p.toNat)) && !((s.page p.toNat).state == .raised && (s.page p.toNat).dirty)
      then s.poison p.toNat else s
  | .copy p =>
    let g := s.page p.toNat
    if g.state ≠ .raised ∧ g.state ≠ .lowering then s
    else
      let s := s.setFld (if g.inPool then Reg.TELLER_ERR_DRAM_UE else Reg.TELLER_ERR_VAULT_UE) 1
      if g.dirty then s.poison p.toNat else s
  | .flashMap => s.setFld Reg.TELLER_ERR_DRAM_UE 1
  | .context c => (s.setFld Reg.TELLER_ERR_DRAM_UE 1).contextLost c.val 4

/-! ### Translations, page commands, pools -/

/-- TELLER_INVAL (R219): a second write while one is in progress widens it to every context. -/
def tellerInval (s : State) (v : W32) : State :=
  let want := if v.getLsbD 8 then none else some (v.toNat % 256)
  let inval := match s.teller.inval with
    | none => want
    | some q => if q = want then q else none
  ({ s with teller := { s.teller with inval := some inval } } : State).setFld Reg.TELLER_STAT_INVAL_BUSY 1

/-- TELLER_INVAL_COMPLETE (R219). -/
def tellerInvalDone (s : State) : State :=
  match s.teller.inval with
  | none => s
  | some q =>
    ({ s with teller := { s.teller with inval := none, tlb := s.teller.tlb.filter fun e => match q with
        | none => false
        | some c => e.1 / 2 ^ 32 != c } } : State).setFld Reg.TELLER_STAT_INVAL_BUSY 0

/-- STATE of a page as TELLER_PAGE_INFO codes it (Table 9-3). -/
def pageCode : PageState → Nat
  | .home => 0 | .raising => 1 | .raised => 2 | .lowering => 3 | .poisoned => 4

/-- A page number names a home (R215). -/
def isHome (s : State) (p : Nat) : Bool := s.isVdHome p || s.isNandHome p

/-- TELLER_PAGE_INFO of the caller's copy. -/
def pageInfo (s : State) (r p err : Nat) : State :=
  let g := s.page p
  let w := if err = 1 then 2 ^ 28 * err else
    2 ^ 28 * err + 2 ^ 26 * (g.entries % 4) + 2 ^ 23 * pageCode g.state + 2 ^ 21 * s.tierOf p + 2 ^ 20 * b2n g.dirty
      + Nat.min g.claims.length 0xFFFF
  s.setReg (stg r Reg.TELLER_PAGE_INFO) (BitVec.ofNat 64 w)

/-- TELLER_PAGE_CMD READ. -/
def tellerPageRead (r : Nat) (s : State) : State :=
  let p := s.fld (Fld.of Reg.TELLER_PAGE_SEL_PAGE r)
  s.pageInfo r p (if s.isHome p then 0 else 1)

/-- TELLER_PAGE_CMD CLEAR_POISON (R238): the content is left open. -/
def clearPoison (r : Nat) (s : State) : State :=
  let p := s.fld (Fld.of Reg.TELLER_PAGE_SEL_PAGE r)
  if !s.isHome p then s.pageInfo r p 1
  else if (s.page p).state ≠ .poisoned then s.pageInfo r p 2
  else ((s.losePage p).bumpFree.modPage p fun g => { g with state := .home }).pageInfo r p 0

/-- The geometry of a pool header is valid (R185). -/
def poolHeaderOk (h : List Byte) : Bool :=
  let fmt := sliceNat h 34 1 % 64
  let b := fmtBits fmt / 8
  let hkv := sliceNat h 35 1 % 128
  let dim := sliceNat h 36 2 % 512
  let tpp := sliceNat h 33 1 % 16
  let ring := sliceNat h 32 1 % 32
  (fmt == 5 || fmt == 6 || fmt == 0x0B || fmt == 0x0C) && decide (1 ≤ hkv) && decide (hkv ≤ 64)
    && dim % 16 == 0 && decide (16 ≤ dim) && decide (dim ≤ 256) && decide (tpp ≤ 8) && decide (ring ≤ 20)
    && decide (64 + 2 * 2 ^ tpp * hkv * dim * b ≤ 65536)

/-- The pool's registration ends (R227, R240). -/
def poolEnd (n : Nat) (s : State) : State :=
  let s := s.setFld (Reg.TELLER_POOL_CFG_EN n) 0
  { s with teller := { s.teller with
      poolW := mdel s.teller.poolW n
      pages := s.teller.pages.map fun e =>
        if (e.2.pool.map (·.1)) = some n then (e.1, { e.2 with pool := none }) else e } }

/-- A write of TELLER_POOL_CFG_n (R226, R227). -/
def poolCfg (n : Nat) (v : W32) (s : State) : State :=
  if s.flag (Reg.TELLER_POOL_CFG_EN n) then
    if v.getLsbD 31 then s else s.poolEnd n
  else
    let s := (s.setFld (Reg.TELLER_POOL_CFG_QUOTA n) (v.toNat >>> 16)).setFld (Reg.TELLER_POOL_CFG_CONTEXT n) v.toNat
    if !v.getLsbD 31 then s else
    let c := s.fld (Reg.TELLER_POOL_CFG_CONTEXT n)
    let va := s.reg (Reg.TELLER_POOL_VA n)
    let bytes := (List.range 128).map fun (k : Nat) => ((va.toNat + k : Nat) : Int)
    let h := bytes.map fun b => BitVec.ofNat 8 (s.ledByte c (BitVec.ofInt 64 b))
    if (s.ctx c).stage != .undefined && va.toNat % 64 == 0
        && accAll ((onePerPage bytes).map (s.ledAcc c false false)) == .ok && poolHeaderOk h then
      let w := (sliceNat h 40 2, sliceNat h 42 2, sliceNat h 44 2)
      let s : State := { s with teller := { s.teller with poolW := mset (fun _ => (0, 0, 0)) s.teller.poolW n w } }
      (s.setFld (Reg.TELLER_POOL_CFG_ERR n) 0).setFld (Reg.TELLER_POOL_CFG_EN n) 1
    else s.setFld (Reg.TELLER_POOL_CFG_ERR n) 1

end State

open State

/-- TELLER_INVAL (R219). -/
def execTellerInval (r : Requester) (v : W32) (s : State) : Host.Outcome State Fault Refusal :=
  .next (s.permit r 3 Reg.TELLER_INVAL fun s => s.tellerInval v)

/-- TELLER_INVAL_COMPLETE (R219). -/
def execTellerInvalComplete (s : State) : Host.Outcome State Fault Refusal := .next (s.clocked fun s => s.tellerInvalDone)

/-- PAGE_MOVE_ACCEPT (R224, R226). -/
def execPageMoveAccept (s : State) : Host.Outcome State Fault Refusal := .next s.moveAccept

/-- PAGE_MOVE_COMPLETE (R224). -/
def execPageMoveComplete (page : BitVec 28) (s : State) : Host.Outcome State Fault Refusal := .next (s.clocked fun s => s.moveDone page.toNat)

/-- MENTER_COMMIT (R230). -/
def execMenterCommit (page : BitVec 28) (s : State) : Host.Outcome State Fault Refusal := .next (s.clocked fun s => s.enterCommit page.toNat)

/-- NAND_ENTRY_REWRITE (R234). -/
def execNandEntryRewrite (page : BitVec 28) (second : Bool) (s : State) : Host.Outcome State Fault Refusal :=
  .next (s.clocked fun s => s.entryRewrite page.toNat second)

/-- PARTNER_FETCH_COMPLETE (R236). -/
def execPartnerFetchComplete (page : BitVec 28) (data : Option (List Byte)) (s : State) : Host.Outcome State Fault Refusal :=
  .next (s.partnerFetch page.toNat data)

/-- NAND_SCRUB (R235). -/
def execNandScrub (page : BitVec 28) (a b : NandRead) (s : State) : Host.Outcome State Fault Refusal :=
  .next (s.clocked fun s => s.nandScrub page.toNat a b)

/-- DRAM_SCRUB (R235): a corrected word is counted; its content does not change. -/
def execDramScrub (page : BitVec 28) (corrected : Bool) (s : State) : Host.Outcome State Fault Refusal :=
  .next (s.clocked fun s => if s.flag Reg.TELLER_CTL_SCRUB_EN && corrected && decide (0x100000 ≤ page.toNat) && decide (page.toNat < s.dramTop)
    then s.bump Reg.TELLER_CE_CNT_DRAM else s)

/-- MEMORY_UE (R237). -/
def execMemoryUe (e : MemErr) (s : State) : Host.Outcome State Fault Refusal := .next (s.memoryUe e)

/-- TELLER_PAGE_READ (R223). -/
def execTellerPageRead (r : Requester) (s : State) : Host.Outcome State Fault Refusal :=
  .next (s.permit r 3 Reg.TELLER_PAGE_CMD (tellerPageRead r))

/-- CLEAR_POISON (R238). -/
def execClearPoison (r : Requester) (s : State) : Host.Outcome State Fault Refusal :=
  .next (s.permit r 3 Reg.TELLER_PAGE_CMD (clearPoison r))

/-- POOL_REGISTER (R227). -/
def execPoolRegister (r : Requester) (n : Fin 16) (v : W32) (s : State) : Host.Outcome State Fault Refusal :=
  .next (s.permit r 3 (Reg.TELLER_POOL_CFG n) (poolCfg n v))

end Sys2Proof.Machine
end

