-- ==== Sys2Proof/Machine/Ksprint.lean ====
section
/-!
DEFINITION. The Sprint engines beside their kernels (06): reflex models, memory errors and mapping; and the errors of the
Purses and accumulators (05).
-/

namespace Sys2Proof.Machine

open Sys2Proof

/-! ### The reflex network (R166) -/

/-- A whole number in the range of `n` bits. -/
def satBits (n : Nat) (v : Int) : Int := Min.min (2 ^ (n - 1) - 1) (Max.max (-(2 ^ (n - 1))) v)

/-- A whole number over a power of two, to nearest even. -/
def rneShift (v : Int) (sh : Nat) : Int :=
  let q := v / 2 ^ sh
  let r := v % 2 ^ sh
  if 2 * r > 2 ^ sh ∨ (2 * r = 2 ^ sh ∧ q % 2 = 1) then q + 1 else q

namespace State

/-- A byte of an image in the engine's memory; one behind its end is left open (assumption 2). -/
def imgByte (s : State) (e : Nat) (b : RxBind) (off : Nat) : Nat :=
  if off < b.len then (s.engByte e (b.base + off)).toNat
  else s.draw (2 ^ 40 + off) % 256

/-- One layer of the network on its inputs. -/
def rxLayer (s : State) (e : Nat) (b : RxBind) (layers : Nat) (x : List Int) (l : Nat) : List Int :=
  let g := fun (o n : Nat) => sliceNat b.params (16 + 16 * l + o) n
  let nOut := g 0 2 % 512
  let relu := bitAt (g 1 1) 1
  let sh := g 1 1 / 4
  let mult := sext 32 (g 4 4)
  (List.range nOut).map fun n =>
    let bias := sext 32 ((List.range 4).foldr (fun k acc => s.imgByte e b (g 11 3 * 64 + 4 * n + k) + 256 * acc) 0)
    let ts := x.zipIdx.map fun (v, k) => sext 8 (s.imgByte e b (g 8 3 * 64 + n * x.length + k)) * v
    let y := rneShift (redInt ts bias (s.draw (1024 * l + n)) * mult) sh
    let y := if l < layers then satBits 8 y else satBits 32 y
    if relu then Max.max 0 y else y

/-- The outputs of the network for one channel (R166). -/
def rxEval (s : State) (e : Nat) (b : RxBind) (feat : Map W32) : List W32 :=
  let layers := sliceNat b.params 1 1 % 8
  let sh := sliceNat b.params 2 2 / 128 % 32
  let x := (List.range (sliceNat b.params 2 1 % 128)).map fun i => satBits 8 (rneShift (mget (fun _ => 0) feat i).toInt sh)
  ((List.range (layers + 1)).foldl (s.rxLayer e b layers) x).map (BitVec.ofInt 32)

/-- The channels of a binding that take samples. -/
def rxChans (s : State) (b : RxBind) : List Nat :=
  (List.range 4).filter fun c => bitAt b.mask c && s.flag (Reg.PACER_CTL_EN b.pacer) && bitAt (s.pacer b.pacer).chEn c

/-- A period's features reach the engine (R168): a replacement takes effect, and the evaluation runs. -/
def rxFeatures (e : Nat) (s : State) : State :=
  match s.bindOf e with
  | none => s
  | some b =>
    if b.run.isSome || (s.rxChans b).isEmpty then s else
    let b := match b.next with
      | some (p, base, len, _) => { b with params := p, base := base, len := len, next := none }
      | none => b
    let run := (s.rxChans b).foldl (fun m c => mset (fun _ => []) m c (s.rxEval e b (s.chan b.pacer c).featSnap)) []
    s.bumpFree.setBind e (some { b with run := some run, late := false })

/-- The outputs of one channel are accepted for its next period (R168, R300). -/
def rxAccept (pacer : Nat) (s : State) (q : Nat × List W32) : State :=
  let hold := s.flag (Reg.PCH_CFG_RX_HOLD pacer q.1)
  s.modChan pacer q.1 fun x => { x with rxNext := (List.range 4).foldl (fun m k =>
    mset (fun _ => none) m k (some ((q.2[k]?).getD (if hold then mget (fun _ => 0) x.rxi k else 0)))) [] }

/-- The outputs of a SAFETY context's binding on an engine whose audit age exceeds the FTTI are withheld (R376). -/
def rxWithheld (s : State) (e : Nat) (b : RxBind) : Bool := s.judge.aged.contains (4096 + e) && (s.ctx b.ctx).cls.val == 0

/-- The evaluation ends (R165, R168): its outputs reach the Pacer unless the deadline passed. -/
def rxOutputs (e cycles : Nat) (s : State) : State :=
  match s.bindOf e with
  | none => s
  | some b => match b.run with
    | none => s
    | some run =>
      let s := if b.late || s.rxWithheld e b then s else run.foldl (rxAccept b.pacer) s
      let s := s.rise (Reg.SPRINT_RX_RUNS_RUNS e)
      let s := if s.fld (Reg.SPRINT_RX_CYC_MAX e) < cycles then s.setFld (Reg.SPRINT_RX_CYC_MAX e) (Nat.min cycles 0xFFFF) else s
      (s.setBind e (if b.stop.isSome || b.ending then none else some { b with run := none, late := false })).pump

/-- The output deadline passes (R168). -/
def rxDeadline (e : Nat) (s : State) : State :=
  match s.bindOf e with
  | none => s
  | some b => match b.run with
    | none => s
    | some run => if b.late then s else
      (s.bump (Reg.SPRINT_RX_STAT_LATE e) ((run.map fun q => q.2.length).foldl (· + ·) 0)).setBind e (some { b with late := true })

/-- A ksreflex has been done: the binding stands, has switched, or has ended (R165). -/
def rxDone (s : State) (o : AsyncOp) : Bool := (List.range 8).all fun e => match s.bindOf e with
  | some b => b.stop != some o.id && (b.next.map (·.2.2.2)) != some o.id
  | none => true

/-- A context's bindings end: after the evaluation in progress (R165). -/
def rxTeardown (s : State) (c : Nat) : State :=
  (List.range 8).foldl (fun s e => match s.bindOf e with
    | some b => if b.ctx = c then s.setBind e (if b.run.isSome then some { b with ending := true } else none) else s
    | none => s) s

/-! ### Errors and mapping (R147, R164) -/

/-- Every context that satisfies a test. -/
def ctxsWith (s : State) (f : Ctx → Bool) : List Nat := (s.ctxs.filter fun e => f e.2).map (·.1)

/-- The operation that runs on an engine or a position. -/
def runningOn (s : State) (g : Nat) (pos : Nat) : List (Nat × Nat) :=
  s.ctxs.flatMap fun e => (e.2.ops.filter fun o => groupOf o.unit == some g && o.state == .running && o.pos == some pos).map
    fun o => (e.1, o.id)

/-- An error in an engine's memory (R164). -/
def sprintEcc (e : Nat) (uncorrectable : Bool) (s : State) : State :=
  if !uncorrectable then s.bump (Reg.SPRINT_ERR_CE_COUNT e) else
  let bound := (s.bindOf e).map (·.ctx)
  let ran := s.runningOn 1 e
  let s := s.setFld (Reg.SPRINT_ERR_UE e) 1
  let s : State := if s.boot.enginesOut.contains e then s
    else { s with boot := { s.boot with enginesOut := s.boot.enginesOut ++ [e] } }
  let s := s.setBind e none
  let s := ran.foldl (fun s q => s.opFault q.1 q.2 6 3 (BitVec.allOnes 64) 0 0) s
  match bound with
  | some c => if ran.any fun q => q.1 == c then s else s.contextLost c 3
  | none => s

/-- A write of SPRINT_ENG_CTL_e (R164). -/
def mapOut (e : Nat) (v : Bool) (s : State) : State :=
  if v then
    if (s.bindOf e).isSome then s.setFld (Reg.SPRINT_ENG_STAT_MAP_REFUSED e) 1 else s.setFld (Reg.SPRINT_ENG_CTL_MAP_OUT e) 1
  else (s.setFld (Reg.SPRINT_ENG_CTL_MAP_OUT e) 0).pump

/-- MAPPED_OUT: an engine out for good, or one mapped out whose kernel has ended. -/
def mappedOut (s : State) (e : Nat) : Bool :=
  s.boot.enginesOut.contains e || (s.flag (Reg.SPRINT_ENG_CTL_MAP_OUT e) && (s.runningOn 1 e).isEmpty)

end State

open State

/-- SPRINT_ECC_ERROR (R164). -/
def execSprintEccError (e : Fin 8) (uncorrectable : Bool) (s : State) : Host.Outcome State Fault Refusal :=
  .next (sprintEcc e uncorrectable s)

/-- MAP_OUT (R164). -/
def execMapOut (r : Requester) (e : Fin 8) (v : Bool) (s : State) : Host.Outcome State Fault Refusal :=
  .next (s.permit r 4 (Reg.SPRINT_ENG_CTL e) (mapOut e v))

/-- REFLEX_FEATURES_ARRIVE (R168). -/
def execReflexFeaturesArrive (e : Fin 8) (s : State) : Host.Outcome State Fault Refusal := .next (s.clocked fun s => rxFeatures e s)

/-- REFLEX_OUTPUTS_ARRIVE (R168). -/
def execReflexOutputsArrive (e : Fin 8) (cycles : Nat) (s : State) : Host.Outcome State Fault Refusal :=
  .next (s.clocked fun s => rxOutputs e cycles s)

/-- REFLEX_OUTPUT_DEADLINE (R168). -/
def execReflexOutputDeadline (e : Fin 8) (s : State) : Host.Outcome State Fault Refusal := .next (rxDeadline e s)

end Sys2Proof.Machine
end

