-- ==== Sys2Proof/Machine/NovesScalar.lean ====
section
/-!
DEFINITION. Scalar, memory, system, branch and descriptor instructions (04: R98 to R102).
-/

namespace Sys2Proof.Machine

open Sys2Proof

namespace State

/-! ### ALU (R98) -/

/-- An arithmetic sub-opcode: SD takes the value. -/
def runAlu (s : State) (i : Issue) (m : Mn) (o : OpS) : State :=
  s.runN i m (.s o) fun s =>
    (s.sput i.ctx o.sd (aluVal m (s.sget i.ctx o.sa) (s.srcB i.ctx o))).pcNext i.ctx

/-- A compare sub-opcode: PD takes the result. -/
def runCmp (s : State) (i : Issue) (m : Mn) (o : OpS) : State :=
  s.runN i m (.s o) fun s =>
    (s.pput i.ctx o.pd (cmpVal m (s.sget i.ctx o.sa) (s.srcB i.ctx o))).pcNext i.ctx

/-- pget: P7 to P0 as a byte, P0 as 1 (R72, R98). -/
def predByte (s : State) (c : Nat) : W64 := ((s.ctx c).preds ||| 1).setWidth 64

/-- PGET. -/
def runPget (s : State) (i : Issue) (o : OpS) : State :=
  s.runN i .pget (.s o) fun s => (s.sput i.ctx o.sd (s.predByte i.ctx)).pcNext i.ctx

/-! ### Memory (R99) -/

/-- The effective address of a scalar or descriptor access, and its checks: MISALIGNED first, then an address above
48 bits (R99). -/
def atAddr (s : State) (c : Nat) (va : W64) (n : Nat) (k : State) : State :=
  if va.toNat % n ≠ 0 then s.precise c 3 0 va
  else if 2 ^ 48 ≤ va.toNat then s.precise c 4 0 va
  else k

/-- A load of `n` bytes, zero- or sign-extended. -/
def runLoad (s : State) (i : Issue) (m : Mn) (n : Nat) (signed : Bool) (o : OpS) : State :=
  s.runN i m (.s o) fun s =>
    let va := s.sget i.ctx o.sa + o.imm
    s.atAddr i.ctx va n (s.withLoad i.ctx va n fun bs s =>
      let v : W64 := if signed then BitVec.ofInt 64 (sext (8 * n) (ofBytes bs)) else BitVec.ofNat 64 (ofBytes bs)
      (s.sput i.ctx o.sd v).pcNext i.ctx)

/-- A store of the low `n` bytes of SB. -/
def runStore (s : State) (i : Issue) (m : Mn) (n : Nat) (o : OpS) : State :=
  s.runN i m (.s o) fun s =>
    let va := s.sget i.ctx o.sa + o.imm
    s.atAddr i.ctx va n (s.withStore i.ctx va (toBytes n (s.sget i.ctx o.sb).toNat) fun s => s.pcNext i.ctx)

/-! ### System (R100, R79, R84) -/

/-- The value of a query key (Table 3-3); a reserved key reads 0. -/
def queryVal (s : State) (c key : Nat) : Nat :=
  match key with
  | 0x00 => c
  | 0x01 => (s.ctx c).cls.val
  | 0x02 => (s.ctx c).marshal
  | 0x10 => 16
  | 0x11 => 16
  | 0x12 => s.fld Reg.FIELD_GEOM_COLS
  | 0x13 => s.fld Reg.FIELD_GEOM_ROWS
  | 0x14 => s.fld Reg.FIELD_GEOM_HEAT_SHAPES
  | 0x15 => 131072
  | 0x16 => 117440512
  | 0x17 => 8 - s.boot.enginesStart.length
  | 0x18 => 262144
  | 0x19 => 1024
  | 0x1A => 65536
  | 0x1B => 4096
  | 0x1C => 6
  | 0x1D => if s.fld Reg.FIELD_GEOM_COLS = 0 then 0 else 0x3FFFE
  | 0x1E => s.fld Reg.SYS_CAPS_UNITS
  | _ => 0

/-- QRY. -/
def runQry (s : State) (i : Issue) (o : OpS) : State :=
  s.runN i .qry (.s o) fun s =>
    if 0xFF < o.imm.toNat then s.illegalOperand i.ctx 4
    else (s.sput i.ctx o.sd (BitVec.ofNat 64 (s.queryVal i.ctx o.imm.toNat))).pcNext i.ctx

/-- NOP. -/
def runNop (s : State) (i : Issue) (o : OpS) : State := s.runN i .nop (.s o) fun s => s.pcNext i.ctx

/-- FENCE. -/
def runFence (s : State) (i : Issue) (o : OpS) : State :=
  s.runN i .fence (.s o) fun s =>
    if 0x1F < o.imm.toNat then s.illegalOperand i.ctx 4 else s.fenceThen i.ctx o.imm.toNat .nothing

/-- TRAP. -/
def runTrap (s : State) (i : Issue) (o : OpS) : State :=
  s.runN i .trap (.s o) fun s =>
    if 0xFFFF < o.imm.toNat then s.illegalOperand i.ctx 4 else s.precise i.ctx 0x0D o.imm

/-! ### Branches (R101) -/

/-- The program counter takes a target, which must be a multiple of 16. -/
def goTo (s : State) (c : Nat) (target : W64) (k : State → State) : State :=
  if target.toNat % 16 ≠ 0 then s.precise c 3 0 target else k s

/-- Set the program counter. -/
def setPc (s : State) (c : Nat) (pc : W64) : State := s.modCtx c fun x => { x with pc := pc }

/-- BR. -/
def runBr (s : State) (i : Issue) (o : OpB) : State :=
  s.runN i .br (.b o) fun s =>
    let t := (s.ctx i.ctx).pc + o.off
    s.goTo i.ctx t fun s => s.setPc i.ctx t

/-- CALL. -/
def runCall (s : State) (i : Issue) (o : OpB) : State :=
  s.runN i .call (.b o) fun s =>
    let pc := (s.ctx i.ctx).pc
    s.goTo i.ctx (pc + o.off) fun s => (s.sput i.ctx o.sd (pc + 16)).setPc i.ctx (pc + o.off)

/-- JMP. -/
def runJmp (s : State) (i : Issue) (o : OpB) : State :=
  s.runN i .jmp (.b o) fun s =>
    let t := s.sget i.ctx o.sa + o.off
    s.goTo i.ctx t fun s => s.setPc i.ctx t

/-- LOOP: S0 as the counter is out of range. -/
def runLoop (s : State) (i : Issue) (o : OpB) : State :=
  s.runN i .loop (.b o) fun s =>
    if o.sa.val = 0 then s.illegalOperand i.ctx 1 else
    let t := (s.ctx i.ctx).pc + o.off
    s.goTo i.ctx t fun s =>
      let v := s.sget i.ctx o.sa - 1
      let s := s.sput i.ctx o.sa v
      if v = 0 then s.pcNext i.ctx else s.setPc i.ctx t

/-- EXIT: the program ends, the job with it, and the context awaits its teardown (R101, R260, R263). -/
def runExit (s : State) (i : Issue) (o : OpB) : State :=
  s.runN i .exit (.b o) fun s => (s.jobEnd i.ctx).modCtx i.ctx fun x => { x with td := some .exit }

/-! ### Descriptor slots (R73, R102) -/

/-- DLD. -/
def runDld (s : State) (i : Issue) (o : OpD) : State :=
  s.runN i .dld (.d o) fun s =>
    let va := s.sget i.ctx o.sa + o.imm
    s.atAddr i.ctx va 64 (s.withLoad i.ctx va 64 fun bs s =>
      (s.slotPut i.ctx o.dd (BitVec.ofNat 512 (ofBytes bs))).pcNext i.ctx)

/-- DST. -/
def runDst (s : State) (i : Issue) (o : OpD) : State :=
  s.runN i .dst (.d o) fun s =>
    let va := s.sget i.ctx o.sa + o.imm
    s.atAddr i.ctx va 64 (s.withStore i.ctx va (toBytes 64 (s.slot i.ctx o.da).toNat) fun s => s.pcNext i.ctx)

/-- DCPY. -/
def runDcpy (s : State) (i : Issue) (o : OpD) : State :=
  s.runN i .dcpy (.d o) fun s => (s.slotPut i.ctx o.dd (s.slot i.ctx o.da)).pcNext i.ctx

/-- DSET: a selector outside Table 4-12 is out of range. -/
def runDset (s : State) (i : Issue) (o : OpD) : State :=
  s.runN i .dset (.d o) fun s =>
    match fselOf o.fsel with
    | none => s.illegalOperand i.ctx 4
    | some (lo, len) => (s.slotPut i.ctx o.dd (dSet (s.slot i.ctx o.dd) lo len (s.srcV i.ctx o).toNat)).pcNext i.ctx

/-- The value of a descriptor field: STRIDE fields are sign-extended (R102). -/
def fieldVal (d : Desc) (fsel lo len : Nat) : W64 :=
  if 0x18 ≤ fsel then BitVec.ofInt 64 (sext 32 (dField d lo len)) else BitVec.ofNat 64 (dField d lo len)

/-- DGET. -/
def runDget (s : State) (i : Issue) (o : OpD) : State :=
  s.runN i .dget (.d o) fun s =>
    match fselOf o.fsel with
    | none => s.illegalOperand i.ctx 4
    | some (lo, len) => (s.sput i.ctx o.sd (fieldVal (s.slot i.ctx o.da) o.fsel lo len)).pcNext i.ctx

/-- DADD. -/
def runDadd (s : State) (i : Issue) (o : OpD) : State :=
  s.runN i .dadd (.d o) fun s =>
    let d := s.slot i.ctx o.dd
    (s.slotPut i.ctx o.dd (dSet d 0 48 (dBase d + (s.srcV i.ctx o).toNat))).pcNext i.ctx

/-- A word whose encoding is reserved (R94): the predicate is looked at first (R95). A word that spells an
instruction is none of these, and the command does nothing (assumption 6). -/
def runReserved (s : State) (c : Nat) (w : W128) : State :=
  if !s.issuable c || !reservedWord w then s else
  s.withFetch c fun s =>
    if !s.selected c (wf w.toNat 111 1 == 1) (wfin w.toNat 108 8) then s.pcNext c
    else s.precise c 1 (BitVec.ofNat 64 (w.toNat / 2 ^ 64))

end State


/-- ADD (R98). -/
def execAdd (i : Issue) (o : OpS) (s : State) : Host.Outcome State Fault Refusal :=
  .next (s.runAlu i .add o)

/-- SUB (R98). -/
def execSub (i : Issue) (o : OpS) (s : State) : Host.Outcome State Fault Refusal :=
  .next (s.runAlu i .sub o)

/-- AND (R98). -/
def execAnd (i : Issue) (o : OpS) (s : State) : Host.Outcome State Fault Refusal :=
  .next (s.runAlu i .and o)

/-- OR (R98). -/
def execOr (i : Issue) (o : OpS) (s : State) : Host.Outcome State Fault Refusal :=
  .next (s.runAlu i .or o)

/-- XOR (R98). -/
def execXor (i : Issue) (o : OpS) (s : State) : Host.Outcome State Fault Refusal :=
  .next (s.runAlu i .xor o)

/-- SHL (R98). -/
def execShl (i : Issue) (o : OpS) (s : State) : Host.Outcome State Fault Refusal :=
  .next (s.runAlu i .shl o)

/-- SHR (R98). -/
def execShr (i : Issue) (o : OpS) (s : State) : Host.Outcome State Fault Refusal :=
  .next (s.runAlu i .shr o)

/-- SRA (R98). -/
def execSra (i : Issue) (o : OpS) (s : State) : Host.Outcome State Fault Refusal :=
  .next (s.runAlu i .sra o)

/-- MUL (R98). -/
def execMul (i : Issue) (o : OpS) (s : State) : Host.Outcome State Fault Refusal :=
  .next (s.runAlu i .mul o)

/-- MULHS (R98). -/
def execMulhs (i : Issue) (o : OpS) (s : State) : Host.Outcome State Fault Refusal :=
  .next (s.runAlu i .mulhs o)

/-- MULHU (R98). -/
def execMulhu (i : Issue) (o : OpS) (s : State) : Host.Outcome State Fault Refusal :=
  .next (s.runAlu i .mulhu o)

/-- DIV (R98). -/
def execDiv (i : Issue) (o : OpS) (s : State) : Host.Outcome State Fault Refusal :=
  .next (s.runAlu i .div o)

/-- DIVU (R98). -/
def execDivu (i : Issue) (o : OpS) (s : State) : Host.Outcome State Fault Refusal :=
  .next (s.runAlu i .divu o)

/-- REM (R98). -/
def execRem (i : Issue) (o : OpS) (s : State) : Host.Outcome State Fault Refusal :=
  .next (s.runAlu i .rem o)

/-- REMU (R98). -/
def execRemu (i : Issue) (o : OpS) (s : State) : Host.Outcome State Fault Refusal :=
  .next (s.runAlu i .remu o)

/-- MIN (R98). -/
def execMin (i : Issue) (o : OpS) (s : State) : Host.Outcome State Fault Refusal :=
  .next (s.runAlu i .min o)

/-- MAX (R98). -/
def execMax (i : Issue) (o : OpS) (s : State) : Host.Outcome State Fault Refusal :=
  .next (s.runAlu i .max o)

/-- MINU (R98). -/
def execMinu (i : Issue) (o : OpS) (s : State) : Host.Outcome State Fault Refusal :=
  .next (s.runAlu i .minu o)

/-- MAXU (R98). -/
def execMaxu (i : Issue) (o : OpS) (s : State) : Host.Outcome State Fault Refusal :=
  .next (s.runAlu i .maxu o)

/-- MOV (R98). -/
def execMov (i : Issue) (o : OpS) (s : State) : Host.Outcome State Fault Refusal :=
  .next (s.runAlu i .mov o)

/-- CMP_EQ (R98). -/
def execCmpEq (i : Issue) (o : OpS) (s : State) : Host.Outcome State Fault Refusal :=
  .next (s.runCmp i .cmpEq o)

/-- CMP_NE (R98). -/
def execCmpNe (i : Issue) (o : OpS) (s : State) : Host.Outcome State Fault Refusal :=
  .next (s.runCmp i .cmpNe o)

/-- CMP_LT (R98). -/
def execCmpLt (i : Issue) (o : OpS) (s : State) : Host.Outcome State Fault Refusal :=
  .next (s.runCmp i .cmpLt o)

/-- CMP_LTU (R98). -/
def execCmpLtu (i : Issue) (o : OpS) (s : State) : Host.Outcome State Fault Refusal :=
  .next (s.runCmp i .cmpLtu o)

/-- CMP_GE (R98). -/
def execCmpGe (i : Issue) (o : OpS) (s : State) : Host.Outcome State Fault Refusal :=
  .next (s.runCmp i .cmpGe o)

/-- CMP_GEU (R98). -/
def execCmpGeu (i : Issue) (o : OpS) (s : State) : Host.Outcome State Fault Refusal :=
  .next (s.runCmp i .cmpGeu o)

/-- CMP_LAT (R98). -/
def execCmpLat (i : Issue) (o : OpS) (s : State) : Host.Outcome State Fault Refusal :=
  .next (s.runCmp i .cmpLat o)

/-- PSET (R98). -/
def execPset (i : Issue) (o : OpS) (s : State) : Host.Outcome State Fault Refusal :=
  .next (s.runCmp i .pset o)

/-- PGET (R98). -/
def execPget (i : Issue) (o : OpS) (s : State) : Host.Outcome State Fault Refusal :=
  .next (s.runPget i o)

/-- LDU8 (R99). -/
def execLdu8 (i : Issue) (o : OpS) (s : State) : Host.Outcome State Fault Refusal :=
  .next (s.runLoad i .ldu8 1 false o)

/-- LDU16 (R99). -/
def execLdu16 (i : Issue) (o : OpS) (s : State) : Host.Outcome State Fault Refusal :=
  .next (s.runLoad i .ldu16 2 false o)

/-- LDU32 (R99). -/
def execLdu32 (i : Issue) (o : OpS) (s : State) : Host.Outcome State Fault Refusal :=
  .next (s.runLoad i .ldu32 4 false o)

/-- LD64 (R99). -/
def execLd64 (i : Issue) (o : OpS) (s : State) : Host.Outcome State Fault Refusal :=
  .next (s.runLoad i .ld64 8 false o)

/-- LDS8 (R99). -/
def execLds8 (i : Issue) (o : OpS) (s : State) : Host.Outcome State Fault Refusal :=
  .next (s.runLoad i .lds8 1 true o)

/-- LDS16 (R99). -/
def execLds16 (i : Issue) (o : OpS) (s : State) : Host.Outcome State Fault Refusal :=
  .next (s.runLoad i .lds16 2 true o)

/-- LDS32 (R99). -/
def execLds32 (i : Issue) (o : OpS) (s : State) : Host.Outcome State Fault Refusal :=
  .next (s.runLoad i .lds32 4 true o)

/-- ST8 (R99). -/
def execSt8 (i : Issue) (o : OpS) (s : State) : Host.Outcome State Fault Refusal :=
  .next (s.runStore i .st8 1 o)

/-- ST16 (R99). -/
def execSt16 (i : Issue) (o : OpS) (s : State) : Host.Outcome State Fault Refusal :=
  .next (s.runStore i .st16 2 o)

/-- ST32 (R99). -/
def execSt32 (i : Issue) (o : OpS) (s : State) : Host.Outcome State Fault Refusal :=
  .next (s.runStore i .st32 4 o)

/-- ST64 (R99). -/
def execSt64 (i : Issue) (o : OpS) (s : State) : Host.Outcome State Fault Refusal :=
  .next (s.runStore i .st64 8 o)

/-- NOP (R100). -/
def execNop (i : Issue) (o : OpS) (s : State) : Host.Outcome State Fault Refusal :=
  .next (s.runNop i o)

/-- QRY (R100). -/
def execQry (i : Issue) (o : OpS) (s : State) : Host.Outcome State Fault Refusal :=
  .next (s.runQry i o)

/-- FENCE (R100). -/
def execFence (i : Issue) (o : OpS) (s : State) : Host.Outcome State Fault Refusal :=
  .next (s.runFence i o)

/-- TRAP (R100). -/
def execTrap (i : Issue) (o : OpS) (s : State) : Host.Outcome State Fault Refusal :=
  .next (s.runTrap i o)

/-- BR (R101). -/
def execBr (i : Issue) (o : OpB) (s : State) : Host.Outcome State Fault Refusal :=
  .next (s.runBr i o)

/-- CALL (R101). -/
def execCall (i : Issue) (o : OpB) (s : State) : Host.Outcome State Fault Refusal :=
  .next (s.runCall i o)

/-- JMP (R101). -/
def execJmp (i : Issue) (o : OpB) (s : State) : Host.Outcome State Fault Refusal :=
  .next (s.runJmp i o)

/-- LOOP (R101). -/
def execLoop (i : Issue) (o : OpB) (s : State) : Host.Outcome State Fault Refusal :=
  .next (s.runLoop i o)

/-- EXIT (R101). -/
def execExit (i : Issue) (o : OpB) (s : State) : Host.Outcome State Fault Refusal :=
  .next (s.runExit i o)

/-- DLD (R102). -/
def execDld (i : Issue) (o : OpD) (s : State) : Host.Outcome State Fault Refusal :=
  .next (s.runDld i o)

/-- DST (R102). -/
def execDst (i : Issue) (o : OpD) (s : State) : Host.Outcome State Fault Refusal :=
  .next (s.runDst i o)

/-- DCPY (R102). -/
def execDcpy (i : Issue) (o : OpD) (s : State) : Host.Outcome State Fault Refusal :=
  .next (s.runDcpy i o)

/-- DSET (R102). -/
def execDset (i : Issue) (o : OpD) (s : State) : Host.Outcome State Fault Refusal :=
  .next (s.runDset i o)

/-- DGET (R102). -/
def execDget (i : Issue) (o : OpD) (s : State) : Host.Outcome State Fault Refusal :=
  .next (s.runDget i o)

/-- DADD (R102). -/
def execDadd (i : Issue) (o : OpD) (s : State) : Host.Outcome State Fault Refusal :=
  .next (s.runDadd i o)

/-- RESERVED_ENCODING (R94). -/
def execReservedEncoding (c : CtxId) (word : W128) (s : State) : Host.Outcome State Fault Refusal :=
  .next (s.runReserved c word)

end Sys2Proof.Machine
end

