-- ==== Sys2Proof/Machine/NovesTally.lean ====
section
/-!
DEFINITION. Tally, Lane and Receipt instructions (04: R108, R109, Tables 4-19 to 4-22).
-/

namespace Sys2Proof.Machine

open Sys2Proof

namespace State

/-! ### Tallies and barriers (Table 4-19) -/

/-- Translate a virtual identifier to a Tally at step 6 of R95 (R74); `k` is its operand index. -/
def withTally (s : State) (c vt k : Nat) (f : Nat → State) : State :=
  match s.mapEnt c vt with
  | none => s.precise c 0x0B (BitVec.ofNat 64 vt)
  | some (.barrier _ _) => s.illegalOperand c k
  | some (.tally i _) => f i

/-- Translate a virtual identifier to a barrier (R74). -/
def withBar (s : State) (c vt : Nat) (f : Nat → Nat → State) : State :=
  match s.mapEnt c vt with
  | none => s.precise c 0x0B (BitVec.ofNat 64 vt)
  | some (.tally _ _) => s.illegalOperand c 0
  | some (.barrier b slot) => f b slot

/-- The amount or count of tadd, tsub and twait: SA above 32 bits is out of range (Table 4-19). -/
def withAmount (s : State) (c : Nat) (o : OpY) (f : W32 → State) : State :=
  let n := s.srcN c o
  if 2 ^ 32 ≤ n.toNat then s.illegalOperand c 3 else f (n.setWidth 32)

/-- A wait begins: the context is blocked from now on. -/
def beginWait (s : State) (c : Nat) (w : Wait) : State :=
  (s.modCtx c fun x => { x with wait := some w, waitFrom := s.stamp }).nextStamp

/-- A wait begins unless its deadline has come (R108). -/
def waitOrTimeout (s : State) (c : Nat) (pd : Fin 8) (sd : Fin 32) (dl : Option (Nat × W64)) (w : Wait) : State :=
  if s.deadlineDue dl then s.endWait c pd sd timedOut else s.beginWait c w

/-- TADD and TSUB (R85, R268). -/
def runTadd (s : State) (i : Issue) (m : Mn) (o : OpY) : State :=
  let c := i.ctx.val
  s.runN i m (.y o) fun s =>
    s.withAmount c o fun n => s.withTally c o.vt 0 fun t =>
      let k := if m = .tadd then AfterFence.add t n else AfterFence.sub t n
      if o.rl then s.fenceThen c 0 k else s.afterFence c k

/-- TWAIT (R271, R272). -/
def runTwait (s : State) (i : Issue) (o : OpY) : State :=
  let c := i.ctx.val
  s.runN i .twait (.y o) fun s =>
    s.withAmount c o fun n => s.withTally c o.vt 0 fun t =>
      if (s.tallyOf t).state = .forfeit then s.endWait c o.pd o.sd ownerLost
      else if n.toNat ≤ (s.tallyOf t).count.toNat then s.endWait c o.pd o.sd satisfied
      else
        let dl := s.deadlineOf c o
        s.waitOrTimeout c o.pd o.sd dl (.tally t n o.pd o.sd dl)

/-- TREAD (R272). -/
def runTread (s : State) (i : Issue) (o : OpY) : State :=
  let c := i.ctx.val
  s.runN i .tread (.y o) fun s => s.withTally c o.vt 0 fun t =>
    (s.sput c o.sd ((s.tallyOf t).count.setWidth 64)).pcNext c

/-- TARRIVE (R279). -/
def runTarrive (s : State) (i : Issue) (o : OpY) : State :=
  let c := i.ctx.val
  s.runN i .tarrive (.y o) fun s => s.withBar c o.vt fun b slot =>
    if o.rl then s.fenceThen c 0 (.arrive b slot) else s.afterFence c (.arrive b slot)

/-- TBARWAIT (R279, R280): a deadline that has come ends the wait that the arrival left. -/
def runTbarwait (s : State) (i : Issue) (o : OpY) : State :=
  let c := i.ctx.val
  s.runN i .tbarwait (.y o) fun s => s.withBar c o.vt fun b slot =>
    let k := AfterFence.barwait b slot o.pd o.sd (s.deadlineOf c o)
    if o.rl then s.fenceThen c 0 k else s.afterFence c k

/-! ### Lanes (Table 4-20) -/

/-- LREAD. -/
def runLread (s : State) (i : Issue) (o : OpY) : State :=
  s.runN i .lread (.y o) fun s => (s.sput i.ctx o.sd (s.laneVal o.lane)).pcNext i.ctx

/-- LWAIT. -/
def runLwait (s : State) (i : Issue) (o : OpY) : State :=
  let c := i.ctx.val
  s.runN i .lwait (.y o) fun s =>
    let v := s.sget c o.sa
    if reached (s.laneVal o.lane) v then s.endWait c o.pd o.sd satisfied
    else s.beginWait c (.lane o.lane v o.pd o.sd)

/-- LWREL: a job ends; a pending release ends the wait at once, and a job begins (R253, R260). -/
def runLwrel (s : State) (i : Issue) (o : OpY) : State :=
  let c := i.ctx.val
  s.runN i .lwrel (.y o) fun s =>
    let s := s.jobEnd c
    if (s.ctx c).relPend then
      ((s.modCtx c fun x => { x with relPend := false }).endWait c o.pd o.sd satisfied).jobBegin c
    else
      let dl := s.deadlineOf c o
      s.waitOrTimeout c o.pd o.sd dl (.lwrel o.pd o.sd dl)

/-- What an arm block asks for (Table 4-22). -/
def blockCue (lane : Nat) (owner : Nat) (b : Nat) : Cue :=
  let f := fun lo len => (b >>> lo) % 2 ^ len
  { lane := lane, target := BitVec.ofNat 64 (f 0 64), step := BitVec.ofNat 64 (f 64 64), arg := BitVec.ofNat 32 (f 128 32)
    div := f 160 16, rep := f 176 16, action := f 192 4, pastDrop := f 196 1 == 1, owner := some owner }

/-- What an larm comes to: an ERR code with the state, or a TALLY_UNMAPPED fault. -/
inductive ArmOut where
  | err (e : Nat) (s : State)
  | unmapped (v : Nat)

/-- The arm of an larm, in the order of R470 with the translation of R109. -/
def larmBlock (s : State) (c lane i b : Nat) : ArmOut :=
  let q := blockCue lane c b
  if q.action ≠ 1 ∧ q.action ≠ 2 ∧ q.action ≠ 3 then .err 1 s
  else if (b >>> 197) % 2 ^ 59 ≠ 0 ∨ cueStepOk q.rep q.step = false then .err 1 s
  else
    let old := s.cue i
    let take := fun (q : Cue) =>
      if old.armed && old.owner != some c then ArmOut.err 3 s
      else
        let r := s.armTake i c q
        ArmOut.err r.2 r.1
    match q.action with
    | 1 =>
      let v := q.arg.toNat % 4096
      match s.mapEnt c v with
      | none => .unmapped v
      | some (.barrier _ _) => .err 1 s
      | some (.tally t _) =>
        let amount := q.arg.toNat / 65536
        if amount = 0 then .err 1 s else take { q with arg := BitVec.ofNat 32 (65536 * amount + t) }
    | 2 => take { q with arg := BitVec.ofNat 32 c }
    | _ => take q

/-- The Cue index of larm and ldisarm: SC above 12 bits is out of range. -/
def withCueIndex (s : State) (c : Nat) (o : OpY) (f : Nat → State) : State :=
  let v := (s.sget c o.sc).toNat
  if 4096 ≤ v then s.illegalOperand c 5 else f v

/-- LARM (R109, R470). -/
def runLarm (s : State) (i : Issue) (o : OpY) : State :=
  let c := i.ctx.val
  s.runN i .larm (.y o) fun s => s.withCueIndex c o fun k =>
    let va := s.sget c o.sa
    if va.toNat % 32 ≠ 0 then s.precise c 3 0 va else
    s.withLoad c va 32 fun bs s =>
      match s.larmBlock c o.lane k (ofBytes bs) with
      | .unmapped v => s.precise c 0x0B (BitVec.ofNat 64 v)
      | .err e s => (s.sput c o.sd (BitVec.ofNat 64 e)).pcNext c

/-- LDISARM (R108). -/
def runLdisarm (s : State) (i : Issue) (o : OpY) : State :=
  let c := i.ctx.val
  s.runN i .ldisarm (.y o) fun s => s.withCueIndex c o fun k =>
    let q := s.cue k
    if q.armed && q.owner != some c then (s.sput c o.sd 3).pcNext c
    else ((s.setCue k { q with armed := false }).sput c o.sd 0).pcNext c

/-! ### Receipts (Table 4-21, R286) -/

/-- The physical address of a Receipt named by an instruction: MISALIGNED, the checks of the translation, and
ADDR_PERM outside a registered Receipt span. -/
def withRcpt (s : State) (c : Nat) (va : W64) (f : Nat → State → State) : State :=
  if va.toNat % 8 ≠ 0 then s.precise c 3 0 va else
  match s.check c va false false false with
  | .fault code unit d => s.precise c code d va unit
  | .ok pa => if (s.rcptWin pa).isNone then s.precise c 5 0 va else f pa (s.noteTlb c va)

/-- RREAD. -/
def runRread (s : State) (i : Issue) (o : OpY) : State :=
  let c := i.ctx.val
  s.runN i .rread (.y o) fun s => s.withRcpt c (s.sget c o.sa) fun pa s =>
    (s.sput c o.sd (BitVec.ofNat 64 (s.rcptWord pa))).pcNext c

/-- RCOLL. -/
def runRcoll (s : State) (i : Issue) (o : OpY) : State :=
  let c := i.ctx.val
  s.runN i .rcoll (.y o) fun s => s.withRcpt c (s.sget c o.sa) fun pa s =>
    let (w, s) := s.collectWord pa
    (s.sput c o.sd w).pcNext c

/-- RPOST. -/
def runRpost (s : State) (i : Issue) (o : OpY) : State :=
  let c := i.ctx.val
  s.runN i .rpost (.y o) fun s => s.withRcpt c (s.sget c o.sa) fun pa s =>
    if (s.rcptWin pa).any s.overMode then s.precise c 5 0 (s.sget c o.sa)
    else if o.rl then s.fenceThen c 0 (.post pa) else s.afterFence c (.post pa)

/-- RWAIT. -/
def runRwait (s : State) (i : Issue) (o : OpY) : State :=
  let c := i.ctx.val
  s.runN i .rwait (.y o) fun s => s.withRcpt c (s.sget c o.sa) fun pa s =>
    let w := s.rcptWord pa
    let sc := (s.sget c o.sc).toNat % 2 ^ 62
    let dl := s.deadlineOf c o
    if (rcptState w == 1 || rcptState w == 2) && later62 (rcptSeq w) sc then s.endWait c o.pd o.sd satisfied
    else s.waitOrTimeout c o.pd o.sd dl (.rcpt pa sc o.pd o.sd dl)

end State

/-- TADD (R108, R268). -/
def execTadd (i : Issue) (o : OpY) (s : State) : Host.Outcome State Fault Refusal :=
  .next (s.runTadd i .tadd o)

/-- TSUB (R108, R268). -/
def execTsub (i : Issue) (o : OpY) (s : State) : Host.Outcome State Fault Refusal :=
  .next (s.runTadd i .tsub o)

/-- TWAIT (R271). -/
def execTwait (i : Issue) (o : OpY) (s : State) : Host.Outcome State Fault Refusal :=
  .next (s.runTwait i o)

/-- TREAD (R272). -/
def execTread (i : Issue) (o : OpY) (s : State) : Host.Outcome State Fault Refusal :=
  .next (s.runTread i o)

/-- TARRIVE (R279). -/
def execTarrive (i : Issue) (o : OpY) (s : State) : Host.Outcome State Fault Refusal :=
  .next (s.runTarrive i o)

/-- TBARWAIT (R279). -/
def execTbarwait (i : Issue) (o : OpY) (s : State) : Host.Outcome State Fault Refusal :=
  .next (s.runTbarwait i o)

/-- LREAD (R108). -/
def execLread (i : Issue) (o : OpY) (s : State) : Host.Outcome State Fault Refusal :=
  .next (s.runLread i o)

/-- LWAIT (R108). -/
def execLwait (i : Issue) (o : OpY) (s : State) : Host.Outcome State Fault Refusal :=
  .next (s.runLwait i o)

/-- LWREL (R253). -/
def execLwrel (i : Issue) (o : OpY) (s : State) : Host.Outcome State Fault Refusal :=
  .next (s.runLwrel i o)

/-- LARM (R109). -/
def execLarm (i : Issue) (o : OpY) (s : State) : Host.Outcome State Fault Refusal :=
  .next (s.runLarm i o)

/-- LDISARM (R108). -/
def execLdisarm (i : Issue) (o : OpY) (s : State) : Host.Outcome State Fault Refusal :=
  .next (s.runLdisarm i o)

/-- RREAD (R286). -/
def execRread (i : Issue) (o : OpY) (s : State) : Host.Outcome State Fault Refusal :=
  .next (s.runRread i o)

/-- RCOLL (R286). -/
def execRcoll (i : Issue) (o : OpY) (s : State) : Host.Outcome State Fault Refusal :=
  .next (s.runRcoll i o)

/-- RPOST (R286). -/
def execRpost (i : Issue) (o : OpY) (s : State) : Host.Outcome State Fault Refusal :=
  .next (s.runRpost i o)

/-- RWAIT (R286). -/
def execRwait (i : Issue) (o : OpY) (s : State) : Host.Outcome State Fault Refusal :=
  .next (s.runRwait i o)

end Sys2Proof.Machine
end

