-- ==== Sys2Proof/Machine/Issue.lean ====
section
/-!
DEFINITION. The issue of asynchronous instructions (04): the checks of R95 in their order, what each instruction copies at
issue (R81), and the hand-over to its unit; for kernels and for moves.
-/

namespace Sys2Proof.Machine

open Sys2Proof

/-- The unit a kernel goes to, by its MAJOR (Table 4-14). -/
def unitOf : Mn → KUnit
  | .kact | .keltw | .knorm | .ksoftmax | .kgates | .kargmax | .kcvt => .gate
  | .ksconv | .ksmatmul | .ksargmax | .ksreflex => .sprint
  | .khquery | .khstride | .khfinish | .khmap => .hurdle
  | .kfxform | .kfego | .kftrack => .fusion
  | .mcopy | .mfill | .mraise | .mdrop | .mpace | .menter => .teller
  | _ => .field

/-- The bits of Table 20-1 of the units an instruction needs (R95, step 3). -/
def needs (m : Mn) : List Nat :=
  match m with
  | .ksreflex => [1, 5]
  | .kscan | .kcell => [0, 2]
  | .menter => [6]
  | m => match unitOf m with
    | .field | .gate => [0]
    | .sprint => [1]
    | .hurdle => [3]
    | .fusion => [4]
    | .teller => []

/-- Addresses named in a parameter block that must be multiples of 64 (R95, step 4). -/
def blockVas (m : Mn) (k : KIn) : List Nat :=
  match m with
  | .kattn => [pf k 192 48, pf k 256 48]
  | .kscan | .kcell => [pf k 64 48, pf k 128 48]
  | .kgates => [pf k 128 48]
  | .khstride => [pf k 576 48]
  | _ => []

/-- Layer entries of a ksreflex block that are out of range (Tables 6-3, 6-4). -/
def badLayers (k : KIn) : Bool :=
  let last := pf k 8 3
  (List.range 8).any fun l =>
    let g := fun (lo len : Nat) => pf k (128 + 128 * l + lo) len
    if last < l then g 0 128 != 0
    else g 0 9 == 0 || decide ((if l = last then 4 else 256) < g 0 9) || g 16 16 != 0 || g 112 16 != 0

/-- A field of a ksreflex block is out of range (Table 6-3). -/
def badReflex (k : KIn) : Bool :=
  pf k 4 4 == 0 || pf k 13 3 != 0 || (pf k 11 1 == 1 && pf k 12 1 == 1) || pf k 16 7 == 0 || decide (64 < pf k 16 7)
    || pf k 28 100 != 0 || badLayers k

namespace State

/-- A read of a context at issue; its fault is the instruction's own. -/
def issueRead (s : State) (c va n : Nat) (f : List Byte → State → State) : State :=
  match accAll ((onePerPage ((List.range n).map fun k => ((va + k : Nat) : Int))).map (s.ledAcc c false false)) with
  | .wait => s
  | .fault code unit d v => s.precise c code d v unit
  | .ok => f (s.ctxBytes c va n) (s.noteTlb c (BitVec.ofNat 64 va))

/-- The conditions on a ksreflex that its context and the bindings decide (R165, R167). -/
def reflexOk (s : State) (c : Nat) (k : KIn) : Bool :=
  let x := s.ctx c
  let (pacer, mask) := rxTarget k.blk
  let stop := pf k 11 1 == 1
  let replace := pf k 12 1 == 1
  let period := s.pPeriod pacer
  let fits := decide (rxCycles k.blk * 5 ≤ (period - 200) * 6) && decide (200 ≤ period)
  decide (x.cls.val < 2) && (stop || fits)
    && (if stop || replace then (s.rxEngine c pacer mask).isSome
        else !s.rxTaken pacer mask && (List.range 8).any fun e => !s.boot.enginesOut.contains e && (s.bindOf e).isNone)

/-- What the state adds to the operand ranges of step 5 of R95: the index of the operand out of range. -/
def badState (s : State) (c : Nat) (k : KIn) : Option Nat :=
  match k.mn with
  | .kattn => if isPaged k && (!poolHeaderOk (k.extra.take 128) || badEnts k) then some 6 else none
  | .kscan | .kcell => if pf k 64 48 ≠ 0 ∧ !s.chunkListOk c k then some 6 else none
  | .ksreflex => if badReflex k || !s.reflexOk c k then some 6 else none
  | .khfinish =>
    let l := pf k 704 4
    if s.flag (Reg.LANE_CFG_EN l) && s.isTimeLane l then none else some 6
  | .kfxform => if s.frameValid (s.fld Reg.FUSION_STAT_BANK) k.o.imm.toNat then none else some 8
  | _ => none

/-- Step 4 of R95: the parameter block is read, and its addresses are aligned. -/
def withBlock (s : State) (c : Nat) (m : Mn) (o : OpK) (f : List Byte → State → State) : State :=
  if spUse m = .none ∨ o.sp.val = 0 then f (defaultBlock m) s else
  let sp := s.sget c o.sp
  if sp.toNat % 64 ≠ 0 then s.precise c 3 0 sp else
  s.issueRead c sp.toNat (blockLen m) fun b s =>
    match (blockVas m { mn := m, o := o, dO := 0, dA := 0, dB := 0, dC := 0, blk := b }).find? fun v => v % 64 != 0 with
    | some v => s.precise c 3 0 (BitVec.ofNat 64 v)
    | none => f b s

/-- What else a kernel reads at issue: the pool header and length table of a paged kattn, the stream list of a chunk. -/
def withExtra (s : State) (c : Nat) (k : KIn) (f : List Byte → State → State) : State :=
  match k.mn with
  | .kattn =>
    if !isPaged k then f [] s else
    s.issueRead c (pf k 256 48) 128 fun h s => s.issueRead c (pf k 192 48) (16 * pf k 128 11) fun t s => f (h ++ t) s
  | .kscan | .kcell => if pf k 64 48 = 0 then f [] s else s.issueRead c (pf k 64 48) (4 * dDim k.dA 2) f
  | _ => f [] s

/-- Step 6 of R95: the completion Tally. -/
def withDone (s : State) (c : Nat) (on : Bool) (vt k : Nat) (f : Option Nat → State) : State :=
  if on then s.withTally c vt k fun t => f (some t) else f none

/-- Steps 7 to 9 of R95 over the operands of a kernel. -/
def checkTensors (s : State) (c : Nat) (k : KIn) (f : State) : State :=
  match (kDescs k).find? fun e => !descOk e.2 with
  | some e => s.precise c 8 (BitVec.ofNat 64 e.1)
  | none => match firstMisfit k (shapesOk k) with
    | some d => s.precise c 9 (BitVec.ofNat 64 d)
    | none =>
      if (k.mn = .kscan ∨ k.mn = .kcell) ∧ !s.chunkFits k then s.precise c 9 (BitVec.ofNat 64 k.o.dA.val) else
      match firstFmt k with
      | some n => s.precise c 0x0A (BitVec.ofNat 64 n)
      | none => f

/-- Step 10 of R95: the Receipt's address. -/
def withPostAt (s : State) (c : Nat) (on : Bool) (r : Fin 32) (f : Option W64 → State) : State :=
  if !on then f none else
  let va := s.sget c r
  if va.toNat % 8 ≠ 0 then s.precise c 3 0 va else f (some va)

/-- What was withdrawn under a context or a chunk since the last kernel (R147, R164, R207): the unit of its POISONED. -/
def lostUnit (s : State) (c : Nat) (k : KIn) : Option Nat :=
  let x := s.ctx c
  match unitOf k.mn with
  | .field | .gate =>
    if x.pwinPoisoned then some 1
    else if (chunkList k).any fun n => (k.mn == .kscan || k.mn == .kcell) && (match s.strm n with
      | some y => y.place == .poisoned
      | none => false) then some 5 else none
  | .sprint => match x.swinEng with
    | some e => if s.boot.enginesOut.contains e then some 3 else none
    | none => none
  | _ => none

/-- The image of a ksreflex is copied at issue (R165). -/
def withImage (s : State) (c : Nat) (k : KIn) (f : State → State) : State :=
  if k.mn ≠ .ksreflex ∨ pf k 11 1 = 1 then f s else
  let n := dExt k.dA 0
  match accAll [s.tensorAcc c k.dA (dBytes k.dA) false,
      s.tensorAcc c k.dO ((List.range n).map fun i => ((dBase k.dO + i : Nat) : Int)) true] with
  | .wait => s
  | .fault code unit d va => s.precise c code d va unit (dTag (if (s.tensorAcc c k.dA (dBytes k.dA) false) = .ok then k.dO else k.dA))
  | .ok => f ((List.range n).foldl (fun (t : State) (i : Nat) => t.spacePut c 2 ((dBase k.dO : Int) + i) (s.elemCode c k.dA [i])) s)

/-- The issue of a kernel (R81, R95, R103). -/
def runKernel (s : State) (q : Issue) (m : Mn) (o : OpK) : State :=
  let c := q.ctx.val
  s.runN q m (.k o) fun s =>
    match (needs m).find? fun u => !s.present u with
    | some u => s.precise c 7 (BitVec.ofNat 64 u)
    | none => s.withBlock c m o fun blk s =>
      let k : KIn := { mn := m, o := o, dO := s.slot c o.dO.val, dA := s.slot c o.dA.val, dB := s.slot c o.dB.val,
                       dC := s.slot c o.dC.val, blk := blk }
      if o.rcpt && o.sr.val == 0 then s.illegalOperand c 5
      else if (spUse m = .required ∧ o.sp.val = 0) ∨ badBlock k then s.illegalOperand c 6
      else s.withExtra c k fun ext s =>
        let k := { k with extra := ext }
        let bad := s.badState c k
        if bad = some 6 then s.illegalOperand c 6
        else if decide (4 < o.rnd.val) || (intOnly k && o.rnd.val != 0) then s.illegalOperand c 7
        else if badImm m o.imm.toNat || bad = some 8 then s.illegalOperand c 8
        else s.withDone c o.tally o.vt 4 fun t => s.checkTensors c k <| s.withPostAt c o.rcpt o.sr fun rc =>
          match s.lostUnit c k with
          | some u => s.precise c 6 (BitVec.allOnes 64) 0 u
          | none => s.withImage c k fun s => s.handOver c
              { id := 0, unit := unitOf m, mn := m, pc := 0, dO := k.dO, dA := k.dA, dB := k.dB, dC := k.dC, k := o,
                tally := t, rcpt := rc, params := blk, extra := ext
                streams := if m = .kscan ∨ m = .kcell then chunkList k else [] }

/-! ### Moves (R107, R231) -/

/-- A MOVE that has no page move left, and copies nothing within the local spaces, is done. -/
def moveOver (s : State) (c : Nat) (o : AsyncOp) : Bool :=
  o.unit == .teller && o.state == .running && !(s.teller.moves.any fun m => m.ctx == c && m.op == some o.id)
    && !((o.mn == .mcopy || o.mn == .mfill) && (moveKey o).isNone)
    && !(o.mn == .mpace && o.addr == 0 && s.teller.moves.any fun m => m.ctx == c && m.op.isNone && m.inFlight)

/-- Complete every MOVE of a context that is done (R224). -/
def settleMoves (s : State) (c : Nat) : State :=
  (s.ctx c).ops.foldl (fun s o => match s.opOf c o.id with
    | some p => if s.moveOver c p then s.finishOp c o.id true else s
    | none => s) s

/-- Hand a MOVE over. -/
def moveOut (s : State) (c : Nat) (m : Mn) (o : OpM) (t : Option Nat) (rc : Option W64) (va : W64) : State :=
  let dd := if m = .mcopy ∨ m = .mfill then s.slot c o.dd.val else 0
  let ds := if m = .mcopy ∨ m = .menter then s.slot c o.ds.val else 0
  (s.handOver c { id := 0, unit := .teller, mn := m, pc := 0, dO := dd, dA := ds, tally := t, rcpt := rc, addr := va,
                  len := o.imm, tier := o.tier }).settleMoves c

/-- The descriptors of a MOVE: slot and value. -/
def moveDescs (s : State) (c : Nat) (m : Mn) (o : OpM) : List (Nat × Desc) :=
  match m with
  | .mcopy => [(o.dd.val, s.slot c o.dd.val), (o.ds.val, s.slot c o.ds.val)]
  | .mfill => [(o.dd.val, s.slot c o.dd.val)]
  | .menter => [(o.ds.val, s.slot c o.ds.val)]
  | _ => []

/-- Steps 7 to 9 of R95 for a MOVE. -/
def checkMove (s : State) (c : Nat) (m : Mn) (o : OpM) (f : State) : State :=
  let ds := s.moveDescs c m o
  match ds.find? fun e => !descOk e.2 with
  | some e => s.precise c 8 (BitVec.ofNat 64 e.1)
  | none =>
    let dd := s.slot c o.dd.val
    let sd := s.slot c o.ds.val
    if m = .mcopy ∧ dExts dd ≠ dExts sd then s.precise c 9 (BitVec.ofNat 64 o.dd.val)
    else match ds.find? fun e => dSparse e.2 || (m == .mfill && isMx (dFmt e.2)) with
      | some e => s.precise c 0x0A (BitVec.ofNat 64 (dFmt e.2))
      | none => if m = .mcopy ∧ dFmt dd ≠ dFmt sd then s.precise c 0x0A (BitVec.ofNat 64 (dFmt sd)) else f

/-- An entry of a pace schedule (Table 9-6); none when it is invalid. -/
def paceEnt (b : List Byte) (period least : Nat) : Option PaceEnt :=
  let v := ofBytes b
  let g := fun (lo len : Nat) => (v >>> lo) % 2 ^ len
  if g 0 16 ≠ 0 ∨ g 48 16 ≠ 0 ∨ g 64 16 = 0 ∨ g 80 2 = 3 ∨ g 82 14 ≠ 0 ∨ g 128 128 ≠ 0 ∨ g 96 32 < least
      ∨ (period ≠ 0 ∧ period < g 96 32) then none
  else some { va := BitVec.ofNat 64 (g 0 48), pages := g 64 16, op := g 80 2, at_ := g 96 32 }

/-- The entries of a pace schedule in order; none when one is invalid. -/
def paceEnts (period : Nat) : Nat → List Byte → Nat → Option (List PaceEnt)
  | 0, _, _ => some []
  | n + 1, b, least => match paceEnt (b.take 32) period least with
    | none => none
    | some e => (paceEnts period n (b.drop 32) e.at_).map (e :: ·)

/-- The pages an entry names, in order. -/
def paceVas (e : PaceEnt) : List W64 := (List.range e.pages).map fun k => BitVec.ofNat 64 (65536 * (e.va.toNat / 65536 + k))

/-- The schedules of a context end: page moves not yet accepted go with them (R231). -/
def paceStop (s : State) (c : Nat) : State :=
  { s with teller := { s.teller with
      paces := s.teller.paces.filter fun p => p.ctx != c
      moves := s.teller.moves.filter fun m => !(m.ctx == c && m.op.isNone && !m.inFlight) } }

/-- mpace (R231). -/
def pace (s : State) (c : Nat) (o : OpM) (t : Option Nat) : State :=
  if o.sa.val = 0 then s.withPostAt c o.rcpt o.sr fun rc => (s.paceStop c).moveOut c .mpace o t rc 0 else
  let sa := s.sget c o.sa
  if sa.toNat % 64 ≠ 0 then s.precise c 3 0 sa else
  s.issueRead c sa.toNat 64 fun h s =>
    let v := ofBytes h
    let g := fun (lo len : Nat) => (v >>> lo) % 2 ^ len
    let n := g 0 16
    if n = 0 ∨ 4096 < n ∨ g 28 4 ≠ 0 ∨ g 96 416 ≠ 0 ∨ (g 32 32 = 0 ∧ 1 < g 64 32) ∨ 4 ≤ (s.teller.paces.filter fun p => p.ctx == c).length
    then s.illegalOperand c 4
    else s.withTally c (g 16 12) 4 fun tl => s.issueRead c (sa.toNat + 64) (32 * n) fun b s =>
      match paceEnts (g 32 32) n b 0 with
      | none => s.illegalOperand c 4
      | some es =>
        match accAll ((es.flatMap paceVas).map fun va => match s.check c va false false false with
            | .fault code unit d => if code = 6 then TAcc.ok else .fault code unit d va
            | .ok _ => .ok) with
        | .fault code unit d va => s.precise c code d va unit
        | _ => s.withPostAt c o.rcpt o.sr fun rc =>
          if 16 ≤ (s.ctx c).ops.length then s else
          let e0 := (s.tallyOf tl).events
          let p : Pace := { ctx := c, tally := tl, period := g 32 32, iters := g 64 32, e0 := e0, ents := es, order := s.stamp }
          let s := ({ s with teller := { s.teller with paces := s.teller.paces ++ [p] } } : State).nextStamp
          (s.paceDue tl e0 0).moveOut c .mpace o t rc sa

/-- The issue of a MOVE (R81, R95, R107). -/
def runMove (s : State) (q : Issue) (m : Mn) (o : OpM) : State :=
  let c := q.ctx.val
  s.runN q m (.m o) fun s =>
    match (needs m).find? fun u => !s.present u with
    | some u => s.precise c 7 (BitVec.ofNat 64 u)
    | none =>
      if o.rcpt && o.sr.val == 0 then s.illegalOperand c 3
      else s.withDone c o.tally o.vt 2 fun t =>
        if m = .mpace then s.pace c o t
        else s.checkMove c m o <| s.withPostAt c o.rcpt o.sr fun rc => s.moveOut c m o t rc (s.sget c o.sa)

end State

open State

/-- KMATMUL (R95, R127). -/
def execKmatmul (q : Issue) (o : OpK) (s : State) : Host.Outcome State Fault Refusal := .next (s.runKernel q .kmatmul o)

/-- KCONV (R95, R148). -/
def execKconv (q : Issue) (o : OpK) (s : State) : Host.Outcome State Fault Refusal := .next (s.runKernel q .kconv o)

/-- KPOOL (R95, R155). -/
def execKpool (q : Issue) (o : OpK) (s : State) : Host.Outcome State Fault Refusal := .next (s.runKernel q .kpool o)

/-- KATTN (R95, R169). -/
def execKattn (q : Issue) (o : OpK) (s : State) : Host.Outcome State Fault Refusal := .next (s.runKernel q .kattn o)

/-- KSCAN (R95, R206). -/
def execKscan (q : Issue) (o : OpK) (s : State) : Host.Outcome State Fault Refusal := .next (s.runKernel q .kscan o)

/-- KCELL (R95, R206). -/
def execKcell (q : Issue) (o : OpK) (s : State) : Host.Outcome State Fault Refusal := .next (s.runKernel q .kcell o)

/-- KREDUCE (R95, R143). -/
def execKreduce (q : Issue) (o : OpK) (s : State) : Host.Outcome State Fault Refusal := .next (s.runKernel q .kreduce o)

/-- KACT (R95, R141). -/
def execKact (q : Issue) (o : OpK) (s : State) : Host.Outcome State Fault Refusal := .next (s.runKernel q .kact o)

/-- KELTW (R95, R141). -/
def execKeltw (q : Issue) (o : OpK) (s : State) : Host.Outcome State Fault Refusal := .next (s.runKernel q .keltw o)

/-- KNORM (R95, R142). -/
def execKnorm (q : Issue) (o : OpK) (s : State) : Host.Outcome State Fault Refusal := .next (s.runKernel q .knorm o)

/-- KSOFTMAX (R95, R179). -/
def execKsoftmax (q : Issue) (o : OpK) (s : State) : Host.Outcome State Fault Refusal := .next (s.runKernel q .ksoftmax o)

/-- KGATES (R95, R209). -/
def execKgates (q : Issue) (o : OpK) (s : State) : Host.Outcome State Fault Refusal := .next (s.runKernel q .kgates o)

/-- KARGMAX (R95, R160). -/
def execKargmax (q : Issue) (o : OpK) (s : State) : Host.Outcome State Fault Refusal := .next (s.runKernel q .kargmax o)

/-- KCVT (R95, R144). -/
def execKcvt (q : Issue) (o : OpK) (s : State) : Host.Outcome State Fault Refusal := .next (s.runKernel q .kcvt o)

/-- KSCONV (R95, R162). -/
def execKsconv (q : Issue) (o : OpK) (s : State) : Host.Outcome State Fault Refusal := .next (s.runKernel q .ksconv o)

/-- KSMATMUL (R95, R162). -/
def execKsmatmul (q : Issue) (o : OpK) (s : State) : Host.Outcome State Fault Refusal := .next (s.runKernel q .ksmatmul o)

/-- KSARGMAX (R95, R160). -/
def execKsargmax (q : Issue) (o : OpK) (s : State) : Host.Outcome State Fault Refusal := .next (s.runKernel q .ksargmax o)

/-- KSREFLEX (R95, R165). -/
def execKsreflex (q : Issue) (o : OpK) (s : State) : Host.Outcome State Fault Refusal := .next (s.runKernel q .ksreflex o)

/-- KHQUERY (R95, R345). -/
def execKhquery (q : Issue) (o : OpK) (s : State) : Host.Outcome State Fault Refusal := .next (s.runKernel q .khquery o)

/-- KHSTRIDE (R95, R347). -/
def execKhstride (q : Issue) (o : OpK) (s : State) : Host.Outcome State Fault Refusal := .next (s.runKernel q .khstride o)

/-- KHFINISH (R95, R350). -/
def execKhfinish (q : Issue) (o : OpK) (s : State) : Host.Outcome State Fault Refusal := .next (s.runKernel q .khfinish o)

/-- KHMAP (R95, R341). -/
def execKhmap (q : Issue) (o : OpK) (s : State) : Host.Outcome State Fault Refusal := .next (s.runKernel q .khmap o)

/-- KFXFORM (R95, R328). -/
def execKfxform (q : Issue) (o : OpK) (s : State) : Host.Outcome State Fault Refusal := .next (s.runKernel q .kfxform o)

/-- KFEGO (R95, R329). -/
def execKfego (q : Issue) (o : OpK) (s : State) : Host.Outcome State Fault Refusal := .next (s.runKernel q .kfego o)

/-- KFTRACK (R95, R331). -/
def execKftrack (q : Issue) (o : OpK) (s : State) : Host.Outcome State Fault Refusal := .next (s.runKernel q .kftrack o)

/-- MCOPY (R95, R229). -/
def execMcopy (q : Issue) (o : OpM) (s : State) : Host.Outcome State Fault Refusal := .next (s.runMove q .mcopy o)

/-- MFILL (R95, R229). -/
def execMfill (q : Issue) (o : OpM) (s : State) : Host.Outcome State Fault Refusal := .next (s.runMove q .mfill o)

/-- MRAISE (R95, R225). -/
def execMraise (q : Issue) (o : OpM) (s : State) : Host.Outcome State Fault Refusal := .next (s.runMove q .mraise o)

/-- MDROP (R95, R221). -/
def execMdrop (q : Issue) (o : OpM) (s : State) : Host.Outcome State Fault Refusal := .next (s.runMove q .mdrop o)

/-- MPACE (R95, R231). -/
def execMpace (q : Issue) (o : OpM) (s : State) : Host.Outcome State Fault Refusal := .next (s.runMove q .mpace o)

/-- MENTER (R95, R230). -/
def execMenter (q : Issue) (o : OpM) (s : State) : Host.Outcome State Fault Refusal := .next (s.runMove q .menter o)

end Sys2Proof.Machine
end

