-- ==== Sys2Proof/Machine/KComplete.lean ====
section
/-!
DEFINITION. The end of asynchronous operations (05 to 09, 13, 14): the checks of what a kernel accesses, overlapping operands,
the write of its results and its completion; faults in operation; tiles withdrawn by an ECC error and bound again.
-/

namespace Sys2Proof.Machine

open Sys2Proof

namespace State

/-! ### Tiles (R110 to R113) -/

/-- The logical tiles of a Heat position. -/
def logicalTiles (s : State) (p : Nat) : List Nat :=
  (List.range (s.posCols p).2).flatMap fun c => (List.range 32).map fun r => 32 * ((s.posCols p).1 + c) + r

/-- The physical tile bound to a logical tile. -/
def tileOf (s : State) (l : Nat) : Option Nat := mget (fun _ => none) s.field.binding l

/-- A physical tile that a Heat position contains. -/
def posHasTile (s : State) (p t : Nat) : Bool := (s.logicalTiles p).any fun l => s.tileOf l == some t

/-- The logical tile a physical tile is bound to. -/
def boundTo (s : State) (t : Nat) : Option Nat := (List.range (32 * s.cols)).find? fun l => s.tileOf l == some t

/-- A Heat position contains a withdrawn tile (R112). -/
def posWithdrawn (s : State) (p : Nat) : Bool := (s.logicalTiles p).any fun l => match s.tileOf l with
  | some t => s.field.withdrawn.contains t
  | none => false

/-- Unused spares, the lowest index first. -/
def spares (s : State) : List Nat := (List.range 2112).filter fun t =>
  !s.field.excluded.contains t && !s.field.withdrawn.contains t && (s.boundTo t).isNone

/-- The operations that run on Heat positions: context, operation, position. -/
def heatOps (s : State) : List (Nat × AsyncOp × Nat) :=
  s.ctxs.flatMap fun e => e.2.ops.filterMap fun o =>
    if (o.unit = .field ∨ o.unit = .gate) ∧ o.state = .running then o.pos.map fun p => (e.1, o, p) else none

/-- Two Heat positions share a tile. -/
def posMeet (s : State) (p q : Nat) : Bool :=
  let a := s.posCols p
  let b := s.posCols q
  decide (a.1 < b.1 + b.2) && decide (b.1 < a.1 + a.2)

/-- Each withdrawn tile on whose positions no operation runs any more is replaced by the unused spare of lowest index
(R112; 16). -/
def settleTiles (s : State) : State :=
  s.field.withdrawn.foldl (fun s t => match s.boundTo t with
    | none => s
    | some l =>
      if s.heatOps.any fun q => (s.logicalTiles q.2.2).contains l then s else
      match s.spares with
      | [] => s
      | u :: _ => ({ s with field := { s.field with binding := mset (fun _ => none) s.field.binding l (some u) } } : State).setFld
          Reg.FIELD_GEOM_SPARES_LEFT (s.fld Reg.FIELD_GEOM_SPARES_LEFT - 1)) s

/-- A physical tile is withdrawn in service (R112). -/
def withdrawTile (s : State) (t : Nat) : State :=
  if s.field.excluded.contains t || s.field.withdrawn.contains t then s else
  let spare := s.spares.contains t
  let s : State := { s with field := { s.field with withdrawn := s.field.withdrawn ++ [t] } }
  if spare then s.setFld Reg.FIELD_GEOM_SPARES_LEFT (s.fld Reg.FIELD_GEOM_SPARES_LEFT - 1) else s

/-- The level of a regulator's bucket. -/
def bucket (s : State) (k : Nat) : Int := mget (fun _ => (0 : Int)) s.starter.buckets k

/-- A tile pass charges a regulator that is on; the bucket does not fall below minus its burst (R258). -/
def chargeBucket (s : State) (on : Bool) (k burst n : Nat) : State :=
  if on then { s with starter := { s.starter with
    buckets := mset (fun _ => 0) s.starter.buckets k (Max.max (-(burst : Int)) (s.bucket k - n)) } }
  else s

/-- TILE_PASS_END: a pass of the operation on a position ends (R115): its cycles, those it waited, and its tokens of traffic
(R259). -/
def passEnd (s : State) (p cycles stall vault ext : Nat) : State :=
  match s.heatOps.find? fun q => q.2.2 == p with
  | none => s
  | some (c, _, _) =>
    let s := ((s.rise Reg.FIELD_PASS_CNT_PASSES).rise Reg.FIELD_BUSY_CYC_CYCLES cycles).rise Reg.FIELD_STALL_CYC_CYCLES stall
    let exempt := bitAt (s.fld (Reg.START_RCFG_EXEMPT p)) (s.ctx c).cls.val
    let von := s.flag (Reg.START_RCFG_VAULT_EN p)
    let eon := s.flag (Reg.START_RCFG_EXT_EN p)
    let dry := !exempt && (von && decide (s.bucket (2 * p) ≤ 0) && vault != 0 || eon && decide (s.bucket (2 * p + 1) ≤ 0) && ext != 0)
    let s := (s.chargeBucket von (2 * p) (s.fld (Reg.START_RVAULT_BURST p)) vault).chargeBucket eon (2 * p + 1)
      (s.fld (Reg.START_REXT_BURST p)) ext
    if dry && !s.starter.stalled.contains p then
      { s with starter := { s.starter with stalled := p :: s.starter.stalled } }
    else s

/-! ### Overlap (R133) -/

/-- Where the bytes of an operand lie: home addresses, Purse offsets or engine offsets. -/
def placesOf (s : State) (c : Nat) (d : Desc) (bs : List Int) : List Int :=
  match dSpace d with
  | 0 => bs.filterMap fun b => match s.check c (BitVec.ofInt 64 b) false false false with
    | .ok pa => some (pa : Int)
    | _ => none
  | 1 => (List.range (purseOcc d (s.posTiles ((s.ctx c).pwinPos.getD 0)))).map fun k => ((dBase d + k : Nat) : Int)
  | _ => bs

/-- DO describes exactly the elements of an input, scales included. -/
def sameElems (a b : Desc) : Bool :=
  dSpace a == dSpace b && dBase a == dBase b && dFmt a == dFmt b && dStrides a == dStrides b && dExts a == dExts b
    && (!isMx (dFmt a) || dScale a == dScale b) && !dSparse b

/-- The input a kernel may work on in place (R133; 08, 13). -/
def inPlace (k : KIn) : Option Desc :=
  match k.mn with
  | .kgates => some k.dB
  | .kfxform => some k.dA
  | m => if unitOf m = .gate then some k.dA else none

/-- What a kernel reads, by operand. -/
def inputsOf (s : State) (c : Nat) (k : KIn) (kv : List Nat) : List (Desc × List Int) :=
  (if hasA k then [(k.dA, dBytes k.dA)] else []) ++ (if hasB k then [(k.dB, dBytes k.dB)] else [])
    ++ (if hasC k then [(k.dC, dBytes k.dC)] else [])
    ++ if k.mn = .kattn ∧ isPaged k then
        let d := dSet k.dO 57 2 0
        [(d, (s.attnPages c k kv).flatMap fun pg => (List.range 65536).map fun b => ((65536 * pg + b : Nat) : Int))] else []

/-- DO overlaps an input other than in place. -/
def overlaps (s : State) (c : Nat) (k : KIn) (kv : List Nat) : Bool :=
  let ins := (s.inputsOf c k kv).filter fun e => !((inPlace k) == some e.1 && sameElems k.dO e.1)
  let out := s.placesOf c k.dO (dBytes k.dO)
  ins.any fun e => dSpace e.1 == dSpace k.dO && (s.placesOf c e.1 e.2).any out.contains

/-- Every element of DO at a value left open. -/
def openOut (s : State) (k : KIn) : KOut :=
  ((dStored k.dO).zipIdx.map fun (ix, n) => (ix, s.draw (2 * n) % 2 ^ fmtBits (dFmt k.dO)),
   (List.range (scaleBytes k.dO).length).map fun n => (n, s.draw (2 * n + 1) % 256))

/-- Write the results of a kernel. -/
def putOut (s t : State) (c : Nat) (k : KIn) (kv : List Nat) (out : KOut) : State :=
  let o := if s.overlaps c k kv then s.openOut k else out
  t.writeElems c k.dO o.1 o.2

/-! ### Completion (R82) -/

/-- The tag of the operand a byte belongs to; 0 for an access of no descriptor (R89). -/
def tagAt (k : KIn) (code : Nat) (va : W64) : Nat :=
  let ds := (kDescs k).map (·.2)
  let ds := if code = 5 then ds else ds.drop 1 ++ ds.take 1
  match ds.find? fun d => (dBytes d).any fun b => BitVec.ofInt 64 b == va with
  | some d => dTag d
  | none => match ds.find? fun d => dSpace d == 1 && decide (dBase d ≤ va.toNat) with
    | some d => dTag d
    | none => 0

/-- An operation that has begun is given up: how much of DO it has written is left open (R87, R263, R352; assumption 21). A
kftrack has written none (13). -/
def leaveOpen (s : State) (c : Nat) (o : AsyncOp) : State :=
  let k := kinOf o
  let gone := (dSpace k.dO != 0) && (match s.tensorAcc c k.dO (dBytes k.dO) true with
    | .fault _ _ _ _ => true
    | _ => false)
  if o.unit = .teller ∨ o.mn = .kftrack ∨ o.mn = .ksreflex ∨ gone then s else
  let out := s.openOut k
  (s.writeElems c k.dO out.1 out.2).bumpFree

/-- A running operation faults after issue. -/
def runFault (s : State) (c : Nat) (o : AsyncOp) (code unit : Nat) (detail va : W64) (tag : Nat) : State :=
  (s.leaveOpen c o).opFault c o.id code unit detail va tag

/-- The operation that runs on a tile's Heat is abandoned with POISONED (R147). -/
def poisonHeat (s : State) (t : Nat) : State :=
  (s.heatOps.filter fun q => s.posHasTile q.2.2 t).foldl
    (fun s q => s.runFault q.1 q.2.1 6 1 (BitVec.allOnes 64) 0 0) s

/-- PURSE_ECC_ERROR (R147). -/
def purseEcc (s : State) (t : Nat) (uncorrectable : Bool) : State :=
  if s.field.excluded.contains t || s.field.withdrawn.contains t then s
  else if !uncorrectable then s.bump Reg.FIELD_ERR_CE_COUNT
  else
    let s := if s.flag Reg.FIELD_ERR_UE then s else s.setFld Reg.FIELD_ERR_UE_TILE t
    let s := (s.setFld Reg.FIELD_ERR_UE 1).withdrawTile t
    let hit := (s.ctxsWith fun x => match x.pwinPos with
      | some p => s.posHasTile p t
      | none => false)
    (hit.foldl (fun s c => s.modCtx c fun x => { x with pwinPoisoned := true }) (s.poisonHeat t)).settleTiles

/-- Go on with what a kernel's checks come to: a page that moves makes it wait, a fault ends it (R87, R228). -/
def afterAcc (s : State) (c : Nat) (o : AsyncOp) (a : TAcc) (f : State) : State :=
  match a with
  | .ok => f
  | .wait => s
  | .fault code unit d va => s.runFault c o code (if code = 6 then unit else unitCode o.unit) d va (tagAt (kinOf o) code va)

/-- The operation's data is written: the next draw, residues, completion. -/
def closeOp (s : State) (c id : Nat) : State := (s.bumpFree.finishOp c id true).pump.settleTiles

/-- The bytes of a result at DO, in the order of its elements. -/
def bytesOut (k : KIn) (dst : List Nat) : KOut := (((dStored k.dO).zip dst), [])

/-- What a Hurdle or Fusion kernel accesses. -/
def unitAcc (s : State) (c : Nat) (k : KIn) (dst : List Nat) (reads : List (W64 × Nat)) : TAcc :=
  accAll ([if hasA k then s.tensorAcc c k.dA (dBytes k.dA) false else .ok]
    ++ reads.flatMap (fun r => (onePerPage ((List.range r.2).map fun n => ((r.1.toNat + n : Nat) : Int))).map (s.ledAcc c false false))
    ++ [s.tensorAcc c k.dO (elemsBytes k.dO ((dStored k.dO).take dst.length)) true])

/-- SPRINT_BUSY_CYC counts the cycles of an engine's kernel; how many is left open (assumption 2). -/
def sprintBusy (s : State) (o : AsyncOp) : State :=
  match o.unit, o.pos with
  | .sprint, some e => s.rise (Reg.SPRINT_BUSY_CYC_CYCLES e) (Config.freeNat s.freeCtr (2 ^ 61))
  | _, _ => s

/-- An arithmetic kernel of the Field, the gate pipeline or an engine completes. The engine clocks it took are left open
(SPRINT_BUSY_CYC; assumption 2). -/
def calcDone (s : State) (c : Nat) (o : AsyncOp) : State :=
  let k := kinOf o
  let win : Bool := k.mn == .kconv || k.mn == .ksconv || k.mn == .kpool
  let s := if win && (outW k == 0 || outH k == 0) then s.modOp c o.id fun p => { p with emptyOut := true } else s
  s.afterAcc c o (accAll ((calcAcc k).map fun e => s.tensorAcc c e.1 e.2.1 e.2.2))
    (((s.putOut s c k [] (if emptyOutK k then ([], []) else s.calcOut c k)).sprintBusy o).closeOp c o.id)

/-- A kattn completes once every entry's append is done (R189). -/
def attnDone (s : State) (c : Nat) (o : AsyncOp) : State :=
  let k := kinOf o
  if o.kv.length < (lenEnts k).length then s else
  s.afterAcc c o (s.attnAcc c k o.kv)
    (((s.putOut s c k o.kv (s.attnOut c k o.kv)).attnMarks c k o.kv).closeOp c o.id)

/-- A chunk completes: outputs, then states (R205). -/
def chunkDone (s : State) (c : Nat) (o : AsyncOp) : State :=
  let k := kinOf o
  s.afterAcc c o (s.chunkAcc c k)
    (let out := s.chunkOut c k
     ((s.putOut s c k [] out.1).chunkStore out.2).closeOp c o.id)

/-- A Hurdle kernel completes (R337). -/
def hurdleDone (s : State) (c : Nat) (o : AsyncOp) : State :=
  let k := kinOf o
  match s.hurdleRunning with
  | none => s
  | some h =>
    if h.ctx ≠ c ∨ h.id ≠ o.id then s else
    let b := s.hurdleOut c k h.lane
    s.afterAcc c o (s.unitAcc c k b.dst b.reads)
      ((b.st.writeElems c k.dO (bytesOut k b.dst).1 []).closeOp c o.id)

/-- The duty module sends every slot of the Tracker after an update (Table 17-1). -/
def sendTracks (s : State) : State :=
  if s.isDuty && s.flag Reg.RELAY_PAIR_CFG_TRACKS then
    s.mirrorOut (.mirrorTracks s.pairLink (s.fusion.tracks.filterMap fun e => e.2.map fun t => (e.1, t)) s.fusion.nextId)
  else s

/-- A Fusion kernel completes (R326, R328, R330). -/
def fusionDone (s : State) (c : Nat) (o : AsyncOp) : State :=
  let k := kinOf o
  let mine := fun (r : Option FRun) => r.filter fun x => x.ctx == c && x.id == o.id
  match k.mn with
  | .kftrack => (match mine s.fusion.tracker with
    | none => s
    | some run =>
      let b := s.fTrack c k run
      s.afterAcc c o (s.unitAcc c k b.dst b.reads) ((b.st.writeElems c k.dO (bytesOut k b.dst).1 []).closeOp c o.id))
  | m => match mine s.fusion.xform with
    | none => s
    | some run =>
      if m = .kfxform then
        match s.fXform c k run with
        | none => s.opFault c o.id 2 7 8 0 0
        | some out => s.afterAcc c o (accAll [s.tensorAcc c k.dA (dBytes k.dA) false, s.tensorAcc c k.dO (dBytes k.dO) true])
            ((s.putOut s c k [] out).closeOp c o.id)
      else
        let (neg, b) := s.fEgo c k
        if neg then s.opFault c o.id 2 7 6 0 0 else
        s.afterAcc c o (s.unitAcc c k b.dst b.reads) ((b.st.writeElems c k.dO (bytesOut k b.dst).1 []).closeOp c o.id)

/-- A MOVE that the page moves do not end completes (R107, R229). -/
def moveEnd (s : State) (c : Nat) (o : AsyncOp) : State :=
  if (o.mn == .mcopy || o.mn == .mfill) && (moveKey o).isNone then
    match accAll [s.destAll c o, s.srcAll c o] with
    | .wait => s
    | .fault code unit d va => s.opFault c o.id code (if code = 6 then unit else 4) d va (dTag o.dO)
    | .ok => (s.copyPage c o none).closeOp c o.id
  else if s.moveOver c o then s.finishOp c o.id true else s

/-- KERNEL_COMPLETE: an operation that runs has done its work. One whose context is torn down is abandoned instead, but for a
khmap (R263, R352). -/
def kernelComplete (s : State) (c id : Nat) : State :=
  match s.opOf c id with
  | none => s
  | some o =>
    if o.state ≠ .running ∨ ((s.ctx c).td.isSome ∧ o.mn ≠ .khmap) then s else
    match o.unit with
    | .teller => s.moveEnd c o
    | .hurdle => s.hurdleDone c o
    | .fusion => s.fusionDone c o
    | _ => match o.mn with
      | .ksreflex => if s.rxDone o then (s.finishOp c id true).pump else s
      | .kattn => s.attnDone c o
      | .kscan | .kcell => s.chunkDone c o
      | _ => s.calcDone c o

end State

open State

/-- KERNEL_COMPLETE (R82): the Fusion unit's clock is not of the FIELD_CLK group. -/
def execKernelComplete (c : CtxId) (id : Nat) (s : State) : Host.Outcome State Fault Refusal :=
  .next (if (s.opOf c.val id).any fun o => o.unit == .fusion then s.kernelComplete c.val id
    else s.clocked fun s => s.kernelComplete c.val id)

/-- KERNEL_FAULT (R87). -/
def execKernelFault (c : CtxId) (id : Nat) (va : W64) (write : Bool) (s : State) : Host.Outcome State Fault Refusal :=
  .next (s.clocked fun s => match s.opOf c.val id with
    | some o => if o.state = .running ∧ (s.check c.val va write false false matches .fault _ _ _)
        then ((s.leaveOpen c.val o).kernelFault c.val id va write).settleTiles else s
    | none => s)

/-- PURSE_ECC_ERROR (R147). -/
def execPurseEccError (t : Fin 2112) (uncorrectable : Bool) (s : State) : Host.Outcome State Fault Refusal :=
  .next (s.purseEcc t.val uncorrectable)

/-- TILE_PASS_END (R115). -/
def execTilePassEnd (p : Fin 7) (cycles stall vault ext : BitVec 32) (s : State) : Host.Outcome State Fault Refusal :=
  .next (s.clocked fun s => s.passEnd p.val cycles.toNat stall.toNat vault.toNat ext.toNat)

end Sys2Proof.Machine
end

