-- ==== Sys2Proof/Machine/Starter.lean ====
section
/-!
DEFINITION. The Starter (10): contexts, residency, placement on Heat positions and engines, pre-emption and layout changes,
swaps to escrow, regulators and budgets.
-/

namespace Sys2Proof.Machine

open Sys2Proof

namespace State

/-! ### START registers (R241, R243, R251) -/

/-- The value of a staged field of a requester. -/
def stgFld (s : State) (r : Nat) (f : Fld) : Nat := s.fld (f.of r)

/-- STATE of a context (START_CTX_INFO). -/
def stageCode (x : Ctx) : Nat :=
  if x.stage ≠ .undefined ∧ x.td.isSome then 6 else
  match x.stage with
  | .undefined => 0 | .waiting => 1 | .resident => 2 | .swapOut => 3 | .escrow => 4 | .swapIn => 5 | .teardown => 6

/-- The Heat position of a context's running or saved Field operation, 15 for none. -/
def ctxPosition (x : Ctx) : Nat :=
  ((x.ops.find? fun o => (o.unit == .field || o.unit == .gate) && (o.state == .running || o.state == .saved)).bind (·.pos)).getD 15

/-- START_CTX_INFO of the caller's copy after a command. -/
def ctxInfo (s : State) (r c err : Nat) : State :=
  let x := s.ctx c
  s.setReg (stg r Reg.START_CTX_INFO) (BitVec.ofNat 64 (2 ^ 24 * err + 2 ^ 21 * stageCode x + 2 ^ 20 * b2n x.relPend
    + 2 ^ 19 * b2n x.demoted + 2 ^ 16 * (if x.stage = .resident then x.marshal % 8 else 0) + 2 ^ 12 * (ctxPosition x % 16)
    + x.relLost % 256))

/-- The context a requester has selected. -/
def stagedCtx (s : State) (r : Nat) : Nat := s.stgFld r Reg.START_CTX_SEL_CONTEXT

/-- Tiles of a Heat shape (Table 5-1): 0 full, 1 half, 2 quarter. -/
def shapeTiles (s : State) (k : Nat) : Nat := s.posTiles (match k with | 0 => 0 | 1 => 1 | _ => 3)

/-- The error code of DEFINE from a requester's staging copy, 0 for none (R241). -/
def defineErr (s : State) (r : Nat) : Nat :=
  let g := s.stgFld r
  let shapes := g Reg.START_CTX_CFG_SHAPES
  let pSize := g Reg.START_CTX_WIN_PWIN_SIZE
  let pShape := g Reg.START_CTX_WIN_PWIN_SHAPE
  let sSize := g Reg.START_CTX_WIN_SWIN_SIZE
  if s.defined (s.stagedCtx r) then 2
  else if g Reg.START_CTX_PC_VA % 16 ≠ 0 ∨ g Reg.START_CTX_FREC_VA % 64 ≠ 0 ∨ g Reg.START_CTX_FRCPT_VA % 8 ≠ 0 then 1
  else if shapes = 0 ∨ (shapes &&& (7 - s.fld Reg.FIELD_GEOM_HEAT_SHAPES % 8)) ≠ 0 then 5
  else if 1536 < g Reg.START_CTX_WIN_PWIN_BASE + pSize ∨ 3584 < g Reg.START_CTX_WIN_SWIN_BASE + sSize then 4
  else if pSize ≠ 0 ∧ (pShape = 3 ∨ !bitAt shapes pShape) then 4
  else if 2 ≤ g Reg.START_CTX_CFG_CLASS ∧ 2 ^ 21 < (if pSize = 0 then 0 else pSize * 64 * s.shapeTiles pShape) + sSize * 64 then 4
  else 0

/-- DEFINE (R241). -/
def defineCtx (r : Nat) (s : State) : State :=
  let c := s.stagedCtx r
  let g := s.stgFld r
  let err := s.defineErr r
  if err ≠ 0 then s.ctxInfo r c err else
  let x : Ctx :=
    { stage := if g Reg.START_CTX_CFG_CLASS < 2 ∧ s.heldBack c then .escrow else .waiting, cls := Fin.ofNat 4 (g Reg.START_CTX_CFG_CLASS), prio := g Reg.START_CTX_CFG_PRIORITY
      nandWr := g Reg.START_CTX_CFG_NAND_WR == 1, shapes := g Reg.START_CTX_CFG_SHAPES
      pc := BitVec.ofNat 64 (g Reg.START_CTX_PC_VA), root := g Reg.START_CTX_ROOT_PPN
      frec := BitVec.ofNat 64 (g Reg.START_CTX_FREC_VA), frcpt := BitVec.ofNat 64 (g Reg.START_CTX_FRCPT_VA)
      pwinBase := g Reg.START_CTX_WIN_PWIN_BASE, pwinSize := g Reg.START_CTX_WIN_PWIN_SIZE
      pwinShape := g Reg.START_CTX_WIN_PWIN_SHAPE, swinBase := g Reg.START_CTX_WIN_SWIN_BASE
      swinSize := g Reg.START_CTX_WIN_SWIN_SIZE, defOrder := s.stamp, runFrom := s.stamp }
  (s.setCtx c x).nextStamp.ctxInfo r c 0

/-- KILL (R263). -/
def killCtx (r : Nat) (s : State) : State :=
  let c := s.stagedCtx r
  if !s.defined c then s.ctxInfo r c 3 else
  (s.faultCtx c { code := 0x0E, imprecise := false, unit := 8, tag := 0, pc := (s.ctx c).pc, vaddr := 0,
                  lane15 := s.laneVal 15, detail := BitVec.ofNat 64 r }).ctxInfo r c 0

/-- READ (R241): the staging copy and START_CTX_INFO. -/
def readCtx (r : Nat) (s : State) : State :=
  let c := s.stagedCtx r
  if !s.defined c then s.ctxInfo r c 3 else
  let x := s.ctx c
  let put := fun (f : Fld) (v : Nat) (s : State) => s.setFld (f.of r) v
  (s |> put Reg.START_CTX_CFG_CLASS x.cls.val |> put Reg.START_CTX_CFG_PRIORITY x.prio
    |> put Reg.START_CTX_CFG_NAND_WR (b2n x.nandWr) |> put Reg.START_CTX_CFG_SHAPES x.shapes
    |> put Reg.START_CTX_PC_VA x.pc.toNat |> put Reg.START_CTX_ROOT_PPN x.root
    |> put Reg.START_CTX_FREC_VA x.frec.toNat |> put Reg.START_CTX_FRCPT_VA x.frcpt.toNat
    |> put Reg.START_CTX_WIN_SWIN_SIZE x.swinSize |> put Reg.START_CTX_WIN_SWIN_BASE x.swinBase
    |> put Reg.START_CTX_WIN_PWIN_SHAPE x.pwinShape |> put Reg.START_CTX_WIN_PWIN_SIZE x.pwinSize
    |> put Reg.START_CTX_WIN_PWIN_BASE x.pwinBase).ctxInfo r c 0

/-- A save frame is the home of a page that a defined context maps (R251). -/
def saveMapped (s : State) (base n : Nat) : Bool := s.anyMapped fun p => decide (base ≤ p) && decide (p < base + n)

/-- START_SAVE_CFG and the escrow region allow EN (R243, R251). -/
def startOk (s : State) : Bool :=
  let b := s.fld Reg.START_SAVE_CFG_BASE
  let n := s.fld Reg.START_SAVE_CFG_FRAMES
  decide (20736 ≤ s.fld Reg.TELLER_ESC_PAGES_PAGES) && decide (144 ≤ n) && decide (b + n ≤ s.homeFrames) && !s.saveMapped b n

/-- A write of START_CTL (R243). -/
def startCtl (v : W32) (s : State) : State :=
  let on := s.flag Reg.START_CTL_EN
  let s := if on then s else s.setFld Reg.START_CTL_RESERVE_SLOTS (v.toNat / 256)
  if !v.getLsbD 0 then s.setFld Reg.START_CTL_EN 0
  else if on then s
  else if s.startOk then
    ({ s with starter := { s.starter with refillAt := s.laneVal 15 + BitVec.ofNat 64 (1000 * 2 ^ 32) } } : State).setFld
      Reg.START_CTL_EN 1
  else s.setFld Reg.START_STAT_CFG_ERR 1

/-! ### Residency (R242) -/

/-- The context occupies a Marshal slot. -/
def hasSlot (x : Ctx) : Bool := x.stage == .resident || x.stage == .swapOut

/-- The contexts that hold slots. -/
def slotted (s : State) : List (Nat × Ctx) := s.ctxs.filter fun e => hasSlot e.2

/-- RESERVE_SLOTS: larger values act as 64. -/
def reserveSlots (s : State) : Nat := Nat.min (s.fld Reg.START_CTL_RESERVE_SLOTS) 64

/-- A slot is free for a class. -/
def slotFree (s : State) (cls : Nat) : Bool :=
  let free := 64 - s.slotted.length
  if cls < 2 then decide (0 < free) else decide (s.reserveSlots < free)

/-- The Marshal of a context that becomes resident. -/
def pickMarshal (s : State) (cls : Nat) : Option Nat :=
  let on := fun (m : Nat) => (s.slotted.filter fun e => e.2.marshal == m)
  bestBy (fun (a b : Nat) =>
    let sa := ((on a).filter fun e => e.2.cls.val == cls).length
    let sb := ((on b).filter fun e => e.2.cls.val == cls).length
    decide (sa < sb) || (sa == sb && (decide ((on a).length < (on b).length) || ((on a).length == (on b).length && decide (a < b)))))
    ((List.range 8).filter fun m => decide ((on m).length < 8))

/-- The Heat positions of a shape. -/
def shapePos (k : Nat) : List Nat := match k with
  | 0 => [0]
  | 1 => [1, 2]
  | _ => [3, 4, 5, 6]

/-- Two spans meet. -/
def spansMeet (a n b m : Nat) : Bool := decide (a < b + m) && decide (b < a + n)

/-- The position a Purse window is granted on: `some none` for a context without one. -/
def grantPwin (s : State) (c : Nat) (x : Ctx) : Option (Option Nat) :=
  if x.pwinSize = 0 then some none else
  ((shapePos x.pwinShape).find? fun p => decide (0 < s.posTiles p) && !s.ctxs.any fun e => e.1 != c && match e.2.pwinPos with
    | some q => s.posMeet p q && spansMeet x.pwinBase x.pwinSize e.2.pwinBase e.2.pwinSize
    | none => false).map some

/-- The engine a Sprint window is granted on: `some none` for a context without one. -/
def grantSwin (s : State) (c : Nat) (x : Ctx) : Option (Option Nat) :=
  if x.swinSize = 0 then some none
  else if !s.present 1 then none
  else ((List.range 8).find? fun g => !s.engineOut g && !s.ctxs.any fun e =>
    e.1 != c && e.2.swinEng == some g && spansMeet x.swinBase x.swinSize e.2.swinBase e.2.swinSize).map some

/-- Put the bytes of a window into an engine's memory; none for one not written. -/
def engPut (s : State) (e off : Nat) (bs : List (Option Byte)) : State :=
  { s with sprint := { s.sprint with mem := bs.zipIdx.foldl (fun m q => mset (fun _ => none) m (engKey e (off + q.2)) q.1) s.sprint.mem } }

/-- The bytes of a Sprint window as they stand. -/
def engSpan (s : State) (e off n : Nat) : List (Option Byte) :=
  (List.range n).map fun k => mget (fun _ => none) s.sprint.mem (engKey e (off + k))

/-- A context becomes resident, if a slot and its windows can be granted; a window granted anew holds nothing written
(R118). -/
def admitCtx (s : State) (c : Nat) : Option State :=
  let x := s.ctx c
  match s.pickMarshal x.cls.val, s.grantPwin c x, s.grantSwin c x with
  | some m, some p, some g =>
    let s := s.setCtx c { x with stage := .resident, marshal := m, pwinPos := p, swinEng := g, swinSave := [],
                                 everResident := true, starved := false }
    some (match g with
      | some e => s.engPut e (x.swinBase * 64) (if x.swinSave.isEmpty then List.replicate (x.swinSize * 64) none else x.swinSave)
      | none => s)
  | _, _, _ => none

/-- Waiting contexts come in order of class, then priority, then definition. -/
def waitBefore (a b : Nat × Ctx) : Bool :=
  let k := fun (e : Nat × Ctx) => (e.2.cls.val * 16 + (15 - e.2.prio), e.2.defOrder)
  decide ((k a).1 < (k b).1) || ((k a).1 == (k b).1 && decide ((k a).2 < (k b).2))

/-- The waiting contexts that could become resident now: one that cannot is passed over. -/
def grantable (s : State) : List (Nat × Ctx) :=
  s.ctxs.filter fun e => e.2.stage == .waiting && e.2.td.isNone && !(decide (e.2.cls.val < 2) && s.heldBack e.1) && s.slotFree e.2.cls.val && (s.admitCtx e.1).isSome

/-- CONTEXT_RESIDENT: the first of them becomes resident. -/
def ctxResident (s : State) (c : Nat) : State :=
  if !s.flag Reg.START_CTL_EN then s else
  match bestBy waitBefore s.grantable with
  | some e => if e.1 = c then (s.admitCtx c).getD s else s
  | none => s

/-! ### Placement (R245 to R248) -/

/-- The class that counts for placement: BULK while demoted (R261). -/
def placeClass (x : Ctx) : Nat := if x.demoted then 3 else x.cls.val

/-- The Heat positions of each layout (R113). -/
def layoutPos : Nat → List Nat
  | 0 => [0]
  | 1 => [1, 2]
  | 2 => [1, 5, 6]
  | 3 => [3, 4, 2]
  | _ => [3, 4, 5, 6]

/-- The layouts whose positions all exist. -/
def layouts (s : State) : List Nat := (List.range 5).filter fun l => (layoutPos l).all fun p => decide (0 < s.posTiles p)

/-- The bit of SHAPES a position belongs to. -/
def posShape (p : Nat) : Nat := if p = 0 then 0 else if p < 3 then 1 else 2

/-- Operations on Heat positions that run or are on their way: context, operation, position. -/
def posOps (s : State) : List (Nat × AsyncOp × Nat) :=
  s.ctxs.flatMap fun e => e.2.ops.filterMap fun o =>
    if (o.unit = .field ∨ o.unit = .gate) ∧ (o.state = .running ∨ o.state = .incoming) then o.pos.map fun p => (e.1, o, p) else none

/-- A pre-emption or layout change in progress, or an audit fragment, holds a position. -/
def posHeld (s : State) (p : Nat) : Bool :=
  s.judge.frags.contains p || s.starter.preempts.any fun q =>
    q.pos == p || (q.layout != s.field.layout && !(layoutPos q.layout).contains p)

/-- A position of the current layout runs nothing and nothing is on its way to it. -/
def posFree (s : State) (p : Nat) : Bool := !s.posHeld p && !s.posOps.any fun q => q.2.2 == p

/-- The operation that runs on a position and may be displaced. -/
def posRuns (s : State) (p : Nat) : Option (Nat × AsyncOp) :=
  if s.posHeld p then none else (s.posOps.find? fun q => q.2.2 == p && q.2.1.state == .running).map fun q => (q.1, q.2.1)

/-- A position contains a tile with an audit debt beyond the FTTI (R376). -/
def posDebt (s : State) (p : Nat) : Bool := (s.logicalTiles p).any fun l => match s.tileOf l with
  | some t => s.judge.aged.contains t
  | none => false

/-- A position is allowed to an operation (R118, R246, R249, R376). -/
def posAllowed (s : State) (c : Nat) (o : AsyncOp) (p : Nat) : Bool :=
  let x := s.ctx c
  bitAt x.shapes (posShape p) && decide (0 < s.posTiles p) && !s.posWithdrawn p
    && (x.pwinSize == 0 || x.pwinPos == some p) && !(x.cls.val == 0 && s.posDebt p)
    && !(o.begun && s.posTiles p != s.posTiles (o.pos.getD 0))

/-- The operand a kernel takes its weights from (R247). -/
def weightsOf (o : AsyncOp) : Option Desc :=
  match o.mn with
  | .kmatmul | .kconv | .kscan | .kcell | .ksmatmul | .ksconv => some o.dB
  | _ => none

/-- The physical spans of an operand, page by page. -/
def spansOf (s : State) (c : Nat) (d : Desc) : List (Nat × Nat) :=
  let bs := (dBytes d).map fun b => (BitVec.ofInt 64 b).toNat
  (onePerPage (dBytes d)).filterMap fun v =>
    let here := bs.filter fun b => b / 65536 == v.toNat / 65536
    let lo := here.foldl Nat.min v.toNat
    let hi := here.foldl Nat.max v.toNat
    match s.check c (BitVec.ofNat 64 lo) false false false with
    | .ok pa => some (pa, hi - lo + 1)
    | _ => none

/-- FMT, RANK, extents, strides, SCALE_OFF and SPMETA_OFF of a descriptor. -/
def weightKey (d : Desc) : Desc := dSet (purseKey d) 0 48 0

/-- The residue of a position matches an operand. -/
def residueHit (s : State) (c p : Nat) (d : Desc) : Bool := match mget (fun _ => none) s.field.residues p with
  | some r => dSpace d == 0 && r.key == weightKey d && r.spans == s.spansOf c d
  | none => false

/-- A position holds an operation's weights (R247). -/
def posWeights (s : State) (c : Nat) (o : AsyncOp) (p : Nat) : Bool := match weightsOf o with
  | some d => (dSpace d == 1 && (s.ctx c).pwinPos == some p) || s.residueHit c p d
  | none => false

/-- Operations placed on a position and not completed, running or saved (R246). -/
def posLoad (s : State) (p : Nat) : Nat :=
  (s.ctxs.flatMap fun e => e.2.ops.filter fun o => (o.unit == .field || o.unit == .gate) && o.pos == some p
    && (o.state == .running || o.state == .saved || o.state == .incoming)).length

/-- The preferences among positions. -/
def posBefore (s : State) (c : Nat) (o : AsyncOp) (a b : Nat) : Bool :=
  let k : Nat → Nat × Nat := fun p => (if s.posWeights c o p then 0 else 1, s.posLoad p)
  decide ((k a).1 < (k b).1) || ((k a).1 == (k b).1 && (decide ((k a).2 < (k b).2) || ((k a).2 == (k b).2 && decide (a < b))))

/-- Take the transient claims of an operation's operands (R220). -/
def claimOp (s : State) (c : Nat) (o : AsyncOp) : State :=
  ((kDescs (kinOf o)).flatMap fun e => s.bytePages c e.2 (dBytes e.2)).foldl (fun s p => s.takeTrans c o.id p) s

/-- Staging: residues on shared tiles go, and the operation leaves its own (R247). -/
def stageOp (s : State) (c : Nat) (o : AsyncOp) (p : Nat) : State :=
  let keep := match weightsOf o with
    | some d => s.residueHit c p d
    | none => false
  let rest := s.field.residues.filter fun e => (keep && e.1 == p) || !s.posMeet e.1 p
  let s := { s with field := { s.field with residues := rest } }
  match weightsOf o with
  | some d =>
    if dSpace d = 0 ∧ dRo d ∧ dSpanBytes d ≤ 16384 * s.posTiles p then
      { s with field := { s.field with residues := mset (fun _ => none) s.field.residues p (some { spans := s.spansOf c d, key := weightKey d }) } }
    else s
  | none => s

/-- Note that a unit's tiles run SAFETY work (R377). -/
def noteSafety (s : State) (c : Nat) (us : List Nat) : State :=
  if (s.ctx c).cls.val ≠ 0 then s else
  { s with judge := { s.judge with ranSafety := (us ++ s.judge.ranSafety).eraseDups } }

/-- An operation starts, or resumes, on a position. -/
def startOn (s : State) (c : Nat) (o : AsyncOp) (p : Nat) : State :=
  let s := ((s.stageOp c o p).claimOp c o).noteSafety c ((s.logicalTiles p).filterMap s.tileOf)
  s.modOp c o.id fun q => { q with state := .running, begun := true, pos := some p }

/-- An operation will start on a position once its victims are saved (R249). -/
def incomingOn (s : State) (c : Nat) (o : AsyncOp) (p layout : Nat) (vs : List Claimant) : State :=
  let s := s.modOp c o.id fun q => { q with state := .incoming, pos := some p }
  { s with starter := { s.starter with
      preempts := s.starter.preempts ++ [{ victims := vs, incoming := (c, o.id), pos := p, layout := layout }] } }

/-- Take a layout: residues of the positions it changes go (R247). -/
def setLayout (s : State) (l : Nat) : State :=
  let gone := (layoutPos s.field.layout).filter fun p => !(layoutPos l).contains p
  { s with field := { s.field with layout := l, residues := s.field.residues.filter fun e => !gone.any fun p => s.posMeet p e.1 } }

/-- The positions a layout change affects. -/
def affected (s : State) (l : Nat) : List Nat := (layoutPos s.field.layout).filter fun p => !(layoutPos l).contains p

/-- Every position a change affects is idle or runs an operation of a lower class. -/
def changeOk (s : State) (cls l : Nat) : Bool := (s.affected l).all fun p => s.posFree p || match s.posRuns p with
  | some (c, _) => decide (cls < placeClass (s.ctx c))
  | none => false

/-- The operations a change displaces. -/
def changeVictims (s : State) (l : Nat) : List Claimant := (s.affected l).filterMap fun p => (s.posRuns p).map fun q => (q.1, q.2.id)

/-- The tiles a change pre-empts. -/
def changeTiles (s : State) (l : Nat) : Nat :=
  ((s.affected l).map fun p => if (s.posRuns p).isSome then s.posTiles p else 0).foldl (· + ·) 0

/-- Rule 3 of R246: the layout and the position. -/
def changeFor (s : State) (c : Nat) (o : AsyncOp) : Option (Nat × Nat) :=
  if s.starter.preempts.any fun q => q.layout != s.field.layout then none else
  let cls := placeClass (s.ctx c)
  let new := fun (l : Nat) => (layoutPos l).filter fun p => !(layoutPos s.field.layout).contains p && s.posAllowed c o p
  let ls := s.layouts.filter fun l => l != s.field.layout && !(new l).isEmpty && s.changeOk cls l
  match bestBy (fun (a b : Nat) => decide (s.changeTiles a < s.changeTiles b) || (s.changeTiles a == s.changeTiles b && decide (a < b))) ls with
  | none => none
  | some l => (bestBy (s.posBefore c o) (new l)).map fun p => (l, p)

/-- Place a Field operation (R246, R250). -/
def placeField (s : State) (c : Nat) (o : AsyncOp) : State :=
  let mine := (layoutPos s.field.layout).filter (s.posAllowed c o)
  match bestBy (s.posBefore c o) (mine.filter s.posFree) with
  | some p => s.startOn c o p
  | none =>
    let cls := placeClass (s.ctx c)
    let lower := mine.filterMap fun p => (s.posRuns p).bind fun q =>
      if cls < placeClass (s.ctx q.1) then some (p, placeClass (s.ctx q.1), (q.1, q.2.id)) else none
    match bestBy (fun (a b : Nat × Nat × Claimant) => decide (b.2.1 < a.2.1) || (a.2.1 == b.2.1 && s.posBefore c o a.1 b.1)) lower with
    | some (p, _, v) => s.incomingOn c o p s.field.layout [v]
    | none => match s.changeFor c o with
      | none => s
      | some (l, p) =>
        let vs := s.changeVictims l
        if vs.isEmpty then (s.setLayout l).startOn c o p else s.incomingOn c o p l vs

/-- Sprint operations that run on an engine, or are saved there. -/
def engOps (s : State) (e : Nat) (st : OpState) : List (Nat × AsyncOp) :=
  s.ctxs.flatMap fun x => (x.2.ops.filter fun o => o.unit == .sprint && o.mn != .ksreflex && o.pos == some e && o.state == st).map fun o => (x.1, o)

/-- An engine is allowed to an operation (R248, R252, R376). -/
def engAllowed (s : State) (c : Nat) (o : AsyncOp) (e : Nat) : Bool :=
  let x := s.ctx c
  !s.engineOut e && !s.judge.frags.contains (8 + e) && (x.swinSize == 0 || x.swinEng == some e)
    && !(x.cls.val == 0 && s.judge.aged.contains (4096 + e)) && !(o.begun && o.pos != some e)

/-- The load of an engine (R248). -/
def engLoad (s : State) (e : Nat) : Nat := (s.engOps e .running).length + (s.engOps e .saved).length + b2n (s.bindOf e).isSome

/-- The preferences among engines. -/
def engBefore (s : State) (c : Nat) (o : AsyncOp) (a b : Nat) : Bool :=
  let w : Nat → Bool := fun e => match weightsOf o with
    | some d => dSpace d == 2 && (s.ctx c).swinEng == some e
    | none => false
  let k : Nat → Nat × Nat := fun e => (if w e then 0 else 1, s.engLoad e)
  decide ((k a).1 < (k b).1) || ((k a).1 == (k b).1 && (decide ((k a).2 < (k b).2) || ((k a).2 == (k b).2 && decide (a < b))))

/-- A Sprint operation starts on an engine. -/
def startEng (s : State) (c : Nat) (o : AsyncOp) (e : Nat) : State :=
  ((s.claimOp c o).noteSafety c [4096 + e]).modOp c o.id fun q => { q with state := .running, begun := true, pos := some e }

/-- Place a Sprint operation (R248, R252): a displaced kernel's state stays in the engine, at most one per class. -/
def placeSprint (s : State) (c : Nat) (o : AsyncOp) : State :=
  if !s.present 1 then s else
  let mine := (List.range 8).filter (s.engAllowed c o)
  match bestBy (s.engBefore c o) (mine.filter fun e => (s.engOps e .running).isEmpty) with
  | some e => s.startEng c o e
  | none =>
    let cls := placeClass (s.ctx c)
    let lower := mine.filterMap fun e => (s.engOps e .running).head?.bind fun q =>
      let k := placeClass (s.ctx q.1)
      if cls < k ∧ !(s.engOps e .saved).any (fun x => placeClass (s.ctx x.1) == k) then some (e, k, q.1, q.2.id) else none
    match bestBy (fun (a b : Nat × Nat × Nat × Nat) => decide (b.2.1 < a.2.1) || (a.2.1 == b.2.1 && s.engBefore c o a.1 b.1)) lower with
    | some (e, _, v, id) => (s.modOp v id fun q => { q with state := .saved }).startEng c o e
    | none => s

/-- The operations ready for placement: class, 15 less priority, order, context, operation. -/
def readyOps (s : State) : List (Nat × Nat × Nat × Nat × Nat) :=
  s.ctxs.flatMap fun e =>
    if e.2.stage ≠ .resident ∨ e.2.td.isSome then [] else
    (e.2.ops.filter fun o => (o.unit == .field || o.unit == .gate || o.unit == .sprint) && o.mn != .ksreflex
      && (o.state == .ready || o.state == .saved) && s.chunkIn e.1 o).map
      fun o => (placeClass e.2, 15 - e.2.prio, o.order, e.1, o.id)

/-- Order of placement (R245). -/
def placeBefore (a b : Nat × Nat × Nat × Nat × Nat) : Bool :=
  decide (a.1 < b.1) || (a.1 == b.1 && (decide (a.2.1 < b.2.1) || (a.2.1 == b.2.1 && decide (a.2.2.1 < b.2.2.1))))

/-- Every ready operation is placed, or waits (R245). -/
def placeAll (s : State) : State :=
  (sortBy placeBefore s.readyOps).foldl (fun s q => match s.opOf q.2.2.2.1 q.2.2.2.2 with
    | some o => if o.unit = .sprint then s.placeSprint q.2.2.2.1 o else s.placeField q.2.2.2.1 o
    | none => s) s

/-! ### Swaps (R254 to R257) -/

/-- The wait of a context, if it is one of R254. -/
def swapWait (x : Ctx) : Option Wait := match x.wait with
  | some (.fence _ _) | some (.rpost _) | none => none
  | w => w

/-- A defined, non-resident context that a swap may bring in. -/
def runnable (x : Ctx) : Bool :=
  decide (2 ≤ x.cls.val) && x.td.isNone && (swapWait x).isNone && (x.stage == .escrow || (x.stage == .waiting && !x.everResident))

/-- A target lies within the next 100 µs, or on a Lane that is no time Lane (R255). -/
def soon (s : State) (n : Nat) (v : W64) : Bool :=
  !s.isTimeLane n || decide ((v - s.laneVal n).toInt ≤ 100000 * 2 ^ 32)

/-- An armed Cue with an action and argument lies within the next 100 µs. -/
def cueSoon (s : State) (f : Cue → Bool) : Bool := s.lanes.cues.any fun e => e.2.armed && f e.2 && s.soon e.2.lane e.2.target

/-- A Cue within the next 100 µs can end a context's wait (R255). -/
def endsSoon (s : State) (c : Nat) (w : Wait) : Bool :=
  let tally := fun (i : Nat) => s.cueSoon fun q => q.action == 1 && q.arg.toNat % 2 ^ 14 == i
  let due := fun (dl : Option (Nat × W64)) => match dl with
    | some (n, v) => s.soon n v
    | none => false
  match w with
  | .tally i _ _ _ dl => tally i || due dl
  | .bar _ _ _ _ dl => due dl
  | .lwrel _ _ dl => (s.cueSoon fun q => q.action == 2 && q.arg.toNat % 256 == c) || due dl
  | .lane n v _ _ => s.soon n v
  | .rcpt _ _ _ _ dl => due dl
  | _ => false

/-- The victim of a swap (R255): the eligible context blocked longest. -/
def swapVictim (s : State) : Option Nat :=
  (bestBy (fun (a b : Nat × Ctx) => decide (a.2.waitFrom < b.2.waitFrom) || (a.2.waitFrom == b.2.waitFrom && decide (a.1 < b.1)))
    (s.ctxs.filter fun e => e.2.stage == .resident && decide (2 ≤ e.2.cls.val) && match swapWait e.2 with
      | some w => !s.endsSoon e.1 w
      | none => false)).map (·.1)

/-- The runnable context that comes in (R255). -/
def swapNext (s : State) : Option (Nat × Ctx) :=
  bestBy (fun (a b : Nat × Ctx) =>
    let k := fun (e : Nat × Ctx) => e.2.cls.val * 16 + (15 - e.2.prio)
    decide (k a < k b) || (k a == k b && decide (a.2.runFrom < b.2.runFrom))) (s.ctxs.filter fun e => runnable e.2)

/-- A swap begins (R254, R256). -/
def swapBegin (s : State) : State :=
  if s.starter.swap.isSome then s else
  match s.swapNext with
  | none => s
  | some (n, x) =>
    let res := s.ctxs.filter fun e => e.2.stage == .resident
    if s.slotFree x.cls.val || res.isEmpty || res.any fun e => (swapWait e.2).isNone || e.2.td.isSome then s else
    match s.swapVictim with
    | none =>
      if x.starved then s
      else (s.incident 0 0x48 n (BitVec.ofNat 64 n)).modCtx n fun x => { x with starved := true }
    | some v =>
      let s := s.modCtx v fun x => { x with stage := .swapOut }
      let s := if x.stage = Stage.escrow then s.modCtx n fun x => { x with stage := .swapIn } else s
      { s with starter := { s.starter with swap := some { victim := v, incoming := n } } }

/-- STARTER_DECISION (R245, R254): operations are placed, and a context in escrow with a slot free comes back. -/
def decide_ (s : State) : State :=
  if !s.flag Reg.START_CTL_EN then s else
  let s := s.settleTiles
  let s := match s.swapNext with
    | some (n, x) => if x.stage = Stage.escrow ∧ s.starter.swap.isNone ∧ s.slotFree x.cls.val then (s.admitCtx n).getD s else s
    | none => s
  s.placeAll.swapBegin

/-- PREEMPT_SAVE_COMPLETE (R249, R265): the victims are saved and the incoming operation starts. -/
def preemptDone (s : State) (p ns : Nat) : State :=
  match s.starter.preempts.find? fun q => q.pos == p with
  | none => s
  | some q =>
    let s : State := { s with starter := { s.starter with preempts := s.starter.preempts.filter (· != q) } }
    let s := q.victims.foldl (fun s v => match s.opOf v.1 v.2 with
      | some o => if o.state = .running ∧ (s.ctx v.1).td.isNone then
          (s.modOp v.1 v.2 fun o => { o with state := .saved }).rise Reg.START_PREEMPT_CNT_COUNT else s
      | none => s) s
    let s := if q.layout = s.field.layout then s else s.setLayout q.layout
    let s := if s.fld Reg.START_PREEMPT_MAX_PREEMPT_NS < ns then
      s.setFld Reg.START_PREEMPT_MAX_PREEMPT_NS (Nat.min ns 0xFFFF) else s
    (match s.opOf q.incoming.1 q.incoming.2 with
      | some o => if o.state = OpState.incoming ∧ (s.ctx q.incoming.1).td.isNone then s.startOn q.incoming.1 o p else s
      | none => s).settleTiles

/-- The victim's image is written (R257): operations are displaced, windows are saved and released, transient and stream claims
end. -/
def swapOutCtx (s : State) (v : Nat) : State :=
  let x := s.ctx v
  let placed : AsyncOp → Bool := fun o => o.unit == .field || o.unit == .gate || o.unit == .sprint
  let s := (x.ops.filter placed).foldl (fun s o => s.endTrans v o.id) s
  let s := s.strmSwapOut v
  let save := match x.swinEng with
    | some e => s.engSpan e (x.swinBase * 64) (x.swinSize * 64)
    | none => []
  let s := s.modCtx v fun x => { x with
    stage := .escrow, pwinPos := none, swinEng := none, swinSave := save
    ops := x.ops.map fun o =>
      if !placed o || o.mn == .ksreflex then o
      else if o.unit = .sprint then (if o.begun && o.state != .postWait then { o with state := .ready, begun := false, pos := none } else o)
      else if o.state = OpState.running ∨ o.state = OpState.incoming then { o with state := if o.begun then .saved else .ready }
      else o }
  ((List.range 81).foldl (fun s k => s.losePage (s.fld Reg.TELLER_ESC_BASE_ADDR + v * 81 + k)) s).bumpFree

/-- A context whose image is lost is torn down with POISONED, PC and VADDR 0 (R258). -/
def imageLost (s : State) (c : Nat) : State :=
  s.faultCtx c { code := 6, imprecise := false, unit := 8, tag := 0, pc := 0, vaddr := 0, lane15 := s.laneVal 15,
                 detail := BitVec.allOnes 64 }

/-- SWAP_COMPLETE (R257, R258). -/
def swapDone (s : State) (lost : Bool) (ns : Nat) : State :=
  match s.starter.swap with
  | none => s
  | some q =>
    let back := (s.ctx q.incoming).stage == .swapIn
    let s := (s.swapOutCtx q.victim).settleTiles
    let s : State := { s with starter := { s.starter with swap := none } }
    let s := s.rise Reg.START_SWAP_CNT_COUNT
    let s := if s.fld Reg.START_PREEMPT_MAX_SWAP_NS < ns / 10 then
      s.setFld Reg.START_PREEMPT_MAX_SWAP_NS (Nat.min (ns / 10) 0xFFFF) else s
    let s := if back then s.modCtx q.incoming fun x => { x with stage := .escrow } else s
    if (s.ctx q.incoming).stage = .undefined ∨ (s.ctx q.incoming).td.isSome then s
    else if back && lost then s.imageLost q.incoming
    else (s.admitCtx q.incoming).getD s

/-! ### Regulators and budgets (R259 to R261) -/

/-- REGULATOR_REFILL (R259). -/
def refill (s : State) : State :=
  if !s.flag Reg.START_CTL_EN || !reached (s.laneVal 15) s.starter.refillAt then s else
  let up := fun (s : State) (on : Bool) (k rate burst : Nat) =>
    if on then ({ s with starter := { s.starter with
      buckets := mset (fun _ => 0) s.starter.buckets k (Min.min (mget (fun _ => (0 : Int)) s.starter.buckets k + (rate : Int)) (burst : Int)) } } : State) else s
  let s := (List.range 7).foldl (fun s p =>
    let s := up s (s.flag (Reg.START_RCFG_VAULT_EN p)) (2 * p) (s.fld (Reg.START_RVAULT_RATE p)) (s.fld (Reg.START_RVAULT_BURST p))
    let s := up s (s.flag (Reg.START_RCFG_EXT_EN p)) (2 * p + 1) (s.fld (Reg.START_REXT_RATE p)) (s.fld (Reg.START_REXT_BURST p))
    if s.starter.stalled.contains p then s.rise (Reg.START_RSTALL_WINDOWS p) else s) s
  { s with starter := { s.starter with stalled := [], refillAt := s.starter.refillAt + BitVec.ofNat 64 (1000 * 2 ^ 32) } }

/-- BUDGET_OVERRUN (R261): once per job. -/
def budgetOver (s : State) (b : Nat) : State :=
  let c := s.fld (Reg.START_BCFG_CONTEXT b)
  if !s.flag (Reg.START_BCFG_EN b) || !(s.ctx c).job || s.starter.overrun.contains b
      || decide (mget (fun _ => 0) s.starter.charge b ≤ s.fld (Reg.START_BLIMIT_LIMIT b)) then s else
  let a := s.fld (Reg.START_BCFG_ACTION b)
  let s : State := { s with starter := { s.starter with overrun := b :: s.starter.overrun } }
  let s := s.incident 11 0x48 c (BitVec.ofNat 64 (256 * a + b))
  let s := (s.setFld (Reg.START_BSTAT_OVERRUN b) 1).bump (Reg.START_BCNT_OVERRUNS b)
  match a with
  | 1 => s.modCtx c fun x => { x with demoted := true }
  | 2 => s.faultCtx c { code := 0x0C, imprecise := false, unit := 8, tag := 0, pc := (s.ctx c).pc, vaddr := 0,
                        lane15 := s.laneVal 15, detail := BitVec.ofNat 64 b }
  | _ => s

end State

open State

/-- DEFINE (R241). -/
def execDefine (r : Requester) (s : State) : Host.Outcome State Fault Refusal :=
  .next (s.permit r 3 Reg.START_CTX_CMD (defineCtx r))

/-- KILL (R263). -/
def execKill (r : Requester) (s : State) : Host.Outcome State Fault Refusal :=
  .next (s.permit r 3 Reg.START_CTX_CMD (killCtx r))

/-- START_CTX_READ (R241). -/
def execStartCtxRead (r : Requester) (s : State) : Host.Outcome State Fault Refusal :=
  .next (s.permit r 3 Reg.START_CTX_CMD (readCtx r))

/-- START_CTL_WRITE (R243). -/
def execStartCtlWrite (r : Requester) (v : W32) (s : State) : Host.Outcome State Fault Refusal :=
  .next (s.permit r 3 Reg.START_CTL (startCtl v))

/-- CONTEXT_RESIDENT (R242). -/
def execContextResident (c : CtxId) (s : State) : Host.Outcome State Fault Refusal := .next (s.clocked fun s => s.ctxResident c.val)

/-- STARTER_DECISION (R245). -/
def execStarterDecision (s : State) : Host.Outcome State Fault Refusal := .next (s.clocked fun s => s.decide_)

/-- PREEMPT_SAVE_COMPLETE (R249). -/
def execPreemptSaveComplete (p : Fin 7) (ns : BitVec 32) (s : State) : Host.Outcome State Fault Refusal :=
  .next (s.clocked fun s => s.preemptDone p.val ns.toNat)

/-- SWAP_COMPLETE (R257). -/
def execSwapComplete (lost : Bool) (ns : BitVec 32) (s : State) : Host.Outcome State Fault Refusal :=
  .next (s.clocked fun s => s.swapDone lost ns.toNat)

/-- REGULATOR_REFILL (R259). -/
def execRegulatorRefill (s : State) : Host.Outcome State Fault Refusal := .next (s.clocked fun s => s.refill)

/-- BUDGET_OVERRUN (R261). -/
def execBudgetOverrun (b : Fin 64) (s : State) : Host.Outcome State Fault Refusal := .next (s.budgetOver b.val)

end Sys2Proof.Machine
end

