-- ==== Sys2Proof/Machine/Teardown.lean ====
section
/-!
DEFINITION. The teardown of a context (R263): its operations are abandoned, its record is written, its resources end.
-/

namespace Sys2Proof.Machine

open Sys2Proof

namespace State

/-- The fault record (Table 3-6). -/
def faultBytes (c : Nat) (x : Ctx) (f : FaultInfo) : List Byte :=
  toBytes 8 (f.code % 256 + 2 ^ 8 * b2n f.imprecise + 2 ^ 16 * (f.unit % 16) + 2 ^ 24 * (x.faultCount % 256) + 2 ^ 32 * (c % 256)
      + 2 ^ 40 * (x.marshal % 256) + 2 ^ 48 * (f.tag % 65536))
    ++ toBytes 8 f.pc.toNat ++ toBytes 8 f.vaddr.toNat ++ toBytes 8 f.lane15.toNat ++ toBytes 8 f.detail.toNat ++ toBytes 24 0

/-- The address of a context's record or fault Receipt, and whether its page is under a move. -/
def recAt (s : State) (c : Nat) (va : W64) (write : Bool) : Option (Nat × Bool) := match s.check c va write false false with
  | .ok pa => some (pa, s.movingAt pa)
  | .fault _ _ _ => none

/-- An operation is abandoned (R263, step 2). A kftrack stops between two entries, and EGO is wholly old or new (13). -/
def abandon (s : State) (c : Nat) (o : AsyncOp) : State :=
  let run : Bool := o.state == .running || o.state == .saved || o.state == .incoming
  let mine := fun (r : Option FRun) => r.filter fun x => x.ctx == c && x.id == o.id
  if !run then s else
  match o.mn with
  | .kftrack => (match mine s.fusion.tracker with
    | some r => (s.trackStop c (kinOf o) r).bumpFree
    | none => s)
  | .kfego =>
    if (mine s.fusion.xform).isSome then
      let t := if Config.freeBit s.freeCtr 1 then (s.fEgo c (kinOf o)).2.st else s
      t.leaveOpen c o
    else s
  | .kfxform => if (mine s.fusion.xform).isSome then s.leaveOpen c o else s
  | _ =>
    let begun := match o.unit with
      | .hurdle => s.hurdle.runs.any fun h => h.ctx == c && h.id == o.id
      | _ => o.begun
    if begun then s.leaveOpen c o else s

/-- Steps 1 and 2: the context issues no more, and its operations are abandoned. -/
def dropOps (s : State) (c : Nat) : State :=
  let ops := (s.ctx c).ops
  let s := ops.foldl (fun s o => s.abandon c o) s
  let s := ops.foldl (fun s o => (s.dropRuns c o.id).endTrans c o.id) s
  let s := s.modCtx c fun x => { x with ops := [] }
  { s with teller := { s.teller with moves := s.teller.moves.filter fun m => !(m.ctx == c && !m.inFlight) } }

/-- Step 4: the fault record and the fault Receipt (R89). -/
def writeRecord (s : State) (c : Nat) : State :=
  let x := s.ctx c
  match x.td, x.fault with
  | some .fault, some f =>
    let s := match s.recAt c x.frec true with
      | some (pa, _) => (s.agentWrite pa (faultBytes c x f)).mirror c x.frec pa (faultBytes c x f)
      | none => s
    (match s.recAt c x.frcpt false with
      | some (pa, _) => s.postFault pa c
      | none => s)
  | _, _ => s

/-- Step 6: what else the context holds ends. -/
def dropRest (s : State) (c : Nat) : State :=
  let off : Nat × Cue → Nat × Cue := fun e => if e.2.owner = some c then (e.1, { e.2 with armed := false }) else e
  let s : State := { s with lanes := { s.lanes with cues := s.lanes.cues.map off } }
  let s := (s.strmTeardown c).rxTeardown c
  let s := (List.range 16).foldl (fun s n =>
    if s.flag (Reg.TELLER_POOL_CFG_EN n) && s.fld (Reg.TELLER_POOL_CFG_CONTEXT n) == c then s.poolEnd n else s) s
  let s := (s.paceStop c).endClaims c
  let s := s.releaseHolds fun _ p => match p with
    | .op d _ => d == c
    | .unit _ _ => false
  let s : State := { s with field := { s.field with purse := s.field.purse.filter fun e => e.1 != c } }
  (List.range 64).foldl (fun s b => if s.fld (Reg.START_BCFG_CONTEXT b) == c then s.setFld (Reg.START_BCFG_EN b) 0 else s) s

/-- The teardown, steps 1 to 7. -/
def teardown (s : State) (c : Nat) : State :=
  let s := (s.dropOps c).writeRecord c
  let s := ((s.jobEnd c).tallyTeardown c).dropRest c
  (s.setCtx c {}).settleTiles.pump

/-- CONTEXT_TEARDOWN (R263): once accepted page moves and a khmap in progress have completed, and no swap of the context is in
progress. A record whose page is under a move waits for it. -/
def ctxTeardown (s : State) (c : Nat) : State :=
  let x := s.ctx c
  let busy := s.teller.moves.any (fun m => m.ctx == c && m.inFlight)
    || s.hurdle.runs.any (fun h => h.ctx == c && s.isMapRun h)
    || x.stage == .swapOut || x.stage == .swapIn
    || (match s.recAt c x.frec true with | some (_, m) => m | none => false)
    || (match s.recAt c x.frcpt false with | some (_, m) => m | none => false)
  if x.stage = .undefined ∨ x.td.isNone ∨ busy then s else s.teardown c

end State

open State

/-- CONTEXT_TEARDOWN (R263). -/
def execContextTeardown (c : CtxId) (s : State) : Host.Outcome State Fault Refusal := .next (s.clocked fun s => s.ctxTeardown c.val)

end Sys2Proof.Machine
end

