-- ==== Sys2Proof/Machine/Reset.lean ====
section
/-!
DEFINITION. Yielding the duty (R411, R412), and the resets of the Swejan die: the safe-state reset and its restart (R23, R400,
R462, R463) and what a power-on reset of the die loses (R22).
-/

namespace Sys2Proof.Machine

open Sys2Proof

namespace State

/-! ### The pair's side of a change of duty (R408 to R412) -/

/-- A context that checkpoints cover: LOOP or SAFETY, and named in RELAY_CTX_MASK (Table 17-1). -/
def covered (s : State) (c : Nat) : Bool := s.defined c && decide ((s.ctx c).cls.val < 2) && s.ctxMasked c

/-- A masked context that is not defined makes the standby leave SYNCED (R408). -/
def pairCheck (s : State) : State :=
  if s.isStandby && s.fld Reg.RELAY_PAIR_STAT_STATE == 2 && (List.range 256).any fun c => s.ctxMasked c && !s.defined c then
    (s.setFld Reg.RELAY_PAIR_STAT_STATE 1).setFld Reg.RELAY_PAIR_STAT_CTX_ERR 1
  else s

/-- The force bits that the pair logic holds are set (R409). -/
def holdForce (s : State) : State :=
  (List.range 12).foldl (fun s b => if s.pairForced b then s.setForce b 63 else s) s

/-- The module becomes standby, in state SYNCING: it holds its bridges off, its launch slots are muted, and its masked
contexts lie in escrow (R408, R409, R412). -/
def becomeStandby (s : State) : State :=
  let s := ((s.setFld Reg.RELAY_PAIR_STAT_DUTY 0).setFld Reg.RELAY_PAIR_STAT_STATE 1).holdForce
  (s.ctxIds.filter s.covered).foldl (fun s c => match (s.ctx c).stage with
    | .waiting => s.modCtx c fun x => { x with stage := .escrow }
    | .resident => s.swapOutCtx c
    | _ => s) s

/-- The link a YIELD goes over: ALT_LINK while the pair link trains (R420). -/
def yieldLink (s : State) : Nat :=
  if s.fld (Reg.RELAY_LINK_STAT_STATE s.pairLink) < 2 ∧ s.flag Reg.RELAY_PAIR_CFG_ALT_EN then s.fld Reg.RELAY_PAIR_CFG_ALT_LINK
  else s.pairLink

/-- The duty module yields, when its partner is SYNCED (R411, R412). -/
def yieldDuty (s : State) : State :=
  if !(s.isDuty && s.fld Reg.RELAY_PAIR_STAT_STATE == 2) then s else
  let s := (s.becomeStandby.relayOut s.yieldLink (.yield s.yieldLink)).bump Reg.RELAY_FAILOVER_CNT_YIELDS
  { s with relay := { s.relay with handover := false, yieldIn := false, take := false } }

/-- A yield on cause JUDGE_FAULT or LOCKOUT (R411). -/
def yieldJudge (s : State) : State := if s.flag Reg.RELAY_PAIR_CFG_YIELD_JUDGE then s.yieldDuty else s

/-! ### The compute domain is reset (R23, R22) -/

/-- The block of control space a key belongs to, staged copies included (R35). -/
def keyBlock (k : Nat) : Nat := k % 0x100000 / 0x10000

/-- A register that a safe-state reset resets: the blocks of the compute domain, but for the regions of the Teller and its
NAND channels (R240), and FIELD_GEOM (05); the channels of a Relay group (17); the cameras (R22). -/
def resetKey (k : Nat) : Bool :=
  let o := k % 0x100000
  let b := keyBlock k
  if b = 4 then decide (0x100000 ≤ k) || !(decide (o < 0x40040) && o != Reg.TELLER_CTL && o != Reg.TELLER_STAT
    || o == Reg.TELLER_NAND_CH)
  else if b = 5 then o != Reg.FIELD_GEOM
  else if b = 12 then decide (0xC0400 ≤ o) && decide (o < 0xC0600)
  else if b = 14 then decide (0xE2000 ≤ o) && decide (o < 0xE2200)
  else b == 2 || b == 6 || b == 7 || b == 9 || b == 10

/-- A page through the reset of the Teller (R240): a POISONED mark and the flash map are kept; a menter in progress leaves the
page wholly old or wholly new. -/
def pageReset (g : Page) : Page :=
  { state := if g.state = .poisoned then .poisoned else .home, entries := g.entries }

/-- The menters in progress: each leaves its page old or new (R230, R240). -/
def settleMenters (s : State) : State :=
  (s.teller.moves.filter fun m => m.started && m.kind == .enter).foldl (fun s m =>
    if Config.freeBit s.freeCtr m.page then
      let s : State := m.data.foldl (fun (s : State) e => s.setHome (65536 * m.page + e.1) e.2) s
      s.modPage m.page fun g => { g with entries := s.nandUp m.page }
    else s) s

/-- A copy or fill in progress leaves the DRAM page it writes open (R240). -/
def settleCopies (s : State) : State :=
  (s.teller.moves.filter fun m => m.started && (m.kind == .copy || m.kind == .fill)).foldl (fun s m =>
    if (s.page m.page).state = .poisoned then s else s.losePage m.page) s

/-- The compute and cores domains are reset: contexts are torn down without a record, the Vault and every unit of the domain
lose what they hold (R23, R240, R266, R336; 05, 06, 08). -/
def resetCompute (s : State) : State :=
  let s := s.ctxIds.foldl (fun s c => s.modCtx c fun x => { x with td := some .ssr, fault := none }) s
  let s := s.ctxIds.foldl (fun s c => s.teardown c) s
  let s := s.settleMenters.settleCopies
  let s := s.releaseHolds fun _ p => match p with
    | .unit _ _ => true
    | .op _ _ => false
  let field : FieldUnit := { s.field with layout := 0, purse := [], residues := [] }
  let s := s.dropOverlay
  let s : State :=
    { s with
      regs := s.regs.filter fun e => !resetKey e.1
      teller := { pages := s.teller.pages.map fun e => (e.1, pageReset e.2) }
      field := field, starter := {}, fusion := {}, hurdle := {}, stream := {}, sprint := {}
      port := { s.port with cams := [] }
      judge := { s.judge with frags := [] }
      boot := { s.boot with computeReset := true } }
  let s : State := { s with teller := { s.teller with pages := s.teller.pages.filter fun e => e.2 != ({} : Page) } }
  let s := ((List.range 16).filter fun n => s.laneSrc n == 1).foldl gptpHoldover s
  s.loseVault.bumpFree

/-! ### The safe-state reset (R462, R463) -/

/-- A safe-state reset begins: cause 1 LEMQUEVIN, 2 SOFTWARE, 3 ACTIVATE. -/
def ssrBegin (s : State) (cause r : Nat) : State :=
  let s := if s.flag Reg.RELAY_PAIR_CFG_YIELD_SSR then s.yieldDuty else s
  let s := (s.resetCompute).enterHold 1
  let s := ((s.setFld Reg.SYS_START_STAGE 7).setFld Reg.SYS_START_RESTART 1).setFld Reg.SYS_RESET_STAT_BUSY 1
  let s := (s.setFld Reg.SYS_RESET_STAT_LAST_CAUSE cause).setFld Reg.SYS_RESET_STAT_REQUESTER (if cause = 1 then 0 else r)
  let s := (s.rise Reg.SYS_SSR_COUNT_ALL).setReg Reg.SYS_SSR_TIME s.uptime
  { s with boot := { s.boot with ssrTime := s.uptime } }

/-- The module is READY, and no restart runs. -/
def isReady (s : State) : Bool := s.fld Reg.SYS_START_STAGE == 0xF && s.boot.porHigh

/-- SYS_RESET_CMD SSR: refused before READY and during a restart (R462). -/
def ssrCmd (r : Nat) (s : State) : State :=
  if s.isReady then s.ssrBegin 2 r else s.setFld Reg.SYS_RESET_STAT_ERR 1

/-- SSR_REQ_N (R382, R402): ignored before READY of a power-on start; during a restart it begins again. -/
def ssrReqN (s : State) : State :=
  if s.isReady || s.flag Reg.SYS_START_RESTART then s.ssrBegin 1 0 else s

/-! ### READY of a restart (R400, R401, R454) -/

/-- START_CTL and START_SAVE_CFG as start-up firmware writes them, and the Teller and the Starter enabled (R266, Table 16-2). -/
def enableWork (s : State) (save ctl : W32) : State :=
  let s := (s.setFld Reg.TELLER_CTL_EN 1).setReg Reg.START_SAVE_CFG ((save.setWidth 64) &&& 0x07FF07FF)
  (s.startCtl (ctl ||| 1)).pump

/-- FAILED (R385): the code of Table 20-2 and its detail. -/
def failStart (s : State) (code detail : Nat) : State :=
  ((s.setFld Reg.SYS_START_STAGE 0xE).setFld Reg.SYS_START_FAIL code).note 2 0x81 (BitVec.ofNat 64 (256 * (detail % 65536) + code))

/-! ### The saved settings (R395) -/

/-- The copy of the saved settings in use: the newer one whose SERIAL is the Mint's. -/
def saved (s : State) : Option Saved :=
  let ok := fun (x : Option Saved) => x.filter fun v => v.serial == s.boot.mint.serial
  (ok s.boot.savedNew).orElse fun _ => ok s.boot.savedOld

/-- The registers that show the saved settings. -/
def showSaved (s : State) : State :=
  let n := (s.saved.map fun v => v.learned.length).getD 0
  ((s.setFld Reg.SYS_START_LEARNED n).setFld Reg.SYS_MINT_STAT_LEARNED n).setFld Reg.SYS_START_COLD_NEXT
    (b2n (s.boot.coldSet || (s.saved.map (·.coldNext)).getD false))

/-- A write of the saved settings goes to the older copy. -/
def putSaved (s : State) (v : Saved) : State :=
  let old := if s.boot.savedNew.isSome then s.boot.savedNew else s.boot.savedOld
  ({ s with boot := { s.boot with savedNew := some v, savedOld := old } } : State).showSaved

/-- RESTART_READY (R400, R401): once the stopped clocks may run again and the core PLL has lock. A shadow section that fails its
CRC makes the restart read the boot NOR. -/
def restartReady (s : State) (shadowBad : Option W16) (save ctl : W32) : State :=
  if !s.flag Reg.SYS_START_RESTART || s.power.unlocked.contains 0 then s else
  let temp := sext 8 (s.fld Reg.PWR_THERM_TEMP_C)
  let hot := Nat.min (Nat.max (s.fld Reg.PWR_THERM_HOT_C) 85) 110
  if s.flag Reg.PWR_STAT_THERM_TRIP ∧ (hot : Int) ≤ temp then s else
  let s := s.setFld Reg.PWR_STAT_THERM_TRIP 0
  let s := (s.setFld Reg.SYS_START_RESTART 0).setFld Reg.SYS_RESET_STAT_BUSY 0
  match (if shadowBad.isSome ∨ s.boot.shadow.isNone then s.boot.nor.badSections.head? else none) with
  | some sec => s.failStart 2 sec
  | none =>
    let s := match shadowBad with
      | some sec => s.note 7 0x81 (sec.setWidth 64)
      | none => s
    let img := if shadowBad.isSome then s.boot.nor else s.boot.shadow.getD s.boot.nor
    let s : State := { s with boot := { s.boot with computeReset := false, shadow := some img } }
    let s := s.setReg Reg.SYS_FW_VER (img.ver.setWidth 64)
    let s := if s.fld Reg.RELAY_IMG_STAT_STATE = 3 then
        let s := s.setFld Reg.RELAY_IMG_STAT_STATE 0
        match s.saved with
        | some v => s.putSaved { v with fwVer := img.ver }
        | none => s
      else s
    let dur := (s.uptime - s.boot.ssrTime).toNat
    let s := (s.setFld Reg.SYS_SSR_DUR_ALL (dur / 1000)).setFld Reg.SYS_START_STAGE 0xF
    let s := s.enableWork save ctl
    s.note 8 0x81 (BitVec.ofNat 64 (2 ^ 32 * (dur / 1000000 % 2 ^ 32) + 2 + b2n (s.flag Reg.SYS_START_PATH)))

/-! ### A power-on reset of the die (R22, R382) -/

/-- SWJ_POR_N is low: the whole Swejan die but the always-on fabric is in power-on reset. -/
def swjPor (s : State) : State :=
  let s := s.resetCompute.loseDram
  let s : State :=
    { s with
      regs := s.regs.filter fun e => let b := keyBlock e.1
                                     !(b == 4 || b == 5 || b == 14 || b == 15)
      teller := { pages := (s.teller.pages.map fun e => (e.1, { ({} : Page) with entries := e.2.entries })).filter fun e => e.2 != ({} : Page) }
      field := {}, port := {}, power := { s.power with samples := [], step := 0, overAt := none, limit := 180, peakC := none }
      boot := { s.boot with porHigh := false, tested := false, tilesFail := [], enginesFail := [], enginesOut := []
                            enginesStart := [], voxelFail := false, trackerFail := false, dramCh := 0, shadow := none } }
  let s := (List.range 4).foldl (fun s l => s.setReg (Reg.RELAY_LINK_STAT l) 0) s
  (s.islandToReset).bumpFree

end State

open State

/-- SSR (R462). -/
def execSsr (r : Requester) (s : State) : Host.Outcome State Fault Refusal :=
  .next (s.permit r 9 Reg.SYS_RESET_CMD (ssrCmd r.val))

/-- SSR_REQ_N (R382, R402). -/
def execSsrReqN (s : State) : Host.Outcome State Fault Refusal := .next s.ssrReqN

end Sys2Proof.Machine
end

