-- ==== Sys2Proof/Machine/Judge.lean ====
section
/-!
DEFINITION. The Judge (15): its configuration, judged outputs and verdicts, the safe state, STO and SS1, the inputs on J3,
task supervision, Audits, and the cross-die link.
-/

namespace Sys2Proof.Machine

open Sys2Proof

/-! ### Words of a judged output (R359) -/

/-- A word of an output as a value: FP32, or the content of a Q32 word. -/
def jVal (q : Bool) (w : W32) : FV := if q then .fin w.toInt else f32Of w.toNat

/-- |a - b| ≤ band + rel * |b|, evaluated exactly. A band that is NaN holds nothing, an infinite one everything. -/
def jWithin (a b band rel : FV) : Bool :=
  if !a.isFin || !b.isFin || band == .nan || rel == .nan then false
  else if !band.isFin then !fvNeg band
  else if !rel.isFin then !fvNeg rel
  else decide (((fvVal a - fvVal b).natAbs : Int) * one300 ≤ fvVal band * one300 + fvVal rel * ((fvVal b).natAbs : Int))

/-- a ≤ b. -/
def jLe (a b : FV) : Bool :=
  match a, b with
  | .nan, _ => false
  | _, .nan => false
  | .inf n, b => n || b == .inf false
  | a, .inf n => !n || a == .inf true
  | a, b => decide (fvVal a ≤ fvVal b)

namespace State

/-! ### Parts of the Judge -/

/-- Change the Judge. -/
def modJ (s : State) (f : JudgeUnit → JudgeUnit) : State := { s with judge := f s.judge }

/-- A judged output. -/
def jout (s : State) (o : Nat) : JOut := mget (fun _ => {}) s.judge.outs o

/-- Change a judged output. -/
def modJout (s : State) (o : Nat) (f : JOut → JOut) : State :=
  s.modJ fun j => { j with outs := mset (fun _ => {}) j.outs o (f (s.jout o)) }

/-- A field of a judged output's entry (Table 15-1). -/
def outNat (s : State) (o off n : Nat) : Nat := s.cfgNat (0x1000 + 0x100 * o + off) n

/-- Word k of a row of an entry. -/
def outWord (s : State) (o off k : Nat) : W32 := BitVec.ofNat 32 (s.outNat o (off + 4 * k) 4)

/-- The configuration enables an output. -/
def outEn (s : State) (o : Nat) : Bool := s.judge.cfgValid && bitAt (s.outNat o 0 1) 0

/-- The enabled outputs. -/
def outsOn (s : State) : List Nat := (List.range 128).filter s.outEn

/-- FMT is Q32. -/
def outQ (s : State) (o : Nat) : Bool := bitAt (s.outNat o 0 1) 1

/-- WORDS. -/
def outWords (s : State) (o : Nat) : Nat := Nat.min (s.outNat o 1 1) 8

/-- The group of an output. -/
def outGroup (s : State) (o : Nat) : Nat := s.outNat o 7 1 % 4

/-- An output has a guard model. -/
def outGuarded (s : State) (o : Nat) : Bool := s.outNat o 3 1 != 0xFF

/-- A field of a group (Table 15-5): SS1_MS at 0, FB_MODE at 2, ESTOP_CAT at 3, ENABLE_CAT at 4, ENABLE_AUTO at 5. -/
def groupNat (s : State) (g off n : Nat) : Nat := s.cfgNat (0x020 + 8 * g + off) n

/-- A task's field (R363). -/
def taskNat (s : State) (t off n : Nat) : Nat := s.cfgNat (0x0800 + 0x10 * t + off) n

/-- The Lemquevin die runs. -/
def judgeOn (s : State) : Bool := s.boot.guardBooted

/-! ### The configuration (R378) -/

/-- A value lies in a range. -/
def inRange (lo hi v : Nat) : Bool := decide (lo ≤ v) && decide (v ≤ hi)

/-- The global fields of a configuration record lie in their ranges (Table 15-5). -/
def globalsOk (get : Nat → Nat → Nat) : Bool :=
  inRange 20 1000 (get 0x004 2) && inRange 0 1000 (get 0x006 2) && inRange 160 5000 (get 0x008 2) && inRange 1 15 (get 0x00A 1)
    && inRange 10 200 (get 0x00B 1) && inRange 1000 5000 (get 0x00C 2) && inRange 2000 50000 (get 0x00E 2)
    && decide (2 * get 0x00C 2 ≤ get 0x00E 2) && ((List.range 12).all fun b => decide (get (0x010 + b) 1 < 4))
    && ((List.range 4).all fun g => inRange 10 10000 (get (0x020 + 8 * g) 2)
      && ((List.range 4).all fun k => decide (get (0x022 + 8 * g + k) 1 < 2)))
    && inRange 0 1000 (get 0x040 2)

/-- An output's entry, when it is enabled (Table 15-1). -/
def entryOk (get : Nat → Nat → Nat) (o : Nat) : Bool :=
  let f := fun (off n : Nat) => get (0x1000 + 0x100 * o + off) n
  !bitAt (f 0 1) 0 || (inRange (if f 8 1 = 2 then 2 else 1) 8 (f 1 1) && decide (f 2 1 < 16) && (decide (f 3 1 < 64) || f 3 1 == 0xFF)
    && inRange 1 (f 5 1) (f 4 1) && inRange 1 64 (f 5 1) && inRange 1 255 (f 6 1) && decide (f 7 1 < 4) && decide (f 8 1 < 4)
    && decide (f 9 1 < 16) && decide (f 0x28 4 < 8))

/-- A task's entry, when it is enabled (R363). -/
def taskOk (get : Nat → Nat → Nat) (t : Nat) : Bool := !bitAt (get (0x800 + 0x10 * t) 1) 0 || decide (get (0x801 + 0x10 * t) 1 < 16)

/-- A record passes: its CRC-32 stands behind it, and every field lies in its range (R378). -/
def cfgOk (m : Map Byte) : Bool :=
  let get := fun (a n : Nat) => ofBytes ((List.range n).map fun i => mget (fun _ => (0 : Byte)) m (a + i))
  let rec_ := (List.range 36864).map fun i => mget (fun _ => (0 : Byte)) m i
  (crc32 rec_).toNat == get 36864 4 && globalsOk get && (List.range 128).all (entryOk get) && (List.range 32).all (taskOk get)

/-- A configuration takes effect: every output begins anew. -/
def cfgApply (m : Map Byte) (j : JudgeUnit) : JudgeUnit :=
  { j with cfg := m, cfgValid := true
           cfgCrc := BitVec.ofNat 32 (ofBytes ((List.range 4).map fun i => mget (fun _ => (0 : Byte)) m (36864 + i)))
           outs := (List.range 128).map fun o => (o, { ({} : JOut) with rejoined := true })
           tasks := [] }

/-- The Lemquevin die boots: every group in STO, the configuration loaded from its NOR (R378, R383). -/
def judgeBoot (keep : JudgeUnit → JudgeUnit) (s : State) : State :=
  let nor := s.judge.nor
  let j : JudgeUnit := { ({} : JudgeUnit) with
    nor := nor, stage := nor, lastAlive := s.uptime, lastTo := s.uptime, lastFrom := s.uptime, sportAt := s.uptime
    demandAt := (List.range 4).map fun g => (g, s.uptime)
    estopA := s.judge.estopA, estopB := s.judge.estopB, enableA := s.judge.enableA, enableB := s.judge.enableB }
  let j := keep (if cfgOk nor then cfgApply nor j else j)
  ({ s with judge := j, island := { s.island with stopLine := 15 }, boot := { s.boot with guardBooted := true } } : State).settleSto

/-! ### Causes (R364) -/

/-- The last safe-state cause (JUDGE_CAUSE). -/
def recordCause (s : State) (code idx : Nat) : State :=
  s.modJ fun j => { j with cause := BitVec.ofNat 64 (2 ^ 32 * ((s.laneVal 15).toNat / 2 ^ 32) + 2 ^ 16 * (idx % 256) + code) }

/-- A cause that stands until it is taken away. -/
def standCause (s : State) (code idx : Nat) (latched : Bool) : State :=
  s.modJ fun j => { j with causes := j.causes.filter (fun c => c.code != code) ++ [⟨code, idx, 15, latched⟩] }

/-- A standing cause ends. -/
def endCause (s : State) (code : Nat) : State := s.modJ fun j => { j with causes := j.causes.filter fun c => c.code != code }

/-- A standing cause. -/
def hasCause (s : State) (code : Nat) : Bool := s.judge.causes.any fun c => c.code == code

/-- Hours since a group was demanded into STO exceed STO_TEST_H (R381). -/
def stoOverdue (s : State) (g : Nat) : Bool :=
  let h := s.cfgNat 0x040 2
  h != 0 && decide (3600000000000 * h < (s.uptime - mget (fun _ => 0) s.judge.demandAt g).toNat)

/-! ### STO and SS1 (R367 to R371) -/

/-- STO in the groups of a mask, on both channels (R368). -/
def stoNow (s : State) (mask : Nat) : State :=
  let m := mask % 16
  let s := s.modJ fun j => { j with
    cmd := j.cmd ||| m, ss1 := j.ss1 &&& (15 - m), enableStop := j.enableStop &&& (15 - m)
    demandAt := (List.range 4).foldl (fun a g => if bitAt m g then mset (fun _ => 0) a g s.uptime else a) j.demandAt }
  let s : State := { s with island := { s.island with stopLine := s.island.stopLine ||| m } }
  (s.modJ fun j => { j with stoTestDue := j.stoTestDue && (List.range 4).any s.stoOverdue }).settleSto

/-- SS1 in the groups of a mask that are not in STO (R371). -/
def ss1Begin (s : State) (mask : Nat) : State :=
  let m := mask % 16 &&& (15 - s.judge.cmd) &&& (15 - s.judge.ss1)
  s.modJ fun j => { j with
    ss1 := j.ss1 ||| m, enableStop := j.enableStop &&& (15 - mask % 16)
    ss1At := (List.range 4).foldl (fun a g => if bitAt m g then mset (fun _ => 0) a g s.uptime else a) j.ss1At }

/-- The reaction of a cause that acts per group: STO where the category is 0, SS1 where it is 1. -/
def groupReact (s : State) (off : Nat) : State :=
  (List.range 4).foldl (fun s g => if s.groupNat g off 1 = 0 then s.stoNow (2 ^ g) else s.ss1Begin (2 ^ g)) s

/-- A latched cause that puts every group into STO. -/
def latchSto (s : State) (code idx : Nat) : State := ((s.recordCause code idx).standCause code idx true).stoNow 15

/-! ### Fall-back (R365, R366) -/

/-- Every output stops accepting main frames, and its window is cleared (R361, R365). -/
def unjoin (s : State) : State :=
  s.modJ fun j => { j with outs := j.outs.map fun e => (e.1, { e.2 with rejoined := false, run := 0, flags := [] }) }

/-- LOCKOUT (R366). -/
def lockout (s : State) : State :=
  let s := ((s.recordCause 0x0C 0).standCause 0x0C 0 true).ss1Begin 15
  (s.modJ fun j => { j with lockout := true, entries := [] }).yieldJudge

/-- A fall-back cause (R365): an entry each. -/
def fallbackEnter (s : State) (code idx : Nat) : State :=
  let s := (s.recordCause code idx).unjoin
  let recent := s.uptime :: s.judge.entries.filter fun t => decide ((s.uptime - t).toNat ≤ 600000000000)
  let s := s.modJ fun j => { j with fallback := true, fbAt := s.uptime, entries := recent }
  let s := (s.enterHold 2)
  let s := if s.island.reset || !s.present 5 then s else s.setFld Reg.ISLAND_STAT_FALLBACK 1
  let s := if s.isReady then s.ssrBegin 1 0 else s
  let s := (List.range 4).foldl (fun s g => if s.groupNat g 2 1 = 1 then s.ss1Begin (2 ^ g) else s) s
  if s.cfgNat 0x00A 1 ≤ recent.length ∧ s.judge.cfgValid then s.lockout else s

/-- The Judge leaves fall-back once every enabled output has rejoined (R365). -/
def fallbackLeave (s : State) : State :=
  if s.judge.fallback && s.isReady && s.outsOn.all fun o => (s.jout o).rejoined then
    let s := (s.modJ fun j => { j with fallback := false }).endCause 0x0E
    if s.island.reset || !s.present 5 then s else s.setFld Reg.ISLAND_STAT_FALLBACK 0
  else s

/-! ### Verdicts (R358 to R361) -/

/-- An incident counted on the Lemquevin die: while the link is lost it waits (R465). -/
def jIncident (s : State) (n : Nat) (d : W64) : State :=
  if s.judge.linkUp then s.incident n 0x80 0x100 d else s.modJ fun j => { j with incs := j.incs ++ [(n, d)] }

/-- A main value agrees with a guard value, or with the ranges where there is no guard (R359). -/
def agrees (s : State) (o : Nat) (m : List W32) (g : Option (List W32)) : Bool :=
  let q := s.outQ o
  (List.range (s.outWords o)).all fun k =>
    let v := jVal q (m.getD k 0)
    match g with
    | some g => jWithin v (jVal q (g.getD k 0)) (jVal q (s.outWord o 0x40 k)) (if q then .fin 0 else f32Of (s.outNat o 0x30 4))
    | none =>
      jLe (jVal q (s.outWord o 0x80 k)) v && jLe v (jVal q (s.outWord o 0xA0 k)) && match (s.jout o).lastAgreed with
        | some l => jWithin v (jVal q (l.getD k 0)) (jVal q (s.outWord o 0xC0 k)) (.fin 0)
        | none => true

/-- A hard disagreement of a main value (R359). -/
def isHard (s : State) (o : Nat) (m : List W32) (g : Option (List W32)) : Bool :=
  let q := s.outQ o
  let mask := s.outWord o 0x2C 0
  (m.getD (s.outNat o 0x28 4) 0 &&& mask) != mask || (List.range (s.outWords o)).any fun k =>
    let v := jVal q (m.getD k 0)
    !v.isFin || match g with
      | some g => !jWithin v (jVal q (g.getD k 0)) (jVal q (s.outWord o 0x60 k)) (.fin 0)
      | none => !s.outGuarded o && !(jLe (jVal q (s.outWord o 0x80 k)) v && jLe v (jVal q (s.outWord o 0xA0 k)))

/-- The value that stands in for a main value: the guard's, else the last agreed, else SAFE_VALUE (R360). -/
def standIn (s : State) (o : Nat) (g : Option (List W32)) : Verdict × List W32 :=
  match g, (s.jout o).lastAgreed with
  | some g, _ => (.guard, g)
  | none, some l => (.last, l)
  | none, none => (.safe, (List.range (s.outWords o)).map (s.outWord o 0xE0))

/-- A disagreement flag of an output enters its window; K of N cause KOFN (R361). -/
def windowPush (s : State) (o : Nat) (bad : Bool) : State :=
  if !(s.jout o).rejoined then s else
  let s := s.modJout o fun x => { x with flags := (bad :: x.flags).take (s.outNat o 5 1) }
  if bad && decide (s.outNat o 4 1 ≤ ((s.jout o).flags.filter id).length) then s.fallbackEnter 1 o else s

/-- An agreeing frame of an output that rejoins counts, a disagreeing one begins the count again (R365). -/
def rejoinCount (s : State) (o : Nat) (good : Bool) : State :=
  if (s.jout o).rejoined then s
  else if !good then s.modJout o fun x => { x with run := 0 }
  else if (s.jout o).run + 1 < s.outNat o 6 1 then s.modJout o fun x => { x with run := x.run + 1 }
  else (s.modJout o fun x => { x with run := 0, rejoined := true, flags := [], e0 := none }).fallbackLeave

/-- The verdict of one expected instant (Table 15-2), and the next one is expected. -/
def verdict (s : State) (o : Nat) (main guard : Option (List W32)) : State :=
  let hard := match main with
    | some m => (guard.isSome || !s.outGuarded o) && s.isHard o m guard
    | none => false
  let agree := match main with
    | some m => !hard && (guard.isSome || !s.outGuarded o) && s.agrees o m guard
    | none => false
  let was := (s.jout o).rejoined
  let give := match agree && was, main with
    | true, some m => (Verdict.main, m)
    | _, _ => s.standIn o guard
  let s := s.modJout o fun x => { x with
    deliver := x.deliver ++ [give], k := x.k + 1, hadMain := main.isSome, main := none, guard := none
    lastAgreed := if agree && was then main else x.lastAgreed
    disagree := BitVec.ofNat 16 (satAdd 16 x.disagree.toNat (b2n !agree))
    late := BitVec.ofNat 8 (satAdd 8 x.late.toNat (b2n main.isNone)) }
  let s := if agree then s else s.jIncident 3 (BitVec.ofNat 64 (256 * b2n hard + o))
  let s := if hard then s.fallbackEnter 2 o else s.windowPush o !agree
  s.rejoinCount o agree

/-- The expected instant of an output, and its deadline (R358). -/
def instantOf (s : State) (o : Nat) (e0 : W64) : W64 := e0 + BitVec.ofNat 64 ((s.jout o).k * s.outNat o 0x18 8)

/-- D_k. -/
def dueOf (s : State) (o : Nat) (e0 : W64) : W64 := s.instantOf o e0 + BitVec.ofNat 64 (s.outNat o 0x20 8)

/-- Expected instants that a frame passes are missing (R358). -/
def missInstants : Nat → State → Nat → State
  | 0, s, _ => s
  | n + 1, s, o => missInstants n (s.verdict o none (s.jout o).guard) o

/-- Main and guard have arrived: the verdict falls (R362). -/
def judgeIf (s : State) (o : Nat) : State :=
  let x := s.jout o
  if x.main.isSome && (x.guard.isSome || !s.outGuarded o) then s.verdict o x.main x.guard else s

/-- The Judge takes a main frame: its INSTANT, its words and its stamp (R358). One of a later instant waits while the
expected instant's own frame waits for its guard value. -/
def takeFrameAt (s : State) (o : Nat) (inst : W64) (ws : List W32) (stamp : W64) : State :=
  let s := if (s.jout o).e0.isNone then s.modJout o fun x => { x with e0 := some inst, k := 0 } else s
  let e0 := ((s.jout o).e0).getD inst
  let per := s.outNat o 0x18 8
  let d := (inst - s.instantOf o e0).toInt
  let stray := fun (s : State) => s.modJout o fun x => { x with stray := BitVec.ofNat 8 (satAdd 8 x.stray.toNat 1) }
  if d < 0 then
    if per ≠ 0 ∧ d = -(per : Int) ∧ !(s.jout o).hadMain then s else stray s
  else if d ≠ 0 ∧ (per = 0 ∨ d.toNat % per ≠ 0) then stray s
  else if d = 0 ∧ (s.jout o).main.isSome then stray s
  else if (s.jout o).main.isSome then s.modJout o fun x => { x with held := x.held ++ [(inst, ws, stamp)] }
  else
    let s := if d = 0 then s else missInstants (d.toNat / per) s o
    let e0 := ((s.jout o).e0).getD inst
    if later stamp (s.dueOf o e0) then s.verdict o none (s.jout o).guard
    else (s.modJout o fun x => { x with main := some ws }).judgeIf o

/-- Frames that waited are taken, until one waits for its guard value; their number bounds the fuel. -/
def takeHeld : Nat → State → Nat → State
  | 0, s, _ => s
  | n + 1, s, o => match (s.jout o).main, (s.jout o).held with
    | none, (inst, ws, stamp) :: rest =>
      takeHeld n ((s.modJout o fun x => { x with held := rest }).takeFrameAt o inst ws stamp) o
    | _, _ => s

/-- The frames that waited for the verdict of an instant. -/
def afterVerdict (s : State) (o : Nat) : State := takeHeld (s.jout o).held.length s o

/-- A Receipt announces a record: a hold-mode Receipt is collected, an overwrite-mode one only read (R308). The sequence it
carries, or none where nothing is posted. -/
def sourcePost (s : State) (w idx : Nat) : Option (Nat × State) :=
  let pa := s.rcptAddr w idx
  if s.rcptWin pa != some w then none else
  let v := s.rcptWord pa
  if s.overMode w then (if rcptState v == 0 then none else some (rcptSeq v, s))
  else if rcptState v == 1 then some (rcptSeq v, (s.collectWord pa).2) else none

/-- A record can be read at a physical address (R308). -/
def sourceReads (s : State) (pa n : Nat) : Bool :=
  (List.range ((65535 + (pa % 65536 + n)) / 65536)).all fun k =>
    s.isVdHome (pa / 65536 + k) && !s.poisonedAt (pa + 65536 * k) && !s.movingAt (pa + 65536 * k)

/-- MAIN_FRAME (R358). -/
def mainFrame (s : State) (o : Nat) : State :=
  if !s.judgeOn || !s.outEn o then s else
  match s.sourcePost (s.outNat o 9 1 % 16) (s.outNat o 0x0C 4) with
  | none => s
  | some (seq, s) =>
    let src := s.outNat o 0x10 8
    let s := s.modJout o fun x => { x with seq := BitVec.ofNat 16 seq }
    if !s.judge.linkUp || s.isStandby || !s.sourceReads src (8 + 4 * s.outWords o) then s else
    (s.takeFrameAt o (BitVec.ofNat 64 (s.natAt src 8))
      ((List.range (s.outWords o)).map fun k => BitVec.ofNat 32 (s.natAt (src + 8 + 4 * k) 4))
      (s.laneVal (s.outNat o 2 1 % 16))).afterVerdict o

/-- GUARD_VALUE (R356, R360): on time for the instant that is expected. -/
def guardValue (s : State) (o : Nat) (ws : List W32) : State :=
  match (s.jout o).e0 with
  | none => s
  | some e0 =>
    if !s.judgeOn || !s.outEn o || !s.outGuarded o || s.isStandby || (s.jout o).guard.isSome
      || later (s.laneVal (s.outNat o 2 1 % 16)) (s.dueOf o e0) then s
    else ((s.modJout o fun x => { x with guard := some (ws.take (s.outWords o)) }).judgeIf o).afterVerdict o

/-- OUTPUT_DEADLINE (R358, R360): D_k passes with an arrival missing. -/
def outputDeadline (s : State) (o : Nat) : State :=
  match (s.jout o).e0 with
  | none => s
  | some e0 =>
    if !s.judgeOn || !s.outEn o || s.isStandby || !later (s.laneVal (s.outNat o 2 1 % 16)) (s.dueOf o e0) then s
    else (s.verdict o (s.jout o).main (s.jout o).guard).afterVerdict o

/-! ### Delivery (R362, R410) -/

/-- Words of a mailbox or launch slot that nothing is stated of: beyond WORDS, and the stopping values of SS1 (R371). -/
def freeWords (s : State) (n : Nat) : List W32 := (List.range n).map fun k => (Config.freeWord s.freeCtr k).setWidth 32

/-- A consumer on the Swejan die receives a value. -/
def consume (s : State) (o : Nat) (ws : List W32) : State :=
  let t := s.outNat o 0x0A 2
  match s.outNat o 8 1 with
  | 0 => (s.mbxJudge (t / 16 % 16) (t % 4) (ws ++ s.freeWords (8 - ws.length))).bumpFree
  | 1 => s.slotWrite (slotOff (t / 2 ^ 14 % 4) (t / 256 % 32) + 4 * (t % 64))
      ((ws.flatMap fun w => toBytes 4 w.toNat).take (256 - 4 * (t % 64))) true
  | 2 => s.cueRetarget (t % 4096) (BitVec.ofNat 64 ((ws.getD 0 0).toNat + 2 ^ 32 * (ws.getD 1 0).toNat))
  | _ => s

/-- VERDICT_DELIVERY (R362): the oldest verdict of an output reaches its consumer. A group in SS1 receives the fall-back
controller's stopping values. -/
def deliver (s : State) (o : Nat) : State :=
  match (s.jout o).deliver with
  | [] => s
  | (kind, ws) :: rest =>
    let s := s.modJout o fun x => { x with deliver := rest, lastKind := kind }
    let t := s.outNat o 0x0A 2
    let k := s.outNat o 8 1
    if k = 3 then
      s.modJ fun j => { j with sport := (ws.zipIdx).foldl (fun m e => if t % 128 + e.2 < 128 then
        mset (fun _ => (0 : W32)) m (t % 128 + e.2) e.1 else m) j.sport }
    else if !s.judge.linkUp then s
    else
      let stop := bitAt s.judge.ss1 (s.outGroup o) && (k == 0 || k == 1)
      let vs := if stop then s.freeWords ws.length else ws
      let s := if stop then s.bumpFree else s
      let s := if s.isDuty then s.mirrorOut (.mirrorOut s.pairLink o vs) else s
      s.consume o vs

/-! ### Tasks (R363) -/

/-- A task of the configuration. -/
def jtask (s : State) (t : Nat) : JTask := mget (fun _ => {}) s.judge.tasks t

/-- Set a task. -/
def setJtask (s : State) (t : Nat) (x : JTask) : State := s.modJ fun j => { j with tasks := mset (fun _ => {}) j.tasks t x }

/-- A task is supervised. -/
def taskOn (s : State) (t : Nat) : Bool := s.judgeOn && s.judge.cfgValid && bitAt (s.taskNat t 0 1) 0 && !s.isStandby

/-- A violation: REACT causes the safe state. -/
def taskViolation (s : State) (t : Nat) : State :=
  let x := s.jtask t
  let s := s.setJtask t { x with violations := BitVec.ofNat 16 (satAdd 16 x.violations.toNat 1) }
  if bitAt (s.taskNat t 0 1) 1 then s.fallbackEnter 4 t else s

/-- TASK_CHECKPOINT. -/
def taskCheck (s : State) (t : Nat) : State :=
  if !s.taskOn t || !s.judge.linkUp then s else
  let x := s.jtask t
  let early := x.armed && decide ((s.uptime - x.last).toNat < 1000 * s.taskNat t 8 4)
  let s := s.setJtask t { x with armed := true, last := s.uptime, gapped := false }
  if early then s.taskViolation t else s

/-- TASK_GAP_TIMEOUT: one violation of a gap. -/
def taskGap (s : State) (t : Nat) : State :=
  let x := s.jtask t
  if s.taskOn t && x.armed && !x.gapped && decide (1000 * s.taskNat t 12 4 < (s.uptime - x.last).toNat) then
    (s.setJtask t { x with gapped := true }).taskViolation t
  else s

/-! ### Readback (R369) -/

/-- STO_DISCREPANCY: channel A differs from its command, channel B is not asserted though commanded, or the channels have
differed for 10 ms. -/
def stoDiffer (s : State) (g : Nat) (a b : Bool) : State :=
  if !s.judgeOn then s else
  let put := fun (v : Nat) (x : Bool) => (v &&& (15 - 2 ^ g)) ||| (b2n x * 2 ^ g)
  let cmd := bitAt s.judge.cmd g
  let s := s.modJ fun j => { j with aRb := put j.aRb a, bRb := put j.bRb b }
  if a != cmd || (cmd && !b) || a != b then s.latchSto 9 g else s

/-- B_SIDE: channel B is asserted without a command, and channel A follows. -/
def bSide (s : State) (g : Nat) : State :=
  if !s.judgeOn || bitAt s.judge.cmd g then s else
  ((s.recordCause 0x0F g).modJ fun j => { j with bRb := j.bRb ||| 2 ^ g }).stoNow (2 ^ g)

/-- SS1_COMPLETE (R371): standstill, or SS1_MS has passed. -/
def ss1Done (s : State) (g : Nat) (standstill : Bool) : State :=
  let t := (s.uptime - mget (fun _ => 0) s.judge.ss1At g).toNat
  if bitAt s.judge.ss1 g && (standstill || decide (1000000 * s.groupNat g 0 2 ≤ t)) then
    (s.stoNow (2 ^ g)).modJ fun j => { j with enableStop := s.judge.enableStop }
  else s

/-! ### Releases (R370) -/

/-- Emergency stop closed, enabling satisfied where required, nothing standing, not in fall-back, ALIVE toggling. -/
def stoFree (s : State) : Bool :=
  s.judgeOn && s.judge.cfgValid && s.judge.causes.isEmpty && s.judge.estopA && s.judge.estopB
    && (!s.judge.enableReq || (s.judge.enableA && s.judge.enableB)) && !s.judge.fallback && s.judge.alive && s.judge.linkUp
    && s.isReady

/-- Both channels of the groups of a mask release: of those that no SS1 runs in. -/
def release (s : State) (mask : Nat) : State :=
  let m := mask % 16 &&& s.judge.cmd &&& (15 - s.judge.ss1)
  let s := s.modJ fun j => { j with cmd := j.cmd &&& (15 - m), enableStop := j.enableStop &&& (15 - m) }
  let island : IslandUnit := { s.island with stopLine := s.island.stopLine &&& (15 - m), stoB := s.island.stoB &&& (15 - m) }
  ({ s with island := island } : State).settleSto

/-! ### Person-side inputs (R372, R373) -/

/-- INPUT_FAULT. -/
def inputFault (s : State) (estop : Bool) (idx : Nat) : State :=
  let s := s.latchSto 8 idx
  s.modJ fun j => if estop then { j with estopFault := true, openA := false, openB := false }
    else { j with enableFault := true }

/-- ESTOP_INPUT_CHANGE. -/
def estopChange (s : State) (chB closed : Bool) : State :=
  if !s.judgeOn then s.modJ fun j => if chB then { j with estopB := closed } else { j with estopA := closed } else
  let s := s.modJ fun j => if chB then { j with estopB := closed, openB := j.openB || !closed }
    else { j with estopA := closed, openA := j.openA || !closed }
  let diff := s.judge.estopA != s.judge.estopB
  let s := s.modJ fun j => { j with estopDiff := if diff then (j.estopDiff.orElse fun _ => some s.uptime) else none }
  if closed then s else (s.recordCause 6 0).groupReact 3

/-- ESTOP_DISCREPANCY. -/
def estopDiffer (s : State) : State := match s.judge.estopDiff with
  | some t => if s.judgeOn && decide (1000000 * s.cfgNat 0x00B 1 < (s.uptime - t).toNat) then s.inputFault true 0 else s
  | none => s

/-- TEST_PULSE: a test output is pulsed low, and the inputs that see the pulse (0, 1 emergency stop A, B; 2, 3 enabling A, B). -/
def testPulse (s : State) (out seen : Nat) : State :=
  if !s.judgeOn then s else
  let s := s.emit (.testPulse out)
  if (seen &&& (15 - 2 ^ out)) ≠ 0 then s.inputFault (decide (out < 2)) out else s

/-- Both enabling channels are closed. -/
def enabled (s : State) : Bool := s.judge.enableA && s.judge.enableB

/-- The groups that nothing but an ENABLE stop holds are noted, so that ENABLE_AUTO may release them. -/
def enableCause (s : State) : State :=
  let only := s.judge.enableStop ||| (15 - (s.judge.cmd ||| s.judge.ss1))
  ((s.recordCause 7 0).groupReact 4).modJ fun j => { j with enableStop := only }

/-- The enabled position is back: groups that only an ENABLE stop holds release where ENABLE_AUTO is 1 (R373). -/
def enableBack (s : State) : State :=
  if !s.stoFree then s else
  s.release ((List.range 4).foldl (fun m g => if bitAt s.judge.enableStop g && s.groupNat g 5 1 == 1 then m + 2 ^ g else m) 0)

/-- ENABLE_INPUT_CHANGE. -/
def enableChange (s : State) (chB closed : Bool) : State :=
  let s := s.modJ fun j => if chB then { j with enableB := closed } else { j with enableA := closed }
  if !s.judgeOn then s else
  let diff := s.judge.enableA != s.judge.enableB
  let s := s.modJ fun j => { j with enableDiff := if diff then (j.enableDiff.orElse fun _ => some s.uptime) else none }
  if !s.judge.enableReq then s else if s.enabled then s.enableBack else s.enableCause

/-- ENABLE_DISCREPANCY. -/
def enableDiffer (s : State) : State := match s.judge.enableDiff with
  | some t => if s.judgeOn && decide (50000000 < (s.uptime - t).toNat) then s.inputFault false 1 else s
  | none => s

/-- SPORT_TIMEOUT (R364). -/
def sportTimeout (s : State) : State :=
  let t := s.cfgNat 0x006 2
  if s.judgeOn && s.judge.cfgValid && t != 0 && decide (1000000 * t ≤ (s.uptime - s.judge.sportAt).toNat) && !s.hasCause 5 then
    ((s.recordCause 5 0).standCause 5 0 false).ss1Begin 15
  else s

/-- SUPPLY (R364, R447, R448): the die is put into power-on reset. -/
def supplyTrip (s : State) : State :=
  let s := if s.judgeOn then s.latchSto 0x0B 0 else s
  s.swjPor

/-- LEMQUEVIN_FAULT (R364, R382): JUDGE_FAULT is latched and the die restarts; its lines keep their levels. -/
def lemquevinFault (s : State) : State :=
  if !s.judgeOn then s else
  let s := s.latchSto 0x0A 0
  let cause := s.judge.cause
  let causes := s.judge.causes.filter (·.latched)
  (s.judgeBoot fun j => { j with causes := causes, cause := cause }).yieldJudge

/-- VLQ_LOSS (R367, R445): the STO outputs lose their supply and the die stops. -/
def vlqLoss (s : State) : State :=
  let j : JudgeUnit := { ({} : JudgeUnit) with nor := s.judge.nor, lastAlive := s.judge.lastAlive }
  ({ s with judge := j, island := { s.island with stopLine := 15 }, boot := { s.boot with guardBooted := false } } : State).settleSto

/-- RESTART_TIMEOUT (R365). -/
def restartTimeout (s : State) : State :=
  if s.judgeOn && s.judge.fallback && decide (1000000 * s.cfgNat 0x008 2 ≤ (s.uptime - s.judge.fbAt).toNat)
      && s.outsOn.any (fun o => !(s.jout o).rejoined) && !s.hasCause 0x0E then
    ((s.recordCause 0x0E 0).standCause 0x0E 0 false).ss1Begin 15
  else s

/-- STO_TEST_OVERDUE (R381). -/
def stoTestOver (s : State) (g : Nat) : State :=
  if s.judgeOn && s.judge.cfgValid && s.stoOverdue g then s.modJ fun j => { j with stoTestDue := true } else s

/-! ### Audits (R374 to R377) -/

/-- A unit of the Audits: tile t at t, engine e at 4096 + e. -/
def auditUnits (s : State) (u : Nat) : List Nat :=
  if u < 7 then (s.logicalTiles u).filterMap s.tileOf else if u < 8 then [] else [4096 + (u - 8)]

/-- When a unit's last full coverage completed. -/
def coverOf (s : State) (k : Nat) : W64 := (mget (fun _ => none) s.judge.coverAt k).getD s.judge.coverBase

/-- The age of a unit in nanoseconds (R376). -/
def ageOf (s : State) (k : Nat) : Nat := (s.uptime - s.coverOf k).toNat

/-- The tiles and engines that are audited: those in service. -/
def audited (s : State) : List Nat :=
  ((List.range 2112).filter fun t => (s.boundTo t).isSome && !s.field.withdrawn.contains t)
    ++ ((List.range 8).filter fun e => !s.engineOut e).map fun e => 4096 + e

/-- A reservation meets the time of a fragment that lasts some nanoseconds (R262, R375). -/
def reservedFor (s : State) (ns : Nat) : Bool :=
  (List.range 64).any fun b =>
    let c := s.fld (Reg.START_BCFG_CONTEXT b)
    let lim := s.fld (Reg.START_BLIMIT_LIMIT b)
    s.flag (Reg.START_BCFG_EN b) && s.flag (Reg.START_BCFG_RESERVE b) && s.defined c && (s.ctx c).cls.val == 0
      && ((match (s.ctx c).relAt with
            | some t => decide ((s.uptime - t).toNat < lim)
            | none => false)
          || s.lanes.cues.any fun e =>
            e.2.armed && e.2.action == 2 && e.2.arg.toNat % 256 == c && s.isTimeLane e.2.lane
              && decide ((e.2.target - s.laneVal e.2.lane).toInt
                  ≤ (2 ^ 32 * (ns + 1000 * s.fld (Reg.START_BCFG_LEAD b)) : Nat)))

/-- What runs on a position or an engine may be displaced by a fragment (R375): PERCEPT and BULK operations, and an engine's
ordinary kernels. -/
def fragmentVictims (s : State) (u : Nat) : List Claimant :=
  if u < 7 then (s.posRuns u).toList.map fun q => (q.1, q.2.id) else s.runningOn 1 (u - 8)

/-- AUDIT_FRAGMENT (R375): on position u, or on engine u - 8. -/
def fragment (s : State) (u : Nat) : State :=
  let vs := s.fragmentVictims u
  let low := if u < 7 then vs.all fun v => decide (2 ≤ placeClass (s.ctx v.1)) else true
  let ok := if u < 7 then (layoutPos s.field.layout).contains u && decide (0 < s.posTiles u) && (s.posFree u || !vs.isEmpty)
    else decide (8 ≤ u) && s.present 1 && !s.engineOut (u - 8) && !((s.bindOf (u - 8)).any fun b => b.run.isSome)
  let ns := if u < 7 then (if vs.isEmpty then 900 else 3200) else 500
  if !s.judgeOn || s.boot.computeReset || s.judge.frags.contains u || !ok || !low || s.reservedFor ns then s else
  let s := vs.foldl (fun s v =>
    let s := s.modOp v.1 v.2 fun o => { o with state := .saved }
    if u < 7 then s.rise Reg.START_PREEMPT_CNT_COUNT else s) s
  s.modJ fun j => { j with frags := u :: j.frags }

/-- A unit passes a step: at the last of its coverage its age begins anew (R376). -/
def stepPass (s : State) (k : Nat) : State :=
  let n := mget (fun _ => 0) s.judge.steps k + 1
  let full := decide ((if k < 4096 then 32 else 64) ≤ n)
  s.modJ fun j => { j with
    steps := mset (fun _ => 0) j.steps k (if full then 0 else n)
    aged := if full then j.aged.filter (· != k) else j.aged
    coverAt := if full then mset (fun _ => none) j.coverAt k (some s.uptime) else j.coverAt
    ranSafety := j.ranSafety.filter (· != k) }

/-- A unit fails a step (R377). -/
def stepFail (s : State) (k : Nat) : State :=
  let step := mget (fun _ => 0) s.judge.steps k
  let ran := s.judge.ranSafety.contains k
  let s := s.modJ fun j => { j with
    auditFail := j.auditFail.orElse fun _ => some (if k < 4096 then 0 else 1, step, k % 4096)
    ranSafety := j.ranSafety.filter (· != k) }
  let s := if k < 4096 then s.withdrawTile k
    else (s.setBind (k - 4096) none).setFld (Reg.SPRINT_ENG_CTL_MAP_OUT (k - 4096)) 1
  if ran then s.outsOn.foldl (fun s o => s.windowPush o true) s else s

/-- AUDIT_STEP_COMPLETE (R375 to R377): the units of a fragment that fail it. -/
def stepDone (s : State) (u : Nat) (fails : List Nat) : State :=
  if !s.judge.frags.contains u then s else
  let us := s.auditUnits u
  let s := s.modJ fun j => { j with frags := j.frags.filter (· != u) }
  let s := us.foldl (fun s k => if fails.contains k then s.stepFail k else s.stepPass k) s
  s.settleTiles

/-- AUDIT_AGE_EXCEEDED (R376). -/
def ageOver (s : State) (k : Nat) : State :=
  if !s.judgeOn || s.judge.aged.contains k || !s.audited.contains k || decide (s.ageOf k ≤ 1000 * s.cfgNat 0x00E 2) then s else
  let s := s.modJ fun j => { j with aged := k :: j.aged }
  s.jIncident 4 (BitVec.ofNat 64 k)

/-! ### The mirror (R36) and the cross-die link (R20, R355) -/

/-- JUDGE_STAT. -/
def jStat (s : State) : Nat :=
  let j := s.judge
  2 ^ 31 * b2n j.cfgValid + 2 ^ 30 * b2n j.linkUp + 2 ^ 29 * b2n j.fallback + 2 ^ 28 * b2n j.lockout + 2 ^ 27 * b2n j.enableReq
    + 2 ^ 26 * b2n j.stoTestDue + 2 ^ 8 * s.outsOn.length + (s.outsOn.filter fun o => (s.jout o).rejoined).length

/-- JUDGE_STO. -/
def jSto (s : State) : Nat :=
  let j := s.judge
  2 ^ 28 * j.cmd + 2 ^ 24 * j.aRb + 2 ^ 20 * j.bRb + 2 ^ 16 * j.ss1
    + 2 ^ 12 * (j.causes.filter (·.latched)).foldl (fun m c => m ||| c.groups) 0

/-- JUDGE_INPUTS. -/
def jInputs (s : State) : Nat :=
  let j := s.judge
  2 ^ 31 * b2n j.estopA + 2 ^ 30 * b2n j.estopB + 2 ^ 29 * b2n j.enableA + 2 ^ 28 * b2n j.enableB + 2 ^ 27 * b2n j.estopFault
    + 2 ^ 26 * b2n j.enableFault

/-- JUDGE_AUDIT. -/
def jAudit (s : State) : Nat :=
  let w := (List.range 7).foldl (fun m p => if s.posDebt p then m + 2 ^ p else m) 0
  let e := (List.range 8).foldl (fun m e => if s.judge.aged.contains (4096 + e) then m + 2 ^ e else m) 0
  2 ^ 25 * w + 2 ^ 17 * e + Nat.min (((s.audited.map s.ageOf).foldl Nat.max 0) / 100000) 0xFFFF

/-- JUDGE_AUDIT_FAIL. -/
def jAuditFail (s : State) : Nat := match s.judge.auditFail with
  | some (k, st, i) => 2 ^ 31 + 2 ^ 30 * k + 2 ^ 16 * (st % 64) + i
  | none => 0

/-- Code of a delivery in JOUT_STAT.LAST. -/
def verdictCode : Verdict → Nat
  | .main => 0 | .guard => 1 | .last => 2 | .safe => 3

/-- JOUT_STAT_o. -/
def joutStat (s : State) (o : Nat) : Nat :=
  let x := s.jout o
  if !s.outEn o then 0 else
  2 ^ 28 + (2 ^ 30 * verdictCode x.lastKind + 2 ^ 29 * b2n x.rejoined) + 2 ^ 21 * (x.flags.filter id).length + x.seq.toNat

/-- JTASK_STAT_t. -/
def jtaskStat (s : State) (t : Nat) : Nat :=
  let x := s.jtask t
  2 ^ 31 * b2n (s.judge.cfgValid && bitAt (s.taskNat t 0 1) 0) + 2 ^ 30 * b2n x.armed + x.violations.toNat

/-- A cross-die update: the JUDGE block shows the Judge as it stands (R36), once its configuration is loaded. -/
def refreshMirror (s : State) : State :=
  if !s.judgeOn || !s.judge.cfgValid then s else
  let put := fun (k v : Nat) (s : State) => s.setReg k (BitVec.ofNat 64 v)
  let j := s.judge
  let t := s |> put Reg.JUDGE_STAT s.jStat |> put Reg.JUDGE_CAUSE j.cause.toNat |> put Reg.JUDGE_CFG_CRC j.cfgCrc.toNat
    |> put Reg.JUDGE_STO s.jSto |> put Reg.JUDGE_INPUTS s.jInputs
    |> put Reg.JUDGE_LINK (2 ^ 16 * j.crcDrop.toNat + 2 ^ 8 * j.seqDrop.toNat + j.copyDrop.toNat)
    |> put Reg.JUDGE_AUDIT s.jAudit |> put Reg.JUDGE_AUDIT_FAIL s.jAuditFail
  let t := (List.range 128).foldl (fun t o =>
    let x := s.jout o
    t |> put (Reg.JOUT_STAT o) (s.joutStat o) |> put (Reg.JOUT_CNT o) (2 ^ 16 * x.disagree.toNat + 2 ^ 8 * x.late.toNat + x.stray.toNat)) t
  (List.range 32).foldl (fun t k => put (Reg.JTASK_STAT k) (s.jtaskStat k) t) t

/-- LINK_TMO in nanoseconds. -/
def linkTmo (s : State) : Nat := 1000 * (if s.judge.cfgValid then s.cfgNat 0x004 2 else 50)

/-- The link is up once each end has received a valid message within LINK_TMO; increments that waited are delivered (R465). -/
def linkSettle (s : State) : State :=
  let fresh := fun (t : W64) => decide ((s.uptime - t).toNat < s.linkTmo)
  if s.judge.linkUp || !(fresh s.judge.lastTo && fresh s.judge.lastFrom) then s else
  let incs := s.judge.incs
  let s := (s.modJ fun j => { j with linkUp := true, incs := [] }).endCause 3
  incs.foldl (fun s e => s.incident e.1 0x80 0x100 e.2) s

/-- CROSS_DIE_MESSAGE (R20): a message that fails its CRC or comes out of sequence is discarded. -/
def crossDie (s : State) (m : LinkMsg) : State :=
  if !s.judgeOn then s else
  let prev := if m.toJudge then s.judge.seqIn else s.judge.seqOut
  if !m.crcOk then s.modJ fun j => { j with crcDrop := BitVec.ofNat 16 (satAdd 16 j.crcDrop.toNat 1) }
  else if prev.any fun p => !later m.seq p then
    s.modJ fun j => { j with seqDrop := BitVec.ofNat 8 (satAdd 8 j.seqDrop.toNat 1) }
  else
    let s := s.modJ fun j => if m.toJudge then { j with seqIn := some m.seq, lastTo := s.uptime }
      else { j with seqOut := some m.seq, lastFrom := s.uptime }
    let s := s.linkSettle
    if m.toJudge then s else s.refreshMirror

/-- LINK_LOSS (R355): an end has received no valid message for LINK_TMO. -/
def linkLoss (s : State) : State :=
  let old := fun (t : W64) => decide (s.linkTmo ≤ (s.uptime - t).toNat)
  if s.judgeOn && s.judge.linkUp && (old s.judge.lastTo || old s.judge.lastFrom) then
    let s := (s.modJ fun j => { j with linkUp := false }).standCause 3 0 false
    s.fallbackEnter 3 0
  else s

/-- ALIVE_TOGGLE (R355). -/
def aliveToggle (s : State) : State :=
  if !s.judgeOn then s else
  (s.emit .alive).modJ fun j => { j with alive := true, lastAlive := s.uptime }

/-- ALIVE_LOSS (R355): 100 us without a toggle. -/
def aliveLoss (s : State) : State :=
  if (s.uptime - s.judge.lastAlive).toNat < 100000 then s else
  ((s.modJ fun j => { j with alive := false } : State).stoBCue)

/-- COPY_FORWARD (R356): the record that a copy channel's Receipt announces goes to the guard models. -/
def copyForward (s : State) (w idx pa len lane : Nat) : State :=
  if !s.judge.linkUp || decide (4096 < len) then s else
  match s.sourcePost w idx with
  | none => s
  | some (_, s) => if s.sourceReads pa len then s.emit (.copy (s.laneVal lane) (s.bytesAt pa len)) else s

/-- COPY_DROP (R356). -/
def copyDrop (s : State) : State :=
  s.modJ fun j => { j with copyDrop := BitVec.ofNat 8 (satAdd 8 j.copyDrop.toNat 1) }

end State

open State

/-- JUDGE_HEARTBEAT (R355): both ends send one. -/
def execJudgeHeartbeat (s : State) : Host.Outcome State Fault Refusal :=
  .next (if s.judgeOn then (s.emit (.linkBeat true)).emit (.linkBeat false) else s)

/-- CROSS_DIE_MESSAGE (R20). -/
def execCrossDieMessage (m : LinkMsg) (s : State) : Host.Outcome State Fault Refusal := .next (s.crossDie m)

/-- LINK_LOSS (R355). -/
def execLinkLoss (s : State) : Host.Outcome State Fault Refusal := .next s.linkLoss

/-- ALIVE_TOGGLE (R355). -/
def execAliveToggle (s : State) : Host.Outcome State Fault Refusal := .next s.aliveToggle

/-- ALIVE_LOSS (R355). -/
def execAliveLoss (s : State) : Host.Outcome State Fault Refusal := .next s.aliveLoss

/-- COPY_FORWARD (R356). -/
def execCopyForward (w : Fin 16) (rcpt : BitVec 19) (pa : BitVec 44) (len : Fin 4097) (lane : LaneId) (s : State) :
    Host.Outcome State Fault Refusal := .next (s.copyForward w.val rcpt.toNat pa.toNat len.val lane.val)

/-- COPY_DROP (R356). -/
def execCopyDrop (s : State) : Host.Outcome State Fault Refusal := .next s.copyDrop

/-- MAIN_FRAME (R358). -/
def execMainFrame (o : Fin 128) (s : State) : Host.Outcome State Fault Refusal := .next (s.mainFrame o.val)

/-- GUARD_VALUE (R360). -/
def execGuardValue (o : Fin 128) (words : List (BitVec 32)) (s : State) : Host.Outcome State Fault Refusal :=
  .next (s.guardValue o.val words)

/-- OUTPUT_DEADLINE (R358). -/
def execOutputDeadline (o : Fin 128) (s : State) : Host.Outcome State Fault Refusal := .next (s.outputDeadline o.val)

/-- VERDICT_DELIVERY (R362). -/
def execVerdictDelivery (o : Fin 128) (s : State) : Host.Outcome State Fault Refusal := .next (s.deliver o.val)

/-- FALLBACK_RESTART_TIMEOUT (R365). -/
def execFallbackRestartTimeout (s : State) : Host.Outcome State Fault Refusal := .next s.restartTimeout

/-- TASK_CHECKPOINT (R363). -/
def execTaskCheckpoint (t : Fin 32) (s : State) : Host.Outcome State Fault Refusal := .next (s.taskCheck t.val)

/-- TASK_GAP_TIMEOUT (R363). -/
def execTaskGapTimeout (t : Fin 32) (s : State) : Host.Outcome State Fault Refusal := .next (s.taskGap t.val)

/-- STO_DISCREPANCY (R369). -/
def execStoDiscrepancy (g : Fin 4) (a b : Bool) (s : State) : Host.Outcome State Fault Refusal := .next (s.stoDiffer g.val a b)

/-- B_SIDE (R369). -/
def execBSide (g : Fin 4) (s : State) : Host.Outcome State Fault Refusal := .next (s.bSide g.val)

/-- SS1_COMPLETE (R371). -/
def execSs1Complete (g : Fin 4) (standstill : Bool) (s : State) : Host.Outcome State Fault Refusal :=
  .next (s.ss1Done g.val standstill)

/-- ESTOP_INPUT_CHANGE (R372). -/
def execEstopInputChange (chB closed : Bool) (s : State) : Host.Outcome State Fault Refusal := .next (s.estopChange chB closed)

/-- ESTOP_DISCREPANCY (R372). -/
def execEstopDiscrepancy (s : State) : Host.Outcome State Fault Refusal := .next s.estopDiffer

/-- TEST_PULSE (R372, R422). -/
def execTestPulse (out : Fin 4) (seen : BitVec 4) (s : State) : Host.Outcome State Fault Refusal :=
  .next (s.testPulse out.val seen.toNat)

/-- ENABLE_INPUT_CHANGE (R373). -/
def execEnableInputChange (chB closed : Bool) (s : State) : Host.Outcome State Fault Refusal := .next (s.enableChange chB closed)

/-- ENABLE_DISCREPANCY (R373). -/
def execEnableDiscrepancy (s : State) : Host.Outcome State Fault Refusal := .next s.enableDiffer

/-- SPORT_TIMEOUT (R364). -/
def execSportTimeout (s : State) : Host.Outcome State Fault Refusal := .next s.sportTimeout

/-- VIN_WINDOW_TRIP (R448). -/
def execVinWindowTrip (s : State) : Host.Outcome State Fault Refusal := .next (if s.judgeOn then s.supplyTrip else s)

/-- LEMQUEVIN_FAULT (R364, R382). -/
def execLemquevinFault (s : State) : Host.Outcome State Fault Refusal := .next s.lemquevinFault

/-- VLQ_LOSS (R367). -/
def execVlqLoss (s : State) : Host.Outcome State Fault Refusal := .next s.vlqLoss

/-- STO_TEST_OVERDUE (R381). -/
def execStoTestOverdue (g : Fin 4) (s : State) : Host.Outcome State Fault Refusal := .next (s.stoTestOver g.val)

/-- AUDIT_FRAGMENT (R375). -/
def execAuditFragment (u : Fin 16) (s : State) : Host.Outcome State Fault Refusal := .next (s.clocked fun s => s.fragment u.val)

/-- AUDIT_STEP_COMPLETE (R377). -/
def execAuditStepComplete (u : Fin 16) (fails : List Nat) (s : State) : Host.Outcome State Fault Refusal :=
  .next (s.clocked fun s => s.stepDone u.val fails)

/-- AUDIT_AGE_EXCEEDED (R376). -/
def execAuditAgeExceeded (k : Nat) (s : State) : Host.Outcome State Fault Refusal := .next (s.ageOver k)

end Sys2Proof.Machine
end

