-- ==== Sys2Proof/Machine/SPort.lean ====
section
/-!
DEFINITION. The safety port (R379, R441, R442) and the same frames over the service port: framing, the commands of Table 18-9
and their replies.
-/

namespace Sys2Proof.Machine

open Sys2Proof

/-- A byte of a payload. -/
def payByte (p : List Byte) (k : Nat) : Nat := (p.getD k 0).toNat

/-- A frame of 128 bytes: sequence number, command, payload, CRC-32 (R441). -/
def spFrame (seq cmd : Nat) (pay : List Byte) : List Byte :=
  let b := toBytes 2 seq ++ toBytes 1 cmd ++ toBytes 1 pay.length ++ pay.take 120 ++ List.replicate (120 - pay.length) 0
  b ++ toBytes 4 (crc32 b).toNat

namespace State

/-! ### Commands (Table 18-9): each answers the payload of its reply -/

/-- The Judge state in a STATUS reply (Table 18-10). -/
def statusBytes (s : State) : List Byte :=
  toBytes 4 s.jStat ++ toBytes 8 s.judge.cause.toNat ++ toBytes 4 s.jSto ++ toBytes 4 s.jInputs ++ toBytes 4 s.judge.cfgCrc.toNat
    ++ toBytes 4 s.jAudit ++ toBytes 4 0

/-- STATUS. -/
def spStatus (s : State) (p : List Byte) : List Byte :=
  let page := payByte p 0
  if 7 < page then [2] else
  [0, 0, 0, 0] ++ s.statusBytes
    ++ (List.range 16).flatMap fun k => toBytes 4 (mget (fun _ => (0 : W32)) s.judge.sport (16 * page + k)).toNat

/-- STOP: cause REQUEST (R364). -/
def spStop (s : State) (p : List Byte) : List Byte × State :=
  let m := payByte p 0
  let kind := payByte p 1
  if 15 < m ∨ 1 < kind then ([2], s) else
  let s := s.recordCause 0x0D m
  ([0], if kind = 0 then s.stoNow m else s.ss1Begin m)

/-- A latched cause that a RESET clears: STO_FAULT only from the service port, INPUT_FAULT once its channels have opened and
closed (R370, R372). -/
def latchClears (s : State) (svc : Bool) (c : Cause) : Bool :=
  let j := s.judge
  c.latched && (c.code != 9 || svc)
    && (c.code != 8 || ((!j.estopFault || (j.openA && j.openB && j.estopA && j.estopB)) && (!j.enableFault || j.enableA == j.enableB)))

/-- RESET (R370): a RESET that clears a latch releases no group; a further one is needed. -/
def spReset (s : State) (svc : Bool) (p : List Byte) : List Byte × State :=
  let m := payByte p 0
  if 15 < m then ([2], s) else
  let gone := s.judge.causes.filter (s.latchClears svc)
  if !gone.isEmpty then
    ([0, 0], s.modJ fun j => { j with
      causes := j.causes.filter fun c => !gone.contains c
      estopFault := j.estopFault && !gone.any fun c => c.code == 8
      enableFault := j.enableFault && !gone.any fun c => c.code == 8
      lockout := j.lockout && !gone.any fun c => c.code == 0x0C })
  else if !s.stoFree then ([1, 0], s)
  else
    let out := m &&& s.judge.cmd &&& (15 - s.judge.ss1)
    ([0, BitVec.ofNat 8 out], s.release m)

/-- MODE (R373). -/
def spMode (s : State) (p : List Byte) : List Byte × State :=
  match payByte p 0 with
  | 0 => ([0], s.modJ fun j => { j with enableReq := false })
  | 1 =>
    let s := s.modJ fun j => { j with enableReq := true }
    ([0], if s.enabled then s else s.enableCause)
  | _ => ([2], s)

/-- CFG_WRITE: the staging copy. -/
def spCfgWrite (s : State) (p : List Byte) : List Byte × State :=
  let off := sliceNat p 0 4
  let n := payByte p 4
  if off % 4 ≠ 0 ∨ n % 4 ≠ 0 ∨ n < 4 ∨ 112 < n ∨ 36868 < off + n then ([2], s) else
  ([0], s.modJ fun j => { j with
    stage := (List.range n).foldl (fun m k => mset (fun _ => (0 : Byte)) m (off + k) (p.getD (8 + k) 0)) j.stage })

/-- CFG_COMMIT (R378): only with every group in STO, outside fall-back, and with the CRC that the request names. -/
def spCfgCommit (s : State) (p : List Byte) : List Byte × State :=
  let m := s.judge.stage
  let crc := ofBytes ((List.range 4).map fun i => mget (fun _ => (0 : Byte)) m (36864 + i))
  if s.judge.cmd ≠ 15 ∨ s.judge.fallback ∨ crc ≠ sliceNat p 0 4 ∨ !cfgOk m then (1 :: toBytes 4 s.judge.cfgCrc.toNat, s) else
  let s := (s.modJ fun j => { cfgApply m j with nor := m }).settleSto
  (0 :: toBytes 4 s.judge.cfgCrc.toNat, s)

/-- CLEAR_COUNTS. -/
def spClear (s : State) : State :=
  s.modJ fun j => { j with
    crcDrop := 0, seqDrop := 0, copyDrop := 0, spDrop := 0, svDrop := 0
    outs := j.outs.map fun e => (e.1, { e.2 with disagree := 0, late := 0, stray := 0 })
    tasks := j.tasks.map fun e => (e.1, { e.2 with violations := 0 }) }

/-- One command (Table 18-9). -/
def spCommand (s : State) (svc : Bool) (cmd : Nat) (p : List Byte) : List Byte × State :=
  match cmd with
  | 0 => ([0], s)
  | 1 => (s.spStatus p, s)
  | 2 => s.spStop p
  | 3 => s.spReset svc p
  | 4 => s.spMode p
  | 5 => s.spCfgWrite p
  | 6 => s.spCfgCommit p
  | 7 => ([0], s.spClear)
  | _ => ([3], s)

/-! ### Frames (R379, R441) -/

/-- The last sequence number taken from a port. -/
def spLast (s : State) (svc : Bool) : Option W16 := if svc then s.judge.svSeq else s.judge.spSeq

/-- The sequence number that comes next; any begins a numbering. -/
def spNext (s : State) (svc : Bool) : W16 := ((s.spLast svc).map (· + 1)).getD 0

/-- A valid frame: its command takes effect, and the reply frame. -/
def spTake (s : State) (svc : Bool) (seq : W16) (cmd : Nat) (p : List Byte) : List Byte × State :=
  let s := if svc then s.modJ fun j => { j with svSeq := some seq }
    else (s.modJ fun j => { j with spSeq := some seq, sportAt := s.uptime }).endCause 5
  let (r, s) := s.spCommand svc cmd p
  (spFrame seq.toNat (cmd % 128 + 128) r, s)

/-- A frame as received: dropped without a reply when its CRC fails, or when it repeats or skips a number. -/
def spReceive (s : State) (svc : Bool) (b : List Byte) : Option (List Byte) × State :=
  let seq := BitVec.ofNat 16 (sliceNat b 0 2)
  if b.length ≠ 128 ∨ (crc32 (b.take 124)).toNat ≠ sliceNat b 124 4 ∨ ((s.spLast svc).any fun l => seq != l + 1) then
    (none, s.modJ fun j => if svc then { j with svDrop := BitVec.ofNat 16 (satAdd 16 j.svDrop.toNat 1) }
      else { j with spDrop := BitVec.ofNat 16 (satAdd 16 j.spDrop.toNat 1) })
  else
    let (r, s) := s.spTake svc seq (sliceNat b 2 1) ((b.drop 4).take (Nat.min (sliceNat b 3 1) 120))
    (some r, s)

/-- A transaction of the safety port: the reply that waits goes out, and the new one waits for the next transaction. -/
def spTransact (s : State) (f : State → Option (List Byte) × State) : State :=
  if !s.judgeOn then s else
  let s := if s.judge.spReply.isEmpty then s else s.emit (.spReply s.judge.spReply)
  if !s.holds 36 11 then (s.modJ fun j => { j with spReply := [] }).deny 36 11 0 else
  let (r, s) := f s
  s.modJ fun j => { j with spReply := r.getD [] }

/-- A command of Table 18-6 with the next sequence number: over the safety port, or over the service port, whose reply comes at
once (R379). -/
def spRun (s : State) (svc : Bool) (cmd : Nat) (p : List Byte) : State :=
  if !svc then s.spTransact fun s => let (r, s) := s.spTake false (s.spNext false) cmd p; (some r, s)
  else if !s.holds 34 11 then (s.deny 34 11 0).answer 34 .denied
  else if !s.judgeOn then s
  else
    let (r, s) := s.spTake true (s.spNext true) cmd p
    s.answer 34 .ok 0 r

end State

open State

/-- SPORT_FRAME (R441): 128 bytes as they arrive. -/
def execSportFrame (b : List Byte) (s : State) : Host.Outcome State Fault Refusal :=
  .next (s.spTransact fun s => s.spReceive false b)

/-- NOP (R442). -/
def execSportNop (svc : Bool) (s : State) : Host.Outcome State Fault Refusal := .next (s.spRun svc 0 [])

/-- STATUS (R441). -/
def execStatus (svc : Bool) (page : Byte) (s : State) : Host.Outcome State Fault Refusal := .next (s.spRun svc 1 [page])

/-- STOP (R442). -/
def execStop (svc : Bool) (mask kind : Byte) (s : State) : Host.Outcome State Fault Refusal := .next (s.spRun svc 2 [mask, kind])

/-- RESET (R370). -/
def execReset (svc : Bool) (mask : Byte) (s : State) : Host.Outcome State Fault Refusal := .next (s.spRun svc 3 [mask])

/-- MODE (R373). -/
def execMode (svc : Bool) (v : Byte) (s : State) : Host.Outcome State Fault Refusal := .next (s.spRun svc 4 [v])

/-- CFG_WRITE (R442). -/
def execCfgWrite (svc : Bool) (off : W32) (data : List Byte) (s : State) : Host.Outcome State Fault Refusal :=
  .next (s.spRun svc 5 (toBytes 4 off.toNat ++ toBytes 1 data.length ++ [0, 0, 0] ++ data))

/-- CFG_COMMIT (R378). -/
def execCfgCommit (svc : Bool) (crc : W32) (s : State) : Host.Outcome State Fault Refusal :=
  .next (s.spRun svc 6 (toBytes 4 crc.toNat))

/-- CLEAR_COUNTS (R442). -/
def execClearCounts (svc : Bool) (s : State) : Host.Outcome State Fault Refusal := .next (s.spRun svc 7 [])

end Sys2Proof.Machine
end

