-- ==== Sys2Proof/Machine/Boot.lean ====
section
/-!
DEFINITION. Start-up (16): its stages, the Mint record, the self-test and its reconciliation, training, the saved settings, the
Mint commands, and the power-on of the always-on fabric (R458).
-/

namespace Sys2Proof.Machine

open Sys2Proof

/-- A defect entry: kind and physical index (Table 16-3). -/
def defectEntry (kind idx : Nat) : W16 := BitVec.ofNat 16 (4096 * kind + idx % 4096)

/-- DETAIL of NEW_DEFECT and FUSE_ONLY (Table 20-3). -/
def defectDetail (kind idx : Nat) : W64 :=
  BitVec.ofNat 64 ((if kind = 0 then 2 ^ 24 * (idx % 32) + 2 ^ 16 * (idx / 32) else 0) + 4096 * kind + idx % 4096)

namespace State

/-- The stage that runs (Table 16-2), or 0 while SWJ_POR_N holds the die or a restart runs. -/
def bootStage (s : State) : Nat :=
  if s.boot.porHigh && !s.flag Reg.SYS_START_RESTART then s.fld Reg.SYS_START_STAGE else 0

/-- LINK_DEGRADED (Table 20-3): lanes or width, instance, class. -/
def linkDegraded (s : State) (lanes inst cls : Nat) : State :=
  s.incident 10 0x81 0x100 (BitVec.ofNat 64 (2 ^ 16 * (lanes % 16) + 2 ^ 8 * (inst % 256) + cls))

/-! ### GUARD_BOOT, RAILS, MINT (R383, R387, R389) -/

/-- GUARD_BOOT. -/
def guardBoot (s : State) : State := if s.boot.guardBooted then s else s.judgeBoot id

/-- RAILS: SWJ_POR_N is released, and the straps are sampled (R422). -/
def rails (s : State) (svc ep : Bool) : State :=
  if !s.boot.guardBooted || s.boot.porHigh then s else
  let s : State := { s with boot := { s.boot with
    porHigh := true, pgHigh := true, strapSvc := svc, strapEp := ep, porTime := s.uptime, unitsLost := 0
    computeReset := true, coldSet := false, retrained := false, nandBad := [] } }
  let s := (s.setFld Reg.PORT_STRAP_SVC (b2n svc)).setFld Reg.PORT_STRAP_PCIE_EP (b2n ep)
  let s := ((s.setFld Reg.SYS_START_STAGE 3).setFld Reg.SYS_START_PATH 0).setFld Reg.SYS_START_RESTART 0
  (s.setFld Reg.SYS_START_FAIL 0).setFld Reg.SYS_RESET_STAT_BUSY 0

/-- The identity that hardware copies out of the Mint record, and what it leaves absent. -/
def applyMint (s : State) (copy1 : Bool) : State :=
  let m := s.boot.mint
  let m := { m with added := m.added ++ s.boot.mintNew }
  let s : State := { s with boot := { s.boot with mint := m, mintNew := [] } }
  let s := ((s.setFld Reg.SYS_ID_PART m.part.toNat).setFld Reg.SYS_ID_REV m.rev.toNat).setFld Reg.SYS_ID_MINT_COPY1 (b2n copy1)
  let s := (s.setReg Reg.SYS_SERIAL m.serial).setFld Reg.SYS_CAPS_UNITS s.mintUnits
  let s := s.setFld Reg.SYS_MINT_STAT_ADDED_FREE (32 - m.added.length)
  let s := s.setReg Reg.NET_MAC (Config.macOf m.serial &&& 0xFFFFFFFFFFFF)
  if copy1 then s.note 1 0x81 0 else s

/-- MINT: the record, the path, the image, and ISL_REL. -/
def mintStage (s : State) : State :=
  if s.bootStage ≠ 3 then s else
  let m := s.boot.mint
  if !m.copy0Ok && !m.copy1Ok then s.failStart 1 0 else
  let s := s.applyMint !m.copy0Ok
  let s := ((List.range 4).filter fun l => s.present (7 + l)).foldl (fun s l => s.setFld (Reg.RELAY_LINK_STAT_STATE l) 1) s
  match s.boot.nor.badSections.head? with
  | some sec => s.failStart 2 sec
  | none =>
    let fast := s.saved.any fun v => v.fwVer == s.boot.nor.ver && !v.coldNext
    let s : State := { s with boot := { s.boot with fast := fast, learned0 := (s.saved.map (·.learned)).getD [] } }
    ((s.showSaved.setFld Reg.SYS_START_PATH (b2n fast)).setFld Reg.SYS_START_STAGE 4).islandRelease

/-! ### The self-test (R390) -/

/-- A fenced tile (R389). -/
def fenced (s : State) (t : Nat) : Bool := bitAt s.boot.mint.absent.toNat 4 && decide (1055 ≤ t)

/-- The Vault bank, Stream store or Tally memory that fails, as Table 20-2 codes it. -/
def sramFail (t : SelfTest) : Option Nat :=
  match t.vault with
  | some b => some b.val
  | none => if t.stream then some 0x20 else if t.tally then some 0x21 else none

/-- A memory of a unit fails: the unit is absent until the next start-up, and NEW_DEFECT counts. -/
def unitFails (s : State) (fails : Bool) (unit kind : Nat) : State :=
  if !fails || !s.present unit then s else
  let s : State := { s with boot := { s.boot with unitsLost := Nat.lor s.boot.unitsLost (2 ^ unit) } }
  s.incident 1 0x81 0x100 (defectDetail kind 0)

/-- SELF_TEST: once, after MINT has begun it. -/
def selfTest (s : State) (t : SelfTest) : State :=
  if s.bootStage < 4 ∨ 7 < s.bootStage ∨ s.boot.tested then s else
  match sramFail t with
  | some d => s.failStart 4 d
  | none =>
    let tiles := (List.range 2112).filter fun i => !s.fenced i && t.tiles.any fun x => x.val == i
    let s : State := { s with
      boot := { s.boot with
        tested := true, tilesFail := tiles, enginesFail := (List.range 8).filter fun e => t.engines.getLsbD e
        voxelFail := t.voxel, trackerFail := t.tracker }
      judge := { s.judge with coverBase := s.uptime, coverAt := [], aged := [] } }
    (s.unitFails t.voxel 3 2).unitFails t.tracker 4 3

/-! ### DRAM and NAND (R394, R396, R399) -/

/-- Channels leave service: each counts once in LINK_DEGRADED. None left: FAILED. -/
def dropChannels (s : State) (mask : Nat) : State :=
  let gone := (List.range 16).filter fun ch => s.boot.dramCh.getLsbD ch && bitAt mask ch
  let s := gone.foldl (fun s ch =>
    ({ s with boot := { s.boot with dramCh := s.boot.dramCh &&& ~~~ (BitVec.ofNat 16 (2 ^ ch)) } } : State).linkDegraded 0 ch 1) s
  if s.boot.dramCh = 0 then s.failStart 3 0 else s

/-- DRAM_TRAIN: the channels that fail full training; the channels trained in full. -/
def dramTrain (s : State) (failed full : Nat) : State :=
  if s.bootStage ≠ 4 then s else
  let s : State := { s with boot := { s.boot with dramCh := 0xFFFF, retrained := full % 65536 != 0 } }
  let s := s.dropChannels failed
  if s.bootStage = 4 then s.setFld Reg.SYS_START_STAGE 5 else s

/-- A test of DRAM: words with two or more failing bits disable their channel, the number of the others is noted, and what the
DRAM held is lost. -/
def dramWords (s : State) (failed : Nat) (sbe : List (Fin 16 × W32)) : State :=
  let s := s.loseDram
  let s := (sbe.filter fun e => s.boot.dramCh.getLsbD e.1.val && e.2 != 0).foldl (fun s e =>
    s.note 4 0x81 (BitVec.ofNat 64 (2 ^ 32 * e.2.toNat + e.1.val))) s.bumpFree
  s.dropChannels failed

/-- DRAM_TEST: the march. -/
def dramTest (s : State) (failed : Nat) (sbe : List (Fin 16 × W32)) : State :=
  if s.bootStage ≠ 5 then s else
  let s := s.dramWords failed sbe
  if s.bootStage = 5 then s.setFld Reg.SYS_START_STAGE (if s.boot.fast then 7 else 6) else s

/-- RETENTION: the holds, and the NAND entries with uncorrectable codewords that the read-verify keeps in its list. -/
def retention (s : State) (failed : Nat) (sbe : List (Fin 16 × W32)) (bad : List (Nat × Bool)) : State :=
  if s.bootStage ≠ 6 then s else
  let s := s.dramWords failed sbe
  if s.bootStage ≠ 6 then s else
  ({ s with boot := { s.boot with nandBad := bad } } : State).setFld Reg.SYS_START_STAGE 7

/-- NAND_TRAIN (R396): a channel's state machine, from MINT on. The width in use at the lower rate is not stated. -/
def nandTrain (s : State) (ch : Nat) (rate : NandRate) : State :=
  if s.bootStage < 4 ∨ 7 < s.bootStage ∨ !s.present 6 then s else
  let up := ⟨Reg.TELLER_NAND_CH, ch, 1⟩
  match rate with
  | .full => s.setFld up 1
  | .slow => (((s.setFld up 1).linkDegraded (Config.freeNat s.freeCtr 0) ch 2).note 5 0x81 (BitVec.ofNat 64 (256 + ch))).bumpFree
  | .down => ((s.setFld up 0).linkDegraded 0 ch 2).note 5 0x81 (BitVec.ofNat 64 ch)

/-! ### SETTLE (R391 to R395) -/

/-- The tiles or engines that the Mint record, its ADDED entries or the learned list mark bad. -/
def marked (s : State) (kind idx : Nat) : Bool :=
  let m := s.boot.mint
  (if kind = 0 then m.tileBad.contains idx || s.fenced idx else m.sprintBad.getLsbD idx)
    || m.added.contains (defectEntry kind idx) || s.boot.learned0.contains (defectEntry kind idx)

/-- A unit's row of Table 16-5, with the learned list so far. -/
def reconcileOne (kind : Nat) (x : State × List W16) (idx : Nat) : State × List W16 :=
  let (s, l) := x
  let bad := s.marked kind idx
  let fails := if kind = 0 then s.boot.tilesFail.contains idx else s.boot.enginesFail.contains idx
  if bad && !fails && !(kind == 0 && s.fenced idx) then (s.incident 2 0x81 0x100 (defectDetail kind idx), l)
  else if !bad && fails then
    let s := s.incident 1 0x81 0x100 (defectDetail kind idx)
    if l.length < 64 then (s, l ++ [defectEntry kind idx]) else (s.note 3 0x81 (defectDetail kind idx), l)
  else (s, l)

/-- The Field's binding (R110, R111, R393), and the engines mapped out. -/
def bindUnits (s : State) : State :=
  let bad := (List.range 2112).filter fun t => s.marked 0 t
  let out := (List.range 2112).filter fun t => s.marked 0 t || s.boot.tilesFail.contains t
  let free := (List.range 2112).filter fun t => !out.contains t
  let c := Nat.min 64 (free.length / 32)
  let eng := (List.range 8).filter fun e => s.marked 1 e || s.boot.enginesFail.contains e
  let lost := b2n (c == 0) + 2 * b2n (eng.length == 8)
  let s : State := { s with
    field := { s.field with
      excluded := out, withdrawn := [], fuseBad := bad, testBad := s.boot.tilesFail
      binding := (free.take (32 * c)).zipIdx.map fun e => (e.2, some e.1) }
    boot := { s.boot with enginesStart := eng, enginesOut := eng, unitsLost := Nat.lor s.boot.unitsLost lost } }
  let s := ((s.setFld Reg.FIELD_GEOM_COLS c).setFld Reg.FIELD_GEOM_ROWS 32).setFld Reg.FIELD_GEOM_SPARES_LEFT (free.length - 32 * c)
  s.setFld Reg.FIELD_GEOM_HEAT_SHAPES (b2n (decide (1 ≤ c)) + 2 * b2n (decide (1 ≤ c / 2)) + 4 * b2n (decide (1 ≤ c / 2 / 2)))

/-- Usable DRAM in pages (R460). -/
def dramPages (s : State) : Nat := 63488 * ((List.range 16).filter fun ch => s.boot.dramCh.getLsbD ch).length

/-- The regions, packed downward from the top of usable DRAM: the pool shrinks first, then escrow to its minimum (R394). -/
def placeRegions (s : State) (rsv esc pool : Nat) : State :=
  let d := s.dramPages
  let rsv := Nat.max rsv (if s.present 6 then 9212 else 1148)
  let pool := Nat.min pool (d - rsv - esc - 65536)
  let esc := Nat.max 20736 (Nat.min esc (d - rsv - 65536))
  let top := 0x100000 + d
  let s := (s.setFld Reg.TELLER_RSV_BASE_ADDR (top - rsv)).setFld Reg.TELLER_RSV_PAGES_PAGES rsv
  let s := (s.setFld Reg.TELLER_ESC_BASE_ADDR (top - rsv - esc)).setFld Reg.TELLER_ESC_PAGES_PAGES esc
  (s.setFld Reg.TELLER_DPOOL_BASE_ADDR (top - rsv - esc - pool)).setFld Reg.TELLER_DPOOL_PAGES_PAGES pool

/-- The record that SETTLE leaves: written at the end of a cold start, and of a fast one when it has changed (R395). -/
def settleSaved (s : State) (learned : List W16) : State :=
  let old := s.saved
  let base : Saved := old.getD { ({} : Saved) with rsvPages := if s.present 6 then 9212 else 1148 }
  let kept := base.learned ++ learned
  let new : Saved := { base with
    serial := s.boot.mint.serial, fwVer := s.boot.nor.ver, trained := s.boot.dramCh, learned := kept.take 64
    coldNext := if s.boot.fast then base.coldNext else s.boot.coldSet }
  if s.boot.fast ∧ !s.boot.retrained ∧ old = some new then s else s.putSaved new

/-- Every tile and engine is reconciled (R389, R390), and the entries that stand learned then. -/
def reconcileAll (s : State) : State × List W16 :=
  (List.range 8).foldl (reconcileOne 1) ((List.range 2112).foldl (reconcileOne 0) (s, s.boot.learned0))

/-- SETTLE: firmware waits for the self-test. `rt` is a lockstep fault of a real-time pair (R402). -/
def settle (s : State) (rt : Option Nat) : State :=
  if s.bootStage ≠ 7 ∨ !s.boot.tested ∨ !s.boot.computeReset then s else
  match rt with
  | some pair => s.failStart 5 pair
  | none =>
    let n0 := s.boot.learned0.length
    let r := s.reconcileAll
    let s := r.1.bindUnits
    let s := (s.setFld Reg.SYS_CAPS_DRAM_CH s.boot.dramCh.toNat).setFld Reg.SYS_CAPS_DRAM_PAGES s.dramPages
    let s := s.setFld Reg.SYS_CAPS_UNITS (s.mintUnits - Nat.land s.mintUnits s.boot.unitsLost)
    let v : Saved := s.saved.getD { ({} : Saved) with rsvPages := if s.present 6 then 9212 else 1148 }
    let s := s.placeRegions v.rsvPages v.escPages v.poolPages
    let s := s.settleSaved (r.2.drop n0)
    let s : State := { s with boot := { s.boot with computeReset := false, shadow := some s.boot.nor } }
    s.setReg Reg.SYS_FW_VER (s.boot.nor.ver.setWidth 64)

/-! ### READY (R383, R399) -/

/-- The Teller rewrites the entries of the read-verify's list from their other entries, as scrub work. -/
def rewriteBad (s : State) : State :=
  let bad := s.boot.nandBad
  let s := bad.foldl (fun s e =>
    if s.isNandHome e.1 && bitAt (s.page e.1).entries (b2n e.2) && bitAt (s.page e.1).entries (1 - b2n e.2)
      && !bad.contains (e.1, !e.2) then s.rewritten 1 else s) s
  { s with boot := { s.boot with nandBad := [] } }

/-- READY: START_SAVE_CFG and START_CTL as firmware writes them. -/
def readyStage (s : State) (save ctl : W32) : State :=
  if s.bootStage ≠ 7 ∨ s.boot.computeReset then s else
  let ms := (s.uptime - s.boot.porTime).toNat / 1000000
  let s := ((s.setFld Reg.SYS_START_MS_ALL ms).setFld Reg.SYS_START_STAGE 0xF).enableWork save ctl
  (s.rewriteBad.note 8 0x81 (BitVec.ofNat 64 (2 ^ 32 * (ms % 2 ^ 32) + b2n s.boot.fast))).fallbackLeave

/-! ### Loss of power and recovery (R402, R419, R458) -/

/-- SWJ_PG falls: SWJ_POR_N is asserted at once and SUPPLY latches (R364, R402). -/
def swjPgFall (s : State) : State :=
  if !s.boot.pgHigh then s else
  ({ s with boot := { s.boot with pgHigh := false } } : State).supplyTrip

/-- IMAGE_RECOVERY: from the partner's shadow over the pair link, or from the service port. -/
def imageRecovery (s : State) (partner : Bool) (ver : W32) (data : List Byte) : State :=
  if s.bootStage ≠ 0xE ∨ s.fld Reg.SYS_START_FAIL ≠ 2 ∨ !s.boot.guardBooted
    ∨ (partner ∧ s.fld (Reg.RELAY_LINK_STAT_STATE s.pairLink) < 2) then s else
  let s : State := { s with boot := { s.boot with nor := { ver := ver, bytes := data.take 66846720, badSections := [] } } }
  (s.emit .porPulse).swjPor

/-- VAO becomes valid: everything on the Swejan die begins anew; fuses, NOR and NAND are kept, and so is the Lemquevin die. -/
def alwaysOn (s : State) : State :=
  let b := s.boot
  let r := State.reset
  let s := s.loseVault.loseDram
  { r with
    pending := s.pending, out := s.out, reply := s.reply, freeCtr := s.freeCtr + 1, stamp := s.stamp
    mem := s.mem, lostPages := s.lostPages, vaultGen := s.vaultGen, dramGen := s.dramGen
    teller := { pages := (s.teller.pages.map fun e => (e.1, { ({} : Page) with entries := e.2.entries })).filter fun e => e.2 != ({} : Page) }
    island := { r.island with vioDrive := s.island.vioDrive }
    judge := s.judge
    boot := { r.boot with
      mint := b.mint, mintNew := b.mintNew, savedNew := b.savedNew, savedOld := b.savedOld, nor := b.nor
      guardBooted := b.guardBooted, strapSvc := b.strapSvc, strapEp := b.strapEp } }

/-! ### Mint commands (R464) -/

/-- A command of SYS_MINT_CMD: refused while one runs. -/
def mintCommand (s : State) (op : Nat) : State :=
  if op = 0 then s
  else if s.flag Reg.SYS_MINT_STAT_BUSY then s.setFld Reg.SYS_MINT_STAT_ERR 1
  else
    ({ s with boot := { s.boot with mintOp := op } } : State).setFld Reg.SYS_MINT_STAT_BUSY 1 |>.setFld Reg.SYS_MINT_STAT_ERR 0

/-- A requester writes SYS_MINT_CMD: SYS and MINT are needed (R458). -/
def mintWrite (s : State) (r op : Nat) : State :=
  s.permit r 9 Reg.SYS_MINT_CMD fun s => s.permit r 10 Reg.SYS_MINT_CMD fun s => s.mintCommand op

/-- A write of the saved settings that fails leaves the copy in use, and the other one invalid (R395). -/
def loseOldCopy (s : State) : State :=
  if s.boot.savedNew.isSome then { s with boot := { s.boot with savedOld := none } } else s

/-- The learned entries that FUSE_LEARNED can program, in list order. -/
def fuseList (s : State) : List W16 :=
  ((s.saved.map (·.learned)).getD []).filter fun e => !s.boot.mint.added.contains e && !s.boot.mintNew.contains e

/-- Entries are programmed into the free ADDED entries. -/
def fuse (s : State) (l : List W16) : State :=
  let n := 32 - (s.boot.mint.added.length + s.boot.mintNew.length)
  let s : State := { s with boot := { s.boot with mintNew := s.boot.mintNew ++ l.take n } }
  s.setFld Reg.SYS_MINT_STAT_ADDED_FREE (n - l.length)

/-- The running command ends. A programming that fails leaves open how many entries it has programmed. -/
def mintDone (s : State) (fail : Bool) : State :=
  if !s.flag Reg.SYS_MINT_STAT_BUSY then s else
  let op := s.boot.mintOp
  let s := ({ s with boot := { s.boot with mintOp := 0 } } : State).setFld Reg.SYS_MINT_STAT_BUSY 0
  let l := s.fuseList
  if fail then
    let s := s.setFld Reg.SYS_MINT_STAT_ERR 3
    if op = 3 then (s.fuse (l.take (Config.freeNat s.freeCtr 0))).bumpFree else s.loseOldCopy
  else match op with
    | 1 =>
      let s : State := if s.isReady then s else { s with boot := { s.boot with coldSet := true } }
      (match s.saved with
       | some v => s.putSaved { v with coldNext := true }
       | none => s).showSaved
    | 2 => match s.saved with
      | some v => s.putSaved { v with learned := [] }
      | none => s
    | _ =>
      let n := 32 - (s.boot.mint.added.length + s.boot.mintNew.length)
      let s := s.fuse l
      if n < l.length then s.setFld Reg.SYS_MINT_STAT_ERR 2 else s

end State

open State

/-- GUARD_BOOT (R383). -/
def execGuardBoot (s : State) : Host.Outcome State Fault Refusal := .next s.guardBoot

/-- RAILS (R383): the straps as they stand. -/
def execRails (svc ep : Bool) (s : State) : Host.Outcome State Fault Refusal := .next (s.rails svc ep)

/-- MINT (R387). -/
def execMint (s : State) : Host.Outcome State Fault Refusal := .next s.mintStage

/-- SELF_TEST (R390). -/
def execSelfTest (t : SelfTest) (s : State) : Host.Outcome State Fault Refusal := .next (s.selfTest t)

/-- DRAM_TRAIN (R394). -/
def execDramTrain (failed full : W16) (s : State) : Host.Outcome State Fault Refusal := .next (s.dramTrain failed.toNat full.toNat)

/-- DRAM_TEST (R383, R394). -/
def execDramTest (failed : W16) (sbe : List (Fin 16 × W32)) (s : State) : Host.Outcome State Fault Refusal :=
  .next (s.dramTest failed.toNat sbe)

/-- RETENTION (R399). -/
def execRetention (failed : W16) (sbe : List (Fin 16 × W32)) (bad : List (BitVec 28 × Bool)) (s : State) :
    Host.Outcome State Fault Refusal :=
  .next (s.retention failed.toNat sbe (bad.map fun e => (e.1.toNat, e.2)))

/-- SETTLE (R391). -/
def execSettle (rt : Option (Fin 4)) (s : State) : Host.Outcome State Fault Refusal := .next (s.settle (rt.map (·.val)))

/-- READY (R383). -/
def execReady (save ctl : W32) (s : State) : Host.Outcome State Fault Refusal := .next (s.readyStage save ctl)

/-- RESTART_READY (R400). -/
def execRestartReady (shadowBad : Option W16) (save ctl : W32) (s : State) : Host.Outcome State Fault Refusal :=
  .next (s.restartReady shadowBad save ctl).fallbackLeave

/-- NAND_TRAIN (R396). -/
def execNandTrain (ch : Fin 16) (rate : NandRate) (s : State) : Host.Outcome State Fault Refusal := .next (s.nandTrain ch.val rate)

/-- SWJ_PG_FALL (R402). -/
def execSwjPgFall (s : State) : Host.Outcome State Fault Refusal := .next s.swjPgFall

/-- IMAGE_RECOVERY (R419). -/
def execImageRecovery (partner : Bool) (ver : W32) (data : List Byte) (s : State) : Host.Outcome State Fault Refusal :=
  .next (s.imageRecovery partner ver data)

/-- ALWAYS_ON_POWER_ON (R458). -/
def execAlwaysOnPowerOn (s : State) : Host.Outcome State Fault Refusal := .next s.alwaysOn

/-- SET_COLD_NEXT (R464). -/
def execSetColdNext (r : Requester) (s : State) : Host.Outcome State Fault Refusal := .next (s.mintWrite r.val 1)

/-- CLEAR_LEARNED (R464). -/
def execClearLearned (r : Requester) (s : State) : Host.Outcome State Fault Refusal := .next (s.mintWrite r.val 2)

/-- FUSE_LEARNED (R464). -/
def execFuseLearned (r : Requester) (s : State) : Host.Outcome State Fault Refusal := .next (s.mintWrite r.val 3)

/-- MINT_COMMAND_COMPLETE (R464). -/
def execMintCommandComplete (fail : Bool) (s : State) : Host.Outcome State Fault Refusal := .next (s.mintDone fail)

end Sys2Proof.Machine
end

