-- ==== Sys2Proof/Machine/Relay.lean ====
section
/-!
DEFINITION. Pairs, Relay links and groups, and image updates (17): forming a pair, heartbeats, mirror records, taking and
giving the duty, training, group transfers, WRITE, FETCH and ACTIVATE.
-/

namespace Sys2Proof.Machine

open Sys2Proof

namespace State

/-! ### What is mirrored (R406 to R408) -/

/-- The valid entries of a table, as the pages they name. -/
def tablePages (s : State) (table n : Nat) : List Nat :=
  (List.range n).filterMap fun k => match s.readPte table k with
    | .entry e => if pteOk false e then some (bitsOf e 16 28) else none
    | _ => none

/-- The home pages that a context maps with MIRRORED set (R407). -/
def mirroredPages (s : State) (root : Nat) : List Nat :=
  (s.tablePages root 256).flatMap fun t2 => (s.tablePages t2 4096).flatMap fun t3 =>
    (List.range 4096).filterMap fun k => match s.readPte t3 k with
      | .entry e =>
        let p := bitsOf e 16 28
        if pteOk true e && bitsOf e 3 1 == 1 && s.isVdHome p && (s.page p).state != .poisoned then some p else none
      | _ => none

/-- A context waits in lwrel. -/
def inLwrel (s : State) (c : Nat) : Bool := match (s.ctx c).wait with
  | some (.lwrel _ _ _) => true
  | _ => false

/-- The image of a context in its lwrel: architectural state, windows, the Cues it owns (R408). -/
def imageOf (s : State) (c : Nat) : Option CtxImage :=
  let x := s.ctx c
  match x.wait with
  | some (.lwrel pd sd dl) =>
    let sprint := match x.swinEng with
      | some e => s.engSpan e (x.swinBase * 64) (x.swinSize * 64)
      | none => x.swinSave
    some { pc := x.pc, sregs := x.sregs, preds := x.preds, descs := x.descs, pd := pd, sd := sd, dl := dl
           purse := (s.field.purse.filter fun e => e.1 == c).map (·.2), sprint := sprint
           cues := s.lanes.cues.filter fun e => e.2.owner == some c }
  | _ => none

/-- Send the checkpoint of a covered context. -/
def sendImage (s : State) (c : Nat) : State := match s.imageOf c with
  | some img => if s.covered c then s.mirrorOut (.checkpoint s.pairLink c img) else s
  | none => s

/-- SYNCING: every mirrored item is copied in full (R403). -/
def syncCopy (s : State) : State :=
  let pages := (s.ctxs.flatMap fun e => if e.2.stage == .undefined then [] else s.mirroredPages e.2.root).eraseDups
  let s := pages.foldl (fun s p => s.mirrorOut (.mirrorWrite s.pairLink (65536 * p) (s.bytesAt (65536 * p) 65536))) s
  s.ctxIds.foldl sendImage s.sendTracks

/-! ### Forming a pair (R403) -/

/-- PAIR_FORM: the partner's stage, SERIAL, preference, and whether it holds the duty. -/
def pairForm (s : State) (ready : Bool) (serial : W64) (pref duty : Bool) : State :=
  let want := s.reg Reg.RELAY_PAIR_EXPECT
  if !s.flag Reg.RELAY_PAIR_CFG_EN || s.fld Reg.RELAY_PAIR_STAT_STATE != 0 || !s.isReady || !ready
    || decide (s.fld (Reg.RELAY_LINK_STAT_STATE s.pairLink) < 2) || (want != 0 && want != serial) then s else
  let mine := s.flag Reg.RELAY_PAIR_STAT_DUTY
  let own := s.flag Reg.RELAY_PAIR_CFG_ROLE_PREF
  let take := if mine != duty then mine else if own != pref then own else decide (s.boot.mint.serial < serial)
  let s := (s.setFld Reg.RELAY_PAIR_STAT_STATE 1).setReg Reg.RELAY_PAIR_PARTNER serial
  let s := s.setFld Reg.RELAY_PAIR_STAT_DUTY_IN (b2n !take)
  let s : State := { s with relay := { s.relay with
    yieldIn := false, take := false, handover := false, hbMain := s.uptime, hbAlt := s.uptime, current := [] } }
  if take then (s.setFld Reg.RELAY_PAIR_STAT_DUTY 1).syncCopy else s.becomeStandby

/-- PAIR_SYNCED: every mirrored item has been copied. -/
def pairSynced (s : State) : State :=
  if s.fld Reg.RELAY_PAIR_STAT_STATE = 1 then (s.setFld Reg.RELAY_PAIR_STAT_STATE 2).pairCheck else s

/-! ### Heartbeats (R405, R413) -/

/-- The link of a heartbeat path. -/
def hbLink (s : State) (alt : Bool) : Nat := if alt then s.fld Reg.RELAY_PAIR_CFG_ALT_LINK else s.pairLink

/-- The values of the enabled LOCAL Lanes. -/
def localLanes (s : State) : List (Nat × W64) :=
  ((List.range 16).filter fun n => s.flag (Reg.LANE_CFG_EN n) && s.laneSrc n == 0).map fun n => (n, s.laneVal n)

/-- The standby steers a LOCAL Lane to within 20 ns: by a step within LANE_STEP_LIM, else by rate, which is left open. -/
def steer (s : State) (n : Nat) (v : W64) : State :=
  if !s.flag (Reg.LANE_CFG_EN n) || s.laneSrc n != 0 then s else
  let d := (v - s.laneVal n).toInt
  if d.natAbs ≤ 20 * 2 ^ 32 then s
  else if d.natAbs ≤ 2 ^ 32 * s.fld (Reg.LANE_STEP_LIM_LIMIT n) then s.laneStepNow n (BitVec.ofInt 64 d)
  else (s.setFld (Reg.LANE_RATE_RATE n) (Config.freeWord s.freeCtr n).toNat).bumpFree

/-- DUTY_IN reads low from now on. -/
def dutyInLow (s : State) : State :=
  if s.flag Reg.RELAY_PAIR_STAT_DUTY_IN then
    ({ s with relay := { s.relay with dutyLow := s.uptime } } : State).setFld Reg.RELAY_PAIR_STAT_DUTY_IN 0
  else s

/-- A heartbeat that arrives. -/
def hbTake (s : State) (alt : Bool) (h : Heartbeat) : State :=
  let s : State := { s with relay := if alt then { s.relay with hbAlt := s.uptime } else { s.relay with hbMain := s.uptime } }
  let s := s.setFld (if alt then Reg.RELAY_PAIR_STAT_HB_ALT else Reg.RELAY_PAIR_STAT_HB_MAIN) 1
  let s := if h.line then s.setFld Reg.RELAY_PAIR_STAT_DUTY_IN 1 else s.dutyInLow
  if !s.isStandby then s else
  let s : State := { s with relay := { s.relay with yieldIn := s.relay.yieldIn || h.yielded } }
  let s := h.lanes.foldl (fun s e => s.steer e.1.val e.2) s
  if !h.line && !s.relay.yieldIn then s.setFld Reg.RELAY_PAIR_STAT_LINE_FAULT 1 else s

/-- PAIR_HEARTBEAT: the module sends its heartbeat on a path, and the partner's may arrive. -/
def heartbeat (s : State) (alt : Bool) (rx : Option Heartbeat) : State :=
  let st := s.fld Reg.RELAY_PAIR_STAT_STATE
  let l := s.hbLink alt
  if st = 0 ∨ (alt ∧ !s.flag Reg.RELAY_PAIR_CFG_ALT_EN) ∨ s.fld (Reg.RELAY_LINK_STAT_STATE l) < 2 then s else
  let s := s.emit (.heartbeat l s.isDuty st s.localLanes)
  match rx with
  | some h => s.hbTake alt h
  | none => s

/-- HB_TMO in ns. -/
def hbTmo (s : State) : Nat := 1000 * Nat.min (Nat.max (s.fld Reg.RELAY_PAIR_CFG_HB_TMO) 50) 900

/-- A path is lost: no valid heartbeat on it for HB_TMO. -/
def pathLost (s : State) (alt : Bool) : Bool :=
  decide (s.hbTmo ≤ (s.uptime - if alt then s.relay.hbAlt else s.relay.hbMain).toNat)

/-- Every heartbeat path is lost. -/
def allLost (s : State) : Bool := s.pathLost false && (!s.flag Reg.RELAY_PAIR_CFG_ALT_EN || s.pathLost true)

/-- HEARTBEAT_LOSS (R413). -/
def heartbeatLoss (s : State) (alt : Bool) : State :=
  if s.fld Reg.RELAY_PAIR_STAT_STATE = 0 ∨ (alt ∧ !s.flag Reg.RELAY_PAIR_CFG_ALT_EN) ∨ !s.pathLost alt then s else
  let s := s.setFld (if alt then Reg.RELAY_PAIR_STAT_HB_ALT else Reg.RELAY_PAIR_STAT_HB_MAIN) 0
  if !s.allLost then s
  else if !s.isStandby then s.setFld Reg.RELAY_PAIR_STAT_STATE 0
  else if s.flag Reg.RELAY_PAIR_STAT_DUTY_IN then
    let s := (s.setFld Reg.RELAY_PAIR_STAT_SPLIT 1).setFld Reg.RELAY_PAIR_STAT_STATE 0
    s.linkDegraded (s.fld (Reg.RELAY_LINK_STAT_LANES s.pairLink)) s.pairLink 5
  else s

/-! ### Mirror records on the standby (R406 to R410) -/

/-- The image of a context goes into its escrow slot. A masked context that is not defined ends SYNCED (R408). -/
def applyImage (s : State) (c : Nat) (img : CtxImage) : State :=
  if !s.covered c then
    if s.defined c then s else (s.setFld Reg.RELAY_PAIR_STAT_STATE 1).setFld Reg.RELAY_PAIR_STAT_CTX_ERR 1
  else if (s.ctx c).stage != .escrow then s
  else
    let s := s.modCtx c fun x => { x with
      pc := img.pc, sregs := img.sregs, preds := img.preds, descs := img.descs, swinSave := img.sprint
      wait := some (.lwrel img.pd img.sd img.dl) }
    let put : Map Cue → Nat × Cue → Map Cue := fun m e => mset (fun _ => {}) m e.1 { e.2 with owner := some c }
    let cues := img.cues.foldl put (s.lanes.cues.filter fun e => e.2.owner != some c)
    let purse := (s.field.purse.filter fun e => e.1 != c) ++ img.purse.map fun e => (c, e)
    let current := if s.relay.current.contains c then s.relay.current else s.relay.current ++ [c]
    { s with field := { s.field with purse := purse }, lanes := { s.lanes with cues := cues }
             relay := { s.relay with current := current } }

/-- MIRROR_RECORD_APPLY: in the order they were sent. A write to a page under a move waits. -/
def applyRecord (s : State) (r : MirrorRec) : State :=
  if !s.isStandby then s else
  let n := fun (s : State) => s.rise Reg.RELAY_MIRROR_APPLIED_ALL
  match r with
  | .write pa data =>
    let pages := (List.range ((65535 + (pa.toNat % 65536 + data.length)) / 65536)).map fun k => pa.toNat / 65536 + k
    if pages.any fun p => s.movingAt (65536 * p) then s
    else if pages.all fun p => s.isVdHome p && (s.page p).state != .poisoned then n (s.agentWrite pa.toNat data) else n s
  | .tracks slots id =>
    n { s with fusion := { s.fusion with
      tracks := slots.foldl (fun m e => mset (fun _ => (none : Option Track)) m (e.1 % 1024) (some e.2)) [], nextId := id } }
  | .delivered o ws => n (s.consume o.val ws)
  | .image c img => n (s.applyImage c.val img)

/-! ### Taking and giving the duty (R408, R411, R412) -/

/-- Every covered context is in lwrel. -/
def allInLwrel (s : State) : Bool := (s.ctxIds.filter s.covered).all s.inLwrel

/-- A HANDOVER that waits is carried out once every masked context is in lwrel. -/
def tryHandover (s : State) : State := if s.relay.handover && s.allInLwrel then s.yieldDuty else s

/-- CONTEXT_CHECKPOINT (R408). -/
def checkpoint (s : State) (c : Nat) : State :=
  if s.isDuty && s.covered c && s.inLwrel c then (s.sendImage c).tryHandover else s

/-- The masked contexts in the order they are restored in: class, priority, number. -/
def restoreOrder (s : State) : List Nat :=
  let key := fun c => 256 * ((s.ctx c).cls.val * 16 + (15 - (s.ctx c).prio)) + c
  sortBy (fun a b => decide (key a < key b)) (s.ctxIds.filter fun c => s.covered c && (s.ctx c).stage == .escrow)

/-- DUTY_TAKEOVER (R411, R412). `yielded` says that a YIELD has arrived. -/
def takeover (s : State) (yielded : Bool) : State :=
  let y := (s.relay.yieldIn || yielded) && s.fld Reg.RELAY_PAIR_STAT_STATE == 2
  if !s.isStandby || s.flag Reg.RELAY_PAIR_STAT_DUTY_IN || decide ((s.uptime - s.relay.dutyLow).toNat < 5000)
    || !(y || s.relay.take || s.allLost) then s else
  let masked := (List.range 12).filter s.pairForced
  let sync := y || s.relay.take
  let s := (s.setFld Reg.RELAY_PAIR_STAT_DUTY 1).setFld Reg.RELAY_PAIR_STAT_STATE (b2n sync)
  let s := (masked.foldl (fun s b => s.setForce b 0) s).bump Reg.RELAY_FAILOVER_CNT_TAKEOVERS
  let s : State := { s with relay := { s.relay with yieldIn := false, take := false, handover := false } }
  let s := s.restoreOrder.foldl (fun s c => (s.admitCtx c).getD (s.modCtx c fun x => { x with stage := .waiting })) s
  let s := s.unjoin.modJ fun j => { j with outs := j.outs.map fun e => (e.1, { e.2 with e0 := none }) }
  if sync then s.syncCopy else s

/-- HANDOVER (R411): only with a SYNCED partner. -/
def handoverCmd (s : State) : State :=
  if !(s.isDuty && s.fld Reg.RELAY_PAIR_STAT_STATE == 2) then s.setFld Reg.RELAY_PAIR_STAT_ERR 2
  else
    let s := s.setFld Reg.RELAY_PAIR_STAT_ERR 0
    ({ s with relay := { s.relay with handover := true } } : State).tryHandover

/-- TAKE (R411, R420): from the service port or JTAG holding MINT. -/
def takeCmd (s : State) (r : Nat) : State :=
  if !s.isStandby || s.flag Reg.RELAY_PAIR_STAT_DUTY_IN || !(r == 34 || r == 35) then s.setFld Reg.RELAY_PAIR_STAT_ERR 1
  else ({ s with relay := { s.relay with take := true } } : State).setFld Reg.RELAY_PAIR_STAT_ERR 0

/-- LEAVE: pairing ends. -/
def leaveCmd (s : State) : State := (s.setFld Reg.RELAY_PAIR_STAT_STATE 0).setFld Reg.RELAY_PAIR_STAT_ERR 0

/-! ### Links (R397, R414) -/

/-- The link that group data for a member takes. -/
def routeOf (s : State) (m : Nat) : Nat := bitsOf (s.reg Reg.RELAY_GRP_ROUTE) (4 * m) 2

/-- What was held for a link goes out. -/
def sendHeld (s : State) (l : Nat) : State :=
  let mine := s.relay.held.filter fun e => e.1 == l
  mine.foldl (fun s e => s.emit e.2) { s with relay := { s.relay with held := s.relay.held.filter fun e => e.1 != l } }

/-- The outcome of training: the lanes that work, and the members that answer over the link. -/
def trained (s : State) (l mask reach : Nat) : State :=
  let n := ((List.range 8).filter fun k => bitAt mask k).length
  let st := if n = 8 then 2 else if 4 ≤ n then 3 else 0
  let bad := if st = 2 then 0 else if st = 3 then 1 else 2
  let was := mget (fun _ => 0) s.relay.bad l
  let s := (s.setFld (Reg.RELAY_LINK_STAT_STATE l) st).setFld (Reg.RELAY_LINK_STAT_LANE_MASK l) (if st = 0 then 0 else mask)
  let s := s.setFld (Reg.RELAY_LINK_STAT_LANES l) (if st = 0 then 0 else n)
  let s : State := { s with relay := { s.relay with bad := mset (fun _ => 0) s.relay.bad l bad } }
  let s := if bad = 0 ∨ bad = was then s else s.linkDegraded (if st = 0 then 0 else n) l 3
  let s := (List.range 8).foldl (fun s m =>
    if s.routeOf m = l ∧ m ≠ s.fld Reg.RELAY_GRP_CFG_INDEX then
      s.setFld ⟨Reg.RELAY_GRP_CFG, 8 + m, 1⟩ (b2n (st != 0 && bitAt reach m)) else s) s
  if st = 0 then s else s.sendHeld l

/-- RELAY_LINK_TRAIN (R397): from MINT on, while the link is not up. -/
def linkTrain (s : State) (l mask reach : Nat) : State :=
  if !s.present (7 + l) || !s.boot.porHigh || s.fld Reg.SYS_START_STAGE == 3 || decide (2 ≤ s.fld (Reg.RELAY_LINK_STAT_STATE l)) then s
  else s.trained l mask reach

/-- A link retrains: its traffic is held (R414). -/
def retrainLink (s : State) (l : Nat) : State :=
  if !s.present (7 + l) || s.fld (Reg.RELAY_LINK_STAT_STATE l) == 1 then s else
  (s.setFld (Reg.RELAY_LINK_STAT_STATE l) 1).bump (Reg.RELAY_LINK_CNT_RETRAINS l)

/-- LINK_CRC_BURST: CRC errors within 1 ms (R414). -/
def crcBurst (s : State) (l n : Nat) : State :=
  if s.fld (Reg.RELAY_LINK_STAT_STATE l) < 2 then s else
  let s := s.bump (Reg.RELAY_LINK_CNT_CRC_ERR l) n
  if 64 < n then s.retrainLink l else s

/-- LINK_RETRAIN_COMPLETE (R414). -/
def retrainDone (s : State) (l mask reach : Nat) : State :=
  if s.present (7 + l) && s.fld (Reg.RELAY_LINK_STAT_STATE l) == 1 then s.trained l mask reach else s

/-! ### Groups (R415, R416) -/

/-- A link carries group traffic: it is not in use as the pair link. -/
def groupLink (s : State) (l : Nat) : Bool :=
  s.present (7 + l) && !(s.fld Reg.RELAY_PAIR_STAT_STATE != 0 && s.pairLink == l)

/-- A channel's Receipt. -/
def gchRcpt (s : State) (c : Nat) : Nat := s.rcptAddr (s.fld (Reg.RELAY_GCH_RCPT_WIN c)) (s.fld (Reg.RELAY_GCH_RCPT_RCPT c))

/-- A channel's buffer: address and bytes. -/
def gchSpan (s : State) (c : Nat) : Nat × Nat := (s.fld (Reg.RELAY_GCH_ADDR_ADDR c) * 64, s.fld (Reg.RELAY_GCH_CFG_LEN c) * 64)

/-- GROUP_SEND: the channel's Receipt has been posted. -/
def groupSend (s : State) (c : Nat) : State :=
  let m := s.fld (Reg.RELAY_GCH_CFG_PEER c)
  let l := s.routeOf m
  let (a, n) := s.gchSpan c
  if !s.flag Reg.RELAY_GRP_CFG_EN || !s.flag (Reg.RELAY_GCH_CFG_EN c) || s.flag (Reg.RELAY_GCH_CFG_DIR c) || s.boot.computeReset
    || !s.groupLink l || !s.sourceReads a n then s else
  match s.sourcePost (s.fld (Reg.RELAY_GCH_RCPT_WIN c)) (s.fld (Reg.RELAY_GCH_RCPT_RCPT c)) with
  | none => s
  | some (_, s) =>
    (s.relayOut l (.group l m (s.fld (Reg.RELAY_GCH_CFG_PEER_CH c)) (s.bytesAt a n))).bump (Reg.RELAY_GCH_CNT_TRANSFERS c)

/-- An arrival at a channel: data, Receipt, Tally (R26, R416). -/
def groupTake (s : State) (l c : Nat) (data : List Byte) : State :=
  let (a, n) := s.gchSpan c
  let pa := s.gchRcpt c
  let me := Producer.unit 0xA c
  if n < data.length then s.bump (Reg.RELAY_GCH_CNT_DROPS c) else
  match s.producerStart pa me true with
  | (.busy, s) => s
  | (tk, s) =>
    let s := if s.sourceReads a data.length then s.agentWrite a data else s
    let s := (s.producerPost pa me (match tk with | .overwritten q x => some (q, x) | _ => none) false 0xA 0x100 false).2
    let s := if !s.flag (Reg.RELAY_GCH_TALLY_EN c) then s
      else s.tallyPort (30 + l) (tallyAddr (s.fld (Reg.RELAY_GCH_TALLY_INDEX c)))
        fun s => s.tallyAdd (s.fld (Reg.RELAY_GCH_TALLY_INDEX c)) 1
    s.bump (Reg.RELAY_GCH_CNT_TRANSFERS c)

/-- GROUP_RECV: data for a member's channel arrives on a link; what is for another member is forwarded. -/
def groupRecv (s : State) (l dest c : Nat) (data : List Byte) : State :=
  if !s.flag Reg.RELAY_GRP_CFG_EN || s.fld (Reg.RELAY_LINK_STAT_STATE l) < 2 then s
  else if dest ≠ s.fld Reg.RELAY_GRP_CFG_INDEX then
    let k := s.routeOf dest
    if s.groupLink k then s.relayOut k (.group k dest c data) else s
  else if !s.flag (Reg.RELAY_GCH_CFG_EN c) || !s.flag (Reg.RELAY_GCH_CFG_DIR c) || s.boot.computeReset then s
  else s.groupTake l c data

/-! ### Image updates (R418) -/

/-- WRITE from the service port, FETCH from the partner: the image in the NOR is invalid from the first write. -/
def imgBegin (s : State) (fetch : Bool) : State :=
  if s.fld Reg.RELAY_IMG_STAT_STATE = 1 then s else
  let was := s.boot.nor
  let s : State := { s with
    boot := { s.boot with nor := { was with badSections := [Config.freeNat s.freeCtr 0 % 256] } }
    relay := { s.relay with img := [], fetch := fetch, norWas := some was } }
  ((((s.setFld Reg.RELAY_IMG_STAT_STATE 1).setFld Reg.RELAY_IMG_STAT_CRC_OK 0).setFld Reg.RELAY_IMG_STAT_ERR 0).setFld
    Reg.RELAY_IMG_STAT_DONE_KIB 0).bumpFree

/-- IMAGE_WRITE_COMPLETE. A refused fetch has written nothing. -/
def imgDone (s : State) (e : ImageEnd) : State :=
  if s.fld Reg.RELAY_IMG_STAT_STATE ≠ 1 then s else
  let s := s.setFld Reg.RELAY_IMG_STAT_STATE 0
  match e with
  | .failed => s.setFld Reg.RELAY_IMG_STAT_ERR 3
  | .refused =>
    if !s.relay.fetch then s.setFld Reg.RELAY_IMG_STAT_ERR 3 else
    ({ s with boot := { s.boot with nor := s.relay.norWas.getD s.boot.nor } } : State).setFld Reg.RELAY_IMG_STAT_ERR 2
  | .written ver data bad =>
    let bytes := if s.relay.fetch then data else s.relay.img
    let s : State := { s with boot := { s.boot with nor := { ver := ver, bytes := bytes, badSections := bad } } }
    ((s.setFld Reg.RELAY_IMG_STAT_STATE 2).setFld Reg.RELAY_IMG_STAT_CRC_OK (b2n bad.isEmpty)).setFld
      Reg.RELAY_IMG_STAT_DONE_KIB (bytes.length / 1024)

/-- ACTIVATE (R418, R420, R462). -/
def imgActivate (s : State) (r : Nat) : State :=
  if !s.flag Reg.RELAY_IMG_STAT_CRC_OK || (s.flag Reg.RELAY_PAIR_STAT_DUTY && s.fld Reg.RELAY_PAIR_STAT_STATE != 2) then
    s.setFld Reg.RELAY_IMG_STAT_ERR 1
  else if !s.isReady then s.setFld Reg.SYS_RESET_STAT_ERR 1
  else
    let s := (s.setFld Reg.RELAY_IMG_STAT_STATE 3).setFld Reg.RELAY_IMG_STAT_ERR 0
    ({ s with boot := { s.boot with shadow := some s.boot.nor } } : State).ssrBegin 3 r

/-- A command of RELAY_PAIR_CMD, with RELAY. -/
def pairCmd (s : State) (r : Nat) (f : State → State) : State := s.permit r 8 Reg.RELAY_PAIR_CMD f

/-- A command of RELAY_IMG_CMD, with RELAY. -/
def imgCmd (s : State) (r : Nat) (f : State → State) : State := s.permit r 8 Reg.RELAY_IMG_CMD f

end State

open State

/-- PAIR_FORM (R403). -/
def execPairForm (ready : Bool) (serial : W64) (pref duty : Bool) (s : State) : Host.Outcome State Fault Refusal :=
  .next (s.pairForm ready serial pref duty)

/-- PAIR_SYNCED (R403). -/
def execPairSynced (s : State) : Host.Outcome State Fault Refusal := .next s.pairSynced

/-- PAIR_HEARTBEAT (R405). -/
def execPairHeartbeat (alt : Bool) (rx : Option Heartbeat) (s : State) : Host.Outcome State Fault Refusal := .next (s.heartbeat alt rx)

/-- HEARTBEAT_LOSS (R405, R413). -/
def execHeartbeatLoss (alt : Bool) (s : State) : Host.Outcome State Fault Refusal := .next (s.heartbeatLoss alt)

/-- MIRROR_RECORD_APPLY (R406). -/
def execMirrorRecordApply (rec_ : MirrorRec) (s : State) : Host.Outcome State Fault Refusal := .next (s.applyRecord rec_)

/-- CONTEXT_CHECKPOINT (R408). -/
def execContextCheckpoint (c : CtxId) (s : State) : Host.Outcome State Fault Refusal := .next (s.checkpoint c.val)

/-- DUTY_TAKEOVER (R411). -/
def execDutyTakeover (yielded : Bool) (s : State) : Host.Outcome State Fault Refusal := .next (s.takeover yielded)

/-- DUTY_IN_FALL (R404). -/
def execDutyInFall (s : State) : Host.Outcome State Fault Refusal := .next s.dutyInLow

/-- HANDOVER (R411). -/
def execHandover (r : Requester) (s : State) : Host.Outcome State Fault Refusal := .next (s.pairCmd r.val handoverCmd)

/-- TAKE (R411). -/
def execTake (r : Requester) (s : State) : Host.Outcome State Fault Refusal :=
  .next (s.pairCmd r.val fun s => s.permit r.val 10 Reg.RELAY_PAIR_CMD fun s => s.takeCmd r.val)

/-- LEAVE (17). -/
def execLeave (r : Requester) (s : State) : Host.Outcome State Fault Refusal := .next (s.pairCmd r.val leaveCmd)

/-- RELAY_LINK_TRAIN (R397). -/
def execRelayLinkTrain (l : Fin 4) (mask reach : Byte) (s : State) : Host.Outcome State Fault Refusal :=
  .next (s.linkTrain l.val mask.toNat reach.toNat)

/-- RETRAIN (R414). -/
def execRetrain (r : Requester) (l : Fin 4) (s : State) : Host.Outcome State Fault Refusal :=
  .next (s.permit r.val 8 (Reg.RELAY_LINK_CTL l.val) fun s => s.retrainLink l.val)

/-- LINK_CRC_BURST (R414). -/
def execLinkCrcBurst (l : Fin 4) (n : W16) (s : State) : Host.Outcome State Fault Refusal := .next (s.crcBurst l.val n.toNat)

/-- LINK_RETRAIN_COMPLETE (R414). -/
def execLinkRetrainComplete (l : Fin 4) (mask reach : Byte) (s : State) : Host.Outcome State Fault Refusal :=
  .next (s.retrainDone l.val mask.toNat reach.toNat)

/-- GROUP_SEND (R416). -/
def execGroupSend (c : Fin 16) (s : State) : Host.Outcome State Fault Refusal := .next (s.groupSend c.val)

/-- GROUP_RECV (R415, R416). -/
def execGroupRecv (l : Fin 4) (dest : Fin 8) (c : Fin 16) (data : List Byte) (s : State) : Host.Outcome State Fault Refusal :=
  .next (s.groupRecv l.val dest.val c.val data)

/-- IMG_WRITE (R418). -/
def execImgWrite (r : Requester) (s : State) : Host.Outcome State Fault Refusal := .next (s.imgCmd r.val fun s => s.imgBegin false)

/-- IMG_FETCH (R418). -/
def execImgFetch (r : Requester) (s : State) : Host.Outcome State Fault Refusal := .next (s.imgCmd r.val fun s => s.imgBegin true)

/-- IMAGE_WRITE_COMPLETE (R418). -/
def execImageWriteComplete (e : ImageEnd) (s : State) : Host.Outcome State Fault Refusal := .next (s.imgDone e)

/-- ACTIVATE (R418). -/
def execActivate (r : Requester) (s : State) : Host.Outcome State Fault Refusal := .next (s.imgCmd r.val fun s => s.imgActivate r.val)

end Sys2Proof.Machine
end

