-- ==== Sys2Proof/Machine/Ports.lean ====
section
/-!
DEFINITION. The ports of 18 that commands reach: cameras (R425 to R427), slow buses (R431, R439), hot-plug lines (R437, R438),
and the links of PCIe and Ethernet (R398).
-/

namespace Sys2Proof.Machine

open Sys2Proof

namespace State

/-! ### Cameras (R425 to R427) -/

/-- A camera receiver. -/
def cam (s : State) (k : Nat) : CamUnit := mget (fun _ => {}) s.port.cams k

/-- Change a camera receiver. -/
def modCam (s : State) (k : Nat) (f : CamUnit → CamUnit) : State :=
  { s with port := { s.port with cams := mset (fun _ => {}) s.port.cams k (f (s.cam k)) } }

/-- An HPD line is high. -/
def hpd (s : State) (n : Nat) : Bool := bitAt (s.fld Reg.PORT_HP_STAT_LEVEL) n

/-- A frame ends: its number unwrapped, its timestamp, its flags, and whether it is dropped (R425, R427). -/
def frameEnd (s : State) (k : Nat) (c : CamFrame) : State :=
  let last := (s.cam k).last
  let num := unwrap last.isSome (last.getD 0) 16 c.num.toNat
  let w := s.fld (Reg.CAM_RCPT_WIN k)
  let pa := s.rcptAddr w (s.fld (Reg.CAM_RCPT_RCPT k))
  let drop := s.rcptWin pa == some w && !s.overMode w && rcptState (s.rcptWord pa) == 1
  let d : CamDone :=
    { num := num, stamp := s.laneVal (s.fld (Reg.CAM_CFG_LANE k)), lines := c.lines, crcErr := c.crcErr
      short := c.lines.length != s.fld (Reg.CAM_IN_SIZE_H k), drop := drop }
  s.modCam k fun x => { x with cur := none, done := x.done ++ [d], last := some num }

/-- CSI_PACKET. -/
def csiPacket (s : State) (k : Nat) (p : CsiPacket) : State :=
  if !s.flag (Reg.CAM_CFG_EN k) || !s.hpd k || !s.present 11 || s.boot.computeReset then s
  else if !p.headerOk then s.bump (Reg.CAM_STAT_ERR k)
  else if p.vc.val ≠ s.fld (Reg.CAM_CFG_VC k) then s
  else match p.body, (s.cam k).cur with
    | .frameStart n, _ => s.modCam k fun x => { x with cur := some { num := n } }
    | .frameEnd, some c => s.frameEnd k c
    | .line dt px, some c =>
      if dt.val ≠ s.fld (Reg.CAM_CFG_DT k) then s
      else s.modCam k fun x => { x with cur := some { c with lines := c.lines ++ [px], crcErr := c.crcErr || !p.crcOk } }
    | _, none => s

/-- A byte of the pixel data that the spec does not state: what rescaling and demosaicing give, and missing samples. -/
def freeByte (s : State) (i : Nat) : Byte := (Config.freeWord s.freeCtr i).setWidth 8

/-- A sample of a frame. -/
def camSample (d : CamDone) (y x : Nat) : Option W16 := (d.lines[y]?).bind fun (l : List W16) => l[x]?

/-- The pixels of a frame as its format stores them (R426): samples unchanged where no arithmetic is needed. -/
def pixels (s : State) (k : Nat) (d : CamDone) : List Byte :=
  let w := s.fld (Reg.CAM_SIZE_W k)
  let h := s.fld (Reg.CAM_SIZE_H k)
  let same := w == s.fld (Reg.CAM_IN_SIZE_W k) && h == s.fld (Reg.CAM_IN_SIZE_H k)
  let yuv := s.fld (Reg.CAM_CFG_DT k) == 0x1E
  let fmt := s.fld (Reg.CAM_CFG_OUT_FMT k)
  let row := if fmt = 1 then 3 * w else if fmt = 2 then w else 2 * w
  (List.range h).flatMap fun y => (List.range row).map fun i =>
    let v : Option Byte :=
      if !same then none
      else match fmt, yuv with
        | 0, false => (camSample d y (i / 2)).map fun (q : W16) => if i % 2 = 0 then q.setWidth 8 else (q >>> 8).setWidth 8
        | 2, true => (camSample d y (2 * i + 1)).map fun (q : W16) => q.setWidth 8
        | 3, true => (camSample d y i).map fun (q : W16) => q.setWidth 8
        | _, _ => none
    v.getD (s.freeByte (y * row + i))

/-- The 64-byte header (R426). -/
def camHeader (s : State) (k : Nat) (d : CamDone) (seq : Nat) : List Byte :=
  toBytes 8 d.stamp.toNat ++ toBytes 8 d.num.toNat ++ toBytes 8 seq ++ toBytes 2 (s.fld (Reg.CAM_SIZE_W k))
    ++ toBytes 2 (s.fld (Reg.CAM_SIZE_H k)) ++ toBytes 1 (s.fld (Reg.CAM_CFG_OUT_FMT k))
    ++ toBytes 1 (b2n d.crcErr + 2 * b2n d.short) ++ List.replicate 34 0

/-- Bytes that an agent writes to homes. Pages that are none are left out. -/
def writeHomes (s : State) (a : Nat) (bs : List Byte) : State :=
  if s.sourceReads a bs.length then s.agentWrite a bs else s

/-- FRAME_RECEIPT_POST: the buffer, the Receipt, the Tally (R26, R426). -/
def framePost (s : State) (k : Nat) : State :=
  match (s.cam k).done with
  | [] => s
  | d :: rest =>
    if d.drop then (s.modCam k fun x => { x with done := rest }).bump (Reg.CAM_STAT_DROP k) else
    let w := s.fld (Reg.CAM_RCPT_WIN k)
    let pa := s.rcptAddr w (s.fld (Reg.CAM_RCPT_RCPT k))
    let me := Producer.unit 9 k
    let seq0 := rcptSeq (s.rcptWord pa + 1)
    match s.producerStart pa me true with
    | (.busy, s) => s
    | (tk, s) =>
      let taken := match tk with
        | .overwritten q l => some (q, l)
        | _ => none
      let seq := (taken.map (·.1)).getD seq0
      let count := Nat.max (s.fld (Reg.CAM_CFG_COUNT k)) 1
      let a := 65536 * s.fld (Reg.CAM_BUF_BASE_ADDR k) + 65536 * (seq % count * s.fld (Reg.CAM_CFG_STRIDE k))
      let s := (s.modCam k fun x => { x with done := rest }).writeHomes a (s.camHeader k d seq ++ s.pixels k d)
      let s := (s.bumpFree.producerPost pa me taken false 9 0x100 false).2
      if s.flag (Reg.CAM_TALLY_EN k) then s.tallyAdd (s.fld (Reg.CAM_TALLY_INDEX k)) 1 else s

/-! ### Hot-plug (R437, R438) -/

/-- HPD_QUALIFIED: a debounced edge of a line. -/
def hpdEdge (s : State) (n : Nat) (up : Bool) : State :=
  if !s.boot.porHigh || s.hpd n == up then s else
  let bit := fun (f : Fld) => (⟨f.reg, f.lo + n, 1⟩ : Fld)
  let s := (s.setFld (bit Reg.PORT_HP_STAT_LEVEL) (b2n up)).setFld (bit Reg.PORT_HP_STAT_CHANGED) 1
  let s := s.setFld (bit (if up then Reg.PORT_HP_EVT_ARRIVED else Reg.PORT_HP_EVT_DEPARTED)) 1
  let s := if n < 8 then s.modCam n fun x => { x with cur := none, last := none } else s
  let s := if up || 8 ≤ n then s else
    ((List.range 16).filter fun l => s.flag (Reg.LANE_CFG_EN l) && s.laneSrc l == 4 && s.fld (Reg.LANE_CFG_SRC_IDX l) == n).foldl laneLost s
  if s.flag Reg.PORT_HP_CFG_TALLY_EN then s.tallyAdd (s.fld Reg.PORT_HP_CFG_TALLY) 1 else s

/-! ### Slow buses (R431, R439) -/

/-- A controller. -/
def bus (s : State) (b : Nat) : BusUnit := mget (fun _ => {}) s.port.buses b

/-- Change a controller. -/
def modBus (s : State) (b : Nat) (f : BusUnit → BusUnit) : State :=
  { s with port := { s.port with buses := mset (fun _ => {}) s.port.buses b (f (s.bus b)) } }

/-- A word of BUS_RX: kind, address, up to two bytes in the low bits; three do not fit beside the address (assumption 65). -/
def rxWord (kind addr : Nat) (bs : List Byte) : W32 :=
  BitVec.ofNat 32 (2 ^ 30 * (kind % 4) + 2 ^ 23 * (addr % 128) + ofBytes (bs.take 2))

/-- Bytes in words of BUS_RX, two to a word. -/
def rxWords (kind addr : Nat) : List Byte → List W32
  | a :: b :: t => rxWord kind addr [a, b] :: rxWords kind addr t
  | [a] => [rxWord kind addr [a]]
  | [] => []

/-- The controller can deliver a further word. -/
def rxRoom (s : State) (b : Nat) : Bool := decide ((s.bus b).rx.length < 64)

/-- Push words for BUS_RX; what does not fit waits in the controller. -/
def rxPush (s : State) (b : Nat) (ws : List W32) : State := s.modBus b fun x => { x with rx := x.rx ++ ws }

/-- The command at the head of BUS_TX, when all its words are there: OP, address, data, what follows. -/
def busHead (s : State) (b : Nat) : Option (Nat × Nat × List Byte × List W32) :=
  match (s.bus b).tx with
  | [] => none
  | w :: t =>
    let v := w.toNat
    let op := v / 2 ^ 28
    let n := v / 256 % 256
    let more := if op = 1 then (n - 1 + 3) / 4 else 0
    if t.length < more then none else
    let bytes := BitVec.ofNat 8 v :: (t.take more).flatMap fun q => toBytes 4 q.toNat
    some (op, v / 2 ^ 21 % 128, bytes.take n, t.drop more)

/-- An OP or a byte count that is none, and ENTDAA on an SPI controller. -/
def busBad (b op n : Nat) : Bool := !(inRange 1 4 op) || ((op == 1 || op == 2) && n == 0) || (op == 3 && decide (4 ≤ b))

/-- Execute the head command of a controller, when it has this OP. A command with an undefined OP ends with an error word. -/
def busRun (s : State) (b op : Nat) (f : State → Nat → Nat → List Byte → State) : State :=
  if !s.flag (Reg.BUS_CFG_EN b) || !s.rxRoom b then s else
  match s.busHead b with
  | none => s
  | some (o, addr, bytes, rest) =>
    let n := (((s.bus b).tx.headD 0).toNat / 256) % 256
    if busBad b o n then (s.modBus b fun x => { x with tx := rest }).rxPush b [rxWord 3 addr []]
    else if o ≠ op then s
    else f (s.modBus b fun x => { x with tx := rest }) addr n bytes

/-- BUS_WRITE: `ok` is false where the target does not acknowledge. RSTDAA ends every address of the bus. -/
def busWrite (s : State) (b : Nat) (ok : Bool) : State :=
  s.busRun b 1 fun s addr _ bytes =>
    if !ok then s.rxPush b [rxWord 3 addr []] else
    let s := s.emit (.bus b addr bytes)
    if b < 4 ∧ addr = 0x7E ∧ bytes.head? = some 6 then s.modBus b fun x => { x with targets := [] } else s

/-- BUS_READ: the bytes that the target returns, or none where it does not acknowledge. -/
def busRead (s : State) (b : Nat) (res : Option (List Byte)) : State :=
  s.busRun b 2 fun s addr n _ =>
    let s := s.emit (.busRead b addr n)
    match res with
    | none => s.rxPush b [rxWord 3 addr []]
    | some bs => s.rxPush b (rxWords 0 addr (bs.take n))

/-- New dynamic addresses, at most eleven on a bus. -/
def busAssign (s : State) (b : Nat) (addrs : List Nat) : State :=
  s.modBus b fun x => { x with targets := (x.targets ++ addrs.filter fun a => !x.targets.contains a).take 11 }

/-- ENTDAA. -/
def busEntdaa (s : State) (b : Nat) (addrs : List Nat) : State :=
  s.busRun b 3 fun s _ _ _ => (s.busAssign b addrs).emit (.entdaa b addrs)

/-- BUS_STOP. -/
def busStop (s : State) (b : Nat) : State := s.busRun b 4 fun s addr _ _ => s.emit (.busStop b addr)

/-- The word a read of BUS_RX pops: 0 when the FIFO is empty. -/
def busPop (s : State) (b : Nat) : W32 × State :=
  match (s.bus b).rx with
  | [] => (0, s)
  | w :: t => (w, s.modBus b fun x => { x with rx := t })

/-- IN_BAND_INTERRUPT: it waits while BUS_RX is full. -/
def busIbi (s : State) (b addr : Nat) (data : List Byte) : State :=
  if s.flag (Reg.BUS_CFG_EN b) && s.rxRoom b then s.rxPush b (if data.isEmpty then [rxWord 1 addr []] else rxWords 1 addr data) else s

/-- HOT_JOIN (R439). -/
def hotJoin (s : State) (b addr : Nat) : State :=
  if !s.flag (Reg.BUS_CFG_EN b) then s
  else if s.flag (Reg.BUS_CFG_HJ_EN b) && decide ((s.bus b).targets.length < 11) then
    if s.rxRoom b && !(s.bus b).targets.contains addr then ((s.busAssign b [addr]).emit (.entdaa b [addr])).rxPush b [rxWord 2 addr []]
    else s
  else (s.emit (.disec b)).bump (Reg.BUS_STAT_REFUSED b)

/-! ### Links (R398) -/

/-- PORT_DOWN (Table 20-5). -/
def portDown (s : State) (cls inst : Nat) (partner : Bool) : State :=
  s.note 6 0x81 (BitVec.ofNat 64 (2 ^ 16 * b2n (!partner) + 2 ^ 8 * inst + cls))

/-- PCIE_LINK_CHANGE: width and rate, and whether a link partner is there. -/
def pcieLink (s : State) (width rate : Nat) (partner : Bool) : State :=
  if !s.boot.porHigh then s else
  let up := width != 0 && rate != 0
  let s := (s.setFld Reg.PORT_PCIE_STAT_ROOT (b2n !s.boot.strapEp)).setFld Reg.PORT_PCIE_STAT_UP (b2n up)
  let s := (s.setFld Reg.PORT_PCIE_STAT_WIDTH (if up then width else 0)).setFld Reg.PORT_PCIE_STAT_RATE (if up then rate else 0)
  let s := if partner && (width < 8 || rate < 5) then s.linkDegraded (if up then width else 0) 0 4 else s
  if up then s else s.portDown 1 0 partner

/-- ETH_LINK_CHANGE. -/
def ethLink (s : State) (p : Nat) (up partner : Bool) : State :=
  if !s.boot.porHigh then s else
  let s := s.setFld (Reg.NET_PORT_CNT_LINK p) (b2n up)
  if up then s else s.portDown 2 p partner

/-- A control-space read needs any right but JUDGE (R433). -/
def mayRead (s : State) (r : Nat) : Bool := Nat.land (s.standing r) 0x17FF != 0

end State

open State

/-- CSI_PACKET (R425). -/
def execCsiPacket (k : Fin 8) (p : CsiPacket) (s : State) : Host.Outcome State Fault Refusal := .next (s.csiPacket k.val p)

/-- FRAME_RECEIPT_POST (R426). -/
def execFrameReceiptPost (k : Fin 8) (s : State) : Host.Outcome State Fault Refusal := .next (s.framePost k.val)

/-- HPD_QUALIFIED (R437). -/
def execHpdQualified (n : Fin 16) (up : Bool) (s : State) : Host.Outcome State Fault Refusal := .next (s.hpdEdge n.val up)

/-- BUS_WRITE (R431). -/
def execBusWrite (b : Fin 6) (ok : Bool) (s : State) : Host.Outcome State Fault Refusal := .next (s.busWrite b.val ok)

/-- BUS_READ (R431). -/
def execBusRead (b : Fin 6) (res : Option (List Byte)) (s : State) : Host.Outcome State Fault Refusal := .next (s.busRead b.val res)

/-- ENTDAA (R431). -/
def execEntdaa (b : Fin 6) (addrs : List (Fin 128)) (s : State) : Host.Outcome State Fault Refusal :=
  .next (s.busEntdaa b.val (addrs.map (·.val)))

/-- BUS_STOP (R431). -/
def execBusStop (b : Fin 6) (s : State) : Host.Outcome State Fault Refusal := .next (s.busStop b.val)

/-- BUS_RX_READ (R431). -/
def execBusRxRead (r : Requester) (b : Fin 6) (s : State) : Host.Outcome State Fault Refusal :=
  .next (if s.mayRead r.val then
    let (w, s) := s.busPop b.val
    s.answer r.val .ok (w.setWidth 64) (toBytes 4 w.toNat)
  else (s.deny r.val 0xD (0xF0000000 + Reg.BUS_RX b.val)).answer r.val .denied)

/-- IN_BAND_INTERRUPT (R431). -/
def execInBandInterrupt (b : Fin 4) (addr : Fin 128) (data : List Byte) (s : State) : Host.Outcome State Fault Refusal :=
  .next (s.busIbi b.val addr.val data)

/-- HOT_JOIN (R439). -/
def execHotJoin (b : Fin 4) (addr : Fin 128) (s : State) : Host.Outcome State Fault Refusal := .next (s.hotJoin b.val addr.val)

/-- PCIE_LINK_CHANGE (R398). -/
def execPcieLinkChange (width : Fin 9) (rate : Fin 6) (partner : Bool) (s : State) : Host.Outcome State Fault Refusal :=
  .next (s.pcieLink width.val rate.val partner)

/-- ETH_LINK_CHANGE (R398). -/
def execEthLinkChange (p : Fin 4) (up partner : Bool) (s : State) : Host.Outcome State Fault Refusal := .next (s.ethLink p.val up partner)

end Sys2Proof.Machine
end

