-- ==== Sys2Proof/Machine/Power.lean ====
section
/-!
DEFINITION. Power, temperature, droop and clocks (19): the cap controller, the thermal limit, stretched cycles, and PLLs that
lose lock.
-/

namespace Sys2Proof.Machine

open Sys2Proof

namespace State

/-- Change the power side. -/
def modPwr (s : State) (f : PowerUnit → PowerUnit) : State := { s with power := f s.power }

/-! ### The cap (R451, R452) -/

/-- EFFECTIVE: the lower of WATTS, clamped, and the thermal limit. -/
def effCap (s : State) : State :=
  s.setFld Reg.PWR_CAP_EFFECTIVE (Nat.min (Nat.min (Nat.max (s.fld Reg.PWR_CAP_WATTS) 35) 180) s.power.limit)

/-- The average lies above the effective cap. -/
def overCap (s : State) : Bool := decide (100 * s.fld Reg.PWR_CAP_EFFECTIVE < s.fld Reg.PWR_MEAS_AVG)

/-- POWER_SAMPLE: 10 µs of input power in 0.01 W, and the FIELD_CLK cycles that cap gaps held a Heat idle. -/
def powerSample (s : State) (w gap : Nat) : State :=
  if !s.boot.porHigh then s else
  let l := (w :: s.power.samples).take 100
  let s := (s.modPwr fun p => { p with samples := l }).effCap
  let s := s.setFld Reg.PWR_MEAS_AVG (l.foldl (· + ·) 0 / l.length)
  let s := s.setFld Reg.PWR_MEAS_PEAK (Nat.max (s.fld Reg.PWR_MEAS_PEAK) w)
  let s := if s.power.step = 0 then s else s.rise Reg.PWR_GAP_CYC_ALL gap
  let aboveCap := s.overCap
  let low := decide (300 + s.fld Reg.PWR_MEAS_AVG < 100 * s.fld Reg.PWR_CAP_EFFECTIVE)
  let s := s.modPwr fun p => { p with
    step := if aboveCap then Nat.min (p.step + 1) 7 else if low then p.step - 1 else p.step
    overAt := if aboveCap && p.step == 7 then some (p.overAt.getD s.uptime) else none }
  s.setFld Reg.PWR_STAT_CAPPING (b2n (s.power.step != 0))

/-- CAP_UNMET: after 10 ms with every reduction applied, or while only unreducible work runs. -/
def capUnmet (s : State) (unreducible : Bool) : State :=
  let long := s.power.overAt.any fun t => decide (10000000 ≤ (s.uptime - t).toNat)
  if s.boot.porHigh && s.overCap && (unreducible || long) then s.setFld Reg.PWR_STAT_CAP_UNMET 1 else s

/-! ### Temperature (R454) -/

/-- HOT_C as it acts. -/
def hotC (s : State) : Int := (Nat.min (Nat.max (s.fld Reg.PWR_THERM_HOT_C) 85) 110 : Nat)

/-- TEMP_C as a number. -/
def tempC (s : State) : Int := sext 8 (s.fld Reg.PWR_THERM_TEMP_C)

/-- The largest number of a list. -/
def maxInt : List Int → Int
  | [] => 0
  | [a] => a
  | a :: t => Max.max a (maxInt t)

/-- TEMP_SAMPLE: the eight sensors in units of 0.25 °C, less their TRIM offsets (R388). How TEMP_C rounds is not stated. -/
def tempSample (s : State) (raw : List (BitVec 10)) : State :=
  if !s.boot.porHigh || raw.isEmpty then s else
  let q := maxInt (((raw.take 8).zipIdx).map fun e => e.1.toInt - (mget (fun _ => (0 : Byte)) s.boot.mint.trim (0x060 + e.2)).toInt)
  let c := Int.fdiv q 4 + (b2n (Int.fmod q 4 != 0 && Config.freeBit s.freeCtr 0) : Nat)
  let c := Max.max (-128) (Min.min c 127)
  let byte := fun (v : Int) => (BitVec.ofInt 8 v).toNat
  let s := s.bumpFree.setFld Reg.PWR_THERM_TEMP_C (byte c)
  let pk := (s.power.peakC.map fun p => Max.max p c).getD c
  let s := (s.modPwr fun p => { p with peakC := some pk }).setFld Reg.PWR_THERM_PEAK_C (byte pk)
  let s := s.setFld Reg.PWR_STAT_THERM_HOT (b2n (decide (s.hotC < s.tempC)))
  if 460 ≤ q then s.setFld Reg.PWR_STAT_THERM_TRIP 1 else s

/-- THERMAL_LIMIT_STEP: every 10 ms. -/
def limitStep (s : State) : State :=
  if !s.boot.porHigh then s else
  let t := s.tempC
  (s.modPwr fun p => { p with
    limit := if s.hotC < t then Nat.max (p.limit - 5) 35 else if t < s.hotC - 5 then Nat.min (p.limit + 5) 180 else p.limit }).effCap

/-! ### Droop (R449, R450) -/

/-- DROOP_TRIP. -/
def droopTrip (s : State) (n : Nat) : State :=
  if !s.boot.porHigh then s else
  (s.modPwr fun p => { p with tripped := if p.tripped.contains n then p.tripped else p.tripped ++ [n] }).setFld
    Reg.PWR_DROOP_LAST_SENSOR n

/-- DROOP_RECOVER: a sensor clears; when it was the last, the cycles lengthened meanwhile, and the most in any window of
1,024. -/
def droopRecover (s : State) (n cycles worst : Nat) : State :=
  if !s.power.tripped.contains n then s else
  let s := s.modPwr fun p => { p with tripped := p.tripped.filter (· != n) }
  if !s.power.tripped.isEmpty then s else
  let s := s.rise Reg.PWR_STRETCH_CYC_ALL cycles
  if 200 < worst then s.setFld Reg.PWR_STAT_STRETCH_OVER 1 else s

/-! ### PLLs (R455) -/

/-- PLL_UNLOCK: PLL 0 holds the core clocks' domains in reset, PLL 1 the island's. -/
def pllUnlock (s : State) (k : Nat) : State :=
  if !s.boot.porHigh || s.power.unlocked.contains k then s else
  let s := (s.modPwr fun p => { p with unlocked := p.unlocked ++ [k] }).setFld ⟨Reg.PWR_STAT, 8 + k, 1⟩ 1
  match k with
  | 0 => s.resetCompute.enterHold 1
  | 1 => s.islandToReset
  | _ => s

/-- PLL_RELOCK. -/
def pllRelock (s : State) (k : Nat) : State :=
  if !s.power.unlocked.contains k then s else
  let s := s.modPwr fun p => { p with unlocked := p.unlocked.filter (· != k) }
  match k with
  | 0 => if s.isReady then { s with boot := { s.boot with computeReset := false } } else s
  | 1 => if s.boot.islRel then s.islandRelease else s
  | _ => s

end State

open State

/-- POWER_SAMPLE (R451). -/
def execPowerSample (w : W16) (gap : W32) (s : State) : Host.Outcome State Fault Refusal := .next (s.powerSample w.toNat gap.toNat)

/-- CAP_UNMET (R452). -/
def execCapUnmet (unreducible : Bool) (s : State) : Host.Outcome State Fault Refusal := .next (s.capUnmet unreducible)

/-- TEMP_SAMPLE (R454). -/
def execTempSample (raw : List (BitVec 10)) (s : State) : Host.Outcome State Fault Refusal := .next (s.tempSample raw)

/-- THERMAL_LIMIT_STEP (R454). -/
def execThermalLimitStep (s : State) : Host.Outcome State Fault Refusal := .next s.limitStep

/-- DROOP_TRIP (R449). -/
def execDroopTrip (n : Fin 64) (s : State) : Host.Outcome State Fault Refusal := .next (s.droopTrip n.val)

/-- DROOP_RECOVER (R449, R450). -/
def execDroopRecover (n : Fin 64) (cycles : W64) (worst : Fin 1025) (s : State) : Host.Outcome State Fault Refusal :=
  .next (s.droopRecover n.val cycles.toNat worst.val)

/-- PLL_UNLOCK (R455). -/
def execPllUnlock (k : Fin 12) (s : State) : Host.Outcome State Fault Refusal := .next (s.pllUnlock k.val)

/-- PLL_RELOCK (R455). -/
def execPllRelock (k : Fin 12) (s : State) : Host.Outcome State Fault Refusal := .next (s.pllRelock k.val)

end Sys2Proof.Machine
end

