-- ==== Sys2Proof/Machine/Ledger.lean ====
section
/-!
DEFINITION. The incident ledger as software sees it (20): clearing counters, records and notes, and the latch of a
record that is being read.
-/

namespace Sys2Proof.Machine

open Sys2Proof

namespace State

/-- A counter and its two records are cleared (R468). -/
def clearCounter (s : State) (n : Nat) : State :=
  (List.range 8).foldl (fun s w => s.setReg (Reg.INC_REC n w) 0) (s.setFld (Reg.INC_CNT_COUNT n) 0)

/-- CLEAR_ALL: every counter and record (R468). -/
def clearAll (s : State) : State := (List.range 13).foldl clearCounter s

/-- CLEAR_ONE: one counter and its records; an INDEX above 12 names none (R468). -/
def clearOne (s : State) (n : Nat) : State := if n < 13 then s.clearCounter n else s

/-- CLEAR_NOTES: the ring; SYS_NOTE_SEQ goes on (R468). -/
def clearNotes (s : State) : State :=
  (List.range 64).foldl (fun s i => (List.range 4).foldl (fun s w => s.setReg (Reg.SYS_NOTE i w) 0) s) s

/-- SYS_INC_CMD (R468). -/
def incCommand (s : State) (op index : Nat) : State :=
  if op = 1 then s.clearAll else if op = 2 then s.clearOne index else if op = 3 then s.clearNotes else s

/-- The offset of word 0 of a record: FIRST and LAST of counter n are records 2n and 2n + 1, note i is record 26 + i. -/
def recBase (n : Nat) : Nat := if n < 26 then 0x1000 + 0x20 * n else 0x2000 + 0x20 * (n - 26)

/-- An offset lies in the records or the notes (Table 20-4). -/
def isRec (off : Nat) : Bool := (decide (0x1000 ≤ off) && decide (off < 0x1340)) || (decide (0x2000 ≤ off) && decide (off < 0x2800))

/-- A 64-bit read of word 0 latches words 1 to 3 for the reader (R466). -/
def recLatchAt (s : State) (r base : Nat) : State :=
  let v := some (base / 0x20, [s.reg (base + 8), s.reg (base + 16), s.reg (base + 24)])
  { s with recLatch := mset (fun _ => none) s.recLatch r v }

/-- A word of a record as a requester sees it: latched once it has read word 0 of that record (R466). -/
def recShown (s : State) (r off : Nat) : W64 :=
  match mget (fun _ => none) s.recLatch r with
  | some (n, ws) => if n = off / 0x20 ∧ off % 0x20 ≠ 0 then ws.getD (off % 0x20 / 8 - 1) 0 else s.reg off
  | none => s.reg off

end State

open State

/-- CLEAR_ALL (R468). -/
def execClearAll (r : Requester) (s : State) : Host.Outcome State Fault Refusal :=
  .next (s.permit r.val 9 Reg.SYS_INC_CMD fun s => s.incCommand 1 0)

/-- CLEAR_ONE (R468). -/
def execClearOne (r : Requester) (n : Fin 16) (s : State) : Host.Outcome State Fault Refusal :=
  .next (s.permit r.val 9 Reg.SYS_INC_CMD fun s => s.incCommand 2 n.val)

/-- CLEAR_NOTES (R468). -/
def execClearNotes (r : Requester) (s : State) : Host.Outcome State Fault Refusal :=
  .next (s.permit r.val 9 Reg.SYS_INC_CMD fun s => s.incCommand 3 0)

/-- INCIDENT_RECORD_READ (R466): a 64-bit read of word 0 of a record or note. -/
def execIncidentRecordRead (r : Requester) (rec_ : Fin 90) (s : State) : Host.Outcome State Fault Refusal :=
  .next (s.readBy r.val (recBase rec_.val) fun s => (s.recLatchAt r.val (recBase rec_.val)).answer r.val .ok (s.reg (recBase rec_.val)))

end Sys2Proof.Machine
end

