-- ==== Sys2Proof/Machine/Control.lean ====
section
/-!
DEFINITION. Control space as its requesters read and write it (R12 to R15, R35 to R39, R433): what each register shows,
what its read or write does, and which right a write needs.
-/

namespace Sys2Proof.Machine

open Sys2Proof

namespace State

/-! ### Registers that show what the units hold -/

/-- A number with a value at a place. -/
def at_ (lo v : Nat) : Nat := v * 2 ^ lo

/-- How many of some things satisfy a test. -/
def countOf {α : Type} (l : List α) (f : α → Bool) : Nat := (l.filter f).length

/-- A staging copy (R432), or a register whose selection is kept for each requester (R311). -/
def isStaged (k : Nat) : Bool :=
  (decide (0x11000 ≤ k) && decide (k < 0x11028)) || (decide (0x20010 ≤ k) && decide (k < 0x20048))
    || (decide (0x30000 ≤ k) && decide (k < 0x30018)) || (decide (0x30100 ≤ k) && decide (k < 0x30110))
    || (decide (0x30200 ≤ k) && decide (k < 0x30228)) || (decide (0x40050 ≤ k) && decide (k < 0x40060))
    || (decide (0x70000 ≤ k) && decide (k < 0x70020)) || k == 0x82000 || (decide (0x90060 ≤ k) && decide (k < 0x9008C))
    || (decide (0x80400 ≤ k) && decide (k < 0x81400) && decide (0x20 ≤ k % 0x40))

/-- The key under which a requester's register stands. -/
def keyOf (r k : Nat) : Nat := if isStaged k then stg r k else k

/-- SYS_INC_STAT. -/
def incStat (s : State) : Nat :=
  let c := fun n => s.fld (Reg.INC_CNT_COUNT n)
  at_ 16 (bitsWhere 13 fun n => decide (0 < c n)) + bitsWhere 13 fun n => c n == 0xFFFF

/-- START_STAT: CFG_ERR as it stands, the occupancy as it is. -/
def startStat (s : State) : Nat :=
  at_ 31 (s.fld Reg.START_STAT_CFG_ERR) + at_ 30 (b2n s.starter.swap.isSome)
    + at_ 16 (countOf s.ctxIds fun c => s.defined c) + s.slotted.length

/-- TELLER_STAT. -/
def tellerStat (s : State) : Nat :=
  at_ 31 (s.fld Reg.TELLER_STAT_INVAL_BUSY) + at_ 16 s.teller.paces.length + s.movesInFlight

/-- FIELD_STAT. -/
def fieldStat (s : State) : Nat :=
  at_ 20 s.field.excluded.length + at_ 13 (bitsWhere 7 s.posWithdrawn) + at_ 10 s.field.layout
    + bitsWhere 7 fun p => s.heatOps.any fun e => e.2.2 == p

/-- FIELD_TILE_INFO of the selected tile. -/
def tileInfo (s : State) : Nat :=
  let t := s.fld Reg.FIELD_TILE_SEL_INDEX
  if 2112 ≤ t then 0 else
  let m := s.boot.mint
  let fuseBad := m.tileBad.contains t || s.fenced t || m.added.contains (defectEntry 0 t)
  let at2 := fun (st l : Nat) => at_ 30 st + at_ 16 (l / 32) + at_ 8 (l % 32)
  let place := if s.field.excluded.contains t then at2 2 0
    else if s.field.withdrawn.contains t then at2 3 0
    else match s.boundTo t with
      | some l => at2 0 l
      | none => at2 1 0
  place + at_ 29 (b2n fuseBad) + at_ 28 (b2n (s.field.testBad.contains t)) + at_ 7 1

/-- SPRINT_ENG_STAT_e: the binding's fields as they stand. -/
def engStat (s : State) (e : Nat) : Nat :=
  2 ^ 29 * ((s.reg (Reg.SPRINT_ENG_STAT e)).toNat % 2 ^ 31 / 2 ^ 29) + 2 ^ 8 * ((s.reg (Reg.SPRINT_ENG_STAT e)).toNat % 2 ^ 28 / 2 ^ 8)
    + at_ 31 (b2n (s.mappedOut e)) + at_ 28 (b2n (!(s.runningOn 1 e).isEmpty))
    + Nat.min 255 (countOf s.ctxIds fun c => (s.ctx c).swinEng == some e)

/-- HURDLE_STAT. -/
def hurdleStat (s : State) : Nat :=
  let waits := !(s.waitingOps .hurdle fun (m : Mn) => m == Mn.khmap).isEmpty
  2 ^ 30 * ((s.reg Reg.HURDLE_STAT).toNat / 2 ^ 30) + at_ 29 (b2n (!s.hurdle.runs.isEmpty)) + at_ 28 (b2n waits)
    + s.fld Reg.HURDLE_STAT_NODES_FREE

/-- BUS_STAT_b. -/
def busStat (s : State) (b : Nat) : Nat :=
  let u := s.bus b
  at_ 24 (s.fld (Reg.BUS_STAT_REFUSED b)) + at_ 20 u.targets.length + at_ 7 (Nat.min 64 u.rx.length) + (64 - u.tx.length)

/-- The head of the timestamp FIFO. -/
def tsHead (s : State) : W32 × W64 := s.net.ts.headD (0, 0)

/-- What a register that starts at an offset reads as, to a requester, before any side effect of the read. -/
def shown (s : State) (r k : Nat) : W64 :=
  let n := fun (v : Nat) => BitVec.ofNat 64 v
  if k = Reg.SYS_INC_STAT then n s.incStat
  else if k < 0x10000 && isRec k then s.recShown r k
  else if 0x10000 ≤ k ∧ k < 0x10400 ∧ k % 0x40 = 0x30 then s.epochSeen r ((k - 0x10000) / 0x40)
  else if 0x12000 ≤ k ∧ k < 0x12200 ∧ k % 0x10 = 8 then (s.fifo ((k - 0x12000) / 0x10)).headD 0
  else if k = Reg.START_STAT then n s.startStat
  else if k = Reg.TELLER_STAT then n s.tellerStat
  else if k = Reg.TELLER_CLAIMS then n s.claimCount
  else if k = Reg.FIELD_STAT then n s.fieldStat
  else if k = Reg.FIELD_TILE_INFO then n s.tileInfo
  else if 0x60000 ≤ k ∧ k < 0x60200 ∧ k % 0x40 = 0 then n (s.engStat ((k - 0x60000) / 0x40))
  else if k = Reg.STREAM_STAT then s.streamStat
  else if k = Reg.STREAM_REGISTERED then n s.strms.length
  else if 0x80000 ≤ k ∧ k < 0x80400 ∧ k % 0x40 = 4 then
    let p := (k - 0x80000) / 0x40
    n ((s.reg k).toNat + at_ 28 (b2n (s.pacerRuns p && s.srcHeld p)))
  else if 0x81800 ≤ k ∧ k < 0x81980 ∧ k % 0x20 = 8 then
    if s.pairForced ((k - 0x81800) / 0x20) then 0x3F else s.reg k
  else if k = Reg.HURDLE_STAT then n s.hurdleStat
  else if k = Reg.TS_META then s.tsHead.1.setWidth 64
  else if k = Reg.TS_DATA then s.tsHead.2
  else if 0xE0000 ≤ k ∧ k < 0xE0094 then n (s.standing ((k - 0xE0000) / 4))
  else if 0xE0100 ≤ k ∧ k < 0xE0110 then n (Nat.land (s.reg k).toNat (s.standing 18))
  else if 0xE3000 ≤ k ∧ k < 0xE30C0 ∧ k % 0x20 = 8 then ((s.bus ((k - 0xE3000) / 0x20)).rx.headD 0).setWidth 64
  else if 0xE3000 ≤ k ∧ k < 0xE30C0 ∧ k % 0x20 = 0xC then n (s.busStat ((k - 0xE3000) / 0x20))
  else s.reg (keyOf r k)

/-! ### Presence (R4) and rights (R433) -/

/-- The unit or instance whose absence leaves an offset of control space reading 0. -/
def unitAt (off : Nat) : Option Nat :=
  match off / 0x10000 with
  | 5 => some 0
  | 6 => some 1
  | 7 => some 2
  | 10 => some 3
  | 9 => some 4
  | 8 => some 5
  | 11 => if 0xB1000 ≤ off then some 12 else none
  | 12 => if off < 0xC0040 then some (7 + (off - 0xC0000) / 0x10) else none
  | 14 => if 0xE2000 ≤ off ∧ off < 0xE3000 then some 11 else none
  | _ => none

/-- An offset of control space belongs to an absent unit. -/
def absentAt (s : State) (off : Nat) : Bool := (unitAt off).any fun (u : Nat) => !s.present u

/-- The right a write needs (Table 18-7): none outside the blocks, none that would do in the JUDGE block. -/
def writeRight (off : Nat) : Option Nat :=
  match off / 0x10000 with
  | 0 => some 9
  | 1 => some 5
  | 2 => some 3
  | 3 => if 0x30100 ≤ off ∧ off < 0x30400 then some 3 else some 2
  | 4 => some 3
  | 5 => some 4
  | 6 => some 4
  | 7 => some 3
  | 8 => some 4
  | 9 => some 4
  | 10 => some 4
  | 11 => if off < 0xB1000 then some 5 else some 7
  | 12 => some 8
  | 13 => some 0xE
  | 14 => if 0xE2000 ≤ off then some 4 else some 9
  | 15 => some 9
  | _ => none

/-- LANE_STEP_FORCE of some Lane. -/
def isStepForce (off : Nat) : Bool := decide (0x10000 ≤ off) && decide (off < 0x10400) && decide (0x28 ≤ off % 0x40 ∧ off % 0x40 < 0x30)

/-- The right that a write of a value lacks, if any (R50, R310, R433, R435): ISLAND_CTL.HOLD = 0 is let through for HWCUE
as for UNIT, and the island refuses it where it must. -/
def lacks (s : State) (r off : Nat) (v : W64) : Option Nat :=
  match writeRight off with
  | none => none
  | some 0xE => some 0xE
  | some q =>
    if isStepForce off then (if hwPath r && s.holds r 6 then none else some 6)
    else if s.holds r q || (off == Reg.ISLAND_CTL && !v.getLsbD 0 && s.holds r 6) then none
    else if off == Reg.ISLAND_CTL && !v.getLsbD 0 then some 6
    else some q

/-! ### Memory behind windows -/

/-- An offset of the PACER memory window, the FUSION tables, or the NET buffers, lists, tables and slots. -/
def isWindow (off : Nat) : Bool :=
  (decide (0x88000 ≤ off) && decide (off < 0x90000)) || (decide (0x98000 ≤ off) && decide (off < 0x9E000))
    || (decide (0xB4000 ≤ off) && decide (off < 0xC0000))

/-- The FUSION tables lie at an offset of the block: transform banks, EGO, sensor models, motion models (R326, R330). -/
def isFtab (o : Nat) : Bool := decide (o < 0xA040) || decide (0xB000 ≤ o)

/-- A word of a window. -/
def windowRead (s : State) (r off : Nat) : W32 :=
  let bytes := fun (f : Nat → Byte) => BitVec.ofNat 32 (ofBytes ((List.range 4).map f))
  if off < 0x90000 then (if s.island.reset then 0 else s.winRead r (off - 0x80000))
  else if off < 0xA0000 then
    let o := off - 0x90000
    if isFtab o then bytes fun i => s.ftab (o + i) else 0
  else
    let o := off - 0xB0000
    if o < 0x6000 then bytes fun i => mget (fun _ => 0) s.net.rxb (o + i)
    else if o < 0x8000 then BitVec.ofNat 32 (s.ntab o)
    else bytes fun i => s.slotByte (o + i)

/-- The bits of an entry's word that software sets, by its offset in the NET block (R428, Tables 18-12 to 18-15). -/
def ntabRw (o : Nat) : Nat :=
  let w := o % 0x20 / 4
  if o < 0x7000 then 0xFFFFFFFF
  else if o < 0x7800 then [0xFFFFFFFF, 0x3FFFFFFF, 0x3FFF3FFF, 0x3, 0, 0, 0, 0].getD w 0
  else if o < 0x7A00 then [0x0FFF7FF7, 0xFFFFFFFF, 0xFFFFFFFF, 0xFFFFFFFF].getD (w % 4) 0
  else if o < 0x7C00 then 0xF8FFFFFF
  else [0xFFFFFF07, 0xFFFFFFFF, 0xFFFF3F0F, 0xFFFF, 0, 0, 0, 0].getD w 0

/-- The fields of an entry's word that the bridge sets and software clears by writing 0: place and length (R444). -/
def ntabClear (o : Nat) : List (Nat × Nat) :=
  let w := o % 0x20 / 4
  if o < 0x7000 then []
  else if o < 0x7800 then (if w = 3 then [(2, 1)] else if w = 4 then [(0, 16), (16, 16)] else if w = 5 then [(0, 16)] else [])
  else if o < 0x7A00 then (if w % 4 = 0 then [(3, 1)] else [])
  else if o < 0x7C00 then []
  else if w = 3 then [(16, 16)] else if w = 4 ∨ w = 5 ∨ w = 6 then [(0, 16), (16, 16)] else []

/-- A write of a word of the gate lists or stream tables. -/
def ntabWrite (s : State) (o : Nat) (v : W32) : State :=
  let rw := ntabRw o
  let w := Nat.land (s.ntab o) (0xFFFFFFFF - rw) + Nat.land v.toNat rw
  s.setNtab o ((ntabClear o).foldl (fun w (f : Nat × Nat) =>
    if v.toNat / 2 ^ f.1 % 2 ^ f.2 = 0 then w - w / 2 ^ f.1 % 2 ^ f.2 * 2 ^ f.1 else w) w)

/-- A byte of a FUSION table: reserved bits of a transform entry stay 0 (Table 13-5). -/
def ftabWrite (s : State) (o : Nat) (b : Byte) : State :=
  if o < 0xA040 ∧ 50 ≤ o % 0x40 then s else s.setFtab o (if o < 0xA040 ∧ o % 0x40 = 49 then b &&& 1 else b)

/-- A write of one word through a window. -/
def windowWrite (s : State) (r off : Nat) (v : W32) : State :=
  let bs := toBytes 4 v.toNat
  if off < 0x90000 then (if s.island.reset then s else s.winWrite r (off - 0x80000) v)
  else if off < 0xA0000 then
    let o := off - 0x90000
    if !isFtab o then s
    else if o < 0xA000 ∧ (o - 0x8000) / 0x1000 = s.fld Reg.FUSION_STAT_BANK then s.setFld Reg.FUSION_STAT_WR_ACTIVE 1
    else bs.zipIdx.foldl (fun s e => s.ftabWrite (o + e.2) e.1) s
  else
    let o := off - 0xB0000
    if o < 0x6000 then s else if o < 0x8000 then s.ntabWrite o v else s.slotWrite o bs false

/-! ### Reads -/

/-- The 32-bit word at an aligned offset, without a side effect (R13, R37). -/
def wordAt (s : State) (r off : Nat) : W32 :=
  if 0x100000 ≤ off ∨ s.absentAt off then 0
  else if isWindow off then s.windowRead r off
  else match regInfo off with
    | none => 0
    | some (_, sub) => BitVec.ofNat 32 ((s.shown r (off - sub)).toNat / 2 ^ (8 * sub))

/-- What a read of an aligned 32-bit word does: RC fields clear, BUS_RX pops (R14, R431). -/
def wordRead (s : State) (r off : Nat) : W32 × State :=
  let v := s.wordAt r off
  if 0x100000 ≤ off ∨ s.absentAt off ∨ isWindow off then (v, s) else
  match regInfo off with
  | none => (v, s)
  | some (i, sub) =>
    if 0xE3000 ≤ off ∧ off < 0xE30C0 ∧ off % 0x20 = 8 then (v, (s.busPop ((off - 0xE3000) / 0x20)).2)
    else if i.rc = 0 ∨ sub ≠ 0 then (v, s)
    else
      let key := keyOf r off
      let t := s.setReg key (s.reg key &&& ~~~ BitVec.ofNat 64 i.rc)
      (v, if off = Reg.PWR_THERM then t.modPwr fun p => { p with peakC := none } else t)

/-- What a read of a whole 64-bit register does (R13, R42, R59, R61, R466). -/
def wideEffect (s : State) (r k : Nat) : State :=
  if k < 0x10000 then (if isRec k && k % 0x20 == 0 then s.recLatchAt r k else s)
  else if k < 0x10400 then
    (if k % 0x40 = 8 then s.laneValueRead r ((k - 0x10000) / 0x40)
     else if k % 0x40 = 0x30 then s.laneEpochRead r ((k - 0x10000) / 0x40) else s)
  else if 0x12000 ≤ k ∧ k < 0x12200 then s.capRead r ((k - 0x12000) / 0x10)
  else if k = Reg.TS_DATA then s.tsRead r
  else s

/-- A read of control space, its standing checked (R37). -/
def ctlRead (s : State) (r off : Nat) (w : Width) : W64 × State :=
  if off % (Width.bytes w) ≠ 0 then (0, s)
  else match w with
    | .b8 =>
      match (if 0x100000 ≤ off ∨ s.absentAt off ∨ isWindow off then none else regInfo off) with
      | some (i, 0) =>
        if i.width = 64 then (s.shown r off, s.wideEffect r off)
        else
          let (a, s) := s.wordRead r off
          let (b, s) := s.wordRead r (off + 4)
          (b ++ a, s)
      | _ =>
        let (a, s) := s.wordRead r off
        let (b, s) := s.wordRead r (off + 4)
        (b ++ a, s)
    | _ =>
      let (v, s) := s.wordRead r (off / 4 * 4)
      (BitVec.ofNat 64 (v.toNat / 2 ^ (8 * (off % 4)) % 2 ^ (8 * (Width.bytes w))), s)

/-! ### Writes -/

/-- A write to the SYS block; `d` is the state with the register written by its access codes. -/
def wrSys (r k : Nat) (v : W64) (s d : State) : State :=
  if k = Reg.SYS_RESET_CMD then (if v.toNat % 4 = 1 then ssrCmd r s else s)
  else if k = Reg.SYS_MINT_CMD then (if v.toNat % 4 = 0 then s else s.permit r 10 k fun s => s.mintCommand (v.toNat % 4))
  else if k = Reg.SYS_INC_CMD then s.incCommand (v.toNat % 4) (v.toNat / 256 % 16)
  else d

/-- A write to the LANE block. -/
def wrLane (r k : Nat) (v : W64) (s d : State) : State :=
  let n := (k - 0x10000) / 0x40
  if k < 0x10400 then
    match k % 0x40 with
    | 0x00 => laneCfg n (v.setWidth 32) s
    | 0x08 => laneValueWrite n v s
    | 0x20 => laneStep r n v s
    | 0x28 => laneForce n v s
    | _ => d
  else if k = Reg.CUE_CMD then
    match v.toNat % 4 with
    | 1 => cueArm r s
    | 2 => cueDisarm r s
    | 3 => cueRead r s
    | _ => s
  else d

/-- A write to the START block. -/
def wrStart (r k : Nat) (v : W64) (s d : State) : State :=
  if k = Reg.START_CTL then startCtl (v.setWidth 32) s
  else if k = Reg.START_SAVE_CFG then (if s.flag Reg.START_CTL_EN then s else d)
  else if k = Reg.START_CTX_CMD then
    match v.toNat % 4 with
    | 1 => defineCtx r s
    | 2 => killCtx r s
    | 3 => readCtx r s
    | _ => s
  else d

/-- A write to the TALLY block. -/
def wrTally (r k : Nat) (v : W64) (s d : State) : State :=
  if k = Reg.TALLY_CMD then
    match v.toNat % 4 with
    | 1 => tallyRead r s
    | 2 => tallyReclaim r s
    | _ => s
  else if k = Reg.TMAP_CMD then
    match v.toNat % 4 with
    | 1 => tmapSet r s
    | 2 => tmapClear r s
    | 3 => tmapRead r s
    | _ => s
  else if k = Reg.BAR_CMD then
    match v.toNat % 8 with
    | 1 => barDefine r s
    | 2 => barUndefine r s
    | 3 => barRearm r s
    | 4 => barSetMembers r s
    | 5 => barCmdArrive r (v.toNat / 256 % 64) s
    | 6 => barRead r s
    | _ => s
  else if 0x30400 ≤ k ∧ k < 0x30600 then
    let w := (k - 0x30400) / 0x20
    match k % 0x20 with
    | 0x00 => rwinCfg r w (v.setWidth 32) s
    | 0x08 => if s.flag (Reg.RWIN_CFG_EN w) then s else d
    | _ => d
  else if 0x30800 ≤ k ∧ k < 0x30900 ∧ k % 0x10 = 0 then watchCfg ((k - 0x30800) / 0x10) (v.setWidth 32) s
  else d

/-- A write to the TELLER block: the region registers only while EN is 0; setting EN lets the moves that wait begin. -/
def wrTeller (r k : Nat) (v : W64) (s d : State) : State :=
  if k = Reg.TELLER_CTL then
    (if v.getLsbD 0 && !s.flag Reg.TELLER_CTL_EN then d.ctxIds.foldl settleMoves d.pump else d)
  else if 0x40008 ≤ k ∧ k < 0x40040 then (if s.flag Reg.TELLER_CTL_EN then s else d)
  else if k = Reg.TELLER_INVAL then s.tellerInval (v.setWidth 32)
  else if k = Reg.TELLER_PAGE_CMD then
    match v.toNat % 4 with
    | 1 => tellerPageRead r s
    | 2 => clearPoison r s
    | _ => s
  else if 0x40100 ≤ k ∧ k < 0x40300 then
    let n := (k - 0x40100) / 0x20
    if k % 0x20 = 0 then poolCfg n (v.setWidth 32) s else if s.flag (Reg.TELLER_POOL_CFG_EN n) then s else d
  else d

/-- A write to the STREAM block. -/
def wrStream (r k : Nat) (v : W64) (s d : State) : State :=
  if k = Reg.STREAM_CMD then
    match v.toNat % 8 with
    | 1 => strmRegister r s
    | 2 => strmUnregister r s
    | 3 => strmCmdReset r s
    | 4 => strmFlush r s
    | 5 => strmRead r s
    | _ => s
  else d

/-- A write to the PACER block: none while the island is in reset (R291). -/
def wrPacer (r k : Nat) (v : W64) (s d : State) : State :=
  if s.island.reset then s
  else if k < 0x80400 then (if k % 0x40 = 0 then pacerCtl ((k - 0x80000) / 0x40) (v.setWidth 32) s else d)
  else if k < 0x81400 then
    let n := (k - 0x80400) / 0x100
    let c := (k - 0x80400) % 0x100 / 0x40
    if k % 0x40 = 0x1C then mbxCommit r n c (v.setWidth 32) s else d
  else if 0x81800 ≤ k ∧ k < 0x81980 then
    let b := (k - 0x81800) / 0x20
    match k % 0x20 with
    | 0x00 => d.recmd b
    | 0x08 => s.setForce b v.toNat
    | _ => d.settleBridge b
  else if k = Reg.ISLAND_CTL then (if v.getLsbD 0 then s.enterHold 0 else islandRun r s)
  else d

/-- A write to the FUSION block. -/
def wrFusion (r k : Nat) (v : W64) (s d : State) : State :=
  if k = Reg.FUSION_CTL then fusionCtl (v.setWidth 32) s
  else if k = Reg.FUSION_ADMIT_CMD then
    match v.toNat % 4 with
    | 1 => fusionAdmit r s
    | 2 => fusionRetire r (v.toNat / 256 % 64) s
    | _ => s
  else d

/-- A write to the HURDLE block: other registers than HURDLE_CTL, the STOP registers and HURDLE_SDF_CFG.EN only while EN
is 0 (14). -/
def wrHurdle (k : Nat) (v : W64) (s d : State) : State :=
  if k = Reg.HURDLE_CTL then
    (if !s.hurdleLive then s else if v.getLsbD 31 then hurdleEnable (v.getLsbD 30) s else hurdleDisable (v.getLsbD 30) s)
  else if k = Reg.HURDLE_STOP_CMD then (if s.hurdleLive then stopCmd (v.getLsbD 31) (v.toNat % 65536) s else s)
  else if 0xA0060 ≤ k ∧ k < 0xA0080 then d
  else if !s.flag Reg.HURDLE_CTL_EN then d
  else if k = Reg.HURDLE_SDF_CFG then s.setFld Reg.HURDLE_SDF_CFG_EN (b2n (v.getLsbD 31))
  else s

/-- A write to the NET block. -/
def wrNet (k : Nat) (v : W64) (s d : State) : State :=
  if k < 0xB0080 ∧ k % 0x20 = 0 then ptpDomCfg ((k - 0xB0000) / 0x20) (v.setWidth 32) s else d

/-- A write to the RELAY block. -/
def wrRelay (r k : Nat) (v : W64) (s d : State) : State :=
  if k < 0xC0040 then (if k % 0x10 = 4 ∧ v.getLsbD 0 then s.retrainLink ((k - 0xC0000) / 0x10) else d)
  else if k = Reg.RELAY_PAIR_CMD then
    match v.toNat % 4 with
    | 1 => handoverCmd s
    | 2 => s.permit r 10 k fun s => s.takeCmd r
    | 3 => leaveCmd s
    | _ => s
  else if k = Reg.RELAY_PAIR_CFG ∨ k = Reg.RELAY_PAIR_CFG2 ∨ (0xC0140 ≤ k ∧ k < 0xC0160) then d.holdForce.pairCheck
  else if k = Reg.RELAY_IMG_CMD then
    match v.toNat % 4 with
    | 1 => s.imgBegin false
    | 2 => s.imgBegin true
    | 3 => s.imgActivate r
    | _ => s
  else d

/-- A write to the PORT block: a word for BUS_TX enters it while there is room. -/
def wrPort (k : Nat) (v : W64) (s d : State) : State :=
  if 0xE0100 ≤ k ∧ k < 0xE0110 then d.setReg k (BitVec.ofNat 64 (Nat.land (d.reg k).toNat (s.standing 18)))
  else if 0xE3000 ≤ k ∧ k < 0xE30C0 ∧ k % 0x20 = 4 then
    let b := (k - 0xE3000) / 0x20
    s.modBus b fun u => if u.tx.length < 64 then { u with tx := u.tx ++ [v.setWidth 32] } else u
  else d

/-- A write to the register that starts at an offset: of the bytes a mask covers, a value (R13 to R15). -/
def regWrite (s : State) (r k : Nat) (i : RegInfo) (m v : W64) : State :=
  let key := keyOf r k
  let old := s.reg key
  let rw := BitVec.ofNat 64 i.rw &&& m
  let whole := (old &&& ~~~ m) ||| (v &&& m)
  let d := s.setReg key (((old &&& ~~~ rw) ||| (v &&& rw)) &&& ~~~ (v &&& m &&& BitVec.ofNat 64 i.w1c))
  match k / 0x10000 with
  | 0 => wrSys r k whole s d
  | 1 => wrLane r k whole s d
  | 2 => wrStart r k whole s d
  | 3 => wrTally r k whole s d
  | 4 => wrTeller r k whole s d
  | 6 => if k < 0x60200 ∧ k % 0x40 = 4 then mapOut ((k - 0x60000) / 0x40) (v.getLsbD 0) s else d
  | 7 => wrStream r k whole s d
  | 8 => wrPacer r k whole s d
  | 9 => wrFusion r k whole s d
  | 10 => wrHurdle k whole s d
  | 11 => wrNet k whole s d
  | 12 => wrRelay r k whole s d
  | 14 => wrPort k whole s d
  | 15 => if k = Reg.PWR_CAP then d.effCap else d
  | _ => d

/-- A write of an aligned 32-bit word, its standing checked: half of a 64-bit register, but for one of access WO (R13). -/
def wordWrite (s : State) (r off : Nat) (v : W32) : State :=
  if 0x100000 ≤ off ∨ s.absentAt off then s
  else if isWindow off then s.windowWrite r off v
  else match regInfo off with
    | none => s
    | some (i, sub) =>
      if i.width = 64 ∧ i.wo ≠ 0 then s
      else if i.width = 64 ∧ sub = 4 then s.regWrite r (off - 4) i 0xFFFFFFFF00000000 (v ++ (0 : W32))
      else s.regWrite r off i 0xFFFFFFFF (v.setWidth 64)

/-- A write of one word: standing, then its effect. -/
def wordStore (s : State) (r off : Nat) (v : W32) : Status × State :=
  match s.lacks r off (v.setWidth 64) with
  | some q => (.denied, s.deny r q (0xF0000000 + off))
  | none => (.ok, s.wordWrite r off v)

/-- A write to control space (R37, R433, R435): standing first; a byte, 16-bit or unaligned write is ignored. -/
def ctlWrite (s : State) (r off : Nat) (w : Width) (v : W64) : Status × State :=
  let whole := match w, regInfo off with
    | .b8, some (i, 0) => if i.width = 64 ∧ isWindow off = false then some i else none
    | _, _ => none
  if w = .b8 ∧ off % 8 = 0 ∧ whole = none then
    let (a, s) := s.wordStore r off (v.setWidth 32)
    let (b, s) := s.wordStore r (off + 4) ((v >>> 32).setWidth 32)
    (if a = .ok then b else a, s)
  else match s.lacks r off v with
    | some q => (.denied, s.deny r q (0xF0000000 + off))
    | none =>
      if off % (Width.bytes w) ≠ 0 then (.ok, s)
      else match w, whole with
        | .b4, _ => (.ok, s.wordWrite r off (v.setWidth 32))
        | .b8, some i => (.ok, if s.absentAt off then s else s.regWrite r off i 0xFFFFFFFFFFFFFFFF v)
        | _, _ => (.ok, s)

/-- A read of control space by a requester (R433, R435, R37). -/
def ctlLoad (s : State) (r off : Nat) (w : Width) : Status × W64 × State :=
  if s.canRead r then let (v, s) := s.ctlRead r off w; (.ok, v, s)
  else (.denied, 0, s.deny r 0xD (0xF0000000 + off))

end State

open State

/-- REGISTER_WRITE (R14). -/
def execRegisterWrite (r : Requester) (off : BitVec 24) (w : Width) (data : W64) (s : State) : Host.Outcome State Fault Refusal :=
  let (st, s) := s.ctlWrite r.val off.toNat w data
  .next (s.answer r.val st)

/-- READ_CLEAR (R14). -/
def execReadClear (r : Requester) (off : BitVec 24) (w : Width) (s : State) : Host.Outcome State Fault Refusal :=
  let (st, v, s) := s.ctlLoad r.val off.toNat w
  .next (s.answer r.val st v (toBytes (Width.bytes w) v.toNat))

end Sys2Proof.Machine
end

