-- ==== Sys2Proof/Machine/Access.lean ====
section
/-!
DEFINITION. Accesses of the cores, of PCIe and of command frames to the physical map (R34, R269, R282, R424, R433 to
R436).
-/

namespace Sys2Proof.Machine

open Sys2Proof

namespace State

/-- A requester may reach a physical address: it is mapped, or lies in the Teller reserve for the real-time cores (R32, R216). -/
def reaches (s : State) (r a : Nat) : Bool :=
  match s.region a with
  | .vault | .dram | .nand | .ctl | .tally => true
  | .reserve => r == 16 || r == 17
  | _ => false

/-- R34 judges an access whole: every byte must be reached. -/
def reachesAll (s : State) (r a n : Nat) : Bool := (List.range n).all fun i => s.reaches r (a + i)

/-- An access to an unmapped address: counted where it came from an external port (R34, R435). -/
def unmapped (s : State) (r a : Nat) : State := if r < 18 then s else s.deny r 0xF a

/-- The width of an access of so many bytes, if control space and Tally memory have it (R37, R269). -/
def widthOf (n : Nat) : Option Width :=
  if n = 1 then some .b1 else if n = 2 then some .b2 else if n = 4 then some .b4 else if n = 8 then some .b8 else none

/-- Bytes of a read whose value nothing states (assumption 2). -/
def openBytes (s : State) (n : Nat) : List Byte × State := ((List.range n).map s.freeByte, s.bumpFree)

/-- The bytes of Tally memory as an aligned read gives them (R269). -/
def tallyBytes (s : State) (o n : Nat) : List Byte :=
  let t := s.tallyOf (o / 8)
  ((toBytes 8 (2 ^ 62 * tallyCode t.state + t.count.toNat)).drop (o % 8)).take n

/-- A read of the Ledger range, a span within the bytes of one 64-byte unit or less at a time (R282): an alias that is read in
more than 64 bits at once gives a value left open. -/
def ledgerBytes (s : State) (a n : Nat) : List Byte × State :=
  match s.winAt a with
  | some (_, 2, _) => if 8 < n then s.openBytes n else s.agentRead a n
  | _ => s.agentRead a n

/-- A page of a span satisfies a test. -/
def anyPage (a n : Nat) (f : Nat → Bool) : Bool :=
  (List.range ((a + n - 1) / 65536 + 1 - a / 65536)).any fun i => f (65536 * (a / 65536 + i))

/-- A load of some bytes at a physical address (R34, R228, R239, R433). -/
def load (s : State) (r a n : Nat) : Status × List Byte × State :=
  let zero := List.replicate n (0 : Byte)
  if !s.reachesAll r a n then (.unmapped, zero, s.unmapped r a)
  else match s.region a, widthOf n with
    | .ctl, some w =>
      let (st, v, s) := s.ctlLoad r (a % 0x1000000) w
      (st, toBytes n v.toNat, s)
    | .ctl, none =>
      if !s.canRead r then (.denied, zero, s.deny r 0xD a) else
      let (b, s) := s.openBytes n
      (.ok, b, s)
    | .tally, w =>
      if !s.holds r 2 then (.denied, zero, s.deny r 2 a)
      else if w = none then
        let (b, s) := s.openBytes n
        (.ok, b, s)
      else (.ok, if a % n = 0 then s.tallyBytes (a % 0x20000) n else zero, s)
    | _, _ =>
      if !s.holds r 0 then (.denied, zero, s.deny r 0 a)
      else if anyPage a n s.movingAt then (.waits, [], s)
      else if anyPage a n s.poisonedAt then (.poisoned, zero, s)
      else
        let (b, s) := s.ledgerBytes a n
        (.ok, b, s)

/-- A store of some bytes at a physical address (R33, R34, R228, R239, R269, R282, R433). A store to the NAND view is one that
no right grants. -/
def store (s : State) (r a : Nat) (bs : List Byte) : Status × State :=
  let n := bs.length
  let v := ofBytes bs
  if !s.reachesAll r a n then (.unmapped, s.unmapped r a)
  else match s.region a with
    | .ctl => match widthOf n with
      | some w => s.ctlWrite r (a % 0x1000000) w (BitVec.ofNat 64 v)
      | none => match s.lacks r (a % 0x1000000) 0 with
        | some q => (.denied, s.deny r q a)
        | none => (.ok, s)
    | .tally =>
      if !s.holds r 2 then (.denied, s.deny r 2 a)
      else if n ≠ 4 ∨ a % 4 ≠ 0 then (.ok, s)
      else if a % 8 = 0 then (.ok, s.tallyAdd (a % 0x20000 / 8) v)
      else (.ok, s.tallySub (a % 0x20000 / 8) v)
    | .nand => (.denied, s.deny r 0xE a)
    | _ =>
      if !s.holds r 1 then (.denied, s.deny r 1 a)
      else if anyPage a n s.movingAt then (.waits, s)
      else if anyPage a n s.poisonedAt then (.poisoned, s)
      else (.ok, s.agentWrite a bs)

/-! ### Cores -/

/-- How a core sees an outcome (Tables 1-10, 9-10). -/
def coreStatus : Status → Status
  | .unmapped | .poisoned => .accessFault
  | st => st

/-- A core access (R34): a load that lacks its right gives 0, a store that does is dropped. -/
def coreAccess (s : State) (r a : Nat) (w : Width) (op : MemOp) : State :=
  match op with
  | .load =>
    let (st, b, s) := s.load r a (Width.bytes w)
    s.answer r (coreStatus st) (BitVec.ofNat 64 (ofBytes b)) b
  | .store v =>
    let (st, s) := s.store r a (toBytes (Width.bytes w) v.toNat)
    s.answer r (coreStatus st)

/-! ### PCIe (R424) -/

/-- How a PCIe requester sees an outcome (Tables 1-10, 9-10, R435). -/
def pcieStatus : Status → Status
  | .unmapped | .denied => .unsupported
  | st => st

/-- The requester number of a function: in root mode every request carries 18. -/
def pcieRequester (s : State) (f : Nat) : Nat := if s.flag Reg.PORT_PCIE_STAT_ROOT then 18 else 18 + f

/-- The physical address a request names: through BAR0 or BAR2 in endpoint mode, its own in root mode. -/
def pcieAddr (s : State) (f : Nat) (bar2 : Bool) (off : Nat) : Nat :=
  if s.flag Reg.PORT_PCIE_STAT_ROOT then off
  else if bar2 then 2 ^ 30 * s.fld (Reg.PORT_PCIE_BAR2_BASE f) + off
  else 0xF0000000 + off

/-- The span of the BAR of a request: a SIZE_LOG2 above 6 acts as 6. -/
def barSize (s : State) (f : Nat) (bar2 : Bool) : Nat :=
  if bar2 then 2 ^ (Nat.min 6 (s.fld (Reg.PORT_PCIE_BAR2_SIZE_LOG2 f)) + 30) else 0x2000000

/-- An inbound request: a read is answered, a write is posted. -/
def pcieRequest (s : State) (f : Nat) (bar2 : Bool) (off : Nat) (q : BusReq) : State :=
  let r := s.pcieRequester f
  let a := s.pcieAddr f bar2 off
  let n := match q with
    | .read len => len
    | .write data => data.length
  let inside := s.flag Reg.PORT_PCIE_STAT_ROOT || decide (off + n ≤ s.barSize f bar2)
  match q with
  | .read len =>
    if len = 0 ∨ 4096 < len then s
    else if !inside then (s.deny r 0xF a).answer r .unsupported
    else
      let (st, b, s) := s.load r a len
      s.answer r (pcieStatus st) (BitVec.ofNat 64 (ofBytes b)) b
  | .write data =>
    if data = [] ∨ 4096 < data.length then s
    else if !inside then s.deny r 0xF a
    else
      let (st, s) := s.store r a data
      if st = .waits then s.answer r .waits else s

/-! ### Command frames (R436) -/

/-- The requester of a command-frame path: Ethernet ports 0 to 3, Relay links 0 to 3, the service port. -/
def framePath (p : Nat) : Nat := 26 + p

/-- A reply frame: TAG, STATUS and data. -/
def replyFrame (s : State) (r : Nat) (tag : W16) (st : Status) (b : List Byte := []) : State :=
  { s with reply := { req := r, status := st, value := BitVec.ofNat 64 (ofBytes (b.take 8)), bytes := b, tag := some tag } }

/-- LEN is a multiple of 4 from 4 to 4,096; 4 or 8 in control space. -/
def lenOk (s : State) (a n : Nat) : Bool :=
  n % 4 == 0 && decide (4 ≤ n) && decide (n ≤ 4096) && (s.region a != .ctl || n == 4 || n == 8)

/-- READ. -/
def frameRead (s : State) (r : Nat) (tag : W16) (a n : Nat) : State :=
  if !s.lenOk a n then s.replyFrame r tag .malformed else
  let (st, b, s) := s.load r a n
  s.replyFrame r tag st (if st = .ok then b else [])

/-- WRITE. -/
def frameWrite (s : State) (r : Nat) (tag : W16) (a : Nat) (bs : List Byte) : State :=
  if !s.lenOk a bs.length then s.replyFrame r tag .malformed else
  let (st, s) := s.store r a bs
  s.replyFrame r tag st

/-- A frame of an op that only the service port offers, with a right. -/
def serviceFrame (s : State) (r right : Nat) (tag : W16) (f : State → State) : State :=
  if !s.holds r right then (s.deny r right 0).replyFrame r tag .denied
  else if r ≠ 34 then (s.deny r 0xE 0).replyFrame r tag .denied
  else f s

/-- FUSE: ADDED entries are programmed (R387). -/
def frameFuse (s : State) (r : Nat) (tag : W16) (l : List W16) : State :=
  s.serviceFrame r 10 tag fun s => (s.fuse l).replyFrame r tag .ok

/-- IMAGE: data of the image that a WRITE of RELAY_IMG_CMD is taking (R418). -/
def frameImage (s : State) (r : Nat) (tag : W16) (data : List Byte) : State :=
  s.serviceFrame r 9 tag fun s =>
    if data.length % 4 ≠ 0 ∨ data = [] ∨ 4096 < data.length then s.replyFrame r tag .malformed
    else if s.fld Reg.RELAY_IMG_STAT_STATE ≠ 1 ∨ s.relay.fetch then s.replyFrame r tag .ok
    else
      let s : State := { s with relay := { s.relay with img := s.relay.img ++ data } }
      (s.setFld Reg.RELAY_IMG_STAT_DONE_KIB (s.relay.img.length / 1024)).replyFrame r tag .ok

/-- INCIDENT: whole 64-byte units of the records and the notes, read at once (R466). -/
def frameIncident (s : State) (r : Nat) (tag : W16) (a n : Nat) : State :=
  if !s.holds r 12 then (s.deny r 12 a).replyFrame r tag .denied else
  let o := a - 0xF0000000
  let inside := (decide (0x1000 ≤ o) && decide (o + n ≤ 0x1340)) || (decide (0x2000 ≤ o) && decide (o + n ≤ 0x2800))
  if o % 64 ≠ 0 ∨ n % 64 ≠ 0 ∨ n = 0 ∨ !inside then s.replyFrame r tag .malformed
  else s.replyFrame r tag .ok ((List.range (n / 8)).flatMap fun i => toBytes 8 (s.reg (o + 8 * i)).toNat)

/-- JUDGE: one safety-port frame to the Judge; its reply frame comes back, and none where it drops the frame (R436, R441). -/
def frameJudge (s : State) (r : Nat) (tag : W16) (b : List Byte) : State :=
  s.serviceFrame r 11 tag fun s =>
    if b.length ≠ 128 then s.replyFrame r tag .malformed
    else if !s.judgeOn then s
    else match s.spReceive true b with
      | (some rep, s) => s.replyFrame r tag .ok rep
      | (none, s) => s

end State

open State

/-- CORE_ACCESS (R34). -/
def execCoreAccess (r : Fin 18) (pa : BitVec 44) (w : Width) (op : MemOp) (s : State) : Host.Outcome State Fault Refusal :=
  .next (s.coreAccess r.val pa.toNat w op)

/-- PCIE_REQUEST (R424). -/
def execPcieRequest (f : Fin 8) (bar2 : Bool) (off : W64) (q : BusReq) (s : State) : Host.Outcome State Fault Refusal :=
  .next (s.pcieRequest f.val bar2 off.toNat q)

/-- COMMAND_READ (R436). -/
def execCommandRead (path : Fin 9) (tag : W16) (addr : W64) (len : W32) (s : State) : Host.Outcome State Fault Refusal :=
  .next (s.frameRead (framePath path.val) tag addr.toNat len.toNat)

/-- COMMAND_WRITE (R436). -/
def execCommandWrite (path : Fin 9) (tag : W16) (addr : W64) (data : List Byte) (s : State) : Host.Outcome State Fault Refusal :=
  .next (s.frameWrite (framePath path.val) tag addr.toNat data)

/-- FUSE (R387, R436). -/
def execFuse (path : Fin 9) (tag : W16) (entries : List W16) (s : State) : Host.Outcome State Fault Refusal :=
  .next (s.frameFuse (framePath path.val) tag entries)

/-- IMAGE (R436). -/
def execImage (path : Fin 9) (tag : W16) (data : List Byte) (s : State) : Host.Outcome State Fault Refusal :=
  .next (s.frameImage (framePath path.val) tag data)

/-- INCIDENT (R436, R466). -/
def execIncident (path : Fin 9) (tag : W16) (addr : W64) (len : W32) (s : State) : Host.Outcome State Fault Refusal :=
  .next (s.frameIncident (framePath path.val) tag addr.toNat len.toNat)

/-- JUDGE (R436). -/
def execJudge (path : Fin 9) (tag : W16) (data : List Byte) (s : State) : Host.Outcome State Fault Refusal :=
  .next (s.frameJudge (framePath path.val) tag data)

end Sys2Proof.Machine
end

