-- ==== Sys2Proof/Machine/Dispatch.lean ====
section
/-!
DEFINITION. What each command does: one arm for each constructor, each one direct call of its meaning.
-/

namespace Sys2Proof.Machine

open Sys2Proof

def exec (i : Instr) (s : State) : Host.Outcome State Fault Refusal :=
  match i with
  | .registerWrite r off w data => Sys2Proof.Machine.execRegisterWrite r off w data s
  | .coreAccess r pa w op => Sys2Proof.Machine.execCoreAccess r pa w op s
  | .pcieRequest f bar2 off q => Sys2Proof.Machine.execPcieRequest f bar2 off q s
  | .crossDieMessage m => Sys2Proof.Machine.execCrossDieMessage m s
  | .ssrReqN => Sys2Proof.Machine.execSsrReqN s
  | .ssr r => Sys2Proof.Machine.execSsr r s
  | .restartReady shadowBad save ctl => Sys2Proof.Machine.execRestartReady shadowBad save ctl s
  | .laneTick => Sys2Proof.Machine.execLaneTick s
  | .laneSourceEvent n e => Sys2Proof.Machine.execLaneSourceEvent n e s
  | .laneCfgWrite r n v => Sys2Proof.Machine.execLaneCfgWrite r n v s
  | .laneValueRead r n => Sys2Proof.Machine.execLaneValueRead r n s
  | .laneEpochRead r n => Sys2Proof.Machine.execLaneEpochRead r n s
  | .laneStep r n step => Sys2Proof.Machine.execLaneStep r n step s
  | .laneStepForce r n step => Sys2Proof.Machine.execLaneStepForce r n step s
  | .gptpHoldover n => Sys2Proof.Machine.execGptpHoldover n s
  | .laneSourceLost n => Sys2Proof.Machine.execLaneSourceLost n s
  | .cueActionDispatch => Sys2Proof.Machine.execCueActionDispatch s
  | .camTriggerPulseEnd k => Sys2Proof.Machine.execCamTriggerPulseEnd k s
  | .cueArm r => Sys2Proof.Machine.execCueArm r s
  | .cueDisarm r => Sys2Proof.Machine.execCueDisarm r s
  | .cueRead r => Sys2Proof.Machine.execCueRead r s
  | .captureEdge input rising eighth => Sys2Proof.Machine.execCaptureEdge input rising eighth s
  | .capDataRead r m => Sys2Proof.Machine.execCapDataRead r m s
  | .ptpDomCfgWrite r d v => Sys2Proof.Machine.execPtpDomCfgWrite r d v s
  | .fupTimeout p seq => Sys2Proof.Machine.execFupTimeout p seq s
  | .peerDelay p delay => Sys2Proof.Machine.execPeerDelay p delay s
  | .tsDataRead r => Sys2Proof.Machine.execTsDataRead r s
  | .launchQueueHead p tc => Sys2Proof.Machine.execLaunchQueueHead p tc s
  | .launchTimeReached p tc => Sys2Proof.Machine.execLaunchTimeReached p tc s
  | .add q o => Sys2Proof.Machine.execAdd q o s
  | .sub q o => Sys2Proof.Machine.execSub q o s
  | .and q o => Sys2Proof.Machine.execAnd q o s
  | .or q o => Sys2Proof.Machine.execOr q o s
  | .xor q o => Sys2Proof.Machine.execXor q o s
  | .shl q o => Sys2Proof.Machine.execShl q o s
  | .shr q o => Sys2Proof.Machine.execShr q o s
  | .sra q o => Sys2Proof.Machine.execSra q o s
  | .mul q o => Sys2Proof.Machine.execMul q o s
  | .mulhs q o => Sys2Proof.Machine.execMulhs q o s
  | .mulhu q o => Sys2Proof.Machine.execMulhu q o s
  | .div q o => Sys2Proof.Machine.execDiv q o s
  | .divu q o => Sys2Proof.Machine.execDivu q o s
  | .rem q o => Sys2Proof.Machine.execRem q o s
  | .remu q o => Sys2Proof.Machine.execRemu q o s
  | .min q o => Sys2Proof.Machine.execMin q o s
  | .max q o => Sys2Proof.Machine.execMax q o s
  | .minu q o => Sys2Proof.Machine.execMinu q o s
  | .maxu q o => Sys2Proof.Machine.execMaxu q o s
  | .mov q o => Sys2Proof.Machine.execMov q o s
  | .cmpEq q o => Sys2Proof.Machine.execCmpEq q o s
  | .cmpNe q o => Sys2Proof.Machine.execCmpNe q o s
  | .cmpLt q o => Sys2Proof.Machine.execCmpLt q o s
  | .cmpLtu q o => Sys2Proof.Machine.execCmpLtu q o s
  | .cmpGe q o => Sys2Proof.Machine.execCmpGe q o s
  | .cmpGeu q o => Sys2Proof.Machine.execCmpGeu q o s
  | .cmpLat q o => Sys2Proof.Machine.execCmpLat q o s
  | .pset q o => Sys2Proof.Machine.execPset q o s
  | .pget q o => Sys2Proof.Machine.execPget q o s
  | .ldu8 q o => Sys2Proof.Machine.execLdu8 q o s
  | .ldu16 q o => Sys2Proof.Machine.execLdu16 q o s
  | .ldu32 q o => Sys2Proof.Machine.execLdu32 q o s
  | .ld64 q o => Sys2Proof.Machine.execLd64 q o s
  | .lds8 q o => Sys2Proof.Machine.execLds8 q o s
  | .lds16 q o => Sys2Proof.Machine.execLds16 q o s
  | .lds32 q o => Sys2Proof.Machine.execLds32 q o s
  | .st8 q o => Sys2Proof.Machine.execSt8 q o s
  | .st16 q o => Sys2Proof.Machine.execSt16 q o s
  | .st32 q o => Sys2Proof.Machine.execSt32 q o s
  | .st64 q o => Sys2Proof.Machine.execSt64 q o s
  | .nop q o => Sys2Proof.Machine.execNop q o s
  | .qry q o => Sys2Proof.Machine.execQry q o s
  | .fence q o => Sys2Proof.Machine.execFence q o s
  | .trap q o => Sys2Proof.Machine.execTrap q o s
  | .br q o => Sys2Proof.Machine.execBr q o s
  | .call q o => Sys2Proof.Machine.execCall q o s
  | .jmp q o => Sys2Proof.Machine.execJmp q o s
  | .loop q o => Sys2Proof.Machine.execLoop q o s
  | .exit q o => Sys2Proof.Machine.execExit q o s
  | .dld q o => Sys2Proof.Machine.execDld q o s
  | .dst q o => Sys2Proof.Machine.execDst q o s
  | .dcpy q o => Sys2Proof.Machine.execDcpy q o s
  | .dset q o => Sys2Proof.Machine.execDset q o s
  | .dget q o => Sys2Proof.Machine.execDget q o s
  | .dadd q o => Sys2Proof.Machine.execDadd q o s
  | .kmatmul q o => Sys2Proof.Machine.execKmatmul q o s
  | .kconv q o => Sys2Proof.Machine.execKconv q o s
  | .kpool q o => Sys2Proof.Machine.execKpool q o s
  | .kattn q o => Sys2Proof.Machine.execKattn q o s
  | .kscan q o => Sys2Proof.Machine.execKscan q o s
  | .kcell q o => Sys2Proof.Machine.execKcell q o s
  | .kreduce q o => Sys2Proof.Machine.execKreduce q o s
  | .kact q o => Sys2Proof.Machine.execKact q o s
  | .keltw q o => Sys2Proof.Machine.execKeltw q o s
  | .knorm q o => Sys2Proof.Machine.execKnorm q o s
  | .ksoftmax q o => Sys2Proof.Machine.execKsoftmax q o s
  | .kgates q o => Sys2Proof.Machine.execKgates q o s
  | .kargmax q o => Sys2Proof.Machine.execKargmax q o s
  | .kcvt q o => Sys2Proof.Machine.execKcvt q o s
  | .ksconv q o => Sys2Proof.Machine.execKsconv q o s
  | .ksmatmul q o => Sys2Proof.Machine.execKsmatmul q o s
  | .ksargmax q o => Sys2Proof.Machine.execKsargmax q o s
  | .ksreflex q o => Sys2Proof.Machine.execKsreflex q o s
  | .khquery q o => Sys2Proof.Machine.execKhquery q o s
  | .khstride q o => Sys2Proof.Machine.execKhstride q o s
  | .khfinish q o => Sys2Proof.Machine.execKhfinish q o s
  | .khmap q o => Sys2Proof.Machine.execKhmap q o s
  | .kfxform q o => Sys2Proof.Machine.execKfxform q o s
  | .kfego q o => Sys2Proof.Machine.execKfego q o s
  | .kftrack q o => Sys2Proof.Machine.execKftrack q o s
  | .mcopy q o => Sys2Proof.Machine.execMcopy q o s
  | .mfill q o => Sys2Proof.Machine.execMfill q o s
  | .mraise q o => Sys2Proof.Machine.execMraise q o s
  | .mdrop q o => Sys2Proof.Machine.execMdrop q o s
  | .mpace q o => Sys2Proof.Machine.execMpace q o s
  | .menter q o => Sys2Proof.Machine.execMenter q o s
  | .tadd q o => Sys2Proof.Machine.execTadd q o s
  | .tsub q o => Sys2Proof.Machine.execTsub q o s
  | .twait q o => Sys2Proof.Machine.execTwait q o s
  | .tread q o => Sys2Proof.Machine.execTread q o s
  | .tarrive q o => Sys2Proof.Machine.execTarrive q o s
  | .tbarwait q o => Sys2Proof.Machine.execTbarwait q o s
  | .lread q o => Sys2Proof.Machine.execLread q o s
  | .lwait q o => Sys2Proof.Machine.execLwait q o s
  | .lwrel q o => Sys2Proof.Machine.execLwrel q o s
  | .larm q o => Sys2Proof.Machine.execLarm q o s
  | .ldisarm q o => Sys2Proof.Machine.execLdisarm q o s
  | .rread q o => Sys2Proof.Machine.execRread q o s
  | .rcoll q o => Sys2Proof.Machine.execRcoll q o s
  | .rpost q o => Sys2Proof.Machine.execRpost q o s
  | .rwait q o => Sys2Proof.Machine.execRwait q o s
  | .waitDeadline c => Sys2Proof.Machine.execWaitDeadline c s
  | .kernelComplete c id => Sys2Proof.Machine.execKernelComplete c id s
  | .receiptTake c => Sys2Proof.Machine.execReceiptTake c s
  | .kernelFault c id va write => Sys2Proof.Machine.execKernelFault c id va write s
  | .contextTeardown c => Sys2Proof.Machine.execContextTeardown c s
  | .tilePassEnd p cycles stall vault ext => Sys2Proof.Machine.execTilePassEnd p cycles stall vault ext s
  | .purseEccError t uncorrectable => Sys2Proof.Machine.execPurseEccError t uncorrectable s
  | .sprintEccError e uncorrectable => Sys2Proof.Machine.execSprintEccError e uncorrectable s
  | .mapOut r e v => Sys2Proof.Machine.execMapOut r e v s
  | .reflexFeaturesArrive e => Sys2Proof.Machine.execReflexFeaturesArrive e s
  | .reflexOutputsArrive e cycles => Sys2Proof.Machine.execReflexOutputsArrive e cycles s
  | .reflexOutputDeadline e => Sys2Proof.Machine.execReflexOutputDeadline e s
  | .kvAppend c id => Sys2Proof.Machine.execKvAppend c id s
  | .streamRegister r => Sys2Proof.Machine.execStreamRegister r s
  | .streamUnregister r => Sys2Proof.Machine.execStreamUnregister r s
  | .streamReset r => Sys2Proof.Machine.execStreamReset r s
  | .streamFlush r => Sys2Proof.Machine.execStreamFlush r s
  | .streamRead r => Sys2Proof.Machine.execStreamRead r s
  | .chunkAdmission => Sys2Proof.Machine.execChunkAdmission s
  | .streamRaiseComplete n corrected ue => Sys2Proof.Machine.execStreamRaiseComplete n corrected ue s
  | .streamLowerComplete n => Sys2Proof.Machine.execStreamLowerComplete n s
  | .streamStoreEccError n => Sys2Proof.Machine.execStreamStoreEccError n s
  | .tellerInval r v => Sys2Proof.Machine.execTellerInval r v s
  | .tellerInvalComplete => Sys2Proof.Machine.execTellerInvalComplete s
  | .pageMoveAccept => Sys2Proof.Machine.execPageMoveAccept s
  | .pageMoveComplete page => Sys2Proof.Machine.execPageMoveComplete page s
  | .menterCommit page => Sys2Proof.Machine.execMenterCommit page s
  | .nandEntryRewrite page second => Sys2Proof.Machine.execNandEntryRewrite page second s
  | .partnerFetchComplete page data => Sys2Proof.Machine.execPartnerFetchComplete page data s
  | .nandScrub page a b => Sys2Proof.Machine.execNandScrub page a b s
  | .dramScrub page corrected => Sys2Proof.Machine.execDramScrub page corrected s
  | .memoryUe e => Sys2Proof.Machine.execMemoryUe e s
  | .tellerPageRead r => Sys2Proof.Machine.execTellerPageRead r s
  | .clearPoison r => Sys2Proof.Machine.execClearPoison r s
  | .poolRegister r n v => Sys2Proof.Machine.execPoolRegister r n v s
  | .define r => Sys2Proof.Machine.execDefine r s
  | .kill r => Sys2Proof.Machine.execKill r s
  | .startCtxRead r => Sys2Proof.Machine.execStartCtxRead r s
  | .contextResident c => Sys2Proof.Machine.execContextResident c s
  | .starterDecision => Sys2Proof.Machine.execStarterDecision s
  | .preemptSaveComplete p ns => Sys2Proof.Machine.execPreemptSaveComplete p ns s
  | .swapComplete lost ns => Sys2Proof.Machine.execSwapComplete lost ns s
  | .regulatorRefill => Sys2Proof.Machine.execRegulatorRefill s
  | .budgetOverrun b => Sys2Proof.Machine.execBudgetOverrun b s
  | .startCtlWrite r v => Sys2Proof.Machine.execStartCtlWrite r v s
  | .tallyPortAdd r t v => Sys2Proof.Machine.execTallyPortAdd r t v s
  | .tallyPortSubtract r t v => Sys2Proof.Machine.execTallyPortSubtract r t v s
  | .tallyRead r => Sys2Proof.Machine.execTallyRead r s
  | .reclaim r => Sys2Proof.Machine.execReclaim r s
  | .tmapSet r => Sys2Proof.Machine.execTmapSet r s
  | .tmapClear r => Sys2Proof.Machine.execTmapClear r s
  | .tmapRead r => Sys2Proof.Machine.execTmapRead r s
  | .barDefine r => Sys2Proof.Machine.execBarDefine r s
  | .barUndefine r => Sys2Proof.Machine.execBarUndefine r s
  | .rearm r => Sys2Proof.Machine.execRearm r s
  | .setMembers r => Sys2Proof.Machine.execSetMembers r s
  | .arrive r slot => Sys2Proof.Machine.execArrive r slot s
  | .barRead r => Sys2Proof.Machine.execBarRead r s
  | .rwinRegister r w v => Sys2Proof.Machine.execRwinRegister r w v s
  | .rwinRegisterComplete w => Sys2Proof.Machine.execRwinRegisterComplete w s
  | .rwinUnregister r w v => Sys2Proof.Machine.execRwinUnregister r w v s
  | .collect r pa => Sys2Proof.Machine.execCollect r pa s
  | .watchEnable r k v => Sys2Proof.Machine.execWatchEnable r k v s
  | .pacerSampleInstant n env => Sys2Proof.Machine.execPacerSampleInstant n env s
  | .pacerExecutionStart n => Sys2Proof.Machine.execPacerExecutionStart n s
  | .pacerArm r n v => Sys2Proof.Machine.execPacerArm r n v s
  | .pacerStop r n v => Sys2Proof.Machine.execPacerStop r n v s
  | .pacerSwitch r n v => Sys2Proof.Machine.execPacerSwitch r n v s
  | .pacerEccError n uncorrectable => Sys2Proof.Machine.execPacerEccError n uncorrectable s
  | .sdTrip k value => Sys2Proof.Machine.execSdTrip k value s
  | .sdNoClock k => Sys2Proof.Machine.execSdNoClock k s
  | .encoderCount e x => Sys2Proof.Machine.execEncoderCount e x s
  | .ssiTransferStart e => Sys2Proof.Machine.execSsiTransferStart e s
  | .ssiWordComplete e word => Sys2Proof.Machine.execSsiWordComplete e word s
  | .carrierZero b peak => Sys2Proof.Machine.execCarrierZero b peak s
  | .mailboxCommit r n c v => Sys2Proof.Machine.execMailboxCommit r n c v s
  | .mailboxFeed n c => Sys2Proof.Machine.execMailboxFeed n c s
  | .islandHold r => Sys2Proof.Machine.execIslandHold r s
  | .islandRun r => Sys2Proof.Machine.execIslandRun r s
  | .islandResetRelease => Sys2Proof.Machine.execIslandResetRelease s
  | .islandInitComplete => Sys2Proof.Machine.execIslandInitComplete s
  | .pacerHalt n => Sys2Proof.Machine.execPacerHalt n s
  | .pacerNop n => Sys2Proof.Machine.execPacerNop n s
  | .pacerLd n => Sys2Proof.Machine.execPacerLd n s
  | .pacerSt n => Sys2Proof.Machine.execPacerSt n s
  | .pacerLdi n => Sys2Proof.Machine.execPacerLdi n s
  | .pacerLdk n => Sys2Proof.Machine.execPacerLdk n s
  | .pacerMov n => Sys2Proof.Machine.execPacerMov n s
  | .pacerAdd n => Sys2Proof.Machine.execPacerAdd n s
  | .pacerSub n => Sys2Proof.Machine.execPacerSub n s
  | .pacerWsub n => Sys2Proof.Machine.execPacerWsub n s
  | .pacerNeg n => Sys2Proof.Machine.execPacerNeg n s
  | .pacerAbs n => Sys2Proof.Machine.execPacerAbs n s
  | .pacerMin n => Sys2Proof.Machine.execPacerMin n s
  | .pacerMax n => Sys2Proof.Machine.execPacerMax n s
  | .pacerMul n => Sys2Proof.Machine.execPacerMul n s
  | .pacerShift n => Sys2Proof.Machine.execPacerShift n s
  | .pacerClamp n => Sys2Proof.Machine.execPacerClamp n s
  | .pacerAclr n => Sys2Proof.Machine.execPacerAclr n s
  | .pacerAld n => Sys2Proof.Machine.execPacerAld n s
  | .pacerMac n => Sys2Proof.Machine.execPacerMac n s
  | .pacerMsu n => Sys2Proof.Machine.execPacerMsu n s
  | .pacerMacx n => Sys2Proof.Machine.execPacerMacx n s
  | .pacerAst n => Sys2Proof.Machine.execPacerAst n s
  | .pacerDiv n => Sys2Proof.Machine.execPacerDiv n s
  | .pacerSqrt n => Sys2Proof.Machine.execPacerSqrt n s
  | .pacerSincos n => Sys2Proof.Machine.execPacerSincos n s
  | .pacerHyst n => Sys2Proof.Machine.execPacerHyst n s
  | .pacerBr n => Sys2Proof.Machine.execPacerBr n s
  | .pacerSetf n => Sys2Proof.Machine.execPacerSetf n s
  | .pacerEvt n => Sys2Proof.Machine.execPacerEvt n s
  | .fusionAdmit r => Sys2Proof.Machine.execFusionAdmit r s
  | .retire r k => Sys2Proof.Machine.execRetire r k s
  | .sampleIntake k => Sys2Proof.Machine.execSampleIntake k s
  | .streamDeparture k => Sys2Proof.Machine.execStreamDeparture k s
  | .instantRelease => Sys2Proof.Machine.execInstantRelease s
  | .transformSwap r v => Sys2Proof.Machine.execTransformSwap r v s
  | .fusionEnable r v => Sys2Proof.Machine.execFusionEnable r v s
  | .trackerEccError slot uncorrectable => Sys2Proof.Machine.execTrackerEccError slot uncorrectable s
  | .hurdleEnable r src => Sys2Proof.Machine.execHurdleEnable r src s
  | .hurdleDisable r src => Sys2Proof.Machine.execHurdleDisable r src s
  | .stopStrideLoad r index => Sys2Proof.Machine.execStopStrideLoad r index s
  | .batchYield => Sys2Proof.Machine.execBatchYield s
  | .hurdleEccError e => Sys2Proof.Machine.execHurdleEccError e s
  | .judgeHeartbeat => Sys2Proof.Machine.execJudgeHeartbeat s
  | .linkLoss => Sys2Proof.Machine.execLinkLoss s
  | .aliveToggle => Sys2Proof.Machine.execAliveToggle s
  | .aliveLoss => Sys2Proof.Machine.execAliveLoss s
  | .copyForward w rcpt pa len lane => Sys2Proof.Machine.execCopyForward w rcpt pa len lane s
  | .copyDrop => Sys2Proof.Machine.execCopyDrop s
  | .mainFrame o => Sys2Proof.Machine.execMainFrame o s
  | .guardValue o words => Sys2Proof.Machine.execGuardValue o words s
  | .outputDeadline o => Sys2Proof.Machine.execOutputDeadline o s
  | .verdictDelivery o => Sys2Proof.Machine.execVerdictDelivery o s
  | .fallbackRestartTimeout => Sys2Proof.Machine.execFallbackRestartTimeout s
  | .taskCheckpoint t => Sys2Proof.Machine.execTaskCheckpoint t s
  | .taskGapTimeout t => Sys2Proof.Machine.execTaskGapTimeout t s
  | .stoDiscrepancy g a b => Sys2Proof.Machine.execStoDiscrepancy g a b s
  | .bSide g => Sys2Proof.Machine.execBSide g s
  | .ss1Complete g standstill => Sys2Proof.Machine.execSs1Complete g standstill s
  | .estopInputChange chB closed => Sys2Proof.Machine.execEstopInputChange chB closed s
  | .estopDiscrepancy => Sys2Proof.Machine.execEstopDiscrepancy s
  | .testPulse out seen => Sys2Proof.Machine.execTestPulse out seen s
  | .enableInputChange chB closed => Sys2Proof.Machine.execEnableInputChange chB closed s
  | .enableDiscrepancy => Sys2Proof.Machine.execEnableDiscrepancy s
  | .sportTimeout => Sys2Proof.Machine.execSportTimeout s
  | .vinWindowTrip => Sys2Proof.Machine.execVinWindowTrip s
  | .lemquevinFault => Sys2Proof.Machine.execLemquevinFault s
  | .auditFragment u => Sys2Proof.Machine.execAuditFragment u s
  | .auditStepComplete u fails => Sys2Proof.Machine.execAuditStepComplete u fails s
  | .auditAgeExceeded k => Sys2Proof.Machine.execAuditAgeExceeded k s
  | .sportFrame b => Sys2Proof.Machine.execSportFrame b s
  | .sportNop svc => Sys2Proof.Machine.execSportNop svc s
  | .status svc page => Sys2Proof.Machine.execStatus svc page s
  | .stop svc mask kind => Sys2Proof.Machine.execStop svc mask kind s
  | .reset svc mask => Sys2Proof.Machine.execReset svc mask s
  | .mode svc v => Sys2Proof.Machine.execMode svc v s
  | .cfgWrite svc off data => Sys2Proof.Machine.execCfgWrite svc off data s
  | .cfgCommit svc crc => Sys2Proof.Machine.execCfgCommit svc crc s
  | .clearCounts svc => Sys2Proof.Machine.execClearCounts svc s
  | .guardBoot => Sys2Proof.Machine.execGuardBoot s
  | .rails svc ep => Sys2Proof.Machine.execRails svc ep s
  | .mint => Sys2Proof.Machine.execMint s
  | .selfTest t => Sys2Proof.Machine.execSelfTest t s
  | .dramTrain failed full => Sys2Proof.Machine.execDramTrain failed full s
  | .dramTest failed sbe => Sys2Proof.Machine.execDramTest failed sbe s
  | .retention failed sbe bad => Sys2Proof.Machine.execRetention failed sbe bad s
  | .settle rt => Sys2Proof.Machine.execSettle rt s
  | .ready save ctl => Sys2Proof.Machine.execReady save ctl s
  | .nandTrain ch rate => Sys2Proof.Machine.execNandTrain ch rate s
  | .relayLinkTrain l mask reach => Sys2Proof.Machine.execRelayLinkTrain l mask reach s
  | .swjPgFall => Sys2Proof.Machine.execSwjPgFall s
  | .imageRecovery partner ver data => Sys2Proof.Machine.execImageRecovery partner ver data s
  | .pllUnlock k => Sys2Proof.Machine.execPllUnlock k s
  | .pairForm ready serial pref duty => Sys2Proof.Machine.execPairForm ready serial pref duty s
  | .pairSynced => Sys2Proof.Machine.execPairSynced s
  | .pairHeartbeat alt rx => Sys2Proof.Machine.execPairHeartbeat alt rx s
  | .heartbeatLoss alt => Sys2Proof.Machine.execHeartbeatLoss alt s
  | .mirrorRecordApply rec_ => Sys2Proof.Machine.execMirrorRecordApply rec_ s
  | .contextCheckpoint c => Sys2Proof.Machine.execContextCheckpoint c s
  | .dutyTakeover yielded => Sys2Proof.Machine.execDutyTakeover yielded s
  | .handover r => Sys2Proof.Machine.execHandover r s
  | .take r => Sys2Proof.Machine.execTake r s
  | .leave r => Sys2Proof.Machine.execLeave r s
  | .retrain r l => Sys2Proof.Machine.execRetrain r l s
  | .linkCrcBurst l n => Sys2Proof.Machine.execLinkCrcBurst l n s
  | .linkRetrainComplete l mask reach => Sys2Proof.Machine.execLinkRetrainComplete l mask reach s
  | .groupSend c => Sys2Proof.Machine.execGroupSend c s
  | .groupRecv l dest c data => Sys2Proof.Machine.execGroupRecv l dest c data s
  | .imgWrite r => Sys2Proof.Machine.execImgWrite r s
  | .imgFetch r => Sys2Proof.Machine.execImgFetch r s
  | .activate r => Sys2Proof.Machine.execActivate r s
  | .imageWriteComplete e => Sys2Proof.Machine.execImageWriteComplete e s
  | .csiPacket k p => Sys2Proof.Machine.execCsiPacket k p s
  | .frameReceiptPost k => Sys2Proof.Machine.execFrameReceiptPost k s
  | .bridgeFrameReceive p data launch res => Sys2Proof.Machine.execBridgeFrameReceive p data launch res s
  | .learningAgeOut mac vid => Sys2Proof.Machine.execLearningAgeOut mac vid s
  | .gateListAdvance p => Sys2Proof.Machine.execGateListAdvance p s
  | .streamGateAdvance g => Sys2Proof.Machine.execStreamGateAdvance g s
  | .recoveryReset r => Sys2Proof.Machine.execRecoveryReset r s
  | .busWrite b ok => Sys2Proof.Machine.execBusWrite b ok s
  | .busRead b res => Sys2Proof.Machine.execBusRead b res s
  | .entdaa b addrs => Sys2Proof.Machine.execEntdaa b addrs s
  | .busStop b => Sys2Proof.Machine.execBusStop b s
  | .busRxRead r b => Sys2Proof.Machine.execBusRxRead r b s
  | .inBandInterrupt b addr data => Sys2Proof.Machine.execInBandInterrupt b addr data s
  | .hotJoin b addr => Sys2Proof.Machine.execHotJoin b addr s
  | .commandRead path tag addr len => Sys2Proof.Machine.execCommandRead path tag addr len s
  | .commandWrite path tag addr data => Sys2Proof.Machine.execCommandWrite path tag addr data s
  | .fuse path tag entries => Sys2Proof.Machine.execFuse path tag entries s
  | .image path tag data => Sys2Proof.Machine.execImage path tag data s
  | .incident path tag addr len => Sys2Proof.Machine.execIncident path tag addr len s
  | .judge path tag data => Sys2Proof.Machine.execJudge path tag data s
  | .hpdQualified n up => Sys2Proof.Machine.execHpdQualified n up s
  | .powerSample w gap => Sys2Proof.Machine.execPowerSample w gap s
  | .capUnmet unreducible => Sys2Proof.Machine.execCapUnmet unreducible s
  | .tempSample raw => Sys2Proof.Machine.execTempSample raw s
  | .thermalLimitStep => Sys2Proof.Machine.execThermalLimitStep s
  | .droopTrip n => Sys2Proof.Machine.execDroopTrip n s
  | .setColdNext r => Sys2Proof.Machine.execSetColdNext r s
  | .clearLearned r => Sys2Proof.Machine.execClearLearned r s
  | .fuseLearned r => Sys2Proof.Machine.execFuseLearned r s
  | .mintCommandComplete fail => Sys2Proof.Machine.execMintCommandComplete fail s
  | .clearAll r => Sys2Proof.Machine.execClearAll r s
  | .clearOne r n => Sys2Proof.Machine.execClearOne r n s
  | .clearNotes r => Sys2Proof.Machine.execClearNotes r s
  | .incidentRecordRead r rec_ => Sys2Proof.Machine.execIncidentRecordRead r rec_ s
  | .readClear r off w => Sys2Proof.Machine.execReadClear r off w s
  | .reservedEncoding c word => Sys2Proof.Machine.execReservedEncoding c word s
  | .alwaysOnPowerOn => Sys2Proof.Machine.execAlwaysOnPowerOn s
  | .vlqLoss => Sys2Proof.Machine.execVlqLoss s
  | .vioDriveChange up => Sys2Proof.Machine.execVioDriveChange up s
  | .pwmCompareMatch b phase => Sys2Proof.Machine.execPwmCompareMatch b phase s
  | .droopRecover n cycles worst => Sys2Proof.Machine.execDroopRecover n cycles worst s
  | .pllRelock k => Sys2Proof.Machine.execPllRelock k s
  | .pcieLinkChange width rate partner => Sys2Proof.Machine.execPcieLinkChange width rate partner s
  | .ethLinkChange p up partner => Sys2Proof.Machine.execEthLinkChange p up partner s
  | .dutyInFall => Sys2Proof.Machine.execDutyInFall s
  | .stoTestOverdue g => Sys2Proof.Machine.execStoTestOverdue g s

end Sys2Proof.Machine
end

