-- ==== Sys2Proof/Safety.lean ====
section
/-!
DEFINITION. The terms in which claims about the block are stated: what a command leaves as it was, and the invariant of
the Ledger range's list of cells.
-/

namespace Sys2Proof.Machine

open Sys2Proof

/-- The sparse maps that hold the registers and the bytes of the Ledger range are in canonical form: keys rise strictly,
and no entry equals what its key reads as when it is not listed. Equal contents are then equal data. -/
structure Canon (s : State) : Prop where
  /-- bytes of the homes -/
  mem : Memory.wf s = true
  /-- registers of control space and staged copies -/
  regs : mwf regDefault s.regs = true
  /-- bytes of dirty raised copies -/
  overlay : mwf (fun _ => none) s.overlay = true
  /-- pages whose contents the spec leaves open -/
  lostPages : mwf (fun _ => none) s.lostPages = true

/-- Every register but those listed reads as before. -/
def RegsKept (ks : List Nat) (s t : State) : Prop := ∀ k, k ∉ ks → t.reg k = s.reg k

/-- Every byte of the Ledger range reads as before. -/
def MemKept (s t : State) : Prop := ∀ a, t.byteAt a = s.byteAt a

/-- Every byte of the Ledger range outside the `n` bytes from `a` reads as before. -/
def MemKeptOutside (a n : Nat) (s t : State) : Prop := ∀ b, b < a ∨ a + n ≤ b → t.byteAt b = s.byteAt b

/-- Every context but one is as before. -/
def CtxsKept (c : Nat) (s t : State) : Prop :=
  ∀ d, d ≠ c → mget (fun _ => {}) t.ctxs d = mget (fun _ => {}) s.ctxs d

/-- A command's outcome is a next state, of which something holds. -/
def Gives (o : Host.Outcome State Fault Refusal) (p : State → Prop) : Prop := ∃ t, o = .next t ∧ p t

/-! ### What a command leaves as it was -/

/-- The pieces of the state beside the registers of control space. -/
inductive Part where
  | mem | reply | out | latch | lanes | tally | ctxs | teller | field | starter | boot | island | net | judge | fusion
  | hurdle | stream | sprint | relay | port | power
  deriving DecidableEq, Repr

/-- A piece of the state is as before. -/
def Part.same (s t : State) : Part → Prop
  | .mem => MemKept s t
  | .reply => t.reply = s.reply
  | .out => t.out = s.out
  | .latch => t.recLatch = s.recLatch
  | .lanes => t.lanes = s.lanes
  | .tally => t.tally = s.tally
  | .ctxs => t.ctxs = s.ctxs
  | .teller => t.teller = s.teller
  | .field => t.field = s.field
  | .starter => t.starter = s.starter
  | .boot => t.boot = s.boot
  | .island => t.island = s.island
  | .net => t.net = s.net
  | .judge => t.judge = s.judge
  | .fusion => t.fusion = s.fusion
  | .hurdle => t.hurdle = s.hurdle
  | .stream => t.stream = s.stream
  | .sprint => t.sprint = s.sprint
  | .relay => t.relay = s.relay
  | .port => t.port = s.port
  | .power => t.power = s.power

/-- Every register but those listed, and every piece of the state but those listed, is as before. -/
structure Only (ks : List Nat) (ps : List Part) (s t : State) : Prop where
  regs : RegsKept ks s t
  parts : ∀ p, p ∉ ps → p.same s t

/-- A clause of a result: only these registers and pieces of the state may have changed, and this holds of the next state. -/
def Does (ks : List Nat) (ps : List Part) (o : Host.Outcome State Fault Refusal) (s : State) (p : State → Prop) : Prop :=
  Gives o fun t => p t ∧ Only ks ps s t

/-- A number lists the registers of a command that is denied (R435, R465). -/
def denyRegs (r : Nat) : List Nat :=
  [Reg.INC_CNT 8, Reg.PORT_DENY_CNT r, Reg.PORT_DENY_LAST] ++ (List.range 8).map (Reg.INC_REC 8)

/-- No Cue is armed, and no context waits on a Lane: nothing hangs on a movement of a Lane. -/
def Calm (s : State) : Prop :=
  (∀ i, (s.cue i).armed = false) ∧ ∀ c n v pd sd, (s.ctx c).wait ≠ some (.lane n v pd sd)

/-- The registers of a Lane that its movement changes. -/
def laneRegs (n : Nat) : List Nat := [Reg.LANE_VALUE n, Reg.LANE_STAT n, Reg.LANE_EPOCH n]

/-- No wait, no watch and no pace schedule follows a Tally: nothing hangs on its count. -/
def QuietTally (s : State) (i : Nat) : Prop :=
  (∀ c j n pd sd dl, (s.ctx c).wait = some (.tally j n pd sd dl) → j ≠ i) ∧ (∀ k, k < 16 → s.watches k i = false) ∧
    ∀ p ∈ s.teller.paces, p.tally ≠ i

/-- No stream of the Fusion unit is admitted. -/
def NoStreams (s : State) : Prop := ∀ k, k < 64 → s.fState k = 0

/-! ### Instructions of a context -/

/-- The state an instruction works on: its word has been fetched, and the translation is cached (R219). -/
def State.fetched (s : State) (q : Issue) : State := s.noteTlb q.ctx (s.ctx q.ctx).pc

/-- An instruction of a context passes its issue, its fetch, its predicate and its encoding check (R69, R70, R72, R95). -/
structure Issues (s : State) (q : Issue) (m : Mn) (o : NOps) : Prop where
  issuable : s.issuable q.ctx = true
  fetch : ∃ pa, s.check q.ctx (s.ctx q.ctx).pc false true false = .ok pa ∧ s.movingAt pa = false
  selected : s.selected q.ctx q.neg q.sel = true
  encoding : reservedUse ⟨q.neg, q.sel, m, o⟩ = false

/-- What an instruction of one context leaves as it was outside that context: the registers of control space, every byte of
the Ledger range, and every other context. -/
structure Outside (c : Nat) (s t : State) : Prop where
  regs : RegsKept [] s t
  mem : MemKept s t
  ctxs : CtxsKept c s t

/-- The context's predicates, descriptor slots, operations and waits are as before, and so is all outside it. -/
structure CtxRest (c : Nat) (s t : State) : Prop where
  preds : (t.ctx c).preds = (s.ctx c).preds
  descs : (t.ctx c).descs = (s.ctx c).descs
  ops : (t.ctx c).ops = (s.ctx c).ops
  outside : Outside c s t

/-- An instruction has written one scalar register (S0 discards it, R71) and gone on to the next word. -/
structure WroteScalar (c : Nat) (sd : Fin 32) (v : W64) (s t : State) : Prop where
  value : ∀ r, t.sget c r = if r = sd ∧ r.val ≠ 0 then v else s.sget c r
  pc : (t.ctx c).pc = (s.ctx c).pc + 16
  rest : CtxRest c s t

/-- An instruction has written one predicate (P0 discards it, R72) and gone on to the next word. -/
structure WrotePred (c : Nat) (pd : Fin 8) (v : Bool) (s t : State) : Prop where
  value : ∀ p, t.pget c p = if p = pd ∧ p.val ≠ 0 then v else s.pget c p
  pc : (t.ctx c).pc = (s.ctx c).pc + 16
  scalars : ∀ r, t.sget c r = s.sget c r
  descs : (t.ctx c).descs = (s.ctx c).descs
  ops : (t.ctx c).ops = (s.ctx c).ops
  outside : Outside c s t

/-- An instruction has written one descriptor slot and gone on to the next word. -/
structure WroteSlot (c : Nat) (dd : Nat) (v : BitVec 512) (s t : State) : Prop where
  value : ∀ d, t.slot c d = if d = dd then v else s.slot c d
  pc : (t.ctx c).pc = (s.ctx c).pc + 16
  scalars : ∀ r, t.sget c r = s.sget c r
  preds : (t.ctx c).preds = (s.ctx c).preds
  ops : (t.ctx c).ops = (s.ctx c).ops
  outside : Outside c s t

/-- An instruction has written the program counter, and nothing else but what it names. -/
structure Jumped (c : Nat) (pc : W64) (s t : State) : Prop where
  pc : (t.ctx c).pc = pc
  rest : CtxRest c s t

/-- An instruction has stored bytes from a physical address up, none elsewhere, and gone on to the next word; of the registers
of control space only the count of mirror records may differ. -/
structure StoredAt (c : Nat) (pa : Nat) (bs : List Byte) (s t : State) : Prop where
  bytes : ∀ a, t.byteAt a = if pa ≤ a ∧ a < pa + bs.length then bs.getD (a - pa) 0 else s.byteAt a
  regs : RegsKept [Reg.RELAY_MIRROR_SENT] s t
  pc : (t.ctx c).pc = (s.ctx c).pc + 16
  scalars : ∀ r, t.sget c r = s.sget c r
  preds : (t.ctx c).preds = (s.ctx c).preds
  descs : (t.ctx c).descs = (s.ctx c).descs
  ops : (t.ctx c).ops = (s.ctx c).ops
  ctxs : CtxsKept c s t

/-- The wait of an instruction has ended with an outcome (R86): PD tells whether it is SATISFIED, SD holds the code, the
context goes on with the next word and no longer waits. -/
structure WaitEnded (c : Nat) (pd : Fin 8) (sd : Fin 32) (code : Nat) (s t : State) : Prop where
  pred : ∀ p, t.pget c p = if p = pd ∧ p.val ≠ 0 then code == 0 else s.pget c p
  scalar : ∀ r, t.sget c r = if r = sd ∧ r.val ≠ 0 then BitVec.ofNat 64 code else s.sget c r
  pc : (t.ctx c).pc = (s.ctx c).pc + 16
  wait : (t.ctx c).wait = none
  outside : Outside c s t

/-- The context waits, and everything else of it is as before. -/
structure Blocked (c : Nat) (w : Wait) (s t : State) : Prop where
  wait : (t.ctx c).wait = some w
  pc : (t.ctx c).pc = (s.ctx c).pc
  scalars : ∀ r, t.sget c r = s.sget c r
  rest : CtxRest c s t

/-- A precise fault of the instruction at the program counter is recorded (R87, R90): teardown begins, and nothing else of
the context has changed. -/
structure FaultedAt (c code unit : Nat) (detail vaddr : W64) (s t : State) : Prop where
  td : (t.ctx c).td = some .fault
  fault : (t.ctx c).fault = some
    { code := code, imprecise := false, unit := unit, tag := 0, pc := (s.ctx c).pc, vaddr := vaddr
      lane15 := s.laneVal 15, detail := detail }
  pc : (t.ctx c).pc = (s.ctx c).pc
  scalars : ∀ r, t.sget c r = s.sget c r
  rest : CtxRest c s t

/-- The address of an aligned access of `n` bytes translates, and its page does not move: what R99 and R95 ask. -/
structure Reaches (s : State) (c : Nat) (va : W64) (n : Nat) (write : Bool) (pa : Nat) : Prop where
  aligned : va.toNat % n = 0
  small : va.toNat < 2 ^ 48
  check : s.check c va write false false = .ok pa
  still : s.movingAt pa = false

/-- What is recorded of a fault that the Starter finds in a context (R261, R263). -/
def starterFault (s : State) (c code : Nat) (detail : W64) : FaultInfo :=
  { code := code, imprecise := false, unit := 8, tag := 0, pc := (s.ctx c).pc, vaddr := 0, lane15 := s.laneVal 15
    detail := detail }

/-! ### Asynchronous instructions -/

/-- No operation is outstanding in any context, and no unit runs one. -/
structure Alone (s : State) : Prop where
  ops : ∀ e ∈ s.ctxs, e.2.ops = []
  runs : s.hurdle.runs = []
  load : s.hurdle.load = none
  xform : s.fusion.xform = none
  tracker : s.fusion.tracker = none

/-- Only cached translations differ: what reads at issue leave of a state. -/
structure Reread (s u : State) : Prop where
  only : Only [] [.teller] s u
  teller : u.teller = { s.teller with tlb := u.teller.tlb }
  counters : u.stamp = s.stamp ∧ u.freeCtr = s.freeCtr ∧ u.pending = s.pending

/-- What a kernel has at issue: its word, its descriptors, its parameter block and what else it read. -/
def kernelIn (s : State) (c : Nat) (m : Mn) (o : OpK) (blk ext : List Byte) : KIn :=
  { mn := m, o := o, dO := s.slot c o.dO.val, dA := s.slot c o.dA.val, dB := s.slot c o.dB.val, dC := s.slot c o.dC.val
    blk := blk, extra := ext }

/-- The completion Tally and the Receipt that a word names are in order (R74, R95 steps 6 and 10). -/
structure Completes (s : State) (c : Nat) (tally rcpt : Bool) (vt : Nat) (sr : Fin 32) (t : Option Nat) (rc : Option W64) :
    Prop where
  tally : if tally then ∃ i own, s.mapEnt c vt = some (.tally i own) ∧ t = some i else t = none
  rcpt : if rcpt then sr.val ≠ 0 ∧ (s.sget c sr).toNat % 8 = 0 ∧ rc = some (s.sget c sr) else rc = none

/-- A kernel passes every check of R95 at issue; `u` is the state after what it reads. -/
structure Accepted (s : State) (q : Issue) (m : Mn) (o : OpK) (blk ext : List Byte) (t : Option Nat) (rc : Option W64)
    (u : State) : Prop where
  issues : Issues s q m (.k o)
  units : ∀ b ∈ needs m, s.present b = true
  block : ∃ v, Reread s v ∧ (∀ f, (s.fetched q).withBlock q.ctx m o f = f blk v) ∧
    ∀ f, v.withExtra q.ctx (kernelIn s q.ctx m o blk []) f = f ext u
  reread : Reread s u
  range : ¬ (spUse m = .required ∧ o.sp.val = 0) ∧ badBlock (kernelIn s q.ctx m o blk []) = false
  state : u.badState q.ctx (kernelIn s q.ctx m o blk ext) = none
  round : o.rnd.val ≤ 4 ∧ (intOnly (kernelIn s q.ctx m o blk ext) = true → o.rnd.val = 0)
  imm : badImm m o.imm.toNat = false
  done : Completes s q.ctx o.tally o.rcpt o.vt o.sr t rc
  tensors : ∀ f, u.checkTensors q.ctx (kernelIn s q.ctx m o blk ext) f = f
  whole : u.lostUnit q.ctx (kernelIn s q.ctx m o blk ext) = none
  room : (s.ctx q.ctx).ops.length < 16

/-- What a unit gets of an accepted kernel (R81). -/
def kernelOp (s : State) (q : Issue) (m : Mn) (o : OpK) (blk ext : List Byte) (t : Option Nat) (rc : Option W64) : AsyncOp :=
  { id := s.stamp, order := s.stamp, unit := unitOf m, mn := m, pc := (s.ctx q.ctx).pc, dO := s.slot q.ctx o.dO.val
    dA := s.slot q.ctx o.dA.val, dB := s.slot q.ctx o.dB.val, dC := s.slot q.ctx o.dC.val, k := o, tally := t, rcpt := rc
    params := blk, extra := ext
    streams := if m = .kscan ∨ m = .kcell then State.chunkList (kernelIn s q.ctx m o blk ext) else [] }

/-- An operation is outstanding, alone, with everything it copied; the context has gone on, and nothing else of it has
changed. How far the operation has come is told by `p`. -/
structure HandedOver (c : Nat) (op : AsyncOp) (p : OpState → Prop) (s t : State) : Prop where
  ops : ∃ st seq, (t.ctx c).ops = [{ op with state := st, seqTaken := seq }] ∧ p st
  pc : (t.ctx c).pc = (s.ctx c).pc + 16
  scalars : ∀ r, t.sget c r = s.sget c r
  preds : (t.ctx c).preds = (s.ctx c).preds
  descs : (t.ctx c).descs = (s.ctx c).descs
  ctxs : CtxsKept c s t

/-- The registers that count a producer that waits for its Receipt (R284). -/
def stallRegs : List Nat := (List.range 16).map Reg.RWIN_STAT

/-! ### Pacers (12) -/

/-- A Pacer executes the instruction at a program counter of a channel, and it has this opcode (R297). -/
structure PacerAt (s : State) (n op c pc : Nat) (i : PIns) : Prop where
  at_ : (s.pacer n).exec = some (c, pc)
  fetched : s.pFetch n (s.pacer n).pbank pc = i
  opcode : i.op = op

/-- An instruction of a Pacer's channel has gone on to a program counter: of the island, only that Pacer's program counter and
that channel may differ. -/
structure PacerWent (n c pc : Nat) (s t : State) : Prop where
  pacer : t.pacer n = { s.pacer n with exec := some (c, pc) }
  pacers : ∀ m, m ≠ n → t.pacer m = s.pacer m
  chans : ∀ m d, 4 * m + d ≠ 4 * n + c → t.chan m d = s.chan m d
  rest : t.island = { s.island with pacers := t.island.pacers, chans := t.island.chans }

/-- An instruction of a channel has written register `xd`, and set SAT if asked to. -/
structure PacerWroteX (n c pc xd : Nat) (v : W32) (sat : Prop) (s t : State) : Prop where
  went : PacerWent n c (pc + 1) s t
  value : ∀ r, t.px n c r = if r = xd then v.toInt else s.px n c r
  chan : t.chan n c = { s.chan n c with xs := (t.chan n c).xs }
  set : sat → t.fld (Reg.PCH_STAT_SAT n c) = 1
  kept : ¬ sat → t.reg (Reg.PCH_STAT n c) = s.reg (Reg.PCH_STAT n c)

/-- The nearest whole number to a quotient, ties to even (R296). -/
def Nearest (z v : Int) (d : Nat) : Prop := 2 * (d * z - v).natAbs ≤ d ∧ (2 * (d * z - v).natAbs = d → z % 2 = 0)

/-- A value held to the range of a signed width (R296). -/
def held (w : Nat) (z : Int) : Int := Max.max (-2 ^ (w - 1)) (Min.min (2 ^ (w - 1) - 1) z)

/-! ### The Judge (15) -/

/-- The registers that record an incident (R465). -/
def incRegs (n : Nat) : List Nat := Reg.INC_CNT n :: (List.range 8).map (Reg.INC_REC n)

/-- The registers that show STO (R367). -/
def stoRegs : List Nat := Reg.ISLAND_STAT :: (List.range 12).map Reg.PWM_BR_STAT

/-- The record of a cause (JUDGE_CAUSE). -/
def causeWord (s : State) (code idx : Nat) : W64 :=
  BitVec.ofNat 64 (2 ^ 32 * ((s.laneVal 15).toNat / 2 ^ 32) + 2 ^ 16 * (idx % 256) + code)

/-- The masks of groups name four groups. -/
def JudgeMasks (s : State) : Prop := s.judge.cmd < 16 ∧ s.judge.ss1 < 16

/-- The groups of a mask are in STO on both channels, and their bridges show it; no SS1 runs in them (R367, R368). -/
structure InSto (m : Nat) (s t : State) : Prop where
  cmd : ∀ g, g < 4 → bitAt t.judge.cmd g = (bitAt s.judge.cmd g || bitAt m g)
  line : ∀ g, g < 4 → bitAt t.island.stopLine g = (bitAt s.island.stopLine g || bitAt m g)
  ss1 : ∀ g, g < 4 → bitAt t.judge.ss1 g = (bitAt s.judge.ss1 g && !bitAt m g)
  shown : s.island.reset = false → ∀ b, b < 12 → bitAt m (s.bridgeGroup b) = true → t.fld (Reg.PWM_BR_STAT_STO b) = 1

/-- SS1 runs in the groups of a mask that were not in STO (R371). -/
structure InSs1 (m : Nat) (s t : State) : Prop where
  cmd : t.judge.cmd = s.judge.cmd
  ss1 : ∀ g, g < 4 → bitAt t.judge.ss1 g = (bitAt s.judge.ss1 g || (bitAt m g && !bitAt s.judge.cmd g))
  since : ∀ g, g < 4 → bitAt m g = true → bitAt s.judge.cmd g = false → bitAt s.judge.ss1 g = false →
    mget (fun _ => 0) t.judge.ss1At g = s.uptime

/-- The entries into fall-back of the last 600 s (R366). -/
def recentEntries (s : State) : List W64 := s.judge.entries.filter fun t => decide ((s.uptime - t).toNat ≤ 600000000000)

/-- One more entry into fall-back does not lock the module out (R366). -/
def Spared (s : State) : Prop := s.judge.cfgValid = false ∨ (recentEntries s).length + 1 < s.cfgNat 0x00A 1

/-- The module has entered fall-back on a cause: the entry is noted, no output accepts main frames, groups whose FB_MODE is SS1
stop, and the island holds (R364, R365). -/
structure FellBack (code idx : Nat) (s t : State) : Prop where
  fallback : t.judge.fallback = true
  cause : t.judge.cause = causeWord s code idx
  entries : t.judge.entries = s.uptime :: recentEntries s
  since : t.judge.fbAt = s.uptime
  outputs : ∀ o, (t.jout o).rejoined = false ∧ (t.jout o).flags = [] ∧ (t.jout o).deliver = (s.jout o).deliver
  stops : ∀ g, g < 4 → bitAt t.judge.ss1 g =
    (bitAt s.judge.ss1 g || (decide (s.groupNat g 2 1 = 1) && !bitAt s.judge.cmd g))
  shown : s.island.reset = false → s.present 5 = true → t.flag Reg.ISLAND_STAT_FALLBACK = true ∧ t.islandHold = true

/-! ### Notes and start-up (16, 20) -/

/-- The registers that the next note takes (R467). -/
def noteRegs (s : State) : List Nat :=
  Reg.SYS_NOTE_SEQ :: (List.range 4).map (Reg.SYS_NOTE ((s.reg Reg.SYS_NOTE_SEQ).toNat % 64))

/-- A note has been written (R467). -/
structure Noted (code : Nat) (d : W64) (s t : State) : Prop where
  seq : t.reg Reg.SYS_NOTE_SEQ = s.reg Reg.SYS_NOTE_SEQ + 1
  time : t.reg (Reg.SYS_NOTE ((s.reg Reg.SYS_NOTE_SEQ).toNat % 64) 0) = s.uptime
  what : t.reg (Reg.SYS_NOTE ((s.reg Reg.SYS_NOTE_SEQ).toNat % 64) 2) = State.recWord2 code 0x81 0x100
  detail : t.reg (Reg.SYS_NOTE ((s.reg Reg.SYS_NOTE_SEQ).toNat % 64) 3) = d

/-- Start-up has failed with a code and its detail (R385). -/
structure FailedStart (code detail : Nat) (s t : State) : Prop where
  stage : t.fld Reg.SYS_START_STAGE = 0xE
  shown : t.fld Reg.SYS_START_FAIL = code
  note : Noted 2 (BitVec.ofNat 64 (256 * (detail % 65536) + code)) s t

end Sys2Proof.Machine
end

