-- ==== Sys2Proof/Certificates/Slice0/Obligations.lean ====
section
/-!
DEFINITION. The statements for the provers: what the commands of the block do, family by family, and what every step keeps.
-/

open Sys2Proof Sys2Proof.Machine

/-! ### Instructions of a context: scalars (04) -/

/-- R98, R41, R71, R72: an arithmetic instruction writes the 64-bit result of SA and SB (IMM with IMM_SEL) to SD, S0 discarding it;
division by zero gives all ones, and its remainder the dividend. A compare writes its outcome to PD, P0 discarding it, and pget
writes the predicates as a byte to SD. Nothing else changes but the program counter. -/
def Obligations.ScalarInstructions : Prop :=
  (∀ (s : State) (q : Issue) (o : OpS),
     let a := s.sget q.ctx o.sa
     let b := s.srcB q.ctx o
     (Issues s q .add (.s o) → Gives (exec (.add q o) s) (WroteScalar q.ctx o.sd (a + b) s)) ∧
     (Issues s q .sub (.s o) → Gives (exec (.sub q o) s) (WroteScalar q.ctx o.sd (a - b) s)) ∧
     (Issues s q .and (.s o) → Gives (exec (.and q o) s) (WroteScalar q.ctx o.sd (a &&& b) s)) ∧
     (Issues s q .or (.s o) → Gives (exec (.or q o) s) (WroteScalar q.ctx o.sd (a ||| b) s)) ∧
     (Issues s q .xor (.s o) → Gives (exec (.xor q o) s) (WroteScalar q.ctx o.sd (a ^^^ b) s)) ∧
     (Issues s q .shl (.s o) → Gives (exec (.shl q o) s) (WroteScalar q.ctx o.sd (a <<< (b.toNat % 64)) s)) ∧
     (Issues s q .shr (.s o) → Gives (exec (.shr q o) s) (WroteScalar q.ctx o.sd (a >>> (b.toNat % 64)) s)) ∧
     (Issues s q .sra (.s o) → Gives (exec (.sra q o) s) (WroteScalar q.ctx o.sd (a.sshiftRight (b.toNat % 64)) s)) ∧
     (Issues s q .mul (.s o) → Gives (exec (.mul q o) s) (WroteScalar q.ctx o.sd (a * b) s)) ∧
     (Issues s q .mulhs (.s o) →
       Gives (exec (.mulhs q o) s) (WroteScalar q.ctx o.sd (BitVec.ofInt 64 (a.toInt * b.toInt / 2 ^ 64)) s)) ∧
     (Issues s q .mulhu (.s o) →
       Gives (exec (.mulhu q o) s) (WroteScalar q.ctx o.sd (BitVec.ofNat 64 (a.toNat * b.toNat / 2 ^ 64)) s)) ∧
     (Issues s q .div (.s o) → Gives (exec (.div q o) s) (WroteScalar q.ctx o.sd
       (if b = 0 then BitVec.allOnes 64 else BitVec.ofInt 64 (a.toInt.tdiv b.toInt)) s)) ∧
     (Issues s q .divu (.s o) → Gives (exec (.divu q o) s) (WroteScalar q.ctx o.sd
       (if b = 0 then BitVec.allOnes 64 else a / b) s)) ∧
     (Issues s q .rem (.s o) → Gives (exec (.rem q o) s) (WroteScalar q.ctx o.sd
       (if b = 0 then a else BitVec.ofInt 64 (a.toInt.tmod b.toInt)) s)) ∧
     (Issues s q .remu (.s o) → Gives (exec (.remu q o) s) (WroteScalar q.ctx o.sd (if b = 0 then a else a % b) s)) ∧
     (Issues s q .min (.s o) → Gives (exec (.min q o) s) (WroteScalar q.ctx o.sd (if a.toInt ≤ b.toInt then a else b) s)) ∧
     (Issues s q .max (.s o) → Gives (exec (.max q o) s) (WroteScalar q.ctx o.sd (if a.toInt ≤ b.toInt then b else a) s)) ∧
     (Issues s q .minu (.s o) → Gives (exec (.minu q o) s) (WroteScalar q.ctx o.sd (if a.toNat ≤ b.toNat then a else b) s)) ∧
     (Issues s q .maxu (.s o) → Gives (exec (.maxu q o) s) (WroteScalar q.ctx o.sd (if a.toNat ≤ b.toNat then b else a) s)) ∧
     (Issues s q .mov (.s o) → Gives (exec (.mov q o) s) (WroteScalar q.ctx o.sd b s))) ∧
  (∀ (s : State) (q : Issue) (o : OpS),
     let a := s.sget q.ctx o.sa
     let b := s.srcB q.ctx o
     (Issues s q .cmpEq (.s o) → Gives (exec (.cmpEq q o) s) (WrotePred q.ctx o.pd (decide (a = b)) s)) ∧
     (Issues s q .cmpNe (.s o) → Gives (exec (.cmpNe q o) s) (WrotePred q.ctx o.pd (decide (a ≠ b)) s)) ∧
     (Issues s q .cmpLt (.s o) → Gives (exec (.cmpLt q o) s) (WrotePred q.ctx o.pd (decide (a.toInt < b.toInt)) s)) ∧
     (Issues s q .cmpLtu (.s o) → Gives (exec (.cmpLtu q o) s) (WrotePred q.ctx o.pd (decide (a.toNat < b.toNat)) s)) ∧
     (Issues s q .cmpGe (.s o) → Gives (exec (.cmpGe q o) s) (WrotePred q.ctx o.pd (decide (b.toInt ≤ a.toInt)) s)) ∧
     (Issues s q .cmpGeu (.s o) → Gives (exec (.cmpGeu q o) s) (WrotePred q.ctx o.pd (decide (b.toNat ≤ a.toNat)) s)) ∧
     (Issues s q .cmpLat (.s o) → Gives (exec (.cmpLat q o) s) (WrotePred q.ctx o.pd (decide (0 < (a - b).toInt)) s)) ∧
     (Issues s q .pset (.s o) → Gives (exec (.pset q o) s) (WrotePred q.ctx o.pd (b.getLsbD 0) s)) ∧
     (Issues s q .pget (.s o) → Gives (exec (.pget q o) s) fun t =>
       WroteScalar q.ctx o.sd (((s.ctx q.ctx).preds ||| 1).setWidth 64) s t)) ∧
  (let alu : List Mn := [.add, .sub, .and, .or, .xor, .shl, .shr, .sra, .mul, .mulhs, .mulhu, .div, .divu, .rem, .remu, .min, .max,
     .minu, .maxu, .mov]
   let cmp : List Mn := [.cmpEq, .cmpNe, .cmpLt, .cmpLtu, .cmpGe, .cmpGeu, .cmpLat]
   (alu ++ cmp ++ ([.pset, .pget] : List Mn)).map opcodeOf =
     (List.range 0x14 ++ [0x18, 0x19, 0x1A, 0x1B, 0x1C, 0x1D, 0x1E, 0x20, 0x21]).map (fun k => (0x01, k)) ∧
   ∀ (neg : Bool) (sel : Fin 8) (m : Mn) (o : OpS),
     (m ∈ alu ++ cmp ++ [Mn.pset] → o.immSel = true → o.sb.val ≠ 0 → reservedUse ⟨neg, sel, m, .s o⟩ = true) ∧
     (m ∈ cmp → o.sd.val ≠ 0 → reservedUse ⟨neg, sel, m, .s o⟩ = true) ∧
     (m = .mov → o.sa.val ≠ 0 → reservedUse ⟨neg, sel, m, .s o⟩ = true) ∧
     (m = .pset → o.sa.val ≠ 0 ∨ o.sd.val ≠ 0 → reservedUse ⟨neg, sel, m, .s o⟩ = true) ∧
     (m = .pget → o.sa.val ≠ 0 ∨ o.immSel = true ∨ o.sb.val ≠ 0 → reservedUse ⟨neg, sel, m, .s o⟩ = true))


/-- R99, R102: a load of n bytes from an aligned address that passes its checks, outside a page move and outside the aliases of a
Receipt window, writes the bytes found there to SD, zero- or sign-extended; dld writes the 64 bytes to slot DD. A store to such
an address outside the Receipt windows writes the low n bytes of SB (dst: the 64 bytes of slot DA) there, and no other byte;
of the registers only the count of mirror records may change. -/
def Obligations.LoadsAndStores : Prop :=
  (∀ (s : State) (q : Issue) (pa n : Nat),
     let at_ (va : W64) : Prop := va.toNat % n = 0 ∧ va.toNat < 2 ^ 48 ∧ s.check q.ctx va false false false = .ok pa ∧
       s.movingAt pa = false ∧ ∀ w off, s.winAt pa ≠ some (w, 2, off)
     (∀ o : OpS, at_ (s.sget q.ctx o.sa + o.imm) →
       let u := BitVec.ofNat 64 (s.natAt pa n)
       let i := BitVec.ofInt 64 (sext (8 * n) (s.natAt pa n))
       (n = 1 → Issues s q .ldu8 (.s o) → Gives (exec (.ldu8 q o) s) (WroteScalar q.ctx o.sd u s)) ∧
       (n = 2 → Issues s q .ldu16 (.s o) → Gives (exec (.ldu16 q o) s) (WroteScalar q.ctx o.sd u s)) ∧
       (n = 4 → Issues s q .ldu32 (.s o) → Gives (exec (.ldu32 q o) s) (WroteScalar q.ctx o.sd u s)) ∧
       (n = 8 → Issues s q .ld64 (.s o) → Gives (exec (.ld64 q o) s) (WroteScalar q.ctx o.sd u s)) ∧
       (n = 1 → Issues s q .lds8 (.s o) → Gives (exec (.lds8 q o) s) (WroteScalar q.ctx o.sd i s)) ∧
       (n = 2 → Issues s q .lds16 (.s o) → Gives (exec (.lds16 q o) s) (WroteScalar q.ctx o.sd i s)) ∧
       (n = 4 → Issues s q .lds32 (.s o) → Gives (exec (.lds32 q o) s) (WroteScalar q.ctx o.sd i s))) ∧
     (∀ o : OpD, n = 64 → at_ (s.sget q.ctx o.sa + o.imm) → Issues s q .dld (.d o) →
       Gives (exec (.dld q o) s) (WroteSlot q.ctx o.dd (BitVec.ofNat 512 (s.natAt pa 64)) s))) ∧
  (∀ (s : State) (q : Issue) (pa n : Nat),
     let at_ (va : W64) : Prop := va.toNat % n = 0 ∧ va.toNat < 2 ^ 48 ∧ s.check q.ctx va true false false = .ok pa ∧
       s.movingAt pa = false ∧ ∀ k, k < n → s.winAt (pa + k) = none
     (∀ o : OpS, at_ (s.sget q.ctx o.sa + o.imm) →
       let done (v : Nat) := StoredAt q.ctx pa (toBytes n v) s
       let v := (s.sget q.ctx o.sb).toNat
       (n = 1 → Issues s q .st8 (.s o) → Gives (exec (.st8 q o) s) (done v)) ∧
       (n = 2 → Issues s q .st16 (.s o) → Gives (exec (.st16 q o) s) (done v)) ∧
       (n = 4 → Issues s q .st32 (.s o) → Gives (exec (.st32 q o) s) (done v)) ∧
       (n = 8 → Issues s q .st64 (.s o) → Gives (exec (.st64 q o) s) (done v))) ∧
     (∀ o : OpD, n = 64 → at_ (s.sget q.ctx o.sa + o.imm) → Issues s q .dst (.d o) →
       Gives (exec (.dst q o) s) (StoredAt q.ctx pa (toBytes 64 (s.slot q.ctx o.da).toNat) s)))


/-- R100 to R102: branches to a target that is a multiple of 16 set the program counter; call also writes the next word's address to
SD, loop counts SA down and falls through at 0; nop goes on; qry writes the key's value. dcpy copies a slot, dset replaces one
field of a slot, dadd adds to BASE, dget reads a field. -/
def Obligations.BranchesAndDescriptorInstructions : Prop :=
  (∀ (s : State) (q : Issue),
     let pc := (s.ctx q.ctx).pc
     (∀ o : OpB,
       (Issues s q .br (.b o) → (pc + o.off).toNat % 16 = 0 → Gives (exec (.br q o) s) fun t =>
         Jumped q.ctx (pc + o.off) s t ∧ ∀ r, t.sget q.ctx r = s.sget q.ctx r) ∧
       (Issues s q .call (.b o) → (pc + o.off).toNat % 16 = 0 → Gives (exec (.call q o) s) fun t =>
         Jumped q.ctx (pc + o.off) s t ∧
           ∀ r, t.sget q.ctx r = if r = o.sd ∧ r.val ≠ 0 then pc + 16 else s.sget q.ctx r) ∧
       (Issues s q .jmp (.b o) → (s.sget q.ctx o.sa + o.off).toNat % 16 = 0 → Gives (exec (.jmp q o) s) fun t =>
         Jumped q.ctx (s.sget q.ctx o.sa + o.off) s t ∧ ∀ r, t.sget q.ctx r = s.sget q.ctx r) ∧
       (Issues s q .loop (.b o) → o.sa.val ≠ 0 → (pc + o.off).toNat % 16 = 0 → Gives (exec (.loop q o) s) fun t =>
         let v := s.sget q.ctx o.sa - 1
         Jumped q.ctx (if v = 0 then pc + 16 else pc + o.off) s t ∧
           ∀ r, t.sget q.ctx r = if r = o.sa ∧ r.val ≠ 0 then v else s.sget q.ctx r)) ∧
     (∀ o : OpS,
       (Issues s q .nop (.s o) → Gives (exec (.nop q o) s) fun t =>
         Jumped q.ctx (pc + 16) s t ∧ ∀ r, t.sget q.ctx r = s.sget q.ctx r) ∧
       (Issues s q .qry (.s o) → o.imm.toNat ≤ 0xFF → Gives (exec (.qry q o) s) fun t =>
         ∃ v, WroteScalar q.ctx o.sd v s t ∧ (o.imm = 0 → v = BitVec.ofNat 64 q.ctx.val) ∧
           (o.imm = 0x15 → v = 131072) ∧ (o.imm = 0x16 → v = 117440512) ∧ (o.imm = 0x18 → v = 262144) ∧
           (o.imm = 0x1A → v = 65536) ∧ (o.imm = 0xFF → v = 0)))) ∧
  (∀ (s : State) (q : Issue) (o : OpD),
     let dd := s.slot q.ctx o.dd
     let da := s.slot q.ctx o.da
     let v := (s.srcV q.ctx o).toNat
     (Issues s q .dcpy (.d o) → Gives (exec (.dcpy q o) s) (WroteSlot q.ctx o.dd da s)) ∧
     (Issues s q .dadd (.d o) →
       Gives (exec (.dadd q o) s) (WroteSlot q.ctx o.dd (dSet dd 0 48 (dBase dd + v)) s)) ∧
     (∀ lo len, fselOf o.fsel = some (lo, len) →
       (Issues s q .dset (.d o) → Gives (exec (.dset q o) s) (WroteSlot q.ctx o.dd (dSet dd lo len v) s)) ∧
       (Issues s q .dget (.d o) → Gives (exec (.dget q o) s) (WroteScalar q.ctx o.sd
         (if 0x18 ≤ o.fsel.val then BitVec.ofInt 64 (sext 32 (dField da lo len))
           else BitVec.ofNat 64 (dField da lo len)) s))))

/-- R84, R88 to R90, R95, R101: a fence whose operations have completed goes on, another waits; a trap, a reserved encoding, a
misaligned load or store and a misaligned branch target are precise faults; exit begins the teardown and ends the job. -/
def Obligations.FencesFaultsAndExit : Prop :=
  ∀ (s : State) (q : Issue),
    let c := q.ctx.val
    let pc := (s.ctx q.ctx).pc
    (∀ o : OpS, Issues s q .fence (.s o) → o.imm.toNat ≤ 0x1F →
      ((∀ p ∈ (s.ctx c).ops, o.imm ≠ 0 ∧ o.imm.getLsbD (State.fenceBit p.unit) = false) →
        Gives (exec (.fence q o) s) fun t => Jumped c (pc + 16) s t ∧ ∀ r, t.sget c r = s.sget c r) ∧
      ((∃ p ∈ (s.ctx c).ops, o.imm = 0 ∨ o.imm.getLsbD (State.fenceBit p.unit) = true) →
        Gives (exec (.fence q o) s) (Blocked c (.fence o.imm.toNat .nothing) s))) ∧
    (∀ o : OpS, Issues s q .trap (.s o) → o.imm.toNat ≤ 0xFFFF →
      Gives (exec (.trap q o) s) (FaultedAt c 0x0D 0 o.imm 0 s)) ∧
    (∀ w : W128, s.issuable c = true → (∃ pa, s.check c pc false true false = .ok pa ∧ s.movingAt pa = false) →
      s.selected c (w.getLsbD 111) ⟨w.toNat / 2 ^ 108 % 8, Nat.mod_lt _ (by decide)⟩ = true → reservedWord w = true →
      Gives (exec (.reservedEncoding q.ctx w) s) (FaultedAt c 1 0 (BitVec.ofNat 64 (w.toNat / 2 ^ 64)) 0 s)) ∧
    (∀ o : OpS, let va := s.sget q.ctx o.sa + o.imm
      (Issues s q .ld64 (.s o) → va.toNat % 8 ≠ 0 → Gives (exec (.ld64 q o) s) (FaultedAt c 3 0 0 va s)) ∧
      (Issues s q .ldu32 (.s o) → va.toNat % 4 ≠ 0 → Gives (exec (.ldu32 q o) s) (FaultedAt c 3 0 0 va s)) ∧
      (Issues s q .st64 (.s o) → va.toNat % 8 ≠ 0 → Gives (exec (.st64 q o) s) (FaultedAt c 3 0 0 va s)) ∧
      (Issues s q .st16 (.s o) → va.toNat % 2 ≠ 0 → Gives (exec (.st16 q o) s) (FaultedAt c 3 0 0 va s))) ∧
    (∀ o : OpB, Issues s q .br (.b o) → (pc + o.off).toNat % 16 ≠ 0 →
      Gives (exec (.br q o) s) (FaultedAt c 3 0 0 (pc + o.off) s)) ∧
    (∀ o : OpB, Issues s q .exit (.b o) →
      Does ((List.range 64).map Reg.START_BSTAT) [.ctxs, .teller] (exec (.exit q o) s) s fun t =>
        (t.ctx c).td = some .exit ∧ (t.ctx c).job = false ∧ (t.ctx c).pc = pc ∧ CtxsKept c s t)

/-- R74, R85, R108, R268, R271, R272, R279, R280: tread reads COUNT of the mapped Tally; tadd and tsub change it (RL waits as a
full fence first); twait and tbarwait end with their outcome or block; tarrive arrives; an unmapped identifier faults. -/
def Obligations.TallyInstructions : Prop :=
  ∀ (s : State) (q : Issue) (o : OpY),
    let c := q.ctx.val
    let n := (s.srcN c o).toNat
    let clear := o.rl = true → (s.ctx c).ops = []
    (s.mapEnt c o.vt = none → Issues s q .tread (.y o) →
      Gives (exec (.tread q o) s) (FaultedAt c 0x0B 0 (BitVec.ofNat 64 o.vt) 0 s)) ∧
    (∀ i own, s.mapEnt c o.vt = some (.tally i own) → n < 2 ^ 32 →
      let x := s.tallyOf i
      let goes (m : Instr) (y : Tally) : Prop := Does [Reg.TALLY_STAT] [.ctxs, .tally, .teller] (exec m s) s fun t =>
        t.tallyOf i = y ∧ (∀ j, j ≠ i → t.tallyOf j = s.tallyOf j) ∧ (t.ctx c).pc = (s.ctx c).pc + 16 ∧
          (∀ r, t.sget c r = s.sget c r) ∧ CtxsKept c s t
      (Issues s q .tread (.y o) → Gives (exec (.tread q o) s) (WroteScalar c o.sd (x.count.setWidth 64) s)) ∧
      (Issues s q .tadd (.y o) → clear → QuietTally s i → x.state ≠ .forfeit → goes (.tadd q o)
        { x with count := BitVec.ofNat 32 (Nat.min (x.count.toNat + n) (2 ^ 32 - 1)), events := x.events + BitVec.ofNat 64 n }) ∧
      (Issues s q .tsub (.y o) → clear → x.state ≠ .forfeit →
        goes (.tsub q o) { x with count := BitVec.ofNat 32 (x.count.toNat - n) }) ∧
      (Issues s q .twait (.y o) → x.state = .forfeit → Gives (exec (.twait q o) s) (WaitEnded c o.pd o.sd 1 s)) ∧
      (Issues s q .twait (.y o) → x.state ≠ .forfeit → n ≤ x.count.toNat →
        Gives (exec (.twait q o) s) (WaitEnded c o.pd o.sd 0 s)) ∧
      (Issues s q .twait (.y o) → x.state ≠ .forfeit → x.count.toNat < n → o.deadline = false →
        Gives (exec (.twait q o) s) (Blocked c (.tally i (BitVec.ofNat 32 n) o.pd o.sd none) s)) ∧
      (Issues s q .twait (.y o) → x.state ≠ .forfeit → x.count.toNat < n → o.deadline = true →
        0 ≤ (s.laneVal o.lane - s.sget c o.sb).toInt → Gives (exec (.twait q o) s) (WaitEnded c o.pd o.sd 3 s))) ∧
    (∀ b slot, s.mapEnt c o.vt = some (.barrier b slot) → clear → slot < 64 →
      (∀ d ph pd sd dl, (s.ctx d).wait ≠ some (.bar b ph pd sd dl)) →
      let v := s.barOf b
      let a := v.arrived ||| BitVec.ofNat 64 (2 ^ slot)
      let hit (w : Barrier) (t : State) : Prop :=
        t.barOf b = w ∧ Only [] [.ctxs, .tally, .teller] s t ∧ CtxsKept c s t
      (v.broken = true → v.kind ≠ none → Issues s q .tbarwait (.y o) →
        Gives (exec (.tbarwait q o) s) (WaitEnded c o.pd o.sd 2 s)) ∧
      (v.kind = some .mask → v.broken = false → v.members.getLsbD slot = true → v.arrived.getLsbD slot = false →
        let last := v.members &&& ~~~ a = 0
        let w := if last then { v with arrived := 0, arrivals := 0, phase := v.phase + 1 } else { v with arrived := a }
        (Issues s q .tarrive (.y o) → Gives (exec (.tarrive q o) s) fun t =>
          hit w t ∧ (t.ctx c).pc = (s.ctx c).pc + 16 ∧ ∀ r, t.sget c r = s.sget c r) ∧
        (Issues s q .tbarwait (.y o) → last → Gives (exec (.tbarwait q o) s) fun t =>
          hit w t ∧ (t.ctx c).pc = (s.ctx c).pc + 16 ∧ (t.ctx c).wait = none ∧
            ∀ p, t.pget c p = if p = o.pd ∧ p.val ≠ 0 then true else s.pget c p) ∧
        (Issues s q .tbarwait (.y o) → ¬ last → o.deadline = false → Gives (exec (.tbarwait q o) s) fun t =>
          hit w t ∧ (t.ctx c).pc = (s.ctx c).pc ∧ (t.ctx c).wait = some (.bar b v.phase o.pd o.sd none))))

/-- R108, R109, R253: lread reads a Lane; lwait and lwrel end at once or block; larm arms a Cue of this context from its block
of 32 bytes, ldisarm disarms one of its own. -/
def Obligations.LaneInstructions : Prop :=
  ∀ (s : State) (q : Issue) (o : OpY),
    let c := q.ctx.val
    let v := s.sget c o.sa
    let k := (s.sget c o.sc).toNat
    (Issues s q .lread (.y o) → Gives (exec (.lread q o) s) (WroteScalar c o.sd (s.laneVal o.lane) s)) ∧
    (Issues s q .lwait (.y o) → 0 ≤ (s.laneVal o.lane - v).toInt →
      Gives (exec (.lwait q o) s) (WaitEnded c o.pd o.sd 0 s)) ∧
    (Issues s q .lwait (.y o) → (s.laneVal o.lane - v).toInt < 0 →
      Gives (exec (.lwait q o) s) (Blocked c (.lane o.lane v o.pd o.sd) s)) ∧
    (Issues s q .lwrel (.y o) → (s.ctx c).relPend = true → (s.ctx c).job = false →
      Does [] [.ctxs, .teller, .starter] (exec (.lwrel q o) s) s fun t =>
        (t.ctx c).relPend = false ∧ (t.ctx c).job = true ∧ (t.ctx c).pc = (s.ctx c).pc + 16 ∧
          (∀ r, t.sget c r = if r = o.sd ∧ r.val ≠ 0 then 0 else s.sget c r) ∧ CtxsKept c s t) ∧
    (Issues s q .lwrel (.y o) → (s.ctx c).relPend = false → (s.ctx c).job = false → o.deadline = false →
      Gives (exec (.lwrel q o) s) (Blocked c (.lwrel o.pd o.sd none) s)) ∧
    (∀ pa, Issues s q .larm (.y o) → k < 4096 → Reaches s c v 32 false pa → (∀ w off, s.winAt pa ≠ some (w, 2, off)) →
      let b := s.natAt pa 32
      b / 2 ^ 192 % 16 = 3 → b / 2 ^ 197 = 0 → b / 2 ^ 176 % 2 ^ 16 = 1 → (s.cue k).armed = false →
      mget (fun _ => none) s.lanes.armLast k = none →
      (s.laneVal o.lane - BitVec.ofNat 64 (b % 2 ^ 64)).toInt < 0 →
      Does [] [.ctxs, .teller, .lanes] (exec (.larm q o) s) s fun t =>
        t.cue k = { armed := true, lane := o.lane, target := BitVec.ofNat 64 (b % 2 ^ 64), action := 3
                    arg := BitVec.ofNat 32 (b / 2 ^ 128 % 2 ^ 32), step := BitVec.ofNat 64 (b / 2 ^ 64 % 2 ^ 64)
                    div := b / 2 ^ 160 % 2 ^ 16, rep := 1, pastDrop := b / 2 ^ 196 % 2 == 1, owner := some c } ∧
          (t.ctx c).pc = (s.ctx c).pc + 16 ∧
          (∀ r, t.sget c r = if r = o.sd ∧ r.val ≠ 0 then 0 else s.sget c r) ∧ CtxsKept c s t) ∧
    (Issues s q .ldisarm (.y o) → k < 4096 → (s.cue k).armed = false ∨ (s.cue k).owner = some c →
      Does [] [.ctxs, .teller, .lanes] (exec (.ldisarm q o) s) s fun t =>
        t.cue k = { s.cue k with armed := false } ∧ (∀ j, j ≠ k → t.cue j = s.cue j) ∧
          (t.ctx c).pc = (s.ctx c).pc + 16 ∧
          (∀ r, t.sget c r = if r = o.sd ∧ r.val ≠ 0 then 0 else s.sget c r) ∧ CtxsKept c s t) ∧
    (Issues s q .ldisarm (.y o) → k < 4096 → (s.cue k).armed = true → (s.cue k).owner ≠ some c →
      Gives (exec (.ldisarm q o) s) (WroteScalar c o.sd 3 s))

/-- R283, R286: rread reads a Receipt word; rcoll collects a POSTED one; rpost posts one of a hold-mode window with its note;
rwait ends when the Receipt holds a later sequence, and blocks otherwise. -/
def Obligations.ReceiptInstructions : Prop :=
  ∀ (s : State) (q : Issue) (o : OpY) (pa w : Nat),
    let c := q.ctx.val
    let va := s.sget c o.sa
    let x := s.natAt pa 8
    let sc := (s.sget c o.sc).toNat % 2 ^ 62
    va.toNat % 8 = 0 → s.check c va false false false = .ok pa → s.rcptWin pa = some w →
      (Issues s q .rread (.y o) → Gives (exec (.rread q o) s) (WroteScalar c o.sd (BitVec.ofNat 64 x) s)) ∧
      (Issues s q .rcoll (.y o) → Does [] [.ctxs, .teller, .mem] (exec (.rcoll q o) s) s fun t =>
        (∀ r, t.sget c r = if r = o.sd ∧ r.val ≠ 0 then BitVec.ofNat 64 x else s.sget c r) ∧
          (t.ctx c).pc = (s.ctx c).pc + 16 ∧ CtxsKept c s t ∧
          t.natAt pa 8 = (if x / 2 ^ 62 = 1 then 2 ^ 63 + x % 2 ^ 62 else x) ∧ MemKeptOutside pa 8 s t) ∧
      (Issues s q .rpost (.y o) → s.overMode w = false → x / 2 ^ 62 ≠ 1 → s.holder pa = none →
        (o.rl = true → (s.ctx c).ops = []) → (∀ d p sq pd sd dl, (s.ctx d).wait ≠ some (.rcpt p sq pd sd dl)) →
        Does [] [.ctxs, .teller, .mem, .tally] (exec (.rpost q o) s) s fun t =>
          t.natAt pa 8 = 2 ^ 62 + (x + 1) % 2 ^ 62 ∧
            t.natAt (s.noteAddr w pa) 8 = 2 ^ 16 * c + 2 ^ 32 * ((s.laneVal 15).toNat / 2 ^ 32) ∧
            (∀ a, a < pa ∨ pa + 8 ≤ a → a < s.noteAddr w pa ∨ s.noteAddr w pa + 8 ≤ a → t.byteAt a = s.byteAt a) ∧
            (∀ r, t.sget c r = s.sget c r) ∧ (t.ctx c).pc = (s.ctx c).pc + 16 ∧ CtxsKept c s t) ∧
      (Issues s q .rwait (.y o) → x / 2 ^ 62 = 1 ∨ x / 2 ^ 62 = 2 → later62 x sc = true →
        Gives (exec (.rwait q o) s) (WaitEnded c o.pd o.sd 0 s)) ∧
      (Issues s q .rwait (.y o) → x / 2 ^ 62 = 0 → o.deadline = false →
        Gives (exec (.rwait q o) s) (Blocked c (.rcpt pa sc o.pd o.sd none) s))

/-! ### Lanes, Cues and captures (02) -/

/-- R40, R42 to R48: at an always-on tick SYS_UPTIME rises by 5, and an enabled time Lane moves by INCR scaled with RATE, its epoch
counting the wraps; an event of its source moves another enabled Lane: a count by INCR with its direction, a carrier period, a
frame start and a qualified edge to the next whole period, a carrier position and a position word to that place, and makes RUN 1
and SRC_LOST 0. A Lane whose EN is 0 holds. No Cue is armed and no lwait is registered here; how a value below the Lane's
last bit is kept is the model's choice (assumption 10). -/
def Obligations.LanesMove : Prop :=
  (∀ s : State, Calm s →
     Does (Reg.SYS_UPTIME :: (List.range 16).flatMap laneRegs) [.lanes, .starter] (exec .laneTick s) s fun t =>
       t.uptime = s.uptime + 5 ∧ t.lanes.ticks = s.lanes.ticks + 1 ∧
       ∀ n : LaneId,
         (s.flag (Reg.LANE_CFG_EN n) = false →
           t.laneVal n = s.laneVal n ∧ t.reg (Reg.LANE_EPOCH n) = s.reg (Reg.LANE_EPOCH n)) ∧
         (s.flag (Reg.LANE_CFG_EN n) = true → s.fld (Reg.LANE_CFG_SRC n) < 2 →
           let v : Int := 2 ^ 40 * (s.laneVal n).toNat + mget (fun _ => 0) s.lanes.residue n
             + (s.reg (Reg.LANE_INCR n)).toNat * (2 ^ 40 + sext 32 (s.fld (Reg.LANE_RATE_RATE n)))
           t.laneVal n = BitVec.ofInt 64 (v / 2 ^ 40) ∧
             t.reg (Reg.LANE_EPOCH n) = s.reg (Reg.LANE_EPOCH n) + BitVec.ofInt 64 (v / 2 ^ 104) ∧
             mget (fun _ => 0) t.lanes.residue n = (v % 2 ^ 40).toNat)) ∧
  (∀ (s : State) (n : LaneId), Calm s →
     let moved (e : LaneEvent) (p : State → Prop) : Prop :=
       Does (laneRegs n) [.lanes] (exec (.laneSourceEvent n e) s) s fun t =>
         p t ∧ t.fld (Reg.LANE_STAT_RUN n) = 1 ∧ t.fld (Reg.LANE_STAT_SRC_LOST n) = 0
     let src := s.fld (Reg.LANE_CFG_SRC n)
     let mode := s.fld (Reg.ENC_CFG_MODE (s.fld (Reg.LANE_CFG_SRC_IDX n)))
     let v := s.laneVal n
     (∀ e, s.flag (Reg.LANE_CFG_EN n) = false → exec (.laneSourceEvent n e) s = .next s) ∧
     (s.flag (Reg.LANE_CFG_EN n) = true →
       (∀ back, src = 2 → mode = 1 → moved (.count back) fun t =>
         t.laneVal n = if back = s.flag (Reg.LANE_CFG_DIR_INV n) then v + s.reg (Reg.LANE_INCR n)
           else v - s.reg (Reg.LANE_INCR n)) ∧
       (∀ bits word, src = 2 → 2 ≤ mode → bits.val ≠ 0 → (s.laneEv n).posSeen = false →
         moved (.position bits word) fun t =>
           t.laneVal n = BitVec.ofNat 64 (word.toNat % 2 ^ bits.val * 2 ^ (32 - bits.val))) ∧
       (src = 3 → moved .carrierPeriod fun t => t.laneVal n = BitVec.ofNat 64 (2 ^ 32 * (v.toNat / 2 ^ 32 + 1))) ∧
       (∀ num den, src = 3 → num < den → moved (.carrierPhase num den) fun t =>
         t.laneVal n = BitVec.ofNat 64 (2 ^ 32 * (v.toNat / 2 ^ 32) + 2 ^ 32 * num / den)) ∧
       (src = 4 → moved .frameStart fun t => t.laneVal n = BitVec.ofNat 64 (2 ^ 32 * (v.toNat / 2 ^ 32 + 1))) ∧
       (src = 5 → (s.laneEv n).seen = 0 ∨ s.fld (Reg.LANE_CFG_DEBOUNCE n) ≤ s.lanes.ticks - (s.laneEv n).lastTick →
         moved .pulseEdge fun t => t.laneVal n = BitVec.ofNat 64 (2 ^ 32 * (v.toNat / 2 ^ 32 + 1)) ∧
           (t.laneEv n).lastTick = s.lanes.ticks)))


/-- R42 to R44, R48 to R50: the configuration, the reads and the steps of a Lane by a requester with standing, and the loss
of a Lane's source. -/
def Obligations.LaneRegistersAct : Prop :=
  ∀ (s : State) (r : Requester) (n : LaneId), Calm s →
    (s.canRead r = true →
      Does [] [.lanes, .reply] (exec (.laneValueRead r n) s) s (fun t =>
        t.reply = { req := r, value := s.laneVal n } ∧ t.epochSeen r n = s.reg (Reg.LANE_EPOCH n)) ∧
      Does [] [.lanes, .reply] (exec (.laneEpochRead r n) s) s (fun t =>
        t.reply = { req := r, value := s.epochSeen r n } ∧ t.epochSeen r n = s.reg (Reg.LANE_EPOCH n))) ∧
    (s.holds r 5 = true → ∀ step : W64,
      let lim := 2 ^ 32 * s.fld (Reg.LANE_STEP_LIM_LIMIT n)
      (step.toInt.natAbs ≤ lim → s.flag (Reg.LANE_CFG_EN n) = true →
        Does (laneRegs n) [] (exec (.laneStep r n step) s) s fun t => t.laneVal n = s.laneVal n + step) ∧
      (step.toInt.natAbs ≤ lim → s.flag (Reg.LANE_CFG_EN n) = false → exec (.laneStep r n step) s = .next s) ∧
      (lim < step.toInt.natAbs →
        Does ([Reg.LANE_STAT n, Reg.INC_CNT 7] ++ (List.range 8).map (Reg.INC_REC 7)) [] (exec (.laneStep r n step) s) s
          fun t => t.fld (Reg.LANE_STAT_JUMP_REFUSED n) = 1 ∧
            t.fld (Reg.INC_CNT_COUNT 7) = satAdd 16 (s.fld (Reg.INC_CNT_COUNT 7)) 1)) ∧
    (State.hwPath r = true → s.holds r 6 = true → s.flag (Reg.LANE_CFG_EN n) = true → ∀ step : W64,
      Does (laneRegs n) [] (exec (.laneStepForce r n step) s) s fun t => t.laneVal n = s.laneVal n + step) ∧
    (State.hwPath r = false → ∀ step : W64, Does (denyRegs r) [] (exec (.laneStepForce r n step) s) s fun t =>
      t.fld (Reg.PORT_DENY_CNT_COUNT r) = satAdd 16 (s.fld (Reg.PORT_DENY_CNT_COUNT r)) 1) ∧
    (s.flag (Reg.LANE_CFG_EN n) = true → 2 ≤ s.fld (Reg.LANE_CFG_SRC n) →
      Does (Reg.LANE_STAT n :: (List.range 64).map Reg.FSTR_STAT) [] (exec (.laneSourceLost n) s) s fun t =>
        t.fld (Reg.LANE_STAT_SRC_LOST n) = 1 ∧ t.fld (Reg.LANE_STAT_RUN n) = 0) ∧
    (s.flag (Reg.LANE_CFG_EN n) = true → s.fld (Reg.LANE_CFG_SRC n) = 1 →
      Does [Reg.LANE_STAT n, Reg.PTP_DOM_STAT (s.fld (Reg.LANE_CFG_SRC_IDX n))] [] (exec (.gptpHoldover n) s) s fun t =>
        t.fld (Reg.LANE_STAT_HOLDOVER n) = 1) ∧
    (∀ v : W32, s.holds r 5 = true → s.flag (Reg.LANE_CFG_EN n) = false → v.toNat % 16 = 0 → v.toNat / 2 ^ 8 % 16 = 0 →
      Does (Reg.LANE_CFG n :: laneRegs n) [.lanes] (exec (.laneCfgWrite r n v) s) s fun t =>
        t.flag (Reg.LANE_CFG_EN n) = v.getLsbD 31 ∧ t.fld (Reg.LANE_CFG_SRC n) = 0 ∧
          t.fld (Reg.LANE_CFG_DEBOUNCE n) = v.toNat / 2 ^ 16 % 2 ^ 8 ∧ t.laneVal n = s.laneVal n) ∧
    (∀ v : W32, s.holds r 5 = true → 6 ≤ v.toNat % 16 →
      Does [Reg.LANE_STAT n] [] (exec (.laneCfgWrite r n v) s) s fun t => t.fld (Reg.LANE_STAT_CFG_ERR n) = 1)

/-- R52, R53, R57, R58, R470: arming a Cue with a software action and one fire, disarming it and reading it, by a requester
with standing. An armed Cue holds the staged entry; if its Lane runs and has already reached the target it fires at once and
counts LATE. -/
def Obligations.CueCommandsAct : Prop :=
  ∀ (s : State) (r : Requester), s.holds r 5 = true →
    let i := s.fld (Fld.of Reg.CUE_SEL_INDEX r)
    let c := s.stagedCue r
    let old := s.cue i
    (c.action = 0 ∨ c.action = 3 → c.rep = 1 → mget (fun _ => none) s.lanes.armLast i = none →
      old.armed = false →
      Does [stg r Reg.CUE_STAT] [.lanes] (exec (.cueArm r) s) s fun t =>
        if s.flag (Reg.LANE_CFG_EN c.lane) = true ∧ 0 ≤ (s.laneVal c.lane - c.target).toInt then
          if c.pastDrop then
            (t.cue i).armed = false ∧ t.lanes.fired = s.lanes.fired ∧ t.fld (Fld.of Reg.CUE_STAT_ERR r) = 4
          else (t.cue i).armed = false ∧ (t.cue i).late = true ∧ t.fld (Fld.of Reg.CUE_STAT_ERR r) = 0 ∧
            t.lanes.fired = s.lanes.fired ++ [⟨i, c.action, c.arg⟩]
        else t.cue i = { c with armed := true } ∧ t.lanes.fired = s.lanes.fired ∧
          t.fld (Fld.of Reg.CUE_STAT_ERR r) = 0) ∧
    (8 ≤ c.action → Does [stg r Reg.CUE_STAT] [] (exec (.cueArm r) s) s fun t => t.fld (Fld.of Reg.CUE_STAT_ERR r) = 1) ∧
    (old.armed = false ∨ old.owner = none ∨ r = 34 ∨ r = 35 →
      Does [stg r Reg.CUE_STAT] [.lanes] (exec (.cueDisarm r) s) s fun t =>
        t.cue i = { old with armed := false } ∧ t.fld (Fld.of Reg.CUE_STAT_ERR r) = 0) ∧
    (old.armed = true → old.owner ≠ none → r ≠ 34 → r ≠ 35 →
      Does [stg r Reg.CUE_STAT] [] (exec (.cueDisarm r) s) s fun t => t.fld (Fld.of Reg.CUE_STAT_ERR r) = 3) ∧
    Does [stg r Reg.CUE_CFG, stg r Reg.CUE_TARGET, stg r Reg.CUE_STEP, stg r Reg.CUE_ARG, stg r Reg.CUE_DIV,
        stg r Reg.CUE_STAT] [] (exec (.cueRead r) s) s fun t =>
      t.reg (stg r Reg.CUE_TARGET) = old.target ∧ t.reg (stg r Reg.CUE_STEP) = old.step ∧
        t.reg (stg r Reg.CUE_ARG) = old.arg.setWidth 64 ∧ (t.fld (Fld.of Reg.CUE_STAT_ARMED r) = 1 ↔ old.armed = true)

/-- R55, R56, R59: the dispatch of the oldest fired action takes it off the queue: an add raises its Tally, a capture puts the
Lane's value into its FIFO, a release of an undefined context or of a disabled capture unit counts in MISSED. An edge puts
the Lane's value into every capture unit that follows it and has room; a read takes the oldest value. -/
def Obligations.CapturesAndDispatch : Prop :=
  ∀ (s : State), NoStreams s →
    (∀ f rest, s.lanes.fired = f :: rest →
      (f.action = 0 → Does [] [.lanes] (exec .cueActionDispatch s) s fun t => t.lanes.fired = rest) ∧
      (f.action = 1 → let i := f.arg.toNat % 2 ^ 14
        let x := s.tallyOf i
        x.state ≠ .forfeit → QuietTally s i → x.count.toNat + f.arg.toNat / 2 ^ 16 < 2 ^ 32 →
        Does [] [.lanes, .tally] (exec .cueActionDispatch s) s fun t => t.lanes.fired = rest ∧
          t.tallyOf i = { x with count := x.count + BitVec.ofNat 32 (f.arg.toNat / 2 ^ 16)
                                 events := x.events + BitVec.ofNat 64 (f.arg.toNat / 2 ^ 16) }) ∧
      (f.action = 2 → s.boot.computeReset = false → (s.ctx (f.arg.toNat % 256)).stage = .undefined →
        Does [] [.lanes] (exec .cueActionDispatch s) s fun t => t.lanes.fired = rest ∧
          (t.cue f.index).missed = satAdd 16 (s.cue f.index).missed 1) ∧
      (f.action = 3 → let m := f.arg.toNat / 2 ^ 8 % 32
        s.flag (Reg.CAP_CFG_EN m) = true → (s.fifo m).length < 8 →
        Does [Reg.CAP_STAT m] [.lanes] (exec .cueActionDispatch s) s fun t => t.lanes.fired = rest ∧
          t.fifo m = s.fifo m ++ [s.laneVal (f.arg.toNat % 16)])) ∧
    (∀ input rising eighth, Does ((List.range 32).map Reg.CAP_STAT) [.lanes] (exec (.captureEdge input rising eighth) s) s
      fun t => ∀ m : Fin 32,
        let follows := s.flag (Reg.CAP_CFG_EN m) = true ∧ s.fld (Reg.CAP_CFG_INPUT m) = input.toNat ∧
          (s.fld (Reg.CAP_CFG_EDGE m)).testBit (if rising then 0 else 1) = true
        (¬ follows → t.fifo m = s.fifo m) ∧
        (follows → 8 ≤ (s.fifo m).length → t.fifo m = s.fifo m ∧ t.fld (Reg.CAP_STAT_OVF m) = 1) ∧
        (follows → (s.fifo m).length < 8 → ∃ v, t.fifo m = s.fifo m ++ [v] ∧
          (eighth = 0 ∨ 2 ≤ s.fld (Reg.LANE_CFG_SRC (s.fld (Reg.CAP_CFG_LANE m))) →
            v = s.laneVal (s.fld (Reg.CAP_CFG_LANE m))))) ∧
    (∀ (r : Requester) (m : Fin 32), s.canRead r = true → ∀ v rest, s.fifo m = v :: rest →
      Does [Reg.CAP_STAT m] [.lanes, .reply] (exec (.capDataRead r m) s) s fun t =>
        t.reply = { req := r, value := v } ∧ t.fifo m = rest)

/-- R60 to R65: a domain slot is bound to its GPTP Lane or refuses with CFG_ERR, a held correction expires, a link delay is
measured, a timestamp is read, and the frame at the head of a queue with a launch value is held, sent or dropped. -/
def Obligations.NetworkTimeActs : Prop :=
  ∀ (s : State),
    (∀ (r : Requester) (d : Fin 4) (v : W32), s.holds r 5 = true → v.getLsbD 31 = true →
      let l := v.toNat / 2 ^ 24 % 16
      let bound := s.flag (Reg.LANE_CFG_EN l) = true ∧ s.fld (Reg.LANE_CFG_SRC l) = 1 ∧ s.fld (Reg.LANE_CFG_SRC_IDX l) = d
      (bound → Does [Reg.PTP_DOM_CFG d, Reg.PTP_DOM_STAT d] [] (exec (.ptpDomCfgWrite r d v) s) s fun t =>
        t.flag (Reg.PTP_DOM_CFG_EN d) = true ∧ t.fld (Reg.PTP_DOM_CFG_LANE d) = l ∧
          t.fld (Reg.PTP_DOM_CFG_PORT_MASK d) = v.toNat / 2 ^ 4 % 16) ∧
      (¬ bound → Does [Reg.PTP_DOM_STAT d] [] (exec (.ptpDomCfgWrite r d v) s) s fun t =>
        t.fld (Reg.PTP_DOM_STAT_CFG_ERR d) = 1)) ∧
    (∀ (p : Fin 4) (seq : W16) (x : Held), s.net.held = [x] → x.port = p → x.seq = seq.toNat →
      Does [Reg.TC_STAT] [.net] (exec (.fupTimeout p seq) s) s fun t => t.net.held = [] ∧
        t.fld Reg.TC_STAT_FUP_EXPIRED = satAdd 16 (s.fld Reg.TC_STAT_FUP_EXPIRED) 1) ∧
    (∀ (p : Fin 4) (delay : W64), (s.fld Reg.TC_CFG_PDELAY_EN).testBit p = true →
      Does [Reg.PTP_PDELAY p] [] (exec (.peerDelay p delay) s) s fun t => t.reg (Reg.PTP_PDELAY p) = delay) ∧
    (∀ (r : Requester) (m : W32) (v : W64) (rest : List (W32 × W64)), s.canRead r = true → s.net.ts = (m, v) :: rest →
      Does [] [.net, .reply] (exec (.tsDataRead r) s) s fun t => t.reply = { req := r, value := v } ∧ t.net.ts = rest) ∧
    (∀ (p : Fin 4) (tc : Fin 8) (f : Queued), s.queueOf p = [f] → f.tc = tc →
      s.flag (Reg.NET_PORT_CFG_GATE_EN p) = false →
      let d (t : W64) : Int := (t - s.laneVal (s.fld (Reg.LAUNCH_CFG_LANE p))).toInt
      let ahead : Int := 2 ^ 32 * (10000000 * Nat.min (Nat.max (s.fld (Reg.LAUNCH_CFG_MAX_AHEAD p)) 1) 214)
      let win : Int := 2 ^ 32 * (1000 * s.fld (Reg.LAUNCH_CFG_LATE_WIN p))
      let sent (c : Instr) : Prop := Does [] [.net, .out] (exec c s) s fun t =>
        t.out = s.out ++ [.frame p (State.wireFrame f.data)] ∧ t.queueOf p = []
      (f.launch = none → sent (.launchQueueHead p tc)) ∧
      (∀ t, f.launch = some t → s.flag (Reg.LAUNCH_CFG_EN p) = true →
        (d t ≤ 0 → -d t ≤ win → sent (.launchQueueHead p tc)) ∧
        (d t ≤ 0 → f.held = true → sent (.launchTimeReached p tc)) ∧
        (0 < d t → d t < ahead → Does [] [.net] (exec (.launchQueueHead p tc) s) s fun u =>
          u.queueOf p = [{ f with held := true }]) ∧
        (0 < d t → ahead ≤ d t → Does [Reg.LAUNCH_STAT p] [.net] (exec (.launchQueueHead p tc) s) s fun u =>
          u.queueOf p = [] ∧ u.fld (Reg.LAUNCH_STAT_DROP_AHEAD p) = satAdd 16 (s.fld (Reg.LAUNCH_STAT_DROP_AHEAD p)) 1) ∧
        (d t ≤ 0 → win < -d t → Does [Reg.LAUNCH_STAT p] [.net] (exec (.launchQueueHead p tc) s) s fun u =>
          u.queueOf p = [] ∧ u.fld (Reg.LAUNCH_STAT_DROP_LATE p) = satAdd 16 (s.fld (Reg.LAUNCH_STAT_DROP_LATE p)) 1)))

/-! ### Asynchronous instructions (03, 04) -/

/-- R81, R95, R103, R245: a kernel that passes its checks, where nothing else is outstanding, is handed over with everything it
copied at issue and the context goes on: without a Receipt and without streams it is ready for the Starter, a ksreflex runs, a
Hurdle or Fusion kernel runs. -/
def Obligations.KernelsAreHandedOver : Prop :=
  ∀ (s u : State) (q : Issue) (o : OpK) (blk ext : List Byte) (t : Option Nat) (rc : Option W64), Alone s →
    let c := q.ctx.val
    let goes (m : Mn) (i : Instr) (ks : List Nat) (ps : List Part) (w : State) (p : OpState → Prop) : Prop :=
      Accepted s q m o blk ext t rc u →
      (∀ f, u.withImage c (kernelIn s c m o blk ext) f = f w) →
      Does (ks ++ stallRegs) ([.ctxs, .teller, .tally, .mem] ++ ps) (exec i s) s
        (HandedOver c (kernelOp s q m o blk ext t rc) p s)
    let waits (m : Mn) (i : Instr) : Prop := goes m i [] [] u fun st =>
      rc = none → (m = .kscan ∨ m = .kcell → State.chunkList (kernelIn s c m o blk ext) = []) → st = .ready
    let runs (m : Mn) (i : Instr) (p : Part) : Prop := goes m i [] [p] u fun st => rc = none → st = .running
    (waits .kmatmul (.kmatmul q o) ∧ waits .kconv (.kconv q o) ∧ waits .kpool (.kpool q o) ∧ waits .kattn (.kattn q o) ∧
      waits .kscan (.kscan q o) ∧ waits .kcell (.kcell q o) ∧ waits .kreduce (.kreduce q o)) ∧
    (waits .kact (.kact q o) ∧ waits .keltw (.keltw q o) ∧ waits .knorm (.knorm q o) ∧ waits .ksoftmax (.ksoftmax q o) ∧
      waits .kgates (.kgates q o) ∧ waits .kargmax (.kargmax q o) ∧ waits .kcvt (.kcvt q o)) ∧
    (waits .ksconv (.ksconv q o) ∧ waits .ksmatmul (.ksmatmul q o) ∧ waits .ksargmax (.ksargmax q o)) ∧
    (∀ w, Only [] [.teller, .sprint] s w → w.stamp = s.stamp → w.teller = u.teller →
      goes .ksreflex (.ksreflex q o) ((List.range 8).flatMap fun e => [Reg.SPRINT_ENG_STAT e, Reg.SPRINT_RX_CYC e]) [.sprint]
        w fun _ => True) ∧
    (s.flag Reg.HURDLE_CTL_EN = true → runs .khquery (.khquery q o) .hurdle ∧ runs .khstride (.khstride q o) .hurdle ∧
      runs .khfinish (.khfinish q o) .hurdle ∧ runs .khmap (.khmap q o) .hurdle) ∧
    (runs .kfxform (.kfxform q o) .fusion ∧ runs .kfego (.kfego q o) .fusion ∧ runs .kftrack (.kftrack q o) .fusion)

/-- R81, R95, R107, R224, R231: a MOVE that passes its checks while the Teller is stopped is handed over and waits; mpace with
SA = S0 first ends the context's schedules, with a header it adds the schedule. -/
def Obligations.MovesAreHandedOver : Prop :=
  ∀ (s : State) (q : Issue) (o : OpM) (t : Option Nat) (rc : Option W64), Alone s → s.flag Reg.TELLER_CTL_EN = false →
    let c := q.ctx.val
    let sa := s.sget c o.sa
    let op (m : Mn) (dd ds : Bool) (a : W64) : AsyncOp :=
      { id := s.stamp, order := s.stamp, unit := .teller, mn := m, pc := (s.ctx c).pc, dO := if dd then s.slot c o.dd else 0
        dA := if ds then s.slot c o.ds else 0, tally := t, rcpt := rc, addr := a, len := o.imm, tier := o.tier }
    let goes (i : Instr) (p : AsyncOp) : Prop :=
      Does stallRegs [.ctxs, .teller, .tally, .mem] (exec i s) s (HandedOver c p (fun st => rc = none → st = .ready) s)
    let ok (m : Mn) : Prop := Issues s q m (.m o) ∧ (∀ b ∈ needs m, s.present b = true) ∧
      Completes s c o.tally o.rcpt o.vt o.sr t rc ∧ ∀ f, (s.fetched q).checkMove c m o f = f
    (ok .mcopy → goes (.mcopy q o) (op .mcopy true true sa)) ∧
    (ok .mfill → goes (.mfill q o) (op .mfill true false sa)) ∧
    (ok .mraise → goes (.mraise q o) (op .mraise false false sa)) ∧
    (ok .mdrop → goes (.mdrop q o) (op .mdrop false false sa)) ∧
    (ok .menter → goes (.menter q o) (op .menter false true sa)) ∧
    (ok .mpace → o.sa.val = 0 → Does stallRegs [.ctxs, .teller, .tally, .mem] (exec (.mpace q o) s) s fun x =>
      HandedOver c (op .mpace false false 0) (fun st => rc = none → st = .ready) s x ∧
        x.teller.paces = s.teller.paces.filter fun p => p.ctx != c) ∧
    (∀ (h b : List Byte) (u v : State) (tl : Nat) (own : Bool) (es : List PaceEnt), ok .mpace → o.sa.val ≠ 0 →
      sa.toNat % 64 = 0 → s.teller.paces = [] → Reread s u → Reread s v →
      (∀ f, (s.fetched q).issueRead c sa.toNat 64 f = f h u) →
      let n := ofBytes h % 2 ^ 16
      let period := ofBytes h / 2 ^ 32 % 2 ^ 32
      let iters := ofBytes h / 2 ^ 64 % 2 ^ 32
      1 ≤ n → n ≤ 4096 → ofBytes h / 2 ^ 28 % 16 = 0 → ofBytes h / 2 ^ 96 = 0 → (period = 0 → iters ≤ 1) →
      s.mapEnt c (ofBytes h / 2 ^ 16 % 2 ^ 12) = some (.tally tl own) →
      (∀ f, u.issueRead c (sa.toNat + 64) (32 * n) f = f b v) → State.paceEnts period n b 0 = some es →
      (∀ e ∈ es, 0 < e.at_ ∧ ∀ va ∈ State.paceVas e, ∃ pa, v.check c va false false false = .ok pa) →
      Does stallRegs [.ctxs, .teller, .tally, .mem] (exec (.mpace q o) s) s fun x =>
        (∃ e0 k, x.teller.paces = [{ ctx := c, tally := tl, period := period, iters := iters, e0 := e0, ents := es
                                     order := k }] ∧ e0 = (s.tallyOf tl).events) ∧
          (x.ctx c).pc = (s.ctx c).pc + 16 ∧ (x.ctx c).ops.map (·.mn) = [.mpace] ∧ CtxsKept c s x)

/-! ### The end of waits, operations and contexts (03 to 05, 07, 10) -/

/-- R82, R86, R87, R108, R189, R263, R284: a wait whose deadline has come ends with TIMEOUT; an rpost that waits posts its Receipt
once it may; a lone operation takes its Receipt and is ready; an access that faults abandons the operation and records an
imprecise fault; the pool agent does the next entry of a paged kattn; an arithmetic kernel writes its results, counts its Tally and is gone; a context that has exited is undefined,
its Tallies FORFEIT, its map entries and claims gone. -/
def Obligations.OperationsEnd : Prop :=
  ∀ (s : State) (c : CtxId),
    let x := s.ctx c
    let lone (o : AsyncOp) : Prop := x.ops = [o] ∧ (∀ e ∈ s.ctxs, e.2.ops = [] ∨ e.1 = c.val ∧ e.2.ops = [o]) ∧ s.hurdle.runs = [] ∧
      s.hurdle.load = none ∧ s.fusion.xform = none ∧ s.fusion.tracker = none ∧ x.td = none ∧ x.stage ≠ .undefined
    (∀ w pd sd dl, x.wait = some w → State.waitParts w = some (pd, sd, dl) → s.deadlineDue dl = true →
      Does [] [.ctxs] (exec (.waitDeadline c) s) s (WaitEnded c pd sd 3 s)) ∧
    (∀ pa w, x.wait = some (.rpost pa) → x.td = none → s.rcptWin pa = some w → s.overMode w = false →
      s.canTake pa (.op c 0) = true → (∀ d p q pd sd dl, (s.ctx d).wait ≠ some (.rcpt p q pd sd dl)) →
      let note := s.noteAddr w pa
      Does [] [.ctxs, .mem, .tally, .teller] (exec (.receiptTake c) s) s fun t =>
        t.rcptWord pa = rcptMk 1 (rcptSeq (s.rcptWord pa) + 1) ∧ t.natAt note 8 = s.noteWord false false false 0 c ∧
          (∀ a, a < pa ∨ pa + 8 ≤ a → a < note ∨ note + 8 ≤ a → t.byteAt a = s.byteAt a) ∧
          t.ctx c = { x with wait := none, pc := x.pc + 16 } ∧ CtxsKept c s t) ∧
    (∀ o va pa w, lone o → (∀ p, x.wait ≠ some (.rpost p)) → o.unit = .field → o.state = .rcptWait → o.rcpt = some va →
      o.streams = [] → s.check c va false false false = .ok pa → s.rcptWin pa = some w → s.overMode w = false →
      s.canTake pa (.op c o.id) = true →
      Does [] [.ctxs, .tally] (exec (.receiptTake c) s) s fun t => (t.ctx c).ops = [{ o with state := .ready }] ∧
        t.holder pa = some (.op c o.id) ∧ (t.ctx c).pc = x.pc ∧ CtxsKept c s t) ∧
    (∀ o va write code unit d, lone o → s.flag Reg.PWR_STAT_THERM_TRIP = false → o.state = .running → o.unit = .teller →
      s.check c va write false false = .fault code unit d → s.field.withdrawn = [] → o.streams = [] →
      Does [] [.ctxs, .fusion, .hurdle, .stream] (exec (.kernelFault c o.id va write) s) s fun t =>
        (t.ctx c).ops = [] ∧ (t.ctx c).td = some .fault ∧ (∃ f, (t.ctx c).fault = some f ∧ f.code = code ∧
          f.imprecise = true ∧ f.pc = o.pc ∧ f.vaddr = va ∧ f.detail = d ∧
          f.unit = if code = 6 then unit else 4) ∧ CtxsKept c s t) ∧
    (∀ o, lone o → s.flag Reg.PWR_STAT_THERM_TRIP = false → o.state = .running → o.unit = .field ∨ o.unit = .gate →
      o.mn ∈ [.kmatmul, .kreduce, .kact, .keltw, .knorm, .ksoftmax, .kgates, .kargmax, .kcvt] → o.rcpt = none →
      o.streams = [] → x.wait = none → s.field.withdrawn = [] →
      let k := kinOf o
      State.accAll ((State.calcAcc k).map fun e => s.tensorAcc c e.1 e.2.1 e.2.2) = .ok →
      let w := s.putOut s c k [] (s.calcOut c k)
      (∀ i, o.tally = some i → (s.tallyOf i).state ≠ .forfeit ∧ QuietTally s i) →
      Does [Reg.RELAY_MIRROR_SENT, Reg.TALLY_STAT] [.ctxs, .teller, .field, .sprint, .mem, .out, .relay, .tally, .stream,
          .fusion, .hurdle] (exec (.kernelComplete c o.id) s) s fun t =>
        (t.ctx c).ops = [] ∧ (t.ctx c).pc = x.pc ∧ (∀ r, t.sget c r = s.sget c r) ∧ MemKept w t ∧
          t.field.purse = w.field.purse ∧ t.sprint.mem = w.sprint.mem ∧ CtxsKept c s t ∧
          ∀ i, o.tally = some i → (t.tallyOf i).count.toNat = satAdd 32 (s.tallyOf i).count.toNat 1 ∧
            (t.tallyOf i).events = (s.tallyOf i).events + 1) ∧
    (∀ o e st u, lone o → s.flag Reg.PWR_STAT_THERM_TRIP = false → o.mn = .kattn → o.state = .running →
      (lenEnts (kinOf o))[o.kv.length]? = some e → s.appendEnt c (kinOf o) e = some (st, u) →
      (st = 1 ∨ s.appendAcc u c (kinOf o) e = .ok) →
      Does [Reg.RELAY_MIRROR_SENT] [.ctxs, .mem, .teller, .field, .sprint, .out, .relay] (exec (.kvAppend c o.id) s) s fun t =>
        (t.ctx c).ops = [{ o with kv := o.kv ++ [st] }] ∧ MemKept u t ∧ (t.ctx c).pc = x.pc ∧ CtxsKept c s t) ∧
    (Alone s → s.flag Reg.PWR_STAT_THERM_TRIP = false → s.teller.moves = [] → s.teller.paces = [] → s.field.withdrawn = [] →
      x.stage = .resident → x.td = some .exit → x.job = false → (∀ e, s.bindOf e = none) →
      (∀ pa m, s.recAt c x.frec true = some (pa, m) → m = false) → (∀ pa m, s.recAt c x.frcpt false = some (pa, m) → m = false) →
      (∀ d, d ≠ c.val → (s.ctx d).wait = none) → (∀ k i, s.watches k i = false) → (∀ e ∈ s.tally.tallies, e.2 = s.tallyOf e.1) →
      Does ((List.range 16).map Reg.TELLER_POOL_CFG ++ (List.range 64).map Reg.START_BCFG)
        [.ctxs, .teller, .tally, .field, .lanes, .stream, .hurdle, .sprint] (exec (.contextTeardown c) s) s fun t =>
        t.ctx c = {} ∧ CtxsKept c s t ∧ (∀ v, v < 4096 → t.mapEnt c v = none) ∧
          (∀ i, (s.tallyOf i).state = .owned → (s.tallyOf i).owner = some c.val → (t.tallyOf i).state = .forfeit) ∧
          (∀ i, (s.tallyOf i).owner ≠ some c.val → t.tallyOf i = s.tallyOf i) ∧
          (∀ b, b < 64 → s.fld (Reg.START_BCFG_CONTEXT b) = c → t.flag (Reg.START_BCFG_EN b) = false) ∧
          (∀ p, c.val ∉ (t.page p).claims) ∧ ∀ i q, t.cue i = q → q.owner = some c.val → q.armed = false)

/-- R127, R128, R139: a dense kmatmul of INT8 by INT8 into INT32 without DC, scaling and ACCUM writes, for every element
[n, m], the exact sum of products over K, held to the INT32 range, where the magnitudes fit in 31 bits. -/
def Obligations.IntegerProductsAreExact : Prop :=
  ∀ (s : State) (c : Nat) (k : KIn) (n m K : Nat), k.mn = .kmatmul → dFmt k.dA = 3 → dFmt k.dB = 3 → dFmt k.dO = 0x0F →
    dRank k.dA = 2 → dRank k.dB = 2 → dRank k.dO = 2 → dExt k.dA 0 = K → dSparse k.dA = false → dSparse k.dB = false →
    k.o.accum = false → k.o.cplx = false → hasC k = false → plainScale k = true → n < dExt k.dO 0 → m < dExt k.dO 1 →
    let a (i : Nat) : Int := sext 8 (s.elemCode c k.dA [i, m])
    let b (i : Nat) : Int := sext 8 (s.elemCode c k.dB [i, n])
    let sum : Int := ((List.range K).map fun i => a i * b i).sum
    ((List.range K).map fun i => (a i * b i).natAbs).sum < 2 ^ 31 →
    ([n, m], (sum % 2 ^ 32).toNat) ∈ (s.calcOut c k).1 ∧ ∀ v, ([n, m], v) ∈ (s.calcOut c k).1 → v = (sum % 2 ^ 32).toNat

/-- R41: a value that is at most 2^63 - 1 behind the Lane is reached, one that is ahead is not, whatever wrap lies between. -/
def Obligations.LanesCompareBySignedDifference : Prop :=
  ∀ (v t : W64), (reached v t = true ↔ (v - t).toNat < 2 ^ 63) ∧ (later v t = true ↔ (v - t).toNat < 2 ^ 63 ∧ v ≠ t) ∧
    ∀ (a b : Nat), b < 2 ^ 63 → reached (BitVec.ofNat 64 (a + b)) (BitVec.ofNat 64 a) = true ∧
      (0 < b → reached (BitVec.ofNat 64 a) (BitVec.ofNat 64 (a + b)) = false)

/-! ### Tiles, Sprint engines and reflex models (05, 06, 10) -/

/-- R112, R115, R147, R164, R258, R259: the end of a tile pass counts and charges the regulators; a corrected Purse error
counts, an uncorrectable one withdraws the tile and binds the first spare in its place; a corrected engine error counts, an
uncorrectable one takes the engine out; MAP_OUT takes an unbound engine out of service and is refused on a bound one. -/
def Obligations.TilesAndEnginesFail : Prop :=
  ∀ (s : State),
    (∀ (p : Fin 7) (cycles stall vault ext : W32) (q : Nat × AsyncOp × Nat), s.flag Reg.PWR_STAT_THERM_TRIP = false →
      (s.heatOps.find? fun q => q.2.2 == p.val) = some q →
      let on (f : Fld) : Bool := s.flag f
      let von := on (Reg.START_RCFG_VAULT_EN p)
      let eon := on (Reg.START_RCFG_EXT_EN p)
      let exempt := bitAt (s.fld (Reg.START_RCFG_EXEMPT p)) (s.ctx q.1).cls.val
      let dry := (von = true ∧ s.bucket (2 * p.val) ≤ 0 ∧ vault ≠ 0) ∨ (eon = true ∧ s.bucket (2 * p.val + 1) ≤ 0 ∧ ext ≠ 0)
      Does [Reg.FIELD_PASS_CNT, Reg.FIELD_BUSY_CYC, Reg.FIELD_STALL_CYC] [.starter] (exec (.tilePassEnd p cycles stall vault ext) s)
        s fun t =>
          t.reg Reg.FIELD_PASS_CNT = s.reg Reg.FIELD_PASS_CNT + 1 ∧
          t.reg Reg.FIELD_BUSY_CYC = s.reg Reg.FIELD_BUSY_CYC + cycles.setWidth 64 ∧
          t.reg Reg.FIELD_STALL_CYC = s.reg Reg.FIELD_STALL_CYC + stall.setWidth 64 ∧
          t.bucket (2 * p.val) = (if von then Max.max (-(s.fld (Reg.START_RVAULT_BURST p) : Int)) (s.bucket (2 * p.val) - vault.toNat)
            else s.bucket (2 * p.val)) ∧
          t.bucket (2 * p.val + 1) = (if eon then Max.max (-(s.fld (Reg.START_REXT_BURST p) : Int)) (s.bucket (2 * p.val + 1) - ext.toNat)
            else s.bucket (2 * p.val + 1)) ∧
          (p.val ∈ t.starter.stalled ↔ p.val ∈ s.starter.stalled ∨ (exempt = false ∧ dry))) ∧
    (∀ (x : Fin 2112), s.field.excluded.contains x.val = false → s.field.withdrawn = [] →
      Does [Reg.FIELD_ERR] [] (exec (.purseEccError x false) s) s (fun t =>
        t.fld Reg.FIELD_ERR_CE_COUNT = satAdd 16 (s.fld Reg.FIELD_ERR_CE_COUNT) 1 ∧
          t.fld Reg.FIELD_ERR_UE = s.fld Reg.FIELD_ERR_UE) ∧
      ∀ l u rest, s.boundTo x = some l → s.spares = u :: rest → s.heatOps = [] → (∀ e ∈ s.ctxs, e.2.pwinPos = none) →
        Does [Reg.FIELD_ERR, Reg.FIELD_GEOM] [.field] (exec (.purseEccError x true) s) s fun t =>
          t.tileOf l = some u ∧ (∀ j, j ≠ l → t.tileOf j = s.tileOf j) ∧ t.field.withdrawn = [x.val] ∧
          t.fld Reg.FIELD_ERR_UE = 1 ∧ (s.flag Reg.FIELD_ERR_UE = false → t.fld Reg.FIELD_ERR_UE_TILE = x.val) ∧
          t.fld Reg.FIELD_GEOM_SPARES_LEFT = s.fld Reg.FIELD_GEOM_SPARES_LEFT - 1 ∧ t.fld Reg.FIELD_GEOM_COLS = s.fld Reg.FIELD_GEOM_COLS) ∧
    (∀ (e : Fin 8), Does [Reg.SPRINT_ERR e] [] (exec (.sprintEccError e false) s) s (fun t =>
        t.fld (Reg.SPRINT_ERR_CE_COUNT e) = satAdd 16 (s.fld (Reg.SPRINT_ERR_CE_COUNT e)) 1) ∧
      (s.bindOf e = none → s.runningOn 1 e = [] → Does [Reg.SPRINT_ERR e, Reg.SPRINT_ENG_STAT e, Reg.SPRINT_RX_CYC e]
          [.boot, .sprint] (exec (.sprintEccError e true) s) s fun t =>
        t.fld (Reg.SPRINT_ERR_UE e) = 1 ∧ e.val ∈ t.boot.enginesOut ∧ t.engineOut e = true ∧ t.bindOf e = none ∧
          ∀ g, g ≠ e.val → t.bindOf g = s.bindOf g ∧ t.engineOut g = s.engineOut g)) ∧
    (∀ (r : Requester) (e : Fin 8), s.holds r 4 = true →
      (s.bindOf e = none → Does [Reg.SPRINT_ENG_CTL e] [] (exec (.mapOut r e true) s) s fun t => t.engineOut e = true) ∧
      (s.bindOf e ≠ none → Does [Reg.SPRINT_ENG_STAT e] [] (exec (.mapOut r e true) s) s fun t =>
        t.fld (Reg.SPRINT_ENG_STAT_MAP_REFUSED e) = 1 ∧ t.engineOut e = s.engineOut e) ∧
      (Alone s → Does [Reg.SPRINT_ENG_CTL e] [] (exec (.mapOut r e false) s) s fun t =>
        t.engineOut e = s.boot.enginesOut.contains e.val))

/-- R165, R166, R168: the features of a period start the evaluation of a binding: for every channel that takes samples, its
outputs are those of the network on its features; outputs in time reach the channel, count a run and end the evaluation;
a missed deadline counts every output as late. -/
def Obligations.ReflexEvaluates : Prop :=
  ∀ (s : State) (e : Fin 8) (b : RxBind), s.bindOf e = some b →
    (s.flag Reg.PWR_STAT_THERM_TRIP = false → b.run = none → b.next = none → s.rxChans b ≠ [] →
      Does [Reg.SPRINT_ENG_STAT e, Reg.SPRINT_RX_CYC e] [.sprint] (exec (.reflexFeaturesArrive e) s) s fun t =>
        ∃ run, t.bindOf e = some { b with run := some run, late := false } ∧
          (∀ ch, ch ∈ s.rxChans b → mget (fun _ => []) run ch = s.rxEval e b (s.chan b.pacer ch).featSnap) ∧
          ∀ g, g ≠ e.val → t.bindOf g = s.bindOf g) ∧
    (∀ ch outs (cycles : Nat), s.flag Reg.PWR_STAT_THERM_TRIP = false → b.run = some [(ch, outs)] → b.late = false → b.stop = none →
      b.ending = false → s.rxWithheld e b = false → Alone s →
      Does [Reg.SPRINT_ENG_STAT e, Reg.SPRINT_RX_CYC e, Reg.SPRINT_RX_RUNS e] [.sprint, .island] (exec (.reflexOutputsArrive e cycles) s) s
        fun t => t.bindOf e = some { b with run := none, late := false } ∧
          t.reg (Reg.SPRINT_RX_RUNS e) = s.reg (Reg.SPRINT_RX_RUNS e) + 1 ∧
          (s.fld (Reg.SPRINT_RX_CYC_MAX e) < cycles → t.fld (Reg.SPRINT_RX_CYC_MAX e) = Nat.min cycles 0xFFFF) ∧
          (∀ k v, k < 4 → outs[k]? = some v → mget (fun _ => none) (t.chan b.pacer ch).rxNext k = some v) ∧
          (∀ k, k < 4 → outs.length ≤ k → mget (fun _ => none) (t.chan b.pacer ch).rxNext k =
            some (if s.flag (Reg.PCH_CFG_RX_HOLD b.pacer ch) then mget (fun _ => 0) (s.chan b.pacer ch).rxi k else 0))) ∧
    (∀ run, b.run = some run → b.late = false →
      Does [Reg.SPRINT_RX_STAT e, Reg.SPRINT_ENG_STAT e, Reg.SPRINT_RX_CYC e] [.sprint] (exec (.reflexOutputDeadline e) s) s fun t =>
        t.bindOf e = some { b with late := true } ∧
          t.fld (Reg.SPRINT_RX_STAT_LATE e) = satAdd 16 (s.fld (Reg.SPRINT_RX_STAT_LATE e)) ((run.map fun q => q.2.length).foldl (· + ·) 0))

/-! ### The Stream store (08) -/

/-- R196, R198, R203, R204, R211: REGISTER of a stream without an initial vector enters it with a state of zeros in escrow, or
refuses with ERR; UNREGISTER, RESET and FLUSH act on a stream no chunk claims, and READ shows its definition. -/
def Obligations.StreamCommandsAct : Prop :=
  ∀ (s : State) (r : Requester), s.holds r 3 = true →
    let n := s.strmSel r
    let g (f : Fld) : Nat := s.fld (f.of r)
    let info := stg r Reg.STREAM_INFO
    let ok (t : State) : Prop := t.fld (Reg.STREAM_INFO_ERR.of r) = 0
    let fails (c : Instr) (err : Nat) : Prop := Does [info] [] (exec c s) s fun t => t.fld (Reg.STREAM_INFO_ERR.of r) = err
    let zeros (a k : Nat) (t : State) : Prop := (∀ i, i < k → t.byteAt (a + i) = 0) ∧ MemKeptOutside a k s t
    (let x : Strm := { owner := g Reg.STREAM_DEF_OWNER, gate := g Reg.STREAM_DEF_GATE_SET, h := g Reg.STREAM_DEF_H
                       esc := 256 * g Reg.STREAM_ESC_ADDR, init := BitVec.ofNat 64 (g Reg.STREAM_INIT_VA) }
     let b := 4 * State.strmLen x
     let wrong := x.gate = 3 ∨ b < 4 ∨ 65536 < b ∨ x.init.toNat % 64 ≠ 0
     let inDram := 0x1000000000 ≤ x.esc ∧ x.esc + 256 * State.strmGran x ≤ 65536 * s.dramTop
     (wrong → fails (.streamRegister r) 1) ∧
     (¬ wrong → s.strm n ≠ none → fails (.streamRegister r) 4) ∧
     (¬ wrong → s.strm n = none → ¬ inDram → fails (.streamRegister r) 5) ∧
     (¬ wrong → s.strm n = none → inDram → x.init = 0 → Does [info] [.stream, .mem, .teller] (exec (.streamRegister r) s) s fun t =>
        t.strm n = some x ∧ zeros x.esc b t ∧ ok t ∧ ∀ m, m ≠ n → t.strm m = s.strm m)) ∧
    (s.strm n = none → fails (.streamUnregister r) 3 ∧ fails (.streamReset r) 3 ∧ fails (.streamFlush r) 3 ∧ fails (.streamRead r) 3) ∧
    (∀ x, s.strm n = some x →
      (x.claims ≠ [] → fails (.streamUnregister r) 2 ∧ fails (.streamReset r) 2 ∧ fails (.streamFlush r) 2) ∧
      (x.claims = [] →
        Does [info] [.stream] (exec (.streamUnregister r) s) s (fun t => t.strm n = none ∧ ok t ∧ ∀ m, m ≠ n → t.strm m = s.strm m) ∧
        (x.init = 0 → x.place = .escrow → Does [info] [.stream, .mem, .teller] (exec (.streamReset r) s) s fun t =>
          t.strm n = some { x with vals := [], fresh := false } ∧ zeros x.esc (4 * State.strmLen x) t ∧ ok t) ∧
        (x.init = 0 → x.place = .resident → Does [info] [.stream] (exec (.streamReset r) s) s fun t =>
          t.strm n = some { x with vals := List.replicate (State.strmLen x) 0, fresh := false } ∧ ok t) ∧
        (x.place = .poisoned → Does [info] [] (exec (.streamReset r) s) s ok) ∧
        (x.place = .resident → Does [info] [.stream] (exec (.streamFlush r) s) s fun t =>
          t.strm n = some { x with place := .lowering } ∧ ok t) ∧
        (x.place ≠ .resident → Does [info] [] (exec (.streamFlush r) s) s ok)) ∧
      (x.owner < 2 ^ Reg.STREAM_DEF_OWNER.len → x.gate < 2 ^ Reg.STREAM_DEF_GATE_SET.len → x.h < 2 ^ Reg.STREAM_DEF_H.len →
        Does (info :: [Reg.STREAM_DEF, Reg.STREAM_ESC, Reg.STREAM_INIT].map (stg r)) [] (exec (.streamRead r) s) s fun t =>
          t.fld (Reg.STREAM_DEF_OWNER.of r) = x.owner ∧ t.fld (Reg.STREAM_DEF_GATE_SET.of r) = x.gate ∧
            t.fld (Reg.STREAM_DEF_H.of r) = x.h ∧ ok t))

/-- R200 to R204: the admission of the only stream a chunk names gives the chunk its claim: a resident stream lets it go to the
Starter, one in escrow is raised; a raise brings the state in from escrow, a lower brings it back; an uncorrectable error
poisons the stream. How many cycles the chunk waited is left open (assumption 2). -/
def Obligations.StreamsMove : Prop :=
  ∀ (s : State) (n : W16) (x : Strm), s.strm n.toNat = some x →
    (∀ k j c o, s.flag Reg.PWR_STAT_THERM_TRIP = false → s.nextChunk = some (k, j, c, o) → o.streams = [n.toNat] → s.opOf c o.id = some o →
      s.strms = [(n.toNat, x)] → State.strmsFit [(n.toNat, x)] = true → o.state = .admitWait →
      let y (p : StreamAt) : Strm := { x with claims := (c, o.id) :: x.claims, place := p }
      (x.place = .resident → Does [Reg.STREAM_ADMIT_CYC] [.stream, .ctxs] (exec .chunkAdmission s) s fun t =>
        t.strm n.toNat = some (y .resident) ∧ t.opOf c o.id = some { o with state := .ready }) ∧
      (x.place = .escrow → Does [Reg.STREAM_ADMIT_CYC] [.stream, .ctxs] (exec .chunkAdmission s) s fun t =>
        t.strm n.toNat = some (y .raising))) ∧
    (s.flag Reg.PWR_STAT_THERM_TRIP = false → x.place = .raising → x.fresh = false → s.strms = [(n.toNat, x)] →
      State.strmsFit [(n.toNat, x)] = true →
      Does [Reg.STREAM_SWAP_INS] [.stream, .ctxs] (exec (.streamRaiseComplete n false false) s) s fun t =>
        t.strm n.toNat = some { x with place := .resident, vals := s.escRead x } ∧
          t.fld Reg.STREAM_SWAP_INS_COUNT = (s.fld Reg.STREAM_SWAP_INS_COUNT + 1) % 2 ^ Reg.STREAM_SWAP_INS_COUNT.len) ∧
    (s.flag Reg.PWR_STAT_THERM_TRIP = false → x.place = .lowering → x.fresh = false →
      Does [Reg.STREAM_SWAP_OUTS] [.stream, .mem, .teller] (exec (.streamLowerComplete n) s) s fun t =>
        t.strm n.toNat = some { x with place := .escrow, vals := [] } ∧
          (∀ i w, x.vals[i]? = some w → t.natAt (x.esc + 4 * i) 4 = w.toNat) ∧ MemKeptOutside x.esc (4 * x.vals.length) s t ∧
          t.fld Reg.STREAM_SWAP_OUTS_COUNT = (s.fld Reg.STREAM_SWAP_OUTS_COUNT + 1) % 2 ^ Reg.STREAM_SWAP_OUTS_COUNT.len) ∧
    (Does [Reg.STREAM_ERR] [] (exec (.streamStoreEccError none) s) s fun t =>
      t.fld Reg.STREAM_ERR_CE_COUNT = satAdd Reg.STREAM_ERR_CE_COUNT.len (s.fld Reg.STREAM_ERR_CE_COUNT) 1) ∧
    (x.claims = [] →
      let poisoned (c : Instr) : Prop := Does [Reg.STREAM_ERR, Reg.STREAM_UE_STREAM] [.stream] (exec c s) s fun t =>
        t.strm n.toNat = some { x with place := .poisoned, vals := [] } ∧ t.fld Reg.STREAM_ERR_UE = 1 ∧
          (s.flag Reg.STREAM_ERR_UE = false → t.fld Reg.STREAM_UE_STREAM_STREAM = n.toNat % 2 ^ Reg.STREAM_UE_STREAM_STREAM.len)
      (State.inStore x = true → poisoned (.streamStoreEccError (some n))) ∧
      (s.flag Reg.PWR_STAT_THERM_TRIP = false → x.place = .raising → poisoned (.streamRaiseComplete n false true)))

/-! ### The Teller (09) -/

/-- R220 to R228, R230: the acceptance of the only waiting raise begins it where a frame is free, its end leaves the page
raised; the end of a demotion leaves a page without claims at home, every byte as it was; a menter's commit makes its data the
page's and completes the instruction. -/
def Obligations.PageMovesRun : Prop :=
  ∀ (s : State) (m : Move) (p : BitVec 28), s.teller.moves = [m] → m.page = p.toNat → s.flag Reg.PWR_STAT_THERM_TRIP = false →
    let g := s.page p.toNat
    let counted (f : Fld) (t : State) : Prop := t.reg f.reg = s.reg f.reg + 1
    (∀ d, s.flag Reg.TELLER_CTL_EN = true → s.movesInFlight < 512 → m.inFlight = false → m.started = false → m.kind = .raise d →
      (s.ctx m.ctx).td = none → g.state = .home → s.raiseNeedsMove p.toNat d = true → s.framesFree d = true →
      Does [Reg.TELLER_MOVE_SEQ] [.teller] (exec .pageMoveAccept s) s fun t =>
        t.teller.moves = [{ m with inFlight := true, started := true }] ∧ (t.page p.toNat).state = .raising ∧
          State.moveOwner m ∈ (t.page p.toNat).trans ∧ (t.page p.toNat).claims = g.claims ∧
          counted Reg.TELLER_MOVE_SEQ_COUNT t ∧ ∀ q, q ≠ p.toNat → t.page q = s.page q) ∧
    (∀ d, m.started = true → m.kind = .raise d → m.after = none → m.op = none → g.state = .raising →
      Does [Reg.TELLER_MOVE_DONE] [.teller] (exec (.pageMoveComplete p) s) s fun t => t.teller.moves = [] ∧
        (t.page p.toNat).state = .raised ∧ (t.page p.toNat).inPool = d ∧ (t.page p.toNat).dirty = false ∧
          (t.page p.toNat).claims = g.claims ∧ counted Reg.TELLER_MOVE_DONE_COUNT t ∧ ∀ q, q ≠ p.toNat → t.page q = s.page q) ∧
    (Canon s → m.started = true → m.kind = .demote → m.op = none → g.state = .lowering → g.claims = [] → g.trans = [] →
      Does [Reg.TELLER_MOVE_DONE] [.teller] (exec (.pageMoveComplete p) s) s fun t => t.teller.moves = [] ∧
        (t.page p.toNat).state = .home ∧ (t.page p.toNat).inPool = false ∧ (t.page p.toNat).dirty = false ∧
          counted Reg.TELLER_MOVE_DONE_COUNT t ∧ ∀ q, q ≠ p.toNat → t.page q = s.page q) ∧
    (∀ o id, m.started = true → m.inFlight = true → m.kind = .enter → m.op = some id → id ≠ 0 → o.id = id →
      (s.ctx m.ctx).ops = [o] → (∀ e ∈ s.ctxs, e.2.ops = [] ∨ e.1 = m.ctx ∧ e.2.ops = [o]) → o.unit = .teller → o.state = .running →
      o.rcpt = none → o.tally = none → (s.ctx m.ctx).wait = none → s.hurdle.runs = [] → s.hurdle.load = none →
      s.fusion.xform = none → s.fusion.tracker = none →
      g.claims = [] → g.trans = [State.moveOwner m] → s.nandUp p.toNat ≠ 0 → (∀ e ∈ s.overlay, e.1 / 65536 ≠ p.toNat) →
      (∀ e ∈ m.data, e.1 < 65536) →
      Does [Reg.TELLER_MOVE_DONE] [.teller, .mem, .field, .ctxs, .stream, .fusion, .hurdle] (exec (.menterCommit p) s) s fun t =>
        t.teller.moves = [] ∧ (t.page p.toNat).state = .home ∧ (t.page p.toNat).entries = s.nandUp p.toNat ∧
          (t.ctx m.ctx).ops = [] ∧ (t.ctx m.ctx).pc = (s.ctx m.ctx).pc ∧ CtxsKept m.ctx s t ∧
          (∀ a b, m.data.filter (fun e => e.1 == a) = [(a, b)] → t.byteAt (65536 * p.toNat + a) = b) ∧
          (∀ a, m.data.filter (fun e => e.1 == a) = [] → t.byteAt (65536 * p.toNat + a) = s.byteAt (65536 * p.toNat + a)) ∧
          (∀ a, a / 65536 ≠ p.toNat → t.byteAt a = s.byteAt a) ∧ counted Reg.TELLER_MOVE_DONE_COUNT t)

/-- R219, R223, R227, R238: TELLER_INVAL is in progress until the cached translations of the contexts it names are gone; READ
shows a page, CLEAR_POISON gives a poisoned page back with its content left open (assumption 3), and a pool whose header can
be read and is valid is registered. -/
def Obligations.TellerCommandsAct : Prop :=
  ∀ (s : State) (r : Requester), s.holds r 3 = true →
    (∀ v : W32, s.teller.inval = none → Does [Reg.TELLER_STAT] [.teller] (exec (.tellerInval r v) s) s fun t =>
      t.teller = { s.teller with inval := some (if v.getLsbD 8 then none else some (v.toNat % 256)) } ∧
        t.fld Reg.TELLER_STAT_INVAL_BUSY = 1) ∧
    (s.flag Reg.PWR_STAT_THERM_TRIP = false → ∀ q, s.teller.inval = some q →
      Does [Reg.TELLER_STAT] [.teller] (exec .tellerInvalComplete s) s fun t =>
        t.teller.inval = none ∧ t.teller.pages = s.teller.pages ∧ t.teller.moves = s.teller.moves ∧
          t.fld Reg.TELLER_STAT_INVAL_BUSY = 0 ∧
          ∀ c vpn, vpn < 2 ^ 32 → mget (fun _ => none) t.teller.tlb (State.tlbKey c vpn) =
            if q = none ∨ q = some c then none else mget (fun _ => none) s.teller.tlb (State.tlbKey c vpn)) ∧
    (let p := s.fld (Fld.of Reg.TELLER_PAGE_SEL_PAGE r)
     let g := s.page p
     let info := stg r Reg.TELLER_PAGE_INFO
     let f (t : State) (x : Fld) : Nat := t.fld (x.of r)
     (s.isHome p = false → Does [info] [] (exec (.tellerPageRead r) s) s (fun t => f t Reg.TELLER_PAGE_INFO_ERR = 1) ∧
        Does [info] [] (exec (.clearPoison r) s) s fun t => f t Reg.TELLER_PAGE_INFO_ERR = 1) ∧
     (s.isHome p = true → Does [info] [] (exec (.tellerPageRead r) s) s fun t =>
        f t Reg.TELLER_PAGE_INFO_ERR = 0 ∧ f t Reg.TELLER_PAGE_INFO_STATE = State.pageCode g.state ∧
          f t Reg.TELLER_PAGE_INFO_TIER = s.tierOf p ∧ f t Reg.TELLER_PAGE_INFO_DIRTY = b2n g.dirty ∧
          f t Reg.TELLER_PAGE_INFO_ENTRIES = g.entries % 4 ∧ f t Reg.TELLER_PAGE_INFO_CLAIMS = Nat.min g.claims.length 65535) ∧
     (s.isHome p = true → g.state ≠ .poisoned → Does [info] [] (exec (.clearPoison r) s) s fun t =>
        f t Reg.TELLER_PAGE_INFO_ERR = 2) ∧
     (s.isHome p = true → g.state = .poisoned → Does [info] [.mem, .teller] (exec (.clearPoison r) s) s fun t =>
        t.page p = { g with state := .home } ∧ f t Reg.TELLER_PAGE_INFO_ERR = 0 ∧ MemKeptOutside (65536 * p) 65536 s t)) ∧
    (∀ (n : Fin 16) (v : W32),
      let c := v.toNat % 256
      let va := s.reg (Reg.TELLER_POOL_VA n)
      let good := (s.ctx c).stage ≠ .undefined ∧ va.toNat % 64 = 0 ∧ s.ledAcc c false false va = .ok ∧
        s.ledAcc c false false (va + 64) = .ok ∧
        State.poolHeaderOk ((List.range 128).map fun i => BitVec.ofNat 8 (s.ledByte c (va + BitVec.ofNat 64 i))) = true
      (s.flag (Reg.TELLER_POOL_CFG_EN n) = false → v.getLsbD 31 = true →
        Does [Reg.TELLER_POOL_CFG n] [.teller] (exec (.poolRegister r n v) s) s fun t =>
          (good → t.flag (Reg.TELLER_POOL_CFG_EN n) = true ∧ t.flag (Reg.TELLER_POOL_CFG_ERR n) = false) ∧
          (¬ good → t.flag (Reg.TELLER_POOL_CFG_EN n) = false ∧ t.flag (Reg.TELLER_POOL_CFG_ERR n) = true) ∧
          t.fld (Reg.TELLER_POOL_CFG_CONTEXT n) = c ∧ t.fld (Reg.TELLER_POOL_CFG_QUOTA n) = v.toNat / 65536 % 2048 ∧
          t.teller.pages = s.teller.pages) ∧
      (s.flag (Reg.TELLER_POOL_CFG_EN n) = true → v.getLsbD 31 = false →
        Does [Reg.TELLER_POOL_CFG n] [.teller] (exec (.poolRegister r n v) s) s fun t =>
          t.flag (Reg.TELLER_POOL_CFG_EN n) = false ∧ ∀ q, (t.page q).pool.map (·.1) ≠ some n.val))

/-- R233 to R238: an entry of a page in double entry that fails is served by the other and rewritten; a page of the partner
serves where both have failed; scrub rewrites what is weak; a corrected word counts, an uncorrectable word of a home poisons
its page. -/
def Obligations.MemoryErrorsAreServed : Prop :=
  ∀ (s : State) (p : BitVec 28), s.flag Reg.PWR_STAT_THERM_TRIP = false →
    let g := s.page p.toNat
    let c (f : Fld) (k : Nat) (t : State) : Prop := t.fld f = satAdd 16 (s.fld f) k
    (∀ second, s.isNandHome p.toNat = true → g.entries = 3 → g.state ≠ .poisoned →
      Does [Reg.TELLER_NAND_CNT, Reg.TELLER_ERR] [.teller] (exec (.nandEntryRewrite p second) s) s fun t =>
        c Reg.TELLER_NAND_CNT_RECOVERED 1 t ∧ c Reg.TELLER_NAND_CNT_REWRITTEN 1 t ∧ t.fld Reg.TELLER_ERR_NAND_ENTRY_UE = 1 ∧
          t.page p.toNat = g) ∧
    (∀ data : List Byte, s.isNandHome p.toNat = true → s.isPaired = true → g.state = .home → data.length = 65536 →
      (∀ e ∈ s.overlay, e.1 / 65536 ≠ p.toNat) →
      Does [Reg.TELLER_NAND_CNT, Reg.TELLER_SHORT_CNT] [.teller, .mem] (exec (.partnerFetchComplete p (some data)) s) s fun t =>
        (∀ i b, data[i]? = some b → t.byteAt (65536 * p.toNat + i) = b) ∧ MemKeptOutside (65536 * p.toNat) 65536 s t ∧
          t.page p.toNat = { g with entries := s.nandUp p.toNat } ∧ c Reg.TELLER_SHORT_CNT_PARTNER 1 t) ∧
    (s.isNandHome p.toNat = true → g.entries = 3 → g.state ≠ .poisoned → s.flag Reg.TELLER_CTL_SCRUB_EN = true →
      Does [] [] (exec (.nandScrub p .good .good) s) s (fun _ => True) ∧
      Does [Reg.TELLER_NAND_CNT] [] (exec (.nandScrub p .weak .good) s) s (c Reg.TELLER_NAND_CNT_REWRITTEN 1) ∧
      Does [Reg.TELLER_NAND_CNT] [] (exec (.nandScrub p .weak .weak) s) s (c Reg.TELLER_NAND_CNT_REWRITTEN 2) ∧
      Does [Reg.TELLER_NAND_CNT, Reg.TELLER_ERR] [] (exec (.nandScrub p .good .bad) s) s fun t =>
        c Reg.TELLER_NAND_CNT_REWRITTEN 1 t ∧ t.fld Reg.TELLER_ERR_NAND_ENTRY_UE = 1) ∧
    (s.flag Reg.TELLER_CTL_SCRUB_EN = true → 0x100000 ≤ p.toNat → p.toNat < s.dramTop →
      Does [Reg.TELLER_CE_CNT] [] (exec (.dramScrub p true) s) s (c Reg.TELLER_CE_CNT_DRAM 1) ∧
      Does [] [] (exec (.dramScrub p false) s) s fun _ => True) ∧
    (∀ dram, Does [Reg.TELLER_CE_CNT] [] (exec (.memoryUe (.corrected dram)) s) s
      (c (if dram then Reg.TELLER_CE_CNT_DRAM else Reg.TELLER_CE_CNT_VAULT) 1)) ∧
    (s.isVdHome p.toNat = true → g.state = .home →
      Does ([Reg.INC_CNT 9, Reg.TELLER_POISON_LAST, Reg.TELLER_ERR] ++ (List.range 8).map (Reg.INC_REC 9)) [.teller, .mem]
        (exec (.memoryUe (.home p)) s) s fun t => (t.page p.toNat).state = .poisoned ∧ (t.page p.toNat).claims = g.claims ∧
          t.fld Reg.TELLER_POISON_LAST_PAGE = p.toNat ∧ (∀ q, q ≠ p.toNat → t.page q = s.page q) ∧
          t.fld (Reg.INC_CNT_COUNT 9) = satAdd (Reg.INC_CNT_COUNT 9).len (s.fld (Reg.INC_CNT_COUNT 9)) 1 ∧
          t.reg (Reg.INC_REC 9 7) = BitVec.ofNat 64 (65536 * p.toNat + s.homeTier p.toNat)) ∧
    (g.state = .raised → g.dirty = false → Does [Reg.TELLER_ERR] [] (exec (.memoryUe (.copy p)) s) s fun t =>
      t.fld (if g.inPool then Reg.TELLER_ERR_DRAM_UE else Reg.TELLER_ERR_VAULT_UE) = 1)

/-! ### The Starter (10) -/

/-- R241 to R243, R251, R263: DEFINE of an undefined context from the caller's copy makes it wait, with its registers at 0;
KILL records CONTEXT_KILLED and starts the teardown; READ gives the definition back; START_CTL is switched on only with
escrow and save frames in order. -/
def Obligations.StarterCommandsAct : Prop :=
  ∀ (s : State) (r : Requester), s.holds r 3 = true →
    let c := s.stagedCtx r
    let g := s.stgFld r
    let x := s.ctx c
    let info := stg r Reg.START_CTX_INFO
    let err (t : State) (e : Nat) : Prop := t.fld (Reg.START_CTX_INFO_ERR.of r) = e
    let fails (i : Instr) (e : Nat) : Prop := Does [info] [] (exec i s) s fun t => err t e
    (s.defined c = true → fails (.define r) 2) ∧
    (s.defined c = false →
      let even := g Reg.START_CTX_PC_VA % 16 = 0 ∧ g Reg.START_CTX_FREC_VA % 64 = 0 ∧ g Reg.START_CTX_FRCPT_VA % 8 = 0
      let shapes := g Reg.START_CTX_CFG_SHAPES
      (¬ even → fails (.define r) 1) ∧
      (even → shapes = 0 → fails (.define r) 5) ∧
      (even → shapes ≠ 0 → shapes &&& (7 - s.fld Reg.FIELD_GEOM_HEAT_SHAPES % 8) = 0 →
        g Reg.START_CTX_WIN_PWIN_SIZE = 0 → g Reg.START_CTX_WIN_SWIN_SIZE = 0 → g Reg.START_CTX_WIN_PWIN_BASE ≤ 1536 →
        g Reg.START_CTX_WIN_SWIN_BASE ≤ 3584 → 2 ≤ g Reg.START_CTX_CFG_CLASS →
        Does [info] [.ctxs] (exec (.define r) s) s fun t => let y := t.ctx c
          y.stage = .waiting ∧ y.cls.val = g Reg.START_CTX_CFG_CLASS ∧ y.prio = g Reg.START_CTX_CFG_PRIORITY ∧ y.shapes = shapes ∧
            (y.nandWr = true ↔ g Reg.START_CTX_CFG_NAND_WR = 1) ∧ y.pc.toNat = g Reg.START_CTX_PC_VA ∧
            y.root = g Reg.START_CTX_ROOT_PPN ∧ y.frec.toNat = g Reg.START_CTX_FREC_VA ∧ y.frcpt.toNat = g Reg.START_CTX_FRCPT_VA ∧
            (∀ n, t.sget c n = 0) ∧ (∀ n, n.val ≠ 0 → t.pget c n = false) ∧ (∀ n, t.slot c n = 0) ∧ y.ops = [] ∧ y.wait = none ∧
            CtxsKept c s t ∧ err t 0 ∧ t.fld (Reg.START_CTX_INFO_STATE.of r) = 1)) ∧
    (s.defined c = false → fails (.kill r) 3 ∧ fails (.startCtxRead r) 3) ∧
    (s.defined c = true →
      (x.td = none → Does [info] [.ctxs] (exec (.kill r) s) s fun t => err t 0 ∧ CtxsKept c s t ∧
        t.ctx c = { x with td := some .fault, fault := some (starterFault s c 0x0E (BitVec.ofNat 64 r)) }) ∧
      Does (info :: [Reg.START_CTX_CFG, Reg.START_CTX_PC, Reg.START_CTX_ROOT, Reg.START_CTX_FREC, Reg.START_CTX_FRCPT,
          Reg.START_CTX_WIN].map (stg r)) [] (exec (.startCtxRead r) s) s fun t => let h := t.stgFld r
        err t 0 ∧ h Reg.START_CTX_CFG_CLASS = x.cls.val ∧ h Reg.START_CTX_CFG_PRIORITY = x.prio % 16 ∧
          h Reg.START_CTX_CFG_NAND_WR = b2n x.nandWr ∧ h Reg.START_CTX_CFG_SHAPES = x.shapes % 8 ∧
          h Reg.START_CTX_PC_VA = x.pc.toNat % 2 ^ 48 ∧ h Reg.START_CTX_ROOT_PPN = x.root % 2 ^ 28 ∧
          h Reg.START_CTX_FREC_VA = x.frec.toNat % 2 ^ 48 ∧ h Reg.START_CTX_FRCPT_VA = x.frcpt.toNat % 2 ^ 48 ∧
          h Reg.START_CTX_WIN_PWIN_SIZE = x.pwinSize % 2 ^ 11 ∧ h Reg.START_CTX_WIN_PWIN_BASE = x.pwinBase % 2 ^ 11 ∧
          h Reg.START_CTX_WIN_SWIN_SIZE = x.swinSize % 2 ^ 12 ∧ h Reg.START_CTX_WIN_SWIN_BASE = x.swinBase % 2 ^ 12) ∧
    (∀ v : W32,
      let b := s.fld Reg.START_SAVE_CFG_BASE
      let n := s.fld Reg.START_SAVE_CFG_FRAMES
      let good := 20736 ≤ s.fld Reg.TELLER_ESC_PAGES_PAGES ∧ 144 ≤ n ∧ b + n ≤ s.homeFrames ∧ s.saveMapped b n = false
      (v.getLsbD 0 = false → Does [Reg.START_CTL] [] (exec (.startCtlWrite r v) s) s fun t => t.flag Reg.START_CTL_EN = false ∧
        t.fld Reg.START_CTL_RESERVE_SLOTS = if s.flag Reg.START_CTL_EN then s.fld Reg.START_CTL_RESERVE_SLOTS else v.toNat / 256 % 256) ∧
      (v.getLsbD 0 = true → s.flag Reg.START_CTL_EN = false → good →
        Does [Reg.START_CTL] [.starter] (exec (.startCtlWrite r v) s) s fun t => t.flag Reg.START_CTL_EN = true ∧
          t.fld Reg.START_CTL_RESERVE_SLOTS = v.toNat / 256 % 256 ∧
          t.starter = { s.starter with refillAt := s.laneVal 15 + BitVec.ofNat 64 (1000 * 2 ^ 32) }) ∧
      (v.getLsbD 0 = true → s.flag Reg.START_CTL_EN = false → ¬ good →
        Does [Reg.START_CTL, Reg.START_STAT] [] (exec (.startCtlWrite r v) s) s fun t => t.flag Reg.START_CTL_EN = false ∧
          t.flag Reg.START_STAT_CFG_ERR = true) ∧
      (v.getLsbD 0 = true → s.flag Reg.START_CTL_EN = true → Does [] [] (exec (.startCtlWrite r v) s) s fun _ => True))

/-- R242, R245, R246, R249, R254 to R261: the only context that can become resident does, on the Marshal with the fewest of
its class; an operation that is ready starts on a free position; saved victims let the incoming operation start; a swap brings
the victim to escrow and the incoming context in; the buckets are refilled; a job beyond its budget is counted and acted upon. -/
def Obligations.StarterSchedules : Prop :=
  ∀ (s : State), s.flag Reg.START_CTL_EN = true → s.flag Reg.PWR_STAT_THERM_TRIP = false → s.field.withdrawn = [] →
    let on (m : Nat) : List (Nat × Ctx) := s.slotted.filter fun e => e.2.marshal == m
    (∀ (c : CtxId), let x := s.ctx c
      s.grantable = [(c.val, x)] → x.pwinSize = 0 → x.swinSize = 0 →
      let same (m : Nat) : Nat := ((on m).filter fun e => e.2.cls == x.cls).length
      Does [] [.ctxs] (exec (.contextResident c) s) s fun t => let y := t.ctx c
        y = { x with stage := .resident, marshal := y.marshal, pwinPos := none, swinEng := none, swinSave := [],
                     everResident := true, starved := false } ∧
          y.marshal < 8 ∧ (on y.marshal).length < 8 ∧ (∀ m, m < 8 → (on m).length < 8 → same y.marshal ≤ same m) ∧ CtxsKept c s t) ∧
    (∀ a b k c id o, s.readyOps = [(a, b, k, c, id)] → s.swapNext = none → s.opOf c id = some o → o.unit = .field →
      s.field.layout = 0 → s.posFree 0 = true → s.posAllowed c o 0 = true →
      Does [] [.ctxs, .field, .teller, .judge] (exec .starterDecision s) s fun t =>
        t.opOf c id = some { o with state := .running, begun := true, pos := some 0 } ∧ CtxsKept c s t ∧
          t.field.binding = s.field.binding ∧ t.field.purse = s.field.purse) ∧
    (∀ (p : Fin 7) (ns : W32) q v vid ov oi, s.starter.preempts = [q] → q.pos = p → q.victims = [(v, vid)] → q.layout = s.field.layout →
      s.opOf v vid = some ov → ov.state = .running → (s.ctx v).td = none → v ≠ q.incoming.1 →
      s.opOf q.incoming.1 q.incoming.2 = some oi → oi.state = .incoming → (s.ctx q.incoming.1).td = none →
      Does [Reg.START_PREEMPT_CNT, Reg.START_PREEMPT_MAX] [.ctxs, .starter, .field, .teller, .judge]
        (exec (.preemptSaveComplete p ns) s) s fun t =>
        t.opOf v vid = some { ov with state := .saved } ∧ t.starter.preempts = [] ∧
          t.opOf q.incoming.1 q.incoming.2 = some { oi with state := .running, begun := true, pos := some p.val } ∧
          t.reg Reg.START_PREEMPT_CNT = s.reg Reg.START_PREEMPT_CNT + 1 ∧
          t.fld Reg.START_PREEMPT_MAX_PREEMPT_NS = Nat.max (s.fld Reg.START_PREEMPT_MAX_PREEMPT_NS) (Nat.min ns.toNat 65535)) ∧
    (∀ (ns : W32) v n, s.starter.swap = some { victim := v, incoming := n } → v ≠ n → (s.ctx n).stage = .waiting → (s.ctx n).td = none →
      (s.ctx n).pwinSize = 0 → (s.ctx n).swinSize = 0 → (∃ m, m < 8 ∧ (on m).length < 8) →
      Does [Reg.START_SWAP_CNT, Reg.START_PREEMPT_MAX] [.ctxs, .starter, .stream, .teller, .mem] (exec (.swapComplete false ns) s) s
        fun t => (t.ctx v).stage = .escrow ∧ (t.ctx v).pwinPos = none ∧ (t.ctx v).swinEng = none ∧ (t.ctx v).pc = (s.ctx v).pc ∧
          (∀ i, t.sget v i = s.sget v i) ∧ (t.ctx v).preds = (s.ctx v).preds ∧ (t.ctx v).descs = (s.ctx v).descs ∧
          (t.ctx v).wait = (s.ctx v).wait ∧ (t.ctx n).stage = .resident ∧ t.starter = { s.starter with swap := none } ∧
          t.reg Reg.START_SWAP_CNT = s.reg Reg.START_SWAP_CNT + 1 ∧
          MemKeptOutside (65536 * (s.fld Reg.TELLER_ESC_BASE_ADDR + 81 * v)) (65536 * 81) s t) ∧
    (reached (s.laneVal 15) s.starter.refillAt = true →
      Does ((List.range 7).map Reg.START_RSTALL) [.starter] (exec .regulatorRefill s) s fun t =>
        t.starter.stalled = [] ∧ t.starter.refillAt = s.starter.refillAt + BitVec.ofNat 64 (1000 * 2 ^ 32) ∧
        ∀ p, p < 7 →
          t.bucket (2 * p) = (if s.flag (Reg.START_RCFG_VAULT_EN p) then
            Min.min (s.bucket (2 * p) + s.fld (Reg.START_RVAULT_RATE p)) (s.fld (Reg.START_RVAULT_BURST p) : Int) else s.bucket (2 * p)) ∧
          t.bucket (2 * p + 1) = (if s.flag (Reg.START_RCFG_EXT_EN p) then
            Min.min (s.bucket (2 * p + 1) + s.fld (Reg.START_REXT_RATE p)) (s.fld (Reg.START_REXT_BURST p) : Int) else s.bucket (2 * p + 1)) ∧
          t.reg (Reg.START_RSTALL p) = s.reg (Reg.START_RSTALL p) + if s.starter.stalled.contains p then 1 else 0) ∧
    (∀ (b : Fin 64), let c := s.fld (Reg.START_BCFG_CONTEXT b)
      s.flag (Reg.START_BCFG_EN b) = true → (s.ctx c).job = true → (s.ctx c).stage ≠ .undefined → (s.ctx c).td = none →
      b.val ∉ s.starter.overrun → s.fld (Reg.START_BLIMIT_LIMIT b) < mget (fun _ => 0) s.starter.charge b.val →
      let a := s.fld (Reg.START_BCFG_ACTION b)
      Does ([Reg.INC_CNT 11, Reg.START_BSTAT b, Reg.START_BCNT b] ++ (List.range 8).map (Reg.INC_REC 11)) [.starter, .ctxs]
        (exec (.budgetOverrun b) s) s fun t => b.val ∈ t.starter.overrun ∧ t.fld (Reg.START_BSTAT_OVERRUN b) = 1 ∧
          t.fld (Reg.START_BCNT_OVERRUNS b) = satAdd 16 (s.fld (Reg.START_BCNT_OVERRUNS b)) 1 ∧
          t.reg (Reg.INC_REC 11 7) = BitVec.ofNat 64 (256 * a + b) ∧ CtxsKept c s t ∧
          t.ctx c = (if a = 1 then { s.ctx c with demoted := true } else if a = 2 then
            { s.ctx c with td := some .fault, fault := some (starterFault s c 0x0C (BitVec.ofNat 64 b)) } else s.ctx c))

/-! ### Tallies, barriers, watches and Receipts (11) -/

/-- R267, R268, R273 to R275: an add raises COUNT and EVENTS of a Tally that nothing follows, COUNT holding at 2^32 - 1; a
subtract lowers COUNT, holding at 0; both leave a FORFEIT Tally as it is. READ, RECLAIM and the commands of the virtual map
act on the caller's selection. -/
def Obligations.TallyCommandsAct : Prop :=
  ∀ (s : State) (r : Requester), s.holds r 2 = true → s.holds r 3 = true →
    (∀ (i : TallyId) (v : W32), let x := s.tallyOf i
      (x.state = .forfeit → exec (.tallyPortAdd r i v) s = .next s ∧ exec (.tallyPortSubtract r i v) s = .next s) ∧
      (x.state ≠ .forfeit → QuietTally s i → Does [Reg.TALLY_STAT] [.tally] (exec (.tallyPortAdd r i v) s) s fun t =>
        t.tallyOf i = { x with count := BitVec.ofNat 32 (Nat.min (x.count.toNat + v.toNat) (2 ^ 32 - 1))
                               events := x.events + v.setWidth 64 } ∧
          (2 ^ 32 ≤ x.count.toNat + v.toNat → t.fld Reg.TALLY_STAT_SAT = 1) ∧
          ∀ j, j ≠ i.val → t.tallyOf j = s.tallyOf j) ∧
      (x.state ≠ .forfeit → Does [Reg.TALLY_STAT] [.tally] (exec (.tallyPortSubtract r i v) s) s fun t =>
        t.tallyOf i = { x with count := BitVec.ofNat 32 (x.count.toNat - v.toNat) } ∧
          (x.count.toNat < v.toNat → t.fld Reg.TALLY_STAT_CLAMP = 1) ∧ ∀ j, j ≠ i.val → t.tallyOf j = s.tallyOf j)) ∧
    (let i := s.fld (Fld.of Reg.TALLY_SEL_INDEX r)
     let x := s.tallyOf i
     let regs := [stg r Reg.TALLY_INFO]
     (∀ c, x.owner = some c → c < 256) →
     Does (stg r Reg.TALLY_COUNT :: stg r Reg.TALLY_EVENTS :: regs) [] (exec (.tallyRead r) s) s (fun t =>
        t.reg (stg r Reg.TALLY_COUNT) = x.count.setWidth 64 ∧ t.reg (stg r Reg.TALLY_EVENTS) = x.events) ∧
     (s.tallyNamed i = true → Does regs [] (exec (.reclaim r) s) s fun t => t.fld (Fld.of Reg.TALLY_INFO_ERR r) = 2) ∧
     (s.tallyNamed i = false → x.state ≠ .forfeit → Does regs [] (exec (.reclaim r) s) s fun t =>
        t.fld (Fld.of Reg.TALLY_INFO_ERR r) = 3) ∧
     (s.tallyNamed i = false → x.state = .forfeit → Does regs [.tally] (exec (.reclaim r) s) s fun t =>
        t.tallyOf i = { x with state := .idle, owner := none, count := 0 })) ∧
    (let c := s.fld (Fld.of Reg.TMAP_SEL_CONTEXT r)
     let v := s.fld (Fld.of Reg.TMAP_SEL_VID r)
     let e := s.mapEnt c v
     let regs := [stg r Reg.TMAP_INFO]
     let i := s.fld (Fld.of Reg.TMAP_CFG_TARGET r)
     let own := s.fld (Fld.of Reg.TMAP_CFG_OWN r)
     s.tally.tmap.length ≤ 65536 →
     ((s.ctx c).stage ≠ .undefined → e = none → s.fld (Fld.of Reg.TMAP_CFG_KIND r) = 1 →
        (s.tallyOf i).state = .idle → s.tally.tmap.length < 65536 →
        Does regs [.tally] (exec (.tmapSet r) s) s fun t => t.mapEnt c v = some (.tally i (own == 1)) ∧
          (own = 1 → (t.tallyOf i).state = .owned ∧ (t.tallyOf i).owner = some c) ∧
          t.fld (Fld.of Reg.TMAP_INFO_ERR r) = 0) ∧
     ((s.ctx c).stage ≠ .undefined → e ≠ none → s.fld (Fld.of Reg.TMAP_CFG_KIND r) = 1 →
        Does regs [] (exec (.tmapSet r) s) s fun t => t.fld (Fld.of Reg.TMAP_INFO_ERR r) = 3) ∧
     (∀ x, (s.ctx c).stage ≠ .undefined → e = some x → Does regs [.tally] (exec (.tmapClear r) s) s fun t =>
        t.mapEnt c v = none ∧ (∀ j, x = .tally j true → (t.tallyOf j).state = .idle) ∧
          t.fld (Fld.of Reg.TMAP_INFO_ERR r) = 0) ∧
     ((s.ctx c).stage ≠ .undefined → e = none → Does regs [] (exec (.tmapClear r) s) s fun t =>
        t.fld (Fld.of Reg.TMAP_INFO_ERR r) = 8) ∧
     Does (stg r Reg.TMAP_CFG :: regs) [] (exec (.tmapRead r) s) s fun t =>
        (e = none → t.reg (stg r Reg.TMAP_CFG) = 0) ∧
        (∀ b slot, e = some (.barrier b slot) → b < 256 → slot < 64 →
          t.fld (Fld.of Reg.TMAP_CFG_KIND r) = 2 ∧ t.fld (Fld.of Reg.TMAP_CFG_TARGET r) = b ∧
            t.fld (Fld.of Reg.TMAP_CFG_SLOT r) = slot))

/-- R276 to R280: the commands of a barrier that no context waits on: defining, undefining, re-arming, setting members,
arriving and reading. A mask barrier completes its phase when every member has arrived, a sense barrier at its count;
completing clears the arrivals and raises PHASE. -/
def Obligations.BarrierCommandsAct : Prop :=
  ∀ (s : State) (r : Requester), s.holds r 3 = true →
    let b := s.fld (Fld.of Reg.BAR_SEL_BARRIER r)
    let v := s.barOf b
    let m := s.reg (stg r Reg.BAR_MEMBERS)
    let n := s.fld (Fld.of Reg.BAR_CFG_N r)
    let kind := s.fld (Fld.of Reg.BAR_CFG_KIND r)
    (∀ c ph pd sd dl, (s.ctx c).wait ≠ some (.bar b ph pd sd dl)) →
    let gives (c : Instr) (w : Barrier) : Prop := Does [stg r Reg.BAR_INFO] [.tally] (exec c s) s fun t =>
      t.barOf b = w ∧ (∀ j, j ≠ b → t.barOf j = s.barOf j) ∧ t.fld (Fld.of Reg.BAR_INFO_ERR r) = 0
    let fails (c : Instr) (err : Nat) : Prop := Does [stg r Reg.BAR_INFO] [] (exec c s) s fun t =>
      t.fld (Fld.of Reg.BAR_INFO_ERR r) = err
    (v.kind = none →
      (kind = 1 → m ≠ 0 → gives (.barDefine r) { kind := some .mask, members := m, phase := v.phase }) ∧
      (kind = 2 → n ≠ 0 → gives (.barDefine r) { kind := some .sense, n := n, phase := v.phase }) ∧
      (kind = 0 ∨ kind = 3 → fails (.barDefine r) 1) ∧ fails (.barUndefine r) 3 ∧ fails (.rearm r) 3 ∧
      fails (.setMembers r) 3 ∧ ∀ slot, fails (.arrive r slot) 3) ∧
    (v.kind ≠ none →
      (kind = 1 → m ≠ 0 → fails (.barDefine r) 4) ∧
      (s.barNamed b = true → fails (.barUndefine r) 2) ∧
      (s.barNamed b = false → gives (.barUndefine r) { phase := v.phase }) ∧
      gives (.rearm r) { v with arrived := 0, arrivals := 0, broken := false } ∧
      (v.broken = true → ∀ slot, fails (.arrive r slot) 5)) ∧
    (v.kind = some .mask → v.broken = false →
      (m ≠ 0 → gives (.setMembers r) (if m &&& ~~~ v.arrived = 0
        then { v with members := m, arrived := 0, arrivals := 0, phase := v.phase + 1 } else { v with members := m })) ∧
      (m = 0 → fails (.setMembers r) 1) ∧
      ∀ slot : Fin 64, let a := v.arrived ||| BitVec.ofNat 64 (2 ^ slot.val)
        gives (.arrive r slot)
          (if v.members.getLsbD slot = false ∨ v.arrived.getLsbD slot = true then v
            else if v.members &&& ~~~ a = 0 then { v with arrived := 0, arrivals := 0, phase := v.phase + 1 }
            else { v with arrived := a })) ∧
    (v.kind = some .sense → v.broken = false → fails (.setMembers r) 1 ∧ ∀ slot, gives (.arrive r slot)
      (if v.n ≤ v.arrivals + 1 then { v with arrived := 0, arrivals := 0, phase := v.phase + 1 }
        else { v with arrivals := v.arrivals + 1 })) ∧
    Does [stg r Reg.BAR_INFO, stg r Reg.BAR_PHASE, stg r Reg.BAR_ARRIVED] [] (exec (.barRead r) s) s fun t =>
      t.reg (stg r Reg.BAR_PHASE) = v.phase ∧ t.reg (stg r Reg.BAR_ARRIVED) = v.arrived

/-- R281 to R283, R287, R290: a watch below its threshold is set up without a HIT; a Receipt window is registered, is ready
when its spans are zeroed, refuses with ERR, and is unregistered; a read of an alias collects a POSTED Receipt. -/
def Obligations.WindowsAndWatches : Prop :=
  ∀ (s : State) (r : Requester) (w : Fin 16) (v : W32), s.holds r 2 = true →
    (let x := s.tallyOf (v.toNat % 2 ^ 14)
     (v.getLsbD 31 = false ∨ x.count.toNat < s.fld (Reg.WATCH_THRESH_THRESH w) →
      Does [Reg.WATCH_CFG w] [] (exec (.watchEnable r w v) s) s fun t =>
        t.flag (Reg.WATCH_CFG_EN w) = v.getLsbD 31 ∧ t.fld (Reg.WATCH_CFG_INDEX w) = v.toNat % 2 ^ 14) ∧
     (v.getLsbD 31 = true → s.fld (Reg.WATCH_THRESH_THRESH w) ≤ x.count.toNat → s.boot.strapEp = false →
      Does [Reg.WATCH_CFG w, Reg.WATCH_STAT w] [] (exec (.watchEnable r w v) s) s fun t =>
        t.fld (Reg.WATCH_STAT_HIT w) = 1)) ∧
    (let p := v.toNat / 2 ^ 16 % 2 ^ 7
     let b := s.fld (Reg.RWIN_BASE_PAGE w)
     let fits := 1 ≤ p ∧ p ≤ 64 ∧ s.windowOk b (3 * p) = true ∧ s.windowHit w b (3 * p) = false
     v.getLsbD 31 = true → s.flag (Reg.RWIN_CFG_EN w) = false →
      Does [Reg.RWIN_CFG w] [] (exec (.rwinRegister r w v) s) s fun t =>
        (t.flag (Reg.RWIN_CFG_EN w) = true ↔ fits) ∧ (fits → t.flag (Reg.RWIN_CFG_BUSY w) = true) ∧
          (¬ fits → t.flag (Reg.RWIN_CFG_ERR w) = true)) ∧
    (s.flag (Reg.RWIN_CFG_BUSY w) = true →
      Does [Reg.RWIN_CFG w] [.mem] (exec (.rwinRegisterComplete w) s) s fun t =>
        let b := 65536 * s.fld (Reg.RWIN_BASE_PAGE w)
        let n := 65536 * (2 * s.fld (Reg.RWIN_CFG_PAGES w))
        t.flag (Reg.RWIN_CFG_BUSY w) = false ∧ ∀ a, t.byteAt a = if b ≤ a ∧ a < b + n then 0 else s.byteAt a) ∧
    (v.getLsbD 31 = false → s.flag (Reg.RWIN_CFG_EN w) = true → (∀ c pa sq pd sd dl, (s.ctx c).wait ≠ some (.rcpt pa sq pd sd dl)) →
      Does [Reg.RWIN_CFG w] [.mem, .tally] (exec (.rwinUnregister r w v) s) s fun t =>
        t.flag (Reg.RWIN_CFG_EN w) = false ∧ t.flag (Reg.RWIN_CFG_BUSY w) = false) ∧
    (∀ (pa : BitVec 44) (k off : Nat), s.holds r 0 = true → s.winAt pa.toNat = some (k, 2, off) → pa.toNat % 8 = 0 →
      off % 8 = 0 →
      let a := 65536 * s.fld (Reg.RWIN_BASE_PAGE k) + off
      let x := s.natAt a 8
      Does [] [.mem, .reply, .teller] (exec (.collect r pa) s) s fun t =>
        t.reply.status = .ok ∧ t.reply.value = BitVec.ofNat 64 x ∧
          (x / 2 ^ 62 % 4 = 1 → t.natAt a 8 = 2 ^ 63 + x % 2 ^ 62) ∧ (x / 2 ^ 62 % 4 ≠ 1 → MemKept s t) ∧
          MemKeptOutside a 8 s t)

/-! ### Pacers (12) -/

/-- R296, R297: the arithmetic instructions of a Pacer that write XD: exact results held to the Q32 range, rounded to nearest
with ties to even where the result is no Q32 value, with SAT where the range was left; wsub wraps; a division by zero gives
the largest value of the dividend's sign. -/
def Obligations.PacerArithmetic : Prop :=
  ∀ (s : State) (n : Fin 16) (c pc : Nat) (i : PIns), PacerAt s n i.op c pc i →
    let a := s.px n c i.xa
    let b := s.px n c i.xb
    let w (z : Int) (t : State) : Prop := PacerWroteX n c pc i.xd (BitVec.ofInt 32 (held 32 z)) (held 32 z ≠ z) s t
    let does (op : Nat) (k : Instr) (p : State → Prop) : Prop := i.op = op → Does [Reg.PCH_STAT n c] [.island] (exec k s) s p
    let near (v : Int) (d : Nat) (t : State) : Prop := ∃ z, Nearest z v d ∧ w z t
    let sh := sext 6 i.imm
    does 0x04 (.pacerLdi n) (w (2 ^ 18 * sext 14 i.imm)) ∧ does 0x06 (.pacerMov n) (w a) ∧
    does 0x08 (.pacerAdd n) (w (a + b)) ∧ does 0x09 (.pacerSub n) (w (a - b)) ∧
    does 0x0A (.pacerWsub n) (PacerWroteX n c pc i.xd (BitVec.ofInt 32 (a - b)) False s) ∧
    does 0x0B (.pacerNeg n) (w (-a)) ∧ does 0x0C (.pacerAbs n) (w a.natAbs) ∧
    does 0x0D (.pacerMin n) (w (if a ≤ b then a else b)) ∧ does 0x0E (.pacerMax n) (w (if a ≤ b then b else a)) ∧
    does 0x0F (.pacerMul n) (near (a * b) (2 ^ 31)) ∧
    (0 ≤ sh → does 0x10 (.pacerShift n) (w (a * 2 ^ sh.toNat))) ∧
    (sh < 0 → does 0x10 (.pacerShift n) (near a (2 ^ (-sh).toNat))) ∧
    (let d := s.px n c i.xd
     let lo := if d < a then a else d
     does 0x11 (.pacerClamp n) (w (if b < lo then b else lo))) ∧
    (0 < b → does 0x20 (.pacerDiv n) (near (2 ^ 31 * a) b.toNat)) ∧
    (b < 0 → does 0x20 (.pacerDiv n) (near (-(2 ^ 31 * a)) (-b).toNat)) ∧
    (b = 0 → does 0x20 (.pacerDiv n) (PacerWroteX n c pc i.xd
      (if a = 0 then 0 else if 0 < a then 0x7FFFFFFF#32 else 0x80000000#32) True s)) ∧
    (0 ≤ a → does 0x21 (.pacerSqrt n) fun t => ∃ z : Int, 0 ≤ z ∧ (z = 0 ∨ (2 * z - 1) ^ 2 ≤ 4 * (2 ^ 31 * a)) ∧
      4 * (2 ^ 31 * a) ≤ (2 * z + 1) ^ 2 ∧ w z t) ∧
    does 0x22 (.pacerSincos n) fun t =>
      let u := (BitVec.ofInt 32 a).toNat
      let q (v : Int) (x : Int) : Prop := ∃ e : Int, -16 ≤ e ∧ e ≤ 16 ∧ x = held 32 (rneDiv v (2 ^ 33) + e)
      PacerWent n c (pc + 1) s t ∧ (∀ r, r ≠ i.xd → r ≠ i.xd + 1 → t.px n c r = s.px n c r) ∧
        q (sinTurn u) (t.px n c i.xd) ∧ q (cosTurn u) (t.px n c (i.xd + 1)) ∧
        t.chan n c = { s.chan n c with xs := (t.chan n c).xs }

/-- R296 to R301: the other instructions of a Pacer: loads and stores of data words, latched inputs, features and output
shadows; coefficients; the accumulator, held to 96 bits; hysteresis without a window; branches; flags; events; and the halt that
hands over to the next channel. -/
def Obligations.PacerProgramsRun : Prop :=
  ∀ (s : State) (n : Fin 16) (c pc : Nat) (i : PIns), PacerAt s n i.op c pc i →
    let x := s.chan n c
    let a := s.px n c i.xa
    let b := s.px n c i.xb
    let kb := (s.pacer n).kbank
    let does (op : Nat) (k : Instr) (ks : List Nat) (ps : List Part) (p : State → Prop) : Prop :=
      i.op = op → Does ks (.island :: ps) (exec k s) s p
    let went := PacerWent n c (pc + 1) s
    let loads (v : W32) : Prop := does 0x02 (.pacerLd n) [] [] (PacerWroteX n c pc i.xd v False s)
    let acc (op : Nat) (k : Instr) (z : Int) : Prop := does op k [Reg.PCH_STAT n c] [] fun t =>
      let h := Max.max (-(2 ^ 95 - 1)) (Min.min (2 ^ 95 - 1) z)
      went t ∧ t.chan n c = { x with acc := h } ∧ (h ≠ z → t.fld (Reg.PCH_STAT_SAT n c) = 1) ∧
        (h = z → t.reg (Reg.PCH_STAT n c) = s.reg (Reg.PCH_STAT n c))
    (i.imm < 0x400 → loads (s.pmem n (0x2000 + 0x400 * c + i.imm))) ∧
    (0x400 ≤ i.imm → i.imm < 0x440 → loads (mget (fun _ => 0) x.ins (i.imm - 0x400))) ∧
    (0x440 ≤ i.imm → i.imm < 0x448 → loads (x.mbx.getD (i.imm - 0x440) 0)) ∧
    (0x448 ≤ i.imm → i.imm < 0x44C → loads (mget (fun _ => 0) x.rxi (i.imm - 0x448))) ∧
    (i.imm = 0x44C → loads (x.instant.setWidth 32)) ∧ (i.imm = 0x44D → loads ((x.instant >>> 32).setWidth 32)) ∧
    (0x480 ≤ i.imm → i.imm < 0x4C0 → loads (mget (fun _ => 0) x.feat (i.imm - 0x480))) ∧
    (0x4C0 ≤ i.imm → i.imm < 0x4D0 → loads (mget (fun _ => 0) x.outs (i.imm - 0x4C0))) ∧
    (i.imm < 0x400 → does 0x03 (.pacerSt n) [] [] fun t => t.pmem n (0x2000 + 0x400 * c + i.imm) = BitVec.ofInt 32 a ∧
      (∀ m j, 16384 * m + j ≠ 16384 * n.val + (0x2000 + 0x400 * c + i.imm) → t.pmem m j = s.pmem m j) ∧
      t.pacer n = { s.pacer n with exec := some (c, pc + 1) } ∧ ∀ d, t.chan n d = s.chan n d) ∧
    (0x480 ≤ i.imm → i.imm < 0x4C0 → does 0x03 (.pacerSt n) [] [] fun t => went t ∧
      ∀ j, mget (fun _ => 0) (t.chan n c).feat j = if j = i.imm - 0x480 then BitVec.ofInt 32 a else mget (fun _ => 0) x.feat j) ∧
    (0x4C0 ≤ i.imm → i.imm < 0x4D0 → does 0x03 (.pacerSt n) [] [] fun t => went t ∧
      ∀ j, mget (fun _ => 0) (t.chan n c).outs j = if j = i.imm - 0x4C0 then BitVec.ofInt 32 a else mget (fun _ => 0) x.outs j) ∧
    does 0x05 (.pacerLdk n) [] [] (PacerWroteX n c pc i.xd (s.kContent n kb i.imm) False s) ∧
    does 0x18 (.pacerAclr n) [] [] (fun t => went t ∧ t.chan n c = { x with acc := 0 }) ∧
    acc 0x19 (.pacerAld n) (2 ^ 47 * a) ∧
    (let p : Int := a * (s.kContent n kb i.imm).toInt * 2 ^ (s.kShift n kb i.imm + 16).toNat
     acc 0x1A (.pacerMac n) (x.acc + p) ∧ acc 0x1B (.pacerMsu n) (x.acc - p)) ∧
    acc 0x1C (.pacerMacx n) (x.acc + 2 ^ 16 * (a * b)) ∧
    does 0x1D (.pacerAst n) [Reg.PCH_STAT n c] [] (fun t => ∃ z, Nearest z x.acc (2 ^ (47 - sext 5 i.imm).toNat) ∧
      PacerWroteX n c pc i.xd (BitVec.ofInt 32 (held 32 z)) (held 32 z ≠ z) s t) ∧
    (let u := i.imm % 4
     let band := Max.max 0 (s.pCfg n c (0x60 + 2 * u)).toInt
     let cfg := (s.pCfg n c (0x60 + 2 * u + 1)).toNat
     let h := mget (fun _ => {}) x.hyst u
     let turns : Prop := h.d = 0 ∧ ((h.s = false ∧ band < a) ∨ (h.s = true ∧ a < -band))
     cfg / 256 = 0 → does 0x28 (.pacerHyst n) [Reg.PCH_STAT n c] [] fun t => went t ∧
       let g := mget (fun _ => {}) (t.chan n c).hyst u
       (turns → g = { h with s := !h.s, d := cfg % 256, n := h.n + 1 }) ∧ (¬ turns → g = { h with d := h.d - 1 }) ∧
         t.px n c i.xd = (if g.s then 2 ^ 31 - 1 else -2 ^ 31) ∧ ∀ r, r ≠ i.xd → t.px n c r = s.px n c r) ∧
    does 0x30 (.pacerBr n) [] [] (fun t =>
      let taken : Prop := match i.xd with
        | 0 => True
        | 1 => a < 0
        | 2 => 0 ≤ a
        | 3 => a = 0
        | 4 => a ≠ 0
        | 5 => x.mbxNew = true
        | 6 => x.rxOk = true
        | 7 => x.stale ≠ []
        | 8 => s.flag Reg.ISLAND_STAT_HOLD = true
        | _ => s.chForced n c = true
      (taken → PacerWent n c (pc + i.imm) s t) ∧ (¬ taken → went t) ∧ t.chan n c = x) ∧
    (let f := s.fld (Reg.PCH_STAT_FLAGS n c)
     does 0x38 (.pacerSetf n) [Reg.PCH_STAT n c] [] fun t => went t ∧ t.chan n c = x ∧
       ∀ k, k < 8 → (t.fld (Reg.PCH_STAT_FLAGS n c)).testBit k = if i.imm.testBit k then i.imm.testBit 8 else f.testBit k) ∧
    (s.flag (Reg.PCH_CFG_EVT_EN n c) = false → does 0x39 (.pacerEvt n) [] [] fun t => went t ∧ t.chan n c = x) ∧
    (let k := s.fld (Reg.PCH_CFG_EVT_TALLY n c)
     s.flag (Reg.PCH_CFG_EVT_EN n c) = true → QuietTally s k → (s.tallyOf k).state ≠ .forfeit →
       (s.tallyOf k).count.toNat < 2 ^ 32 - 1 → does 0x39 (.pacerEvt n) [] [.tally] fun t => went t ∧ t.chan n c = x ∧
         t.tallyOf k = { s.tallyOf k with count := (s.tallyOf k).count + 1, events := (s.tallyOf k).events + 1 }) ∧
    does 0x01 (.pacerNop n) [] [] (fun t => went t ∧ t.chan n c = x) ∧
    does 0x00 (.pacerHalt n) [] [] fun t =>
      t.chan n c = { x with ran := true, snap := (t.chan n c).snap } ∧
      (∀ j, j < 16 → mget (fun _ => 0) (t.chan n c).snap (0xA0 + j) = mget (fun _ => 0) x.xs j) ∧
      (∀ m d, 4 * m + d ≠ 4 * n.val + c → t.chan m d = s.chan m d) ∧
      t.pacer n = { s.pacer n with exec := (t.pacer n).exec } ∧
      ((∀ d, c < d → d < 4 → bitAt (s.pacer n).chEn d = false) → (t.pacer n).exec = none) ∧
      ∀ d, c < d → d < 4 → bitAt (s.pacer n).chEn d = true → (∀ e, c < e → e < d → bitAt (s.pacer n).chEn e = false) →
        (t.pacer n).exec = some (d, s.pEntry n d (s.pacer n).pbank)

/-! ### The island's commands and its inputs (12) -/

/-- R293 to R295, R308 to R310, R312: an arm, stop or switch of a Pacer; its first sample instant latches the inputs and is
counted; execution starts with the first channel; memory errors; commits of a mailbox. -/
def Obligations.PacerCommandsAct : Prop :=
  ∀ (s : State) (r : Requester) (n : Fin 16) (v : W32), s.holds r 4 = true → s.island.reset = false → s.present 5 = true →
    let p := s.pacer n
    let ch := v.toNat / 2 ^ 24 % 16
    let pb := v.toNat / 2 ^ 16 % 2
    let kb := v.toNat / 2 ^ 17 % 2
    let two := [Reg.PACER_CTL n, Reg.PACER_STAT n]
    let pins := (List.range 12).map Reg.PWM_BR_STAT
    let runs := s.pacerRuns n
    let on := v.getLsbD 31
    let shown (t : State) (a b c : Nat) : Prop :=
      t.fld (Reg.PACER_CTL_CH_EN n) = a ∧ t.fld (Reg.PACER_CTL_PBANK n) = b ∧ t.fld (Reg.PACER_CTL_KBANK n) = c
    (on = true → runs = false → s.pacerCheck n ch pb kb = none →
      Does (two ++ pins) [.island] (exec (.pacerArm r n v) s) s fun t => t.pacerRuns n = true ∧ t.flag (Reg.PACER_CTL_EN n) = true ∧
        t.fld (Reg.PACER_STAT_ERR n) = 0 ∧ shown t ch pb kb ∧ (t.pacer n).chEn = ch ∧ (t.pacer n).pbank = pb ∧
        (t.pacer n).kbank = kb ∧ (t.pacer n).last = none ∧ (t.pacer n).exec = none ∧
        (reached (s.laneVal (s.pLane n)) (s.reg (Reg.PACER_FIRST n)) = false → (t.pacer n).next = s.reg (Reg.PACER_FIRST n)) ∧
        (∀ c, c < 4 → bitAt ch c = true → (t.chan n c).acc = 0 ∧ (t.chan n c).hyst = [] ∧ ∀ x, t.px n c x = 0) ∧
        ∀ m, m ≠ n.val → t.pacer m = s.pacer m) ∧
    (∀ e pc, on = true → runs = false → s.pacerCheck n ch pb kb = some (e, pc) → e < 256 → pc < 2048 →
      Does two [] (exec (.pacerArm r n v) s) s fun t => t.pacerRuns n = false ∧
        t.flag (Reg.PACER_CTL_EN n) = s.flag (Reg.PACER_CTL_EN n) ∧ t.fld (Reg.PACER_STAT_ERR n) = e ∧
        t.fld (Reg.PACER_STAT_ERR_PC n) = pc ∧ shown t (p.chEn % 16) (p.pbank % 2) (p.kbank % 2)) ∧
    (on = false → runs = true → Does [Reg.PACER_CTL n] [.island] (exec (.pacerStop r n v) s) s fun t =>
      t.flag (Reg.PACER_CTL_EN n) = false ∧ t.pacer n = { p with stopping := true } ∧ shown t ch pb kb ∧ t.pacerRuns n = true) ∧
    (on = true → runs = true → p.stopping = false → (ch, pb, kb) ≠ (p.chEn, p.pbank, p.kbank) →
      s.flag Reg.ISLAND_STAT_HOLD = false → s.pacerCheck n ch pb kb = none →
      Does two [.island] (exec (.pacerSwitch r n v) s) s fun t => t.pacer n = { p with change := some (ch, pb, kb) } ∧ shown t ch pb kb ∧
        t.fld (Reg.PACER_STAT_ERR n) = 0 ∧ ∀ m d, t.chan m d = s.chan m d) ∧
    (on = true → runs = true → p.stopping = false → (ch, pb, kb) ≠ (p.chEn, p.pbank, p.kbank) →
      s.flag Reg.ISLAND_STAT_HOLD = true → Does two [] (exec (.pacerSwitch r n v) s) s fun t =>
        t.fld (Reg.PACER_STAT_ERR n) = 0xC ∧ shown t (p.chEn % 16) (p.pbank % 2) (p.kbank % 2)) ∧
    (runs = true → s.srcHeld n = false → reached (s.laneVal (s.pLane n)) p.next = true → p.last = none → p.sampled = false →
      p.exec = none → p.stopping = false → p.change = none → (∀ c, c < 4 → (s.chan n c).ran = false) →
      Does ([Reg.PACER_CNT n, Reg.PACER_PERIODS n] ++ (List.range 4).map (Reg.PCH_STAT n)) [.island]
        (exec (.pacerSampleInstant n []) s) s fun t =>
        t.reg (Reg.PACER_PERIODS n) = s.reg (Reg.PACER_PERIODS n) + 1 ∧ (t.pacer n).sampled = true ∧
        (t.pacer n).last = some s.uptime ∧
        (t.pacer n).next = (catchUp (s.laneVal (s.pLane n)) p.next p.acc (s.pStep n) (s.pDiv n)).1 ∧
        (∀ c, c < 4 → bitAt p.chEn c = true → (t.chan n c).instant = p.next ∧ (t.chan n c).xs = (s.chan n c).xs ∧
          (t.chan n c).acc = (s.chan n c).acc) ∧
        ∀ c j, c < 4 → bitAt p.chEn c = true → j < 64 → State.mapEn (s.inMap n c j) = true → State.mapKind (s.inMap n c j) = 2 →
          mget (fun _ => 0) (t.chan n c).ins j = (s.enc (State.mapIdx (s.inMap n c j))).pos) ∧
    (p.sampled = true → Does [] [.island] (exec (.pacerExecutionStart n) s) s fun t => (t.pacer n).sampled = false ∧
      (∀ c, c < 4 → bitAt p.chEn c = true → (∀ d, d < c → bitAt p.chEn d = false) →
        (t.pacer n).exec = some (c, s.pEntry n c p.pbank)) ∧ ∀ m d, t.chan m d = s.chan m d) ∧
    (Does [Reg.PACER_CNT n] [] (exec (.pacerEccError n false) s) s fun t =>
      t.fld (Reg.PACER_CNT_CE_COUNT n) = satAdd 16 (s.fld (Reg.PACER_CNT_CE_COUNT n)) 1) ∧
    (Does (two ++ pins) [.island] (exec (.pacerEccError n true) s) s fun t => t.fld (Reg.PACER_STAT_UE n) = 1 ∧
      t.pacerRuns n = false ∧ t.flag (Reg.PACER_CTL_EN n) = false ∧ (t.pacer n).exec = none) ∧
    (∀ c : Fin 4, let src := s.fld (Reg.PCH_MBX_CFG_SRC n c)
      v.getLsbD 0 = true →
      (src ≠ 1 → src ≠ 2 → s.flag Reg.ISLAND_STAT_HOLD = false →
        Does [Reg.PCH_MBX_SEQ n c] [.island] (exec (.mailboxCommit r n c v) s) s fun t =>
          t.fld (Reg.PCH_MBX_SEQ_SEQ n c) = (s.fld (Reg.PCH_MBX_SEQ_SEQ n c) + 1) % 2 ^ 32 ∧
          t.chan n c = { s.chan n c with commits := { time := s.uptime.toNat, seq := BitVec.ofNat 32 (t.fld (Reg.PCH_MBX_SEQ_SEQ n c))
                                                      words := (List.range 8).map fun j =>
                                                        (s.reg (stg r (Reg.PCH_MBX_DATA n c j))).setWidth 32 } :: (s.chan n c).commits }) ∧
      (src = 1 ∨ src = 2 ∨ s.flag Reg.ISLAND_STAT_HOLD = true →
        Does [Reg.PCH_STAT n c] [] (exec (.mailboxCommit r n c v) s) s fun t => t.fld (Reg.PCH_STAT_MBX_REJ n c) = 1)) ∧
    (∀ (c : Fin 4), let w := s.fld (Reg.PCH_MBX_CFG_WIN n c)
      let pa := s.rcptAddr w (s.fld (Reg.PCH_MBX_CFG_RCPT n c))
      let src := s.fld (Reg.PCH_FEED_ADDR_ADDR n c) * 32
      s.boot.computeReset = false → s.fld (Reg.PCH_MBX_CFG_SRC n c) = 1 → s.rcptWin pa = some w → s.isVdHome (src / 65536) = true →
      s.poisonedAt src = false → s.movingAt src = false → s.overMode w = false → rcptState (s.rcptWord pa) = 1 →
      s.flag Reg.ISLAND_STAT_HOLD = false →
      Does [Reg.PCH_MBX_SEQ n c] [.island, .mem, .teller] (exec (.mailboxFeed n c) s) s fun t =>
        (∃ q rest, (t.chan n c).commits = q :: rest ∧ rest = (s.chan n c).commits ∧ q.time = s.uptime.toNat ∧
          q.words = (List.range 8).map fun j => BitVec.ofNat 32 (s.natAt (src + 4 * j) 4)) ∧
        rcptState (t.rcptWord pa) = 2 ∧ MemKeptOutside pa 8 s t)

/-- R291, R302 to R306, R310, R446: ISL_REL ends the reset of an island that is present; out of reset, a drive current beyond its
limits trips its bridge, whose outputs go to their off level; clocks that stop are shown; encoder counts, words and faults;
carriers; HOLD and RUN; the island clears its memory. -/
def Obligations.IslandInputsAct : Prop :=
  (∀ (s : State), s.island.reset = false →
     (∀ (k : Fin 48) (v : W16), Does [Reg.SD_STAT k] [] (exec (.sdNoClock k) s) s (fun t => t.fld (Reg.SD_STAT_NO_CLOCK k) = 1) ∧
       (let b := s.fld (Reg.SD_CFG_TRIP_BR k)
        s.flag (Reg.SD_CFG_EN k) = true → s.flag (Reg.SD_CFG_TRIP_EN k) = true → b < 12 →
        sext 16 (s.fld (Reg.SD_TRIP_HI k)) < v.toInt ∨ v.toInt < sext 16 (s.fld (Reg.SD_TRIP_LO k)) →
        Does [Reg.SD_STAT k, Reg.PWM_BR_STAT b] [.island] (exec (.sdTrip k v) s) s fun t =>
          t.fld (Reg.SD_STAT_TRIPPED k) = 1 ∧ t.fld (Reg.PWM_BR_STAT_TRIP b) = 1 ∧
          (∀ o, o < 6 → bitAt (t.bridge b).level o = bitAt (s.fld (Reg.PWM_BR_CFG_POL b)) o) ∧
          ∀ c, c ≠ b → t.bridge c = s.bridge c)) ∧
     (∀ (e : Fin 12), let mode := s.fld (Reg.ENC_CFG_MODE e)
       let x := s.enc e
       let lines := s.fld (Reg.ENC_CFG_LINES e)
       let only (c : Instr) (ks : List Nat) (p : Encoder → State → Prop) : Prop := Does ks [.island] (exec c s) s fun t =>
         p (t.enc e) t ∧ ∀ g, g ≠ e.val → t.enc g = s.enc g
       (mode = 1 → lines ≠ 0 → ∀ back, only (.encoderCount e (.count back)) [] fun y _ =>
         y.count = x.count + (if back then -1 else 1) ∧ y.turns = y.count / (4 * lines) ∧
           y.pos.toNat = 2 ^ 32 * (y.count % (4 * lines)).toNat / (4 * lines)) ∧
       (mode = 1 → only (.encoderCount e .illegal) [Reg.ENC_STAT e] fun y t =>
         y = { x with faults := x.faults + 1 } ∧ t.fld (Reg.ENC_STAT_ILLEGAL e) = 1) ∧
       (mode = 2 → only (.ssiTransferStart e) [] fun y _ => y = { x with busy := true }) ∧
       (mode = 2 → x.busy = true → x.run + 1 < 8 → only (.ssiWordComplete e none) [Reg.ENC_STAT e] fun y t =>
         y = { x with busy := false, faults := x.faults + 1, run := x.run + 1 } ∧ t.fld (Reg.ENC_STAT_SSI_TMO e) = 1) ∧
       (mode = 2 → x.busy = true → x.seen = false → s.flag (Reg.ENC_CFG_GRAY e) = false → ∀ w : W32,
         only (.ssiWordComplete e (some w)) [Reg.ENC_STAT e] fun y t =>
           let b := if s.fld (Reg.ENC_CFG_BITS e) = 0 then 32 else s.fld (Reg.ENC_CFG_BITS e)
           y.word = ((w.toNat % 2 ^ b : Nat) : Int) ∧ y.turns = 0 ∧ y.pos = BitVec.ofNat 32 (w.toNat % 2 ^ b * 2 ^ (32 - b)) ∧
             y.busy = false ∧ y.seen = true ∧ y.run = 0 ∧ t.fld (Reg.ENC_STAT_LOST e) = 0)) ∧
     (∀ (b : Fin 12), let br := s.bridge b
       s.flag (Reg.PWM_BR_CFG_EN b) = true → s.flag (Reg.PWM_BR_CFG_EDGE b) = false →
       let cmd (t : State) (n : Nat) : Prop := ∀ p, p < 3 → bitAt (t.bridge b).cmd p = decide (n < State.brCmp (t.bridge b) p)
       let only (c : Instr) (p : State → Prop) : Prop := Does [Reg.PWM_BR_STAT b] [.island] (exec c s) s fun t =>
         p t ∧ ∀ g, g ≠ b.val → t.bridge g = s.bridge g
       only (.carrierZero b false) (fun t => (t.bridge b).counter = 0 ∧ (t.bridge b).up = true ∧ cmd t 0 ∧
         (s.fld (Reg.PWM_BR_CFG_LOAD b) = 1 ∨ s.fld (Reg.PWM_BR_CFG_LOAD b) = 2 → ∀ p w, p < 3 → mget (fun _ => none) br.pend p = some w →
           State.brCmp (t.bridge b) p = w)) ∧
       only (.carrierZero b true) (fun t => (t.bridge b).counter = s.brHalf b ∧ (t.bridge b).up = false ∧ cmd t (s.brHalf b)) ∧
       ∀ p : Fin 3, br.up = true → only (.pwmCompareMatch b p) fun t => (t.bridge b).counter = State.brCmp br p ∧
         bitAt (t.bridge b).cmd p = false ∧ cmd t (State.brCmp br p)) ∧
     (∀ (r : Requester), s.present 5 = true →
       (s.holds r 4 = true → s.islandHold = false → Does [Reg.ISLAND_STAT, Reg.ISLAND_CTL] [] (exec (.islandHold r) s) s fun t =>
         t.islandHold = true ∧ t.fld Reg.ISLAND_STAT_HOLD_CAUSE = 0 ∧ t.fld Reg.ISLAND_CTL_HOLD = 1) ∧
       (s.holds r 4 = true →
         let may := s.boot.computeReset = false ∧ s.flag Reg.ISLAND_STAT_FALLBACK = false ∧ State.hwPath r = true ∧ s.holds r 6 = true
         (may → Does [Reg.ISLAND_STAT, Reg.ISLAND_CTL] [] (exec (.islandRun r) s) s fun t => t.islandHold = false ∧
           t.fld Reg.ISLAND_STAT_HOLD_CAUSE = 0 ∧ t.fld Reg.ISLAND_CTL_HOLD = 0) ∧
         (¬ may → Does [Reg.ISLAND_STAT] [] (exec (.islandRun r) s) s fun t => t.islandHold = s.islandHold ∧
           t.fld Reg.ISLAND_STAT_RUN_REFUSED = 1))) ∧
     (s.flag Reg.ISLAND_STAT_INIT_BUSY = true → Does [Reg.ISLAND_STAT] [.island] (exec .islandInitComplete s) s fun t =>
       t.flag Reg.ISLAND_STAT_INIT_BUSY = false ∧ (∀ n w, t.pmem n w = 0) ∧ t.island = { s.island with mem := [] }) ∧
     (∀ up, Does [] [.island] (exec (.vioDriveChange up) s) s fun t => t.island = { s.island with vioDrive := up })) ∧
  (∀ (s : State), s.island.reset = true → s.present 5 = true →
     Does (Reg.ISLAND_STAT :: (List.range 12).map Reg.PWM_BR_STAT) [.island, .boot] (exec .islandResetRelease s) s fun t =>
       t.island.reset = false ∧ t.boot.islRel = true ∧ t.island.mem = s.island.mem ∧ ∀ n, t.pacer n = s.pacer n)

/-! ### The Fusion unit (13) -/

/-- R316 to R319, R321, R336: an admission takes the first free stream and the first free frame, or refuses with its code and
count; RETIRE frees the stream, its frame and its samples; an intake of a posted record enters the sample of a member, and
feeds the estimate of an arrival-paired stream; a stream without intake departs; errors of Tracker memory. -/
def Obligations.FusionStreamsAct : Prop :=
  ∀ (s : State) (r : Requester) (k : Fin 64), s.holds r 4 = true → s.boot.computeReset = false →
    let info := stg r Reg.FUSION_ADMIT_INFO
    let told (e f n : Nat) (t : State) : Prop := t.reg info = BitVec.ofNat 64 (2 ^ 24 * e + 2 ^ 8 * f + n)
    let staged (a : Nat) : W64 := s.reg (stg r a)
    let refuses (e : Nat) (f : Fld) : Prop := Does [info, Reg.FUSION_REFUSE] [] (exec (.fusionAdmit r) s) s fun t =>
      told e 0 0 t ∧ t.fld f = satAdd 8 (s.fld f) 1
    let oneOf (x : Nat) : List Nat := [Reg.FSTR_CFG x, Reg.FSTR_CLOCK x, Reg.FSTR_FEED x, Reg.FSTR_TOL x, Reg.FSTR_ADDR x, Reg.FSTR_LAT x,
      Reg.FSTR_STAT x, Reg.FSTR_OFFSET x, Reg.FSTR_RATE x]
    ((∀ j, j < 64 → s.fState j ≠ 0) → refuses 1 Reg.FUSION_REFUSE_NO_STREAM) ∧
    (s.fState k = 0 → (∀ j, j < k.val → s.fState j ≠ 0) →
      ((∀ f, f < 64 → s.frameFree f = false) → refuses 2 Reg.FUSION_REFUSE_NO_FRAME) ∧
      (∀ f : Fin 64, s.frameFree f = true → (∀ g, g < f.val → s.frameFree g = false) →
        let wrong := s.fld (Reg.FADM_CLOCK_PAIR.of r) = 3 ∨ s.winOn (s.fld (Reg.FADM_FEED_WIN.of r)) = false
        (s.admitLane r = false → refuses 3 Reg.FUSION_REFUSE_NO_LANE) ∧
        (s.admitLane r = true → wrong → refuses 4 Reg.FUSION_REFUSE_BAD_CFG) ∧
        (s.admitLane r = true → ¬ wrong → Does (info :: oneOf k) [.fusion] (exec (.fusionAdmit r) s) s fun t =>
          told 0 f k t ∧ t.fState k = 1 ∧ t.flag (Reg.FSTR_CFG_EN k) = true ∧ t.fld (Reg.FSTR_CFG_FRAME k) = f ∧
            t.fld (Reg.FSTR_CFG_PERIOD_US k) = s.fld (Reg.FADM_CFG_PERIOD_US.of r) ∧
            t.reg (Reg.FSTR_CLOCK k) = staged Reg.FADM_CLOCK ∧ t.reg (Reg.FSTR_FEED k) = staged Reg.FADM_FEED ∧
            t.reg (Reg.FSTR_TOL k) = staged Reg.FADM_TOL ∧ t.reg (Reg.FSTR_ADDR k) = staged Reg.FADM_ADDR ∧
            t.reg (Reg.FSTR_LAT k) = staged Reg.FADM_LAT ∧ t.fstr k = { lastIn := s.uptime } ∧
            ∀ j, j ≠ k.val → t.fstr j = s.fstr j))) ∧
    (s.fState k = 0 → Does [info] [] (exec (.retire r k) s) s (told 0 0 k)) ∧
    (s.fState k ≠ 0 → let f := s.fld (Reg.FSTR_CFG_FRAME k)
      Does [info, Reg.FSTR_CFG k, Reg.FSTR_STAT k] [.fusion] (exec (.retire r k) s) s fun t => told 0 f k t ∧ t.fState k = 0 ∧
        t.flag (Reg.FSTR_CFG_EN k) = false ∧ t.frameValid (1 - s.fld Reg.FUSION_STAT_BANK) f = false ∧ t.fstr k = {} ∧
        t.fusion.samples = (s.fusion.samples.filter fun x => x.stream != k.val) ∧
        ∀ j, j ≠ k.val → t.fstr j = s.fstr j) ∧
    (let w := s.fld (Reg.FSTR_FEED_WIN k)
     let pa := s.rcptAddr w (s.fld (Reg.FSTR_FEED_RCPT k))
     let src := s.fld (Reg.FSTR_ADDR_ADDR k) * 64
     let x : W64 := BitVec.ofNat 64 (s.natAt src 8)
     let n := Nat.min (s.natAt (src + 12) 2) 1024
     let shown := [Reg.FSTR_STAT k, Reg.FSTR_OFFSET k, Reg.FSTR_RATE k]
     s.intakeOk k = true →
      (s.overMode w = true → rcptState (s.rcptWord pa) = 0 → Does [Reg.FSTR_STAT k] [] (exec (.sampleIntake k) s) s fun t =>
        t.fld (Reg.FSTR_STAT_FEED_SKIP k) = satAdd 8 (s.fld (Reg.FSTR_STAT_FEED_SKIP k)) 1 ∧ t.fState k = s.fState k) ∧
      (s.overMode w = false → rcptState (s.rcptWord pa) ≠ 1 → Does [] [] (exec (.sampleIntake k) s) s fun _ => True) ∧
      (s.overMode w = false → rcptState (s.rcptWord pa) = 1 → s.flag (Reg.FSTR_CLOCK_STAMP_W k) = false →
        (∀ i, s.fState k = 2 → s.fld (Reg.FSTR_CLOCK_PAIR k) = 0 → s.flag Reg.FUSION_CTL_EN = true → s.fusion.newest = none →
          (s.instants.find? fun i => reached i x) = some i →
          Does shown [.fusion, .mem, .teller] (exec (.sampleIntake k) s) s fun t =>
            rcptState (t.rcptWord pa) = 2 ∧ MemKeptOutside pa 8 s t ∧ (t.fstr k).lastIn = s.uptime ∧ t.fState k = 2 ∧
              t.fusion.samples = s.fusion.samples ++ [{ stream := k, y := x, seq := BitVec.ofNat 32 (s.natAt (src + 8) 4), count := n
                                                        data := s.bytesAt (src + 64) (32 * n), inst := i, late := false }]) ∧
        (s.fState k = 1 → s.fld (Reg.FSTR_CLOCK_PAIR k) = 2 →
          let y := s.fusionLane - BitVec.ofNat 64 (2 ^ 32 * s.fld (Reg.FSTR_LAT_ALL k))
          let st := s.fstr k
          let y' := State.clockOf st x
          let e := (y - y').toInt
          Does shown [.fusion, .mem, .teller] (exec (.sampleIntake k) s) s fun t =>
            rcptState (t.rcptWord pa) = 2 ∧ MemKeptOutside pa 8 s t ∧ t.fusion.samples = s.fusion.samples ∧ t.fState k = 1 ∧
              (t.fstr k).lastIn = s.uptime ∧ (t.fstr k).xRef = x ∧ (t.fstr k).paired = true ∧
              t.reg (Reg.FSTR_OFFSET k) = (t.fstr k).yRef - x ∧
              (st.paired = false → (t.fstr k).yRef = y ∧ (t.fstr k).rate = 0 ∧ (t.fstr k).good = 0) ∧
              (st.paired = true → (t.fstr k).yRef = y' + BitVec.ofInt 64 (e / 2 ^ s.fld (Reg.FSTR_CLOCK_K_OFF k)) ∧
                (t.fstr k).good = (if e.natAbs ≤ 2 ^ 32 * s.fld (Reg.FSTR_TOL_LOCK_NS k) then Nat.min (st.good + 1) 8 else 0) ∧
                (x = st.xRef → -(2 ^ 31) ≤ st.rate → st.rate < 2 ^ 31 → (t.fstr k).rate = st.rate))))) ∧
    (let gone := s.flag (Reg.LANE_STAT_SRC_LOST (s.fld (Reg.FSTR_CLOCK_SRC_LANE k))) = true ∨
      8000 * s.fld (Reg.FSTR_CFG_PERIOD_US k) ≤ (s.uptime - (s.fstr k).lastIn).toNat
     (s.fState k ≠ 0 → gone → Does [Reg.FSTR_STAT k] [] (exec (.streamDeparture k) s) s fun t => t.fState k = 4) ∧
     (¬ gone → Does [] [] (exec (.streamDeparture k) s) s fun t => t.fState k = s.fState k)) ∧
    (∀ slot : Fin 1024,
      Does [Reg.FUSION_ERR] [] (exec (.trackerEccError slot false) s) s (fun t =>
        t.fld Reg.FUSION_ERR_CE_COUNT = satAdd 16 (s.fld Reg.FUSION_ERR_CE_COUNT) 1 ∧ t.fld Reg.FUSION_ERR_UE = s.fld Reg.FUSION_ERR_UE) ∧
      Does [Reg.FUSION_ERR] [.fusion] (exec (.trackerEccError slot true) s) s fun t => t.fld Reg.FUSION_ERR_UE = 1 ∧
        (s.flag Reg.FUSION_ERR_UE = false → t.fld Reg.FUSION_ERR_UE_SLOT = slot) ∧
        (s.flag Reg.FUSION_ERR_UE = true → t.reg Reg.FUSION_ERR = s.reg Reg.FUSION_ERR) ∧
        (∀ x, mget (fun _ => none) s.fusion.tracks slot.val = some x →
          mget (fun _ => none) t.fusion.tracks slot.val = some { x with bad := true }) ∧
        ∀ j, j ≠ slot.val → mget (fun _ => none) t.fusion.tracks j = mget (fun _ => none) s.fusion.tracks j)

/-- R322 to R324, R326: EN starts the Clearing buffer at FIRST with eight instants held, is refused on a hold-mode window, and
stops it; SWAP makes the other bank active if every VALID entry of it reaches a root, else sets CHAIN_ERR; the oldest instant is
released with its set, and its Receipt posted. -/
def Obligations.FusionBufferActs : Prop :=
  ∀ (s : State) (r : Requester) (v : W32), s.boot.computeReset = false →
    let on := v.getLsbD 31
    let swap := v.getLsbD 28
    let en := s.flag Reg.FUSION_CTL_EN
    let w := s.fld Reg.FUSION_REL_RCPT_WIN
    let b := s.fld Reg.FUSION_STAT_BANK
    let stats := (List.range 64).map Reg.FSTR_STAT
    let held := s.winOn w = true ∧ s.overMode w = false
    let first := s.reg Reg.FUSION_INST_FIRST
    (s.holds r 4 = true →
      (on = true → swap = false → en = false → ¬ held →
        Does ([Reg.FUSION_CTL, Reg.FUSION_STAT] ++ stats) [.fusion] (exec (.fusionEnable r v) s) s fun t =>
          t.flag Reg.FUSION_CTL_EN = true ∧ t.fld Reg.FUSION_CTL_LANE = v.toNat / 2 ^ 24 % 16 ∧ t.fld Reg.FUSION_STAT_OPEN = 8 ∧
            t.fld Reg.FUSION_STAT_BANK = b ∧ t.fusion.next = first ∧ t.fusion.samples = [] ∧ t.fusion.newest = none ∧
            ∀ k, k < 64 → t.fState k = if s.mayJoin k then 2 else s.fState k) ∧
      (on = true → swap = false → en = false → held → Does [Reg.FUSION_CTL, Reg.FUSION_STAT] [] (exec (.fusionEnable r v) s) s fun t =>
        t.flag Reg.FUSION_CTL_EN = false ∧ t.fld Reg.FUSION_STAT_CFG_ERR = 1) ∧
      (on = false → swap = false → en = true →
        Does [Reg.FUSION_CTL, Reg.FUSION_STAT] [.fusion] (exec (.fusionEnable r v) s) s fun t =>
          t.flag Reg.FUSION_CTL_EN = false ∧ t.fld Reg.FUSION_CTL_LANE = s.fld Reg.FUSION_CTL_LANE ∧ t.fld Reg.FUSION_STAT_OPEN = 0 ∧
            t.fusion = { s.fusion with samples := [] }) ∧
      (swap = true → on = en → let sound := ∀ f, f < 64 → s.frameValid (1 - b) f = true → (s.chainOf (1 - b) 4 f).isSome = true
        (sound → Does [Reg.FUSION_CTL, Reg.FUSION_STAT] [] (exec (.transformSwap r v) s) s fun t =>
          t.fld Reg.FUSION_STAT_BANK = 1 - b ∧ t.flag Reg.FUSION_CTL_EN = en) ∧
        (¬ sound → Does [Reg.FUSION_CTL, Reg.FUSION_STAT] [] (exec (.transformSwap r v) s) s fun t =>
          t.fld Reg.FUSION_STAT_BANK = b ∧ t.fld Reg.FUSION_STAT_CHAIN_ERR = 1 ∧ t.flag Reg.FUSION_CTL_EN = en))) ∧
    (let i := s.fusion.next
     let q := advance i s.fusion.acc (s.reg Reg.FUSION_INST_STEP) s.stepDiv
     let lane := s.fusionLane
     (en = false ∨ s.mayRelease = false → Does [] [] (exec .instantRelease s) s fun _ => True) ∧
     (∀ u, en = true → s.mayRelease = true → reached lane q.1 = false → reached lane (q.1 + s.fLimit) = false →
      later lane ((s.instantsFrom 8 q.1 q.2).getLastD q.1) = false →
      s.flag Reg.FUSION_REL_TALLY_EN = false → s.overMode u = true →
      (∀ c p n pd sd dl, (s.ctx c).wait ≠ some (.rcpt p n pd sd dl)) →
      let pa := s.rcptAddr w (s.fld Reg.FUSION_REL_RCPT_RCPT)
      let seq := s.reg Reg.FUSION_SET_SEQ + 1
      let slots := Nat.min (Nat.max (s.fld Reg.FUSION_SET_CFG_SLOTS) 1) 64
      let pages := Nat.min (Nat.max (s.fld Reg.FUSION_SET_CFG_SLOT_PAGES) 1) 16
      let base := 65536 * (s.fld Reg.FUSION_SET_BASE_ADDR + ((s.reg Reg.FUSION_SET_SEQ).toNat + 1) % slots * pages)
      let mask (f : Nat → Bool) (m : Nat) : Prop := ∀ k, m.testBit k = (decide (k < 64) && f k)
      s.rcptWin pa = some u → (∀ a, base ≤ a → a < base + 65536 * pages → s.winAt a = none) → s.isVdHome (base / 65536) = true →
      Does (Reg.FUSION_SET_SEQ :: stats) [.fusion, .mem, .teller, .field] (exec .instantRelease s) s fun t =>
        t.reg Reg.FUSION_SET_SEQ = seq ∧ t.fusion.next = q.1 ∧ t.fusion.acc = q.2 ∧ t.fusion.newest = some i ∧
          t.fusion.samples = (s.fusion.samples.filter fun x => !(x.late || x.inst == i)) ∧
          rcptState (t.rcptWord pa) = 1 ∧ rcptSeq (t.rcptWord pa) = rcptSeq (rcptSeq (s.rcptWord pa) + 1) ∧
          t.natAt base 8 = i.toNat ∧ t.natAt (base + 8) 8 = seq.toNat ∧ mask (s.isWaited i) (t.natAt (base + 16) 8) ∧
          mask (s.isCleared i) (t.natAt (base + 24) 8) ∧ mask (fun k => s.fState k == 3) (t.natAt (base + 32) 8) ∧
          t.natAt (base + 40) 2 = Nat.min 128 ((s.fusion.samples.filter fun x => x.late || x.inst == i).length) ∧
          (t.byteAt (base + 42)).getLsbD 0 = !s.relCleared i))

/-! ### The Hurdle unit (14) -/

/-- R337, R339, R349, R352, R353: EN is refused with CFG_ERR or empties the map and advances the epoch; EN 0 ends it and leaves
the map in its region; a LOAD copies the stop Stride between batches; a query batch of a higher class makes the running one
yield; errors are counted, or break the tree or the distances. -/
def Obligations.HurdleCommandsAct : Prop :=
  ∀ (s : State) (r : Requester) (src : Bool), s.holds r 4 = true → s.hurdleLive = true →
    let en := s.flag Reg.HURDLE_CTL_EN
    let lv := s.fld Reg.HURDLE_MAP_CFG_LEVELS
    let mm := s.fld Reg.HURDLE_MAP_CFG_LEAF_MM
    let sound := s.flag Reg.HURDLE_STOP_STAT_LOADED = true ∧ 1 ≤ lv ∧ lv ≤ 16 ∧ 2 ≤ mm ∧ mm ≤ 64 ∧ s.mapRegionOk = true
    let base := s.fld Reg.HURDLE_MAP_BASE_ADDR * 64
    let bytes := s.hurdle.tree.bytes
    let wrote (t : State) : Prop := t.flag Reg.HURDLE_CTL_SRC = src
    let h := s.hurdle
    (en = false → ¬ sound → Does [Reg.HURDLE_CTL, Reg.HURDLE_STAT] [] (exec (.hurdleEnable r src) s) s fun t =>
      t.flag Reg.HURDLE_CTL_EN = false ∧ wrote t ∧ t.fld Reg.HURDLE_STAT_CFG_ERR = 1) ∧
    (en = false → sound → Alone s →
      Does [Reg.HURDLE_CTL, Reg.HURDLE_STAT, Reg.HURDLE_EPOCH] [.hurdle] (exec (.hurdleEnable r src) s) s fun t =>
        t.flag Reg.HURDLE_CTL_EN = true ∧ wrote t ∧ t.reg Reg.HURDLE_EPOCH = s.reg Reg.HURDLE_EPOCH + 1 ∧
          t.hurdle = { h with tree := .cube .unknown } ∧ t.fld Reg.HURDLE_STAT_NODES_FREE = s.fld Reg.HURDLE_MAP_NODES_NODES - 1) ∧
    (en = true → Does [Reg.HURDLE_CTL] [] (exec (.hurdleEnable r src) s) s fun t => t.flag Reg.HURDLE_CTL_EN = true ∧ wrote t) ∧
    (en = false → Does [Reg.HURDLE_CTL] [] (exec (.hurdleDisable r src) s) s fun t => t.flag Reg.HURDLE_CTL_EN = false ∧ wrote t) ∧
    (en = true → Alone s →
      Does [Reg.HURDLE_CTL, Reg.HURDLE_STAT, Reg.HURDLE_STOP_STAT] [.hurdle, .mem] (exec (.hurdleDisable r src) s) s fun t =>
        t.flag Reg.HURDLE_CTL_EN = false ∧ wrote t ∧ t.fld Reg.HURDLE_STAT_NODES_FREE = 0 ∧ t.fld Reg.HURDLE_STOP_STAT_VALID = 0 ∧
          t.fld Reg.HURDLE_STOP_STAT_LOADED = s.fld Reg.HURDLE_STOP_STAT_LOADED ∧
          t.hurdle = { h with tree := .cube .unknown, pose := none } ∧ MemKeptOutside base bytes.length s t ∧
          ∀ i b, bytes[i]? = some b → t.homeByte (base + i) = b) ∧
    (∀ index, let pa := s.fld Reg.HURDLE_STOP_ADDR_ADDR * 16
      let fails := s.strideAt pa = none
      (h.runs ≠ [] → Does [] [.hurdle] (exec (.stopStrideLoad r index) s) s fun t =>
        t.hurdle = { h with load := some (pa, index.toNat) }) ∧
      (h.runs = [] → fails → Does [Reg.HURDLE_STOP_STAT] [.hurdle] (exec (.stopStrideLoad r index) s) s fun t =>
        t.fld Reg.HURDLE_STOP_STAT_ERR = 1 ∧ t.hurdle = { h with load := none } ∧
          t.fld Reg.HURDLE_STOP_STAT_INDEX = s.fld Reg.HURDLE_STOP_STAT_INDEX) ∧
      (∀ rec, h.runs = [] → h.pose = none → s.strideAt pa = some rec →
        Does [Reg.HURDLE_STOP_STAT] [.hurdle] (exec (.stopStrideLoad r index) s) s fun t =>
          t.fld Reg.HURDLE_STOP_STAT_LOADED = 1 ∧ t.fld Reg.HURDLE_STOP_STAT_INDEX = index.toNat ∧
            t.hurdle = { h with load := none, stop := rec })) ∧
    (∀ run k ord c id o, s.flag Reg.PWR_STAT_THERM_TRIP = false → en = true → h.runs = [run] → run.yielded = false → h.load = none →
      (∀ e ∈ s.ctxs, ∀ o ∈ e.2.ops, o.unit = .hurdle) → s.firstOp .hurdle (fun _ => true) = some (k, ord, c, id) →
      s.opOf c id = some o → o.mn ≠ .khmap → s.isMapRun run = false →
      (s.runClass run ≤ k → Does [] [] (exec .batchYield s) s fun _ => True) ∧
      (k < s.runClass run → Does [] [.hurdle, .ctxs] (exec .batchYield s) s fun t =>
        t.hurdle = { h with runs := [{ run with yielded := true }, { ctx := c, id := id, lane := s.laneVal (State.opDlane o) }] } ∧
          t.opOf c id = some { o with state := .running } ∧ CtxsKept c s t)) ∧
    (Does [Reg.HURDLE_ERR] [] (exec (.hurdleEccError .corrected) s) s fun t =>
      t.fld Reg.HURDLE_ERR_CE_COUNT = satAdd 16 (s.fld Reg.HURDLE_ERR_CE_COUNT) 1) ∧
    (Does [Reg.HURDLE_ERR] [] (exec (.hurdleEccError (.cache true)) s) s fun t =>
      t.fld Reg.HURDLE_ERR_UE = 1 ∧ t.fld Reg.HURDLE_ERR_SDF_BROKEN = 1) ∧
    (Does [Reg.HURDLE_ERR, Reg.HURDLE_STAT] [] (exec (.hurdleEccError (.cache false)) s) s fun t =>
      t.fld Reg.HURDLE_ERR_UE = 1 ∧ t.fld Reg.HURDLE_STAT_TREE_BROKEN = 1) ∧
    ∀ page : BitVec 28, s.poisonedAt (65536 * page.toNat) = true → en = true →
      let inMap := base / 65536 ≤ page.toNat ∧ page.toNat ≤ (base + 32 * s.fld Reg.HURDLE_MAP_NODES_NODES - 1) / 65536
      Does [Reg.HURDLE_ERR, Reg.HURDLE_STAT] [] (exec (.hurdleEccError (.poisoned page)) s) s fun t =>
        (inMap → t.fld Reg.HURDLE_STAT_TREE_BROKEN = 1) ∧
          (¬ inMap → t.fld Reg.HURDLE_STAT_TREE_BROKEN = s.fld Reg.HURDLE_STAT_TREE_BROKEN)

/-! ### The Judge (15) -/

/-- R20, R36, R355, R356, R365: the ends of the cross-die link beat; a message that fails its CRC or comes out of order is
discarded and counted, a valid one is taken, and one from the Judge brings the mirror up to date; a link that is lost causes
LINK; ALIVE toggles, and 100 us without a toggle assert STO channel B in every group; copies go to the guard models. -/
def Obligations.JudgeLinkActs : Prop :=
  ∀ (s : State), s.judgeOn = true →
    let j := s.judge
    (Does [] [.out] (exec .judgeHeartbeat s) s fun t => t.out = s.out ++ [.linkBeat true, .linkBeat false]) ∧
    (Does [] [.out, .judge] (exec .aliveToggle s) s fun t => t.out = s.out ++ [.alive] ∧
      t.judge = { j with alive := true, lastAlive := s.uptime }) ∧
    ((s.uptime - j.lastAlive).toNat < 100000 → Does [] [] (exec .aliveLoss s) s fun _ => True) ∧
    (100000 ≤ (s.uptime - j.lastAlive).toNat → Does stoRegs [.judge, .island] (exec .aliveLoss s) s fun t =>
      t.judge = { j with alive := false } ∧ t.island.stoB = 15 ∧
        (s.island.reset = false → ∀ b, b < 12 → t.fld (Reg.PWM_BR_STAT_STO b) = 1)) ∧
    (∀ m : LinkMsg, let prev := if m.toJudge then j.seqIn else j.seqOut
      let inOrder := ∀ p, prev = some p → later m.seq p = true
      (m.crcOk = false → Does [] [.judge] (exec (.crossDieMessage m) s) s fun t =>
        t.judge = { j with crcDrop := BitVec.ofNat 16 (satAdd 16 j.crcDrop.toNat 1) }) ∧
      (m.crcOk = true → ¬ inOrder → Does [] [.judge] (exec (.crossDieMessage m) s) s fun t =>
        t.judge = { j with seqDrop := BitVec.ofNat 8 (satAdd 8 j.seqDrop.toNat 1) }) ∧
      (m.crcOk = true → inOrder → m.toJudge = true → j.linkUp = true → Does [] [.judge] (exec (.crossDieMessage m) s) s fun t =>
        t.judge = { j with seqIn := some m.seq, lastTo := s.uptime }) ∧
      (m.crcOk = true → inOrder → m.toJudge = true → j.linkUp = false → j.incs = [] →
        (s.uptime - j.lastFrom).toNat < s.linkTmo → Does [] [.judge] (exec (.crossDieMessage m) s) s fun t =>
          t.judge.linkUp = true ∧ t.hasCause 3 = false ∧ t.judge.seqIn = some m.seq ∧ t.judge.cmd = j.cmd) ∧
      (m.crcOk = true → inOrder → m.toJudge = false → j.linkUp = true → j.cfgValid = true →
        let shown := [Reg.JUDGE_STAT, Reg.JUDGE_CAUSE, Reg.JUDGE_CFG_CRC, Reg.JUDGE_STO, Reg.JUDGE_INPUTS, Reg.JUDGE_LINK,
          Reg.JUDGE_AUDIT, Reg.JUDGE_AUDIT_FAIL] ++ (List.range 128).map Reg.JOUT_STAT ++ (List.range 128).map Reg.JOUT_CNT
          ++ (List.range 32).map Reg.JTASK_STAT
        Does shown [.judge] (exec (.crossDieMessage m) s) s fun t =>
          t.judge = { j with seqOut := some m.seq, lastFrom := s.uptime } ∧ t.reg Reg.JUDGE_CAUSE = j.cause ∧
          t.flag Reg.JUDGE_STAT_LINK_UP = true ∧ t.flag Reg.JUDGE_STAT_FALLBACK = j.fallback ∧
          t.flag Reg.JUDGE_STAT_LOCKOUT = j.lockout ∧ t.flag Reg.JUDGE_STAT_CFG_VALID = j.cfgValid ∧
          t.flag Reg.JUDGE_INPUTS_ESTOP_A = j.estopA ∧ t.flag Reg.JUDGE_INPUTS_ENABLE_B = j.enableB ∧
          t.reg Reg.JUDGE_STO = BitVec.ofNat 64 s.jSto ∧ t.reg Reg.JUDGE_AUDIT = BitVec.ofNat 64 s.jAudit ∧
          (∀ o, o < 128 → t.fld (Reg.JOUT_CNT_DISAGREE o) = (s.jout o).disagree.toNat ∧
            t.fld (Reg.JOUT_CNT_LATE o) = (s.jout o).late.toNat ∧ t.fld (Reg.JOUT_CNT_STRAY o) = (s.jout o).stray.toNat) ∧
          ∀ k, k < 32 → t.fld (Reg.JTASK_STAT_VIOLATIONS k) = (s.jtask k).violations.toNat)) ∧
    (let lost := s.linkTmo ≤ (s.uptime - j.lastTo).toNat ∨ s.linkTmo ≤ (s.uptime - j.lastFrom).toNat
     j.linkUp = true → lost →
      (s.isReady = false → Spared s → JudgeMasks s →
        Does [Reg.ISLAND_STAT, Reg.ISLAND_CTL] [.judge] (exec .linkLoss s) s fun t => FellBack 3 0 s t ∧ t.judge.linkUp = false ∧
          t.hasCause 3 = true) ∧
      (s.isReady = true → Gives (exec .linkLoss s) fun t => t.judge.linkUp = false ∧ t.judge.fallback = true ∧
        t.boot.computeReset = true ∧ t.flag Reg.SYS_START_RESTART = true ∧ t.fld Reg.SYS_RESET_STAT_LAST_CAUSE = 1)) ∧
    (∀ (w : Fin 16) (rc : BitVec 19) (pa : BitVec 44) (len : Fin 4097) (lane : LaneId), j.linkUp = true →
      let a := s.rcptAddr w rc.toNat
      s.rcptWin a = some w.val → s.overMode w = true → rcptState (s.rcptWord a) ≠ 0 → s.sourceReads pa.toNat len = true →
      Does [] [.out] (exec (.copyForward w rc pa len lane) s) s fun t =>
        t.out = s.out ++ [.copy (s.laneVal lane) (s.bytesAt pa.toNat len)]) ∧
    (Does [] [.judge] (exec .copyDrop s) s fun t => t.judge = { j with copyDrop := BitVec.ofNat 8 (satAdd 8 j.copyDrop.toNat 1) })

/-- R358 to R362: the first frame of an output sets its first instant; a frame on time that agrees is delivered; a guard value
on time, and a frame whose guard value has not come, wait; at the deadline the guard value stands in, the frame counts as late
and as a disagreement; the oldest verdict reaches its consumer. -/
def Obligations.JudgedOutputsAct : Prop :=
  ∀ (s : State) (o : Fin 128), s.judgeOn = true → s.outEn o = true → s.isStandby = false → s.judge.linkUp = true →
    let x := s.jout o
    let lane := s.laneVal (s.outNat o 2 1 % 16)
    let due (e0 : W64) (k : Nat) : W64 := e0 + BitVec.ofNat 64 (k * s.outNat o 0x18 8) + BitVec.ofNat 64 (s.outNat o 0x20 8)
    let others (t : State) : Prop := ∀ p, p ≠ o.val → t.jout p = s.jout p
    let n := s.outNat o 5 1
    (∀ (w i : Nat), s.outNat o 9 1 % 16 = w → s.outNat o 0x0C 4 = i →
      let pa := s.rcptAddr w i
      let src := s.outNat o 0x10 8
      let at0 := BitVec.ofNat 64 (s.natAt src 8)
      let ws := (List.range (s.outWords o)).map fun k => BitVec.ofNat 32 (s.natAt (src + 8 + 4 * k) 4)
      s.rcptWin pa = some w → s.overMode w = true → rcptState (s.rcptWord pa) ≠ 0 →
      s.sourceReads src (8 + 4 * s.outWords o) = true → x.e0 = none → x.main = none → x.held = [] → later lane (due at0 0) = false →
      let seen : JOut := { x with e0 := some at0, k := 0, main := some ws, seq := BitVec.ofNat 16 (rcptSeq (s.rcptWord pa)) }
      (s.outGuarded o = true → x.guard = none → Does [] [.judge] (exec (.mainFrame o) s) s fun t => t.jout o = seen ∧ others t) ∧
      (s.outGuarded o = false → x.guard = none → x.rejoined = true → s.isHard o ws none = false → s.agrees o ws none = true →
        Does [] [.judge] (exec (.mainFrame o) s) s fun t => others t ∧
          t.jout o = { seen with k := 1, main := none, hadMain := true, deliver := x.deliver ++ [(.main, ws)], lastAgreed := some ws
                                 flags := (false :: x.flags).take n })) ∧
    (∀ e0 ws, x.e0 = some e0 → s.outGuarded o = true → x.guard = none → x.held = [] → later lane (due e0 x.k) = false →
      let gs := ws.take (s.outWords o)
      (x.main = none → Does [] [.judge] (exec (.guardValue o ws) s) s fun t => t.jout o = { x with guard := some gs } ∧ others t) ∧
      (∀ m, x.main = some m → x.rejoined = true → s.isHard o m (some gs) = false → s.agrees o m (some gs) = true →
        Does [] [.judge] (exec (.guardValue o ws) s) s fun t => others t ∧
          t.jout o = { x with k := x.k + 1, main := none, guard := none, hadMain := true, deliver := x.deliver ++ [(.main, m)]
                              lastAgreed := some m, flags := (false :: x.flags).take n })) ∧
    (∀ e0, x.e0 = some e0 → (later lane (due e0 x.k) = false → Does [] [] (exec (.outputDeadline o) s) s fun _ => True) ∧
      (∀ gs, later lane (due e0 x.k) = true → x.main = none → x.held = [] → x.guard = some gs → x.rejoined = true →
        let flags := (true :: x.flags).take n
        (flags.filter id).length < s.outNat o 4 1 →
        Does (incRegs 3) [.judge] (exec (.outputDeadline o) s) s fun t => others t ∧
          t.jout o = { x with k := x.k + 1, hadMain := false, guard := none, deliver := x.deliver ++ [(.guard, gs)], flags := flags
                              disagree := BitVec.ofNat 16 (satAdd 16 x.disagree.toNat 1)
                              late := BitVec.ofNat 8 (satAdd 8 x.late.toNat 1) } ∧
          t.fld (Reg.INC_CNT_COUNT 3) = satAdd 16 (s.fld (Reg.INC_CNT_COUNT 3)) 1)) ∧
    (∀ kind ws rest, x.deliver = (kind, ws) :: rest → bitAt s.judge.ss1 (s.outGroup o) = false → s.isDuty = false →
      let a := s.outNat o 0x0A 2
      let k := s.outNat o 8 1
      let after (t : State) : Prop := t.jout o = { x with deliver := rest, lastKind := kind } ∧ others t
      (k = 0 → let p := a / 16 % 16
        let c := a % 4
        s.island.reset = false → s.fld (Reg.PCH_MBX_CFG_SRC p c) = 2 →
        Does [Reg.PCH_MBX_SEQ p c] [.judge, .island] (exec (.verdictDelivery o) s) s fun t => after t ∧
          t.fld (Reg.PCH_MBX_SEQ_SEQ p c) = (s.fld (Reg.PCH_MBX_SEQ_SEQ p c) + 1) % 2 ^ 32 ∧
          ∃ q, (t.chan p c).commits = q :: (s.chan p c).commits ∧ q.time = s.uptime.toNat ∧ q.words.take ws.length = ws) ∧
      (k = 1 → let p := a / 2 ^ 14 % 4
        let l := a / 256 % 32
        let f := State.slotOff p l + 4 * (a % 64)
        4 * (a % 64) + 4 * ws.length ≤ 256 →
        Does [Reg.NET_LS_CFG p l] [.judge, .net] (exec (.verdictDelivery o) s) s fun t => after t ∧
          t.flag (Reg.NET_LS_CFG_JUDGED p l) = true ∧
          (∀ i v, ws[i]? = some v → ofBytes ((List.range 4).map fun b => t.slotByte (f + 4 * i + b)) = v.toNat) ∧
          ∀ b, b < f ∨ f + 4 * ws.length ≤ b → t.slotByte b = s.slotByte b) ∧
      (k = 2 → let i := a % 4096
        let at1 := BitVec.ofNat 64 ((ws.getD 0 0).toNat + 2 ^ 32 * (ws.getD 1 0).toNat)
        (s.cue i).armed = true → s.flag (Reg.LANE_CFG_EN (s.cue i).lane) = true → reached (s.laneVal (s.cue i).lane) at1 = false →
        Does [] [.judge, .lanes] (exec (.verdictDelivery o) s) s fun t => after t ∧
          t.cue i = { s.cue i with target := at1, acc := 0 }) ∧
      (k = 3 → Does [] [.judge] (exec (.verdictDelivery o) s) s fun t => after t ∧
        (∀ i, a % 128 ≤ i → i < 128 → i < a % 128 + ws.length → mget (fun _ => 0) t.judge.sport i = ws.getD (i - a % 128) 0) ∧
        ∀ i, i < a % 128 ∨ a % 128 + ws.length ≤ i → mget (fun _ => 0) t.judge.sport i = mget (fun _ => 0) s.judge.sport i))

/-- R363 to R365, R374 to R377: a checkpoint of a task is taken, early ones and gaps count and react as configured; a fall-back
that lasts too long and a silent safety port stop every group. An audit fragment takes a free position or engine, or displaces a
batch operation; a step that its engine passes counts towards its coverage, one that it fails takes the engine out; an age
beyond the limit counts once. -/
def Obligations.TasksAndAuditsAct : Prop :=
  (∀ (s : State), s.judgeOn = true →
     (∀ k : Fin 32, let x := s.jtask k
       let others (t : State) : Prop := ∀ i, i ≠ k.val → t.jtask i = s.jtask i
       let early := x.armed = true ∧ (s.uptime - x.last).toNat < 1000 * s.taskNat k 8 4
       let seen : JTask := { armed := true, last := s.uptime, gapped := false, violations := x.violations }
       let more := BitVec.ofNat 16 (satAdd 16 x.violations.toNat 1)
       let reacts := bitAt (s.taskNat k 0 1) 1 = true
       s.taskOn k = true →
       (s.judge.linkUp = true → ¬ early → Does [] [.judge] (exec (.taskCheckpoint k) s) s fun t => t.jtask k = seen ∧ others t) ∧
       (s.judge.linkUp = true → early → ¬ reacts → Does [] [.judge] (exec (.taskCheckpoint k) s) s fun t =>
         t.jtask k = { seen with violations := more } ∧ others t ∧ t.judge.fallback = s.judge.fallback) ∧
       (s.judge.linkUp = true → early → reacts → s.isReady = false → Spared s → JudgeMasks s →
         Does [Reg.ISLAND_STAT, Reg.ISLAND_CTL] [.judge] (exec (.taskCheckpoint k) s) s fun t => FellBack 4 k s t ∧
           t.jtask k = { seen with violations := more } ∧ others t) ∧
       (x.armed = true → x.gapped = false → 1000 * s.taskNat k 12 4 < (s.uptime - x.last).toNat → ¬ reacts →
         Does [] [.judge] (exec (.taskGapTimeout k) s) s fun t =>
           t.jtask k = { x with gapped := true, violations := more } ∧ others t) ∧
       (x.gapped = true → Does [] [] (exec (.taskGapTimeout k) s) s fun t => t.jtask k = x)) ∧
     (JudgeMasks s →
       let stops (c : Instr) (code : Nat) : Prop := Does [] [.judge] (exec c s) s fun t => InSs1 15 s t ∧ t.hasCause code = true ∧
         t.judge.cause = causeWord s code 0 ∧ t.judge.fallback = s.judge.fallback
       (s.judge.fallback = true → 1000000 * s.cfgNat 0x008 2 ≤ (s.uptime - s.judge.fbAt).toNat →
         (∃ o, o < 128 ∧ s.outEn o = true ∧ (s.jout o).rejoined = false) → s.hasCause 0x0E = false →
         stops .fallbackRestartTimeout 0x0E) ∧
       (s.judge.cfgValid = true → s.cfgNat 0x006 2 ≠ 0 → 1000000 * s.cfgNat 0x006 2 ≤ (s.uptime - s.judge.sportAt).toNat →
         s.hasCause 5 = false → stops .sportTimeout 5))) ∧
  (∀ (s : State), s.judgeOn = true →
     let j := s.judge
     (s.flag Reg.PWR_STAT_THERM_TRIP = false → s.boot.computeReset = false → ∀ u : Fin 16, u.val ∉ j.frags →
       let begun (t : State) : Prop := t.judge = { j with frags := u.val :: j.frags }
       (u.val < 7 → u.val ∈ State.layoutPos s.field.layout → 0 < s.posTiles u →
         (s.posFree u = true → s.posRuns u = none → s.reservedFor 900 = false →
           Does [] [.judge] (exec (.auditFragment u) s) s begun) ∧
         (∀ c o, s.posRuns u = some (c, o) → 2 ≤ State.placeClass (s.ctx c) → s.reservedFor 3200 = false → s.opOf c o.id = some o →
           Does [Reg.START_PREEMPT_CNT] [.judge, .ctxs] (exec (.auditFragment u) s) s fun t => begun t ∧ CtxsKept c s t ∧
             t.opOf c o.id = some { o with state := .saved })) ∧
       (8 ≤ u.val → s.present 1 = true → s.engineOut (u - 8) = false → s.bindOf (u - 8) = none → s.runningOn 1 (u - 8) = [] →
         s.reservedFor 500 = false → Does [] [.judge] (exec (.auditFragment u) s) s begun)) ∧
     (s.flag Reg.PWR_STAT_THERM_TRIP = false → s.field.withdrawn = [] → ∀ u : Fin 16, 8 ≤ u.val → u.val ∈ j.frags →
       let e := u.val - 8
       let k := 4096 + e
       let n := mget (fun _ => 0) j.steps k
       let ended (t : State) : Prop := u.val ∉ t.judge.frags
       (n + 1 < 64 → Does [] [.judge] (exec (.auditStepComplete u []) s) s fun t => ended t ∧
         mget (fun _ => 0) t.judge.steps k = n + 1 ∧ t.ageOf k = s.ageOf k) ∧
       (64 ≤ n + 1 → Does [] [.judge] (exec (.auditStepComplete u []) s) s fun t => ended t ∧
         mget (fun _ => 0) t.judge.steps k = 0 ∧ t.ageOf k = 0 ∧ k ∉ t.judge.aged) ∧
       (k ∉ j.ranSafety → Does [Reg.SPRINT_ENG_STAT e, Reg.SPRINT_RX_CYC e, Reg.SPRINT_ENG_CTL e] [.judge, .sprint]
         (exec (.auditStepComplete u [k]) s) s fun t => ended t ∧ t.engineOut e = true ∧ t.bindOf e = none ∧
           (j.auditFail = none → t.judge.auditFail = some (1, n, e)) ∧ ∀ x, j.auditFail = some x → t.judge.auditFail = some x)) ∧
     (∀ k, k ∉ j.aged → k ∈ s.audited → 1000 * s.cfgNat 0x00E 2 < s.ageOf k → j.linkUp = true →
       Does (incRegs 4) [.judge] (exec (.auditAgeExceeded k) s) s fun t => t.judge = { j with aged := k :: j.aged } ∧
         t.fld (Reg.INC_CNT_COUNT 4) = satAdd 16 (s.fld (Reg.INC_CNT_COUNT 4)) 1))

/-- R364, R367 to R373, R381, R382, R448: a discrepancy of STO latches a cause and puts every group into STO; channel B alone is
followed by channel A; SS1 ends in STO; the emergency stop and the enabling device stop the groups by their categories and
release those they may; their discrepancies and cross-faults latch INPUT_FAULT; a supply outside its window, a fault of the
Lemquevin die and the loss of its supply put every group into STO. -/
def Obligations.SafetyInputsAct : Prop :=
  ∀ (s : State), s.judgeOn = true → JudgeMasks s →
    let j := s.judge
    let ps : List Part := [.judge, .island]
    let latched (code idx : Nat) (t : State) : Prop := InSto 15 s t ∧ t.hasCause code = true ∧ t.judge.cause = causeWord s code idx
    let stoOnly (c : Instr) (p : State → Prop) : Prop := Does stoRegs ps (exec c s) s p
    let free := j.cfgValid = true ∧ j.causes = [] ∧ j.estopA = true ∧ j.estopB = true ∧ j.fallback = false ∧ j.alive = true ∧
      j.linkUp = true ∧ s.isReady = true
    let reacts (off : Nat) (t : State) : Prop := ∀ g, g < 4 →
      (s.groupNat g off 1 = 0 → bitAt t.judge.cmd g = true ∧ bitAt t.island.stopLine g = true) ∧
      (s.groupNat g off 1 ≠ 0 → bitAt t.judge.cmd g = bitAt j.cmd g ∧
        bitAt t.judge.ss1 g = (bitAt j.ss1 g || !bitAt j.cmd g))
    (∀ (g : Fin 4) (a b : Bool), let cmd := bitAt j.cmd g
      let differs := a ≠ cmd ∨ (cmd = true ∧ b = false) ∨ a ≠ b
      (¬ differs → Does [] [.judge] (exec (.stoDiscrepancy g a b) s) s fun t => bitAt t.judge.aRb g = a ∧ bitAt t.judge.bRb g = b ∧
        t.judge = { j with aRb := t.judge.aRb, bRb := t.judge.bRb }) ∧
      (differs → stoOnly (.stoDiscrepancy g a b) fun t => latched 9 g t ∧ bitAt t.judge.aRb g = a ∧ bitAt t.judge.bRb g = b)) ∧
    (∀ g : Fin 4, bitAt j.cmd g = false → stoOnly (.bSide g) fun t => InSto (2 ^ g.val) s t ∧ t.judge.cause = causeWord s 15 g ∧
      bitAt t.judge.bRb g = true ∧ t.judge.causes = j.causes) ∧
    (∀ (g : Fin 4) (still : Bool), let t0 := (s.uptime - mget (fun _ => 0) j.ss1At g.val).toNat
      let ends := bitAt j.ss1 g = true ∧ (still = true ∨ 1000000 * s.groupNat g 0 2 ≤ t0)
      (ends → stoOnly (.ss1Complete g still) (InSto (2 ^ g.val) s)) ∧
      (¬ ends → Does [] [] (exec (.ss1Complete g still) s) s fun _ => True)) ∧
    (∀ g : Fin 4, j.cfgValid = true → s.cfgNat 0x040 2 ≠ 0 →
      3600000000000 * s.cfgNat 0x040 2 < (s.uptime - mget (fun _ => 0) j.demandAt g.val).toNat →
      Does [] [.judge] (exec (.stoTestOverdue g) s) s fun t => t.judge = { j with stoTestDue := true }) ∧
    (∀ chB : Bool,
      stoOnly (.estopInputChange chB false) (fun t => reacts 3 t ∧ t.judge.cause = causeWord s 6 0 ∧
        (if chB then t.judge.estopB else t.judge.estopA) = false) ∧
      Does [] [.judge] (exec (.estopInputChange chB true) s) s fun t => (if chB then t.judge.estopB else t.judge.estopA) = true ∧
        t.judge.cmd = j.cmd ∧ t.judge.causes = j.causes) ∧
    (∀ t0, j.estopDiff = some t0 → 1000000 * s.cfgNat 0x00B 1 < (s.uptime - t0).toNat →
      stoOnly .estopDiscrepancy fun t => latched 8 0 t ∧ t.judge.estopFault = true) ∧
    (∀ t0, j.enableDiff = some t0 → 50000000 < (s.uptime - t0).toNat →
      stoOnly .enableDiscrepancy fun t => latched 8 1 t ∧ t.judge.enableFault = true) ∧
    (∀ (out : Fin 4) (seen : BitVec 4), let crossed := ∃ i, i < 4 ∧ i ≠ out.val ∧ seen.getLsbD i = true
      (¬ crossed → Does [] [.out] (exec (.testPulse out seen) s) s fun t => t.out = s.out ++ [.testPulse out]) ∧
      (crossed → Does stoRegs (.out :: ps) (exec (.testPulse out seen) s) s fun t => t.out = s.out ++ [.testPulse out] ∧
        latched 8 out t ∧ (if out.val < 2 then t.judge.estopFault else t.judge.enableFault) = true)) ∧
    (∀ chB : Bool,
      (j.enableReq = true → stoOnly (.enableInputChange chB false) fun t => reacts 4 t ∧ t.judge.cause = causeWord s 7 0 ∧
        (if chB then t.judge.enableB else t.judge.enableA) = false) ∧
      (∀ closed, j.enableReq = false → Does [] [.judge] (exec (.enableInputChange chB closed) s) s fun t =>
        (if chB then t.judge.enableB else t.judge.enableA) = closed ∧ t.judge.cmd = j.cmd) ∧
      (j.enableReq = true → free → (if chB then j.enableA else j.enableB) = true →
        stoOnly (.enableInputChange chB true) fun t => ∀ g, g < 4 →
          let back := bitAt j.enableStop g = true ∧ s.groupNat g 5 1 = 1 ∧ bitAt j.ss1 g = false ∧ bitAt j.cmd g = true
          (back → bitAt t.judge.cmd g = false ∧ bitAt t.island.stopLine g = false ∧ bitAt t.island.stoB g = false) ∧
          (¬ back → bitAt t.judge.cmd g = bitAt j.cmd g))) ∧
    Gives (exec .vinWindowTrip s) (fun t => (∀ g, g < 4 → bitAt t.judge.cmd g = true ∧ bitAt t.island.stopLine g = true) ∧
      t.hasCause 11 = true ∧ t.boot.porHigh = false ∧ t.boot.computeReset = true ∧ t.island.reset = true) ∧
    (s.flag Reg.RELAY_PAIR_CFG_YIELD_JUDGE = false → stoOnly .lemquevinFault fun t => t.judge.cmd = 15 ∧ t.island.stopLine = 15 ∧
      t.hasCause 10 = true ∧ t.judge.cause = causeWord s 10 0 ∧ t.judge.ss1 = 0 ∧ t.judge.linkUp = false ∧ t.judge.nor = j.nor ∧
      (∀ c ∈ j.causes, c.latched = true → c.code ≠ 10 → c ∈ t.judge.causes) ∧ t.judge.cfgValid = State.cfgOk j.nor) ∧
    Does stoRegs (.boot :: ps) (exec .vlqLoss s) s fun t => t.judge.cmd = 15 ∧ t.island.stopLine = 15 ∧ t.judgeOn = false ∧
      t.judge.nor = j.nor ∧ t.judge.cfgValid = false ∧ (s.island.reset = false → ∀ b, b < 12 → t.fld (Reg.PWM_BR_STAT_STO b) = 1)

/-! ### The safety port (18) -/

/-- R370, R371, R373, R378, R379, R441, R442: a command over the service port is answered at once, one over the safety port with
the next transaction; STATUS tells the Judge's state, STOP stops the groups it names, RESET clears latches or releases groups,
MODE makes enabling required, CFG_WRITE writes the staging copy and CFG_COMMIT takes it, CLEAR_COUNTS clears the counters; a
frame that fails its CRC or its number is dropped; a path without standing is denied. -/
def Obligations.SafetyPortActs : Prop :=
  ∀ (s : State) (svc : Bool), s.judgeOn = true →
    let j := s.judge
    let u := if svc then s else s.endCause 5
    let seq := s.spNext svc
    let waits (t : State) : Prop := t.out = if j.spReply.isEmpty then s.out else s.out ++ [.spReply j.spReply]
    let runs (c : Instr) (cmd : Nat) (ks : List Nat) (ps : List Part) (r : State → List Byte) (p : State → Prop) : Prop :=
      (svc = true → s.holds 34 11 = true → Does ks (.judge :: .reply :: ps) (exec c s) s fun t =>
        t.reply = { req := 34, value := 0, bytes := spFrame seq.toNat (cmd + 128) (r t) } ∧ t.judge.svSeq = some seq ∧ p t) ∧
      (svc = false → s.holds 36 11 = true → Does ks (.judge :: .out :: ps) (exec c s) s fun t => waits t ∧
        t.judge.spReply = spFrame seq.toNat (cmd + 128) (r t) ∧ t.judge.spSeq = some seq ∧ t.judge.sportAt = s.uptime ∧
          t.hasCause 5 = false ∧ p t)
    let is (b : List Byte) (_ : State) : List Byte := b
    let keeps (t : State) : Prop := t.judge.cmd = j.cmd ∧ t.judge.causes = u.judge.causes ∧ t.judge.cfg = j.cfg
    runs (.sportNop svc) 0 [] [] (is [0]) keeps ∧
    (∀ page : Byte, (page.toNat ≤ 7 → runs (.status svc page) 1 [] []
        (fun t => [0, 0, 0, 0] ++ t.statusBytes ++ (List.range 16).flatMap fun k =>
          toBytes 4 (mget (fun _ => (0 : W32)) j.sport (16 * page.toNat + k)).toNat) keeps) ∧
      (7 < page.toNat → runs (.status svc page) 1 [] [] (is [2]) keeps)) ∧
    (∀ mask kind : Byte,
      (mask.toNat ≤ 15 → kind = 0 → runs (.stop svc mask kind) 2 stoRegs [.island] (is [0]) fun t =>
        InSto mask.toNat s t ∧ t.judge.cause = causeWord s 13 mask.toNat) ∧
      (mask.toNat ≤ 15 → kind = 1 → JudgeMasks s → runs (.stop svc mask kind) 2 [] [] (is [0]) fun t =>
        InSs1 mask.toNat s t ∧ t.judge.cause = causeWord s 13 mask.toNat) ∧
      (15 < mask.toNat ∨ 1 < kind.toNat → runs (.stop svc mask kind) 2 [] [] (is [2]) keeps)) ∧
    (∀ mask : Byte, let gone := u.judge.causes.filter (s.latchClears svc)
      let m := mask.toNat
      (15 < m → runs (.reset svc mask) 3 [] [] (is [2]) keeps) ∧
      (m ≤ 15 → gone ≠ [] → runs (.reset svc mask) 3 [] [] (is [0, 0]) fun t => t.judge.cmd = j.cmd ∧
        t.judge.causes = u.judge.causes.filter fun c => !gone.contains c) ∧
      (m ≤ 15 → gone = [] → u.stoFree = false → runs (.reset svc mask) 3 [] [] (is [1, 0]) keeps) ∧
      (m ≤ 15 → gone = [] → u.stoFree = true → runs (.reset svc mask) 3 stoRegs [.island]
        (is [0, BitVec.ofNat 8 (m &&& j.cmd &&& (15 - j.ss1))]) fun t => ∀ g, g < 4 →
          let freed := bitAt m g = true ∧ bitAt j.cmd g = true ∧ bitAt (15 - j.ss1) g = true
          (freed → bitAt t.judge.cmd g = false ∧ bitAt t.island.stopLine g = false ∧ bitAt t.island.stoB g = false) ∧
          (¬ freed → bitAt t.judge.cmd g = bitAt j.cmd g))) ∧
    (∀ v : Byte,
      (v = 0 → runs (.mode svc v) 4 [] [] (is [0]) fun t => keeps t ∧ t.judge.enableReq = false) ∧
      (v = 1 → s.enabled = true → runs (.mode svc v) 4 [] [] (is [0]) fun t => keeps t ∧ t.judge.enableReq = true) ∧
      (v = 1 → s.enabled = false → JudgeMasks s → runs (.mode svc v) 4 stoRegs [.island] (is [0]) fun t =>
        t.judge.enableReq = true ∧ t.judge.cause = causeWord s 7 0 ∧ ∀ g, g < 4 → s.groupNat g 4 1 = 0 → bitAt t.judge.cmd g = true) ∧
      (1 < v.toNat → runs (.mode svc v) 4 [] [] (is [2]) fun t => keeps t ∧ t.judge.enableReq = j.enableReq)) ∧
    (∀ (off : W32) (data : List Byte), let n := data.length
      let sound := off.toNat % 4 = 0 ∧ n % 4 = 0 ∧ 4 ≤ n ∧ n ≤ 112 ∧ off.toNat + n ≤ 36868
      let at_ (m : Map Byte) (i : Nat) : Byte := mget (fun _ => 0) m i
      (sound → runs (.cfgWrite svc off data) 5 [] [] (is [0]) fun t => keeps t ∧
        (∀ i b, data[i]? = some b → at_ t.judge.stage (off.toNat + i) = b) ∧
        ∀ i, i < off.toNat ∨ off.toNat + n ≤ i → at_ t.judge.stage i = at_ j.stage i) ∧
      (¬ sound → n < 256 → runs (.cfgWrite svc off data) 5 [] [] (is [2]) fun t => keeps t ∧ t.judge.stage = j.stage)) ∧
    (∀ crc : W32,
      let found := ofBytes ((List.range 4).map fun i => mget (fun _ => (0 : Byte)) j.stage (36864 + i))
      let takes := j.cmd = 15 ∧ j.fallback = false ∧ found = crc.toNat ∧ State.cfgOk j.stage = true
      (takes → runs (.cfgCommit svc crc) 6 stoRegs [.island] (is (0 :: toBytes 4 crc.toNat)) fun t =>
        t.judge.cfg = j.stage ∧ t.judge.nor = j.stage ∧ t.judge.cfgValid = true ∧ t.judge.cfgCrc = crc ∧ t.judge.cmd = 15 ∧
          ∀ o, o < 128 → t.jout o = { rejoined := true }) ∧
      (¬ takes → runs (.cfgCommit svc crc) 6 [] [] (is (1 :: toBytes 4 j.cfgCrc.toNat)) fun t => keeps t ∧ t.judge.nor = j.nor)) ∧
    runs (.clearCounts svc) 7 [] [] (is [0]) (fun t => keeps t ∧ t.judge.crcDrop = 0 ∧ t.judge.seqDrop = 0 ∧ t.judge.copyDrop = 0 ∧
      (∀ o, (t.jout o).disagree = 0 ∧ (t.jout o).late = 0 ∧ (t.jout o).stray = 0) ∧ ∀ k, (t.jtask k).violations = 0) ∧
    (∀ b : List Byte, let num := BitVec.ofNat 16 (sliceNat b 0 2)
      let sound := b.length = 128 ∧ (crc32 (b.take 124)).toNat = sliceNat b 124 4 ∧ ∀ l, j.spSeq = some l → num = l + 1
      (s.holds 36 11 = true → ¬ sound → Does [] [.judge, .out] (exec (.sportFrame b) s) s fun t => waits t ∧
        t.judge = { j with spReply := [], spDrop := BitVec.ofNat 16 (satAdd 16 j.spDrop.toNat 1) }) ∧
      (s.holds 36 11 = true → sound → sliceNat b 2 1 = 0 → Does [] [.judge, .out] (exec (.sportFrame b) s) s fun t => waits t ∧
        t.judge.spReply = spFrame num.toNat 128 [0] ∧ t.judge.spSeq = some num ∧ t.judge.sportAt = s.uptime ∧ t.judge.cmd = j.cmd) ∧
      (s.holds 36 11 = true → sound → 8 ≤ sliceNat b 2 1 → Does [] [.judge, .out] (exec (.sportFrame b) s) s fun t => waits t ∧
        t.judge.spReply = spFrame num.toNat (sliceNat b 2 1 % 128 + 128) [3] ∧ t.judge.cmd = j.cmd) ∧
      (s.holds 36 11 = false → Does (denyRegs 36) [.judge, .out] (exec (.sportFrame b) s) s fun t => waits t ∧
        t.judge = { j with spReply := [] } ∧ t.fld (Reg.INC_CNT_COUNT 8) = satAdd 16 (s.fld (Reg.INC_CNT_COUNT 8)) 1)) ∧
    (s.holds 34 11 = false → Does (denyRegs 34) [.reply] (exec (.sportNop true) s) s fun t =>
      t.reply = { req := 34, status := .denied, value := 0 })

/-! ### Start-up, resets and power (16, 19, 20) -/

/-- R383, R387, R390, R394, R396, R399: the Lemquevin die boots with every group in STO; the rails release the die; MINT copies
the identity and picks the path, or fails; the self-test records what fails; channels train, fail and are tested; NAND
channels train. -/
def Obligations.StartStagesAct : Prop :=
  ∀ (s : State),
    let b := s.boot
    let fails (c : Instr) (code detail : Nat) : Prop := Does (Reg.SYS_START :: noteRegs s) [] (exec c s) s (FailedStart code detail s)
    let stage := s.bootStage
    let goes (n : Nat) (t : State) : Prop := t.fld Reg.SYS_START_STAGE = n
    (b.guardBooted = false → Does stoRegs [.judge, .island, .boot] (exec .guardBoot s) s fun t => t.judgeOn = true ∧
      t.judge.cmd = 15 ∧ t.island.stopLine = 15 ∧ t.judge.nor = s.judge.nor ∧ t.judge.cfgValid = State.cfgOk s.judge.nor ∧
        t.judge.causes = [] ∧ t.judge.fallback = false ∧ t.judge.linkUp = false ∧ t.boot = { b with guardBooted := true }) ∧
    (∀ svc ep, b.guardBooted = true → b.porHigh = false →
      Does [Reg.PORT_STRAP, Reg.SYS_START, Reg.SYS_RESET_STAT] [.boot] (exec (.rails svc ep) s) s fun t => goes 3 t ∧
        t.boot.porHigh = true ∧ t.boot.pgHigh = true ∧ t.boot.computeReset = true ∧ t.boot.porTime = s.uptime ∧
          t.flag Reg.PORT_STRAP_SVC = svc ∧ t.flag Reg.PORT_STRAP_PCIE_EP = ep ∧ t.fld Reg.SYS_START_FAIL = 0 ∧
          t.flag Reg.SYS_START_RESTART = false ∧ t.boot.mint = b.mint ∧ t.boot.nor = b.nor) ∧
    (stage = 3 →
      (b.mint.copy0Ok = false → b.mint.copy1Ok = false → fails .mint 1 0) ∧
      (b.mint.copy0Ok = true → b.nor.badSections = [] → b.mintNew = [] →
        Does ([Reg.SYS_ID, Reg.SYS_SERIAL, Reg.SYS_CAPS, Reg.SYS_MINT_STAT, Reg.NET_MAC, Reg.SYS_START] ++
          (List.range 4).map Reg.RELAY_LINK_STAT ++ stoRegs) [.boot, .island] (exec .mint s) s fun t => goes 4 t ∧
          t.fld Reg.SYS_ID_PART = b.mint.part.toNat ∧ t.fld Reg.SYS_ID_REV = b.mint.rev.toNat ∧ t.flag Reg.SYS_ID_MINT_COPY1 = false ∧
          t.reg Reg.SYS_SERIAL = b.mint.serial ∧ t.fld Reg.SYS_CAPS_UNITS = s.mintUnits ∧
          t.flag Reg.SYS_START_PATH = (s.saved.any fun v => v.fwVer == b.nor.ver && !v.coldNext) ∧
          (∀ l, l < 4 → s.present (7 + l) = true → t.fld (Reg.RELAY_LINK_STAT_STATE l) = 1) ∧
          t.boot.islRel = true ∧ (s.present 5 = true → t.island.reset = false))) ∧
    (∀ x : SelfTest, 4 ≤ stage → stage ≤ 7 → b.tested = false →
      (∀ d, State.sramFail x = some d → fails (.selfTest x) 4 d) ∧
      (State.sramFail x = none → x.voxel = false → x.tracker = false →
        Does [] [.boot, .judge] (exec (.selfTest x) s) s fun t => t.boot.tested = true ∧
          (∀ i : Fin 2112, i.val ∈ t.boot.tilesFail ↔ s.fenced i = false ∧ i ∈ x.tiles) ∧
          (∀ e, e < 8 → (e ∈ t.boot.enginesFail ↔ x.engines.getLsbD e = true)) ∧ t.judge.coverBase = s.uptime)) ∧
    (stage = 4 →
      (∀ full : W16, Does [Reg.SYS_START] [.boot] (exec (.dramTrain 0 full) s) s fun t => goes 5 t ∧
        t.boot = { b with dramCh := 0xFFFF, retrained := full != 0 }) ∧
      (∀ (ch : Fin 16) (full : W16), Does (Reg.SYS_START :: incRegs 10) [.boot] (exec (.dramTrain (1#16 <<< ch.val) full) s) s fun t =>
        goes 5 t ∧ t.boot.dramCh = 0xFFFF &&& ~~~(1#16 <<< ch.val) ∧
          t.fld (Reg.INC_CNT_COUNT 10) = satAdd 16 (s.fld (Reg.INC_CNT_COUNT 10)) 1) ∧
      (∀ full, Gives (exec (.dramTrain 0xFFFF full) s) fun t => goes 0xE t ∧ t.fld Reg.SYS_START_FAIL = 3 ∧ t.boot.dramCh = 0)) ∧
    (let kept (t : State) : Prop := ∀ a, a < 0x1000000000 ∨ 0x2000000000 ≤ a → t.byteAt a = s.byteAt a
     b.dramCh ≠ 0 →
      (stage = 5 → Does [Reg.SYS_START] [.mem] (exec (.dramTest 0 []) s) s fun t => goes (if b.fast then 7 else 6) t ∧ kept t) ∧
      (stage = 6 → ∀ bad, Does [Reg.SYS_START] [.mem, .boot] (exec (.retention 0 [] bad) s) s fun t => goes 7 t ∧ kept t ∧
        t.boot = { b with nandBad := bad.map fun e => (e.1.toNat, e.2) })) ∧
    (∀ ch : Fin 16, 4 ≤ stage → stage ≤ 7 → s.present 6 = true → let up (t : State) : Bool := bitAt (t.fld Reg.TELLER_NAND_CH_UP) ch
      Does [Reg.TELLER_NAND_CH] [] (exec (.nandTrain ch .full) s) s (fun t => up t = true) ∧
      Does (Reg.TELLER_NAND_CH :: incRegs 10 ++ noteRegs s) [] (exec (.nandTrain ch .slow) s) s (fun t => up t = true ∧
        Noted 5 (BitVec.ofNat 64 (256 + ch.val)) s t) ∧
      Does (Reg.TELLER_NAND_CH :: incRegs 10 ++ noteRegs s) [] (exec (.nandTrain ch .down) s) s fun t => up t = false ∧
        Noted 5 (BitVec.ofNat 64 ch.val) s t)

/-- R383, R391 to R395, R400 to R402: SETTLE binds the good tiles and engines and releases the compute domain; READY and a
restart's READY begin work; the fall of a supply stops the die; an image comes from outside. -/
def Obligations.StartEndsInReady : Prop :=
  ∀ (s : State),
    let b := s.boot
    let bad (kind i : Nat) : Prop := s.marked kind i = true ∨ i ∈ (if kind = 0 then b.tilesFail else b.enginesFail)
    let ready (t : State) : Prop := t.fld Reg.SYS_START_STAGE = 0xF ∧ t.boot.computeReset = false ∧ t.flag Reg.TELLER_CTL_EN = true
    let stopped (t : State) : Prop := t.boot.porHigh = false ∧ t.boot.computeReset = true ∧ t.island.reset = true ∧ (∀ c, (t.ctx c).stage = .undefined) ∧
      t.boot.mint = b.mint
    (s.bootStage = 7 → b.tested = true → b.computeReset = true →
      (∀ p : Fin 4, Does (Reg.SYS_START :: noteRegs s) [] (exec (.settle (some p)) s) s (FailedStart 5 p s)) ∧
      Gives (exec (.settle none) s) fun t => t.boot.computeReset = false ∧ t.boot.shadow = some b.nor ∧
        t.reg Reg.SYS_FW_VER = b.nor.ver.setWidth 64 ∧ t.fld Reg.SYS_CAPS_DRAM_PAGES = s.dramPages ∧
        (∀ i, i < 2112 → (i ∈ t.field.excluded ↔ bad 0 i)) ∧ (∀ e, e < 8 → (e ∈ t.boot.enginesOut ↔ bad 1 e)) ∧
        (∀ l i, t.tileOf l = some i → i < 2112 ∧ ¬ bad 0 i) ∧ t.fld Reg.FIELD_GEOM_ROWS = 32) ∧
    (∀ save ctl : W32, s.bootStage = 7 → b.computeReset = false → Gives (exec (.ready save ctl) s) fun t => ready t ∧
      t.fld Reg.SYS_START_MS_ALL = (s.uptime - b.porTime).toNat / 1000000 % 2 ^ 32) ∧
    (∀ (save ctl : W32) (img : Image), s.flag Reg.SYS_START_RESTART = true → s.power.unlocked = [] →
      s.flag Reg.PWR_STAT_THERM_TRIP = false → b.shadow = some img → s.fld Reg.RELAY_IMG_STAT_STATE ≠ 3 →
      Gives (exec (.restartReady none save ctl) s) fun t => ready t ∧ t.flag Reg.SYS_START_RESTART = false ∧
        t.flag Reg.SYS_RESET_STAT_BUSY = false ∧ t.reg Reg.SYS_FW_VER = img.ver.setWidth 64 ∧
        t.fld Reg.SYS_SSR_DUR_ALL = (s.uptime - b.ssrTime).toNat / 1000 % 2 ^ 32) ∧
    (s.flag Reg.SYS_START_RESTART = false → Gives (exec (.restartReady none 0 0) s) fun t => t.boot = s.boot) ∧
    (b.pgHigh = true → s.judgeOn = true → Gives (exec .swjPgFall s) fun t => stopped t ∧ t.boot.pgHigh = false ∧
      t.hasCause 11 = true ∧ ∀ g, g < 4 → bitAt t.judge.cmd g = true) ∧
    (∀ ver data, s.bootStage = 0xE → s.fld Reg.SYS_START_FAIL = 2 → b.guardBooted = true →
      Gives (exec (.imageRecovery false ver data) s) fun t => stopped t ∧ .porPulse ∈ t.out ∧
        t.boot.nor = { ver := ver, bytes := data.take 66846720, badSections := [] }) ∧
    Gives (exec .alwaysOnPowerOn s) fun t => (∀ k, t.reg k = State.reset.reg k) ∧ t.ctxs = [] ∧ t.lanes = State.reset.lanes ∧
      t.boot.porHigh = false ∧ t.boot.mint = b.mint ∧ t.boot.nor = b.nor ∧ t.boot.savedNew = b.savedNew ∧ t.judge = s.judge ∧
        t.pending = s.pending ∧ t.out = s.out ∧ (mwf (fun _ => ({} : Page)) s.teller.pages = true → ∀ p, (t.page p).entries = (s.page p).entries)

/-- R22, R23, R402, R462 to R464: a safe-state reset stops the compute domain and is counted, or is refused before READY; the
Mint's commands run one at a time and end in the saved settings or in the record. -/
def Obligations.ResetAndMintCommandsAct : Prop :=
  ∀ (s : State) (r : Requester),
    let b := s.boot
    let begun (cause who : Nat) (t : State) : Prop := t.boot.computeReset = true ∧ t.fld Reg.SYS_START_STAGE = 7 ∧
      t.flag Reg.SYS_START_RESTART = true ∧ t.flag Reg.SYS_RESET_STAT_BUSY = true ∧ t.fld Reg.SYS_RESET_STAT_LAST_CAUSE = cause ∧
      t.fld Reg.SYS_RESET_STAT_REQUESTER = who ∧ t.reg Reg.SYS_SSR_COUNT = s.reg Reg.SYS_SSR_COUNT + 1 ∧
      t.reg Reg.SYS_SSR_TIME = s.uptime ∧ t.boot.ssrTime = s.uptime ∧ (∀ c, (t.ctx c).stage = .undefined) ∧
      (s.island.reset = false → s.present 5 = true → t.islandHold = true) ∧
      (s.ctxs = [] → s.overlay = [] → s.teller.moves = [] → s.flag Reg.RELAY_PAIR_CFG_YIELD_SSR = false →
        ∀ a, 0x7000000 ≤ a → t.byteAt a = s.byteAt a)
    let busy := s.flag Reg.SYS_MINT_STAT_BUSY
    (s.holds r 9 = true →
      (s.isReady = true → Gives (exec (.ssr r) s) (begun 2 r)) ∧
      (s.isReady = false → Does [Reg.SYS_RESET_STAT] [] (exec (.ssr r) s) s fun t => t.flag Reg.SYS_RESET_STAT_ERR = true ∧
        t.fld Reg.SYS_RESET_STAT_LAST_CAUSE = s.fld Reg.SYS_RESET_STAT_LAST_CAUSE)) ∧
    (s.isReady = true ∨ s.flag Reg.SYS_START_RESTART = true → Gives (exec .ssrReqN s) (begun 1 0)) ∧
    (s.isReady = false → s.flag Reg.SYS_START_RESTART = false → Does [] [] (exec .ssrReqN s) s fun _ => True) ∧
    (s.holds r 9 = true → s.holds r 10 = true →
      ∀ c op, (c = .setColdNext r ∧ op = 1) ∨ (c = .clearLearned r ∧ op = 2) ∨ (c = .fuseLearned r ∧ op = 3) →
        (busy = false → Does [Reg.SYS_MINT_STAT] [.boot] (exec c s) s fun t => t.boot = { b with mintOp := op } ∧
          t.flag Reg.SYS_MINT_STAT_BUSY = true ∧ t.fld Reg.SYS_MINT_STAT_ERR = 0) ∧
        (busy = true → Does [Reg.SYS_MINT_STAT] [] (exec c s) s fun t => t.flag Reg.SYS_MINT_STAT_BUSY = true ∧
          t.fld Reg.SYS_MINT_STAT_ERR = 1)) ∧
    (busy = true → let shown := [Reg.SYS_MINT_STAT, Reg.SYS_START]
      let ended (t : State) : Prop := t.flag Reg.SYS_MINT_STAT_BUSY = false ∧ t.boot.mintOp = 0 ∧ t.boot.mint = b.mint
      (b.mintOp ≠ 3 → Does shown [.boot] (exec (.mintCommandComplete true) s) s fun t => ended t ∧ t.fld Reg.SYS_MINT_STAT_ERR = 3 ∧
        t.boot.savedNew = b.savedNew) ∧
      (∀ v, s.saved = some v →
        (b.mintOp = 1 → Does shown [.boot] (exec (.mintCommandComplete false) s) s fun t => ended t ∧
          t.flag Reg.SYS_START_COLD_NEXT = true ∧ t.saved = some { v with coldNext := true }) ∧
        (b.mintOp = 2 → Does shown [.boot] (exec (.mintCommandComplete false) s) s fun t => ended t ∧
          t.fld Reg.SYS_START_LEARNED = 0 ∧ t.saved = some { v with learned := [] }) ∧
        (b.mintOp = 3 → s.fuseList.length + b.mint.added.length + b.mintNew.length ≤ 32 →
          Does shown [.boot] (exec (.mintCommandComplete false) s) s fun t => ended t ∧ t.boot.mintNew = b.mintNew ++ s.fuseList ∧
            t.fld Reg.SYS_MINT_STAT_ADDED_FREE = 32 - (s.fuseList.length + b.mint.added.length + b.mintNew.length))))

/-- R449 to R455: a power sample moves the average, the peak, the effective cap and the reductions; a cap that cannot be met is
shown; temperatures set TEMP_C, its peak, HOT and TRIP, and the thermal limit follows; a droop lengthens cycles and is
counted when the last sensor clears; a PLL that loses lock holds its domain in reset until it has lock again. How TEMP_C rounds
is left open (assumption 2). -/
def Obligations.PowerEventsAct : Prop :=
  ∀ (s : State), s.boot.porHigh = true →
    let p := s.power
    (∀ (w : W16) (gap : W32), let l := (w.toNat :: p.samples).take 100
      let avg := l.foldl (· + ·) 0 / l.length % 65536
      let cap := Nat.min (Nat.min (Nat.max (s.fld Reg.PWR_CAP_WATTS) 35) 180) p.limit
      p.limit ≤ 180 →
      Does [Reg.PWR_CAP, Reg.PWR_MEAS, Reg.PWR_STAT, Reg.PWR_GAP_CYC] [.power] (exec (.powerSample w gap) s) s fun t =>
        t.power.samples = l ∧ t.power.limit = p.limit ∧ t.fld Reg.PWR_CAP_EFFECTIVE = cap ∧ t.fld Reg.PWR_MEAS_AVG = avg ∧
        t.fld Reg.PWR_MEAS_PEAK = Nat.max (s.fld Reg.PWR_MEAS_PEAK) w.toNat ∧
        t.reg Reg.PWR_GAP_CYC = (if p.step = 0 then s.reg Reg.PWR_GAP_CYC else s.reg Reg.PWR_GAP_CYC + gap.setWidth 64) ∧
        t.power.step = (if 100 * cap < avg then Nat.min (p.step + 1) 7 else if 300 + avg < 100 * cap then p.step - 1 else p.step) ∧
        (t.flag Reg.PWR_STAT_CAPPING = true ↔ t.power.step ≠ 0)) ∧
    (∀ u : Bool, let unmet := 100 * s.fld Reg.PWR_CAP_EFFECTIVE < s.fld Reg.PWR_MEAS_AVG ∧
        (u = true ∨ ∃ t0, p.overAt = some t0 ∧ 10000000 ≤ (s.uptime - t0).toNat)
      (unmet → Does [Reg.PWR_STAT] [] (exec (.capUnmet u) s) s fun t => t.fld Reg.PWR_STAT_CAP_UNMET = 1) ∧
      (¬ unmet → Does [] [] (exec (.capUnmet u) s) s fun _ => True)) ∧
    (∀ (a : BitVec 10) (rest : List (BitVec 10)),
      let raw := a :: rest
      let q := State.maxInt (((raw.take 8).zipIdx).map fun e => e.1.toInt - (mget (fun _ => (0 : Byte)) s.boot.mint.trim (0x060 + e.2)).toInt)
      Does [Reg.PWR_THERM, Reg.PWR_STAT] [.power] (exec (.tempSample raw) s) s fun t =>
        (t.tempC = Max.max (-128) (Min.min (Int.fdiv q 4) 127) ∨
          (Int.fmod q 4 ≠ 0 ∧ t.tempC = Max.max (-128) (Min.min (Int.fdiv q 4 + 1) 127))) ∧
        (t.flag Reg.PWR_STAT_THERM_HOT = true ↔ s.hotC < t.tempC) ∧
        (460 ≤ q → t.flag Reg.PWR_STAT_THERM_TRIP = true) ∧
        (q < 460 → t.flag Reg.PWR_STAT_THERM_TRIP = s.flag Reg.PWR_STAT_THERM_TRIP) ∧
        t.power.peakC = some ((p.peakC.map fun x => Max.max x t.tempC).getD t.tempC)) ∧
    (p.limit ≤ 180 → Does [Reg.PWR_CAP] [.power] (exec .thermalLimitStep s) s fun t =>
      t.power = { p with limit := if s.hotC < s.tempC then Nat.max (p.limit - 5) 35 else
                           if s.tempC < s.hotC - 5 then Nat.min (p.limit + 5) 180 else p.limit } ∧
      t.fld Reg.PWR_CAP_EFFECTIVE = Nat.min (Nat.min (Nat.max (s.fld Reg.PWR_CAP_WATTS) 35) 180) t.power.limit) ∧
    (∀ n : Fin 64, Does [Reg.PWR_DROOP_LAST] [.power] (exec (.droopTrip n) s) s (fun t => n.val ∈ t.power.tripped ∧
        (∀ m ∈ p.tripped, m ∈ t.power.tripped) ∧ t.fld Reg.PWR_DROOP_LAST_SENSOR = n) ∧
      ∀ (cycles : W64) (worst : Fin 1025), p.tripped = [n.val] →
        Does [Reg.PWR_STRETCH_CYC, Reg.PWR_STAT] [.power] (exec (.droopRecover n cycles worst) s) s fun t => t.power.tripped = [] ∧
          t.reg Reg.PWR_STRETCH_CYC = s.reg Reg.PWR_STRETCH_CYC + cycles ∧ (200 < worst.val → t.fld Reg.PWR_STAT_STRETCH_OVER = 1) ∧
          (worst.val ≤ 200 → t.reg Reg.PWR_STAT = s.reg Reg.PWR_STAT)) ∧
    (∀ k : Fin 12,
      (k.val ∉ p.unlocked →
        (2 ≤ k.val → Does [Reg.PWR_STAT] [.power] (exec (.pllUnlock k) s) s fun t => bitAt (t.fld Reg.PWR_STAT_PLL_UNLOCK) k = true ∧
          t.power = { p with unlocked := p.unlocked ++ [k.val] }) ∧
        (k.val = 1 → Gives (exec (.pllUnlock k) s) fun t => bitAt (t.fld Reg.PWR_STAT_PLL_UNLOCK) 1 = true ∧ t.island.reset = true ∧
          t.island.stopLine = s.island.stopLine ∧ 1 ∈ t.power.unlocked ∧
          ∀ q, State.pacerKey q = false → q ≠ Reg.PWR_STAT → t.reg q = s.reg q) ∧
        (k.val = 0 → Gives (exec (.pllUnlock k) s) fun t => bitAt (t.fld Reg.PWR_STAT_PLL_UNLOCK) 0 = true ∧
          t.boot.computeReset = true ∧ (∀ c, (t.ctx c).stage = .undefined) ∧ (s.island.reset = false → s.present 5 = true → t.islandHold = true))) ∧
      (k.val ∈ p.unlocked →
        let out (t : State) : Prop := t.power = { p with unlocked := p.unlocked.filter (· != k.val) }
        (k.val = 0 → s.isReady = true → Does [] [.power, .boot] (exec (.pllRelock k) s) s fun t => out t ∧
          t.boot = { s.boot with computeReset := false }) ∧
        (k.val = 1 → s.boot.islRel = true → s.present 5 = true → Does stoRegs [.power, .island, .boot] (exec (.pllRelock k) s) s fun t =>
          out t ∧ t.island.reset = false) ∧
        (2 ≤ k.val → Does [] [.power] (exec (.pllRelock k) s) s out)))

/-! ### Pairs, links, groups and images (17) -/

/-- R403 to R408, R411 to R413: a pair forms, and one module takes the duty; heartbeats are sent and taken, and their loss ends a
duty module's pair or shows a split; the standby applies mirror records; the duty module sends checkpoints, hands the duty
over once its contexts are in lwrel, and a standby takes it when it may. -/
def Obligations.PairsAct : Prop :=
  ∀ (s : State) (r : Requester),
    let stat := Reg.RELAY_PAIR_STAT
    let st := s.fld Reg.RELAY_PAIR_STAT_STATE
    let forces := (List.range 12).map Reg.PWM_BR_FORCE ++ (List.range 12).map Reg.PWM_BR_STAT
    let up (l : Nat) : Prop := 2 ≤ s.fld (Reg.RELAY_LINK_STAT_STATE l)
    let is (state duty : Nat) (t : State) : Prop := t.fld Reg.RELAY_PAIR_STAT_STATE = state ∧ t.fld Reg.RELAY_PAIR_STAT_DUTY = duty
    let off (t : State) : Prop := ∀ b, b < 12 → t.pairForced b = true → t.fld (Reg.PWM_BR_FORCE_FORCE b) = 0x3F
    let uncovered := ∀ c, s.covered c = false
    let err (c : Instr) (e : Nat) : Prop := Does [stat] [] (exec c s) s fun t => t.fld Reg.RELAY_PAIR_STAT_ERR = e ∧
      is st (s.fld Reg.RELAY_PAIR_STAT_DUTY) t
    (∀ serial pref duty, let want := s.reg Reg.RELAY_PAIR_EXPECT
      let mine := s.flag Reg.RELAY_PAIR_STAT_DUTY
      let own := s.flag Reg.RELAY_PAIR_CFG_ROLE_PREF
      let wins := if mine = duty then (if own = pref then s.boot.mint.serial.toNat < serial.toNat else own = true) else mine = true
      s.flag Reg.RELAY_PAIR_CFG_EN = true → st = 0 → s.isReady = true → up s.pairLink → want = 0 ∨ want = serial →
      (wins → s.ctxs = [] → s.flag Reg.RELAY_PAIR_CFG_TRACKS = false →
        Does [stat, Reg.RELAY_PAIR_PARTNER] [.relay] (exec (.pairForm true serial pref duty) s) s fun t => is 1 1 t ∧
          t.reg Reg.RELAY_PAIR_PARTNER = serial ∧ t.isDuty = true ∧ t.relay.hbMain = s.uptime ∧ t.relay.hbAlt = s.uptime) ∧
      (¬ wins → uncovered →
        Does (stat :: Reg.RELAY_PAIR_PARTNER :: forces) [.relay, .island] (exec (.pairForm true serial pref duty) s) s fun t => is 1 0 t ∧
          t.reg Reg.RELAY_PAIR_PARTNER = serial ∧ t.isStandby = true ∧ off t ∧ t.fld Reg.RELAY_PAIR_STAT_DUTY_IN = 1)) ∧
    (st = 1 → s.flag Reg.RELAY_PAIR_STAT_DUTY = true → Does [stat] [] (exec .pairSynced s) s (is 2 1)) ∧
    (∀ alt : Bool, let l := s.hbLink alt
      let sent (t : State) : Prop := t.out = s.out ++ [.heartbeat l s.isDuty st s.localLanes]
      let hb := if alt then Reg.RELAY_PAIR_STAT_HB_ALT else Reg.RELAY_PAIR_STAT_HB_MAIN
      st ≠ 0 → (alt = true → s.flag Reg.RELAY_PAIR_CFG_ALT_EN = true) →
      (up l → Does [] [.out] (exec (.pairHeartbeat alt none) s) s sent) ∧
      (∀ h : Heartbeat, up l → s.isStandby = false → h.line = true →
        Does [stat] [.out, .relay] (exec (.pairHeartbeat alt (some h)) s) s fun t => sent t ∧ t.fld hb = 1 ∧
          t.fld Reg.RELAY_PAIR_STAT_DUTY_IN = 1 ∧ (if alt then t.relay.hbAlt else t.relay.hbMain) = s.uptime) ∧
      (∀ h : Heartbeat, up l → s.isStandby = true → h.line = false → h.yielded = false → s.relay.yieldIn = false → h.lanes = [] →
        Does [stat] [.out, .relay] (exec (.pairHeartbeat alt (some h)) s) s fun t => sent t ∧ t.fld hb = 1 ∧
          t.fld Reg.RELAY_PAIR_STAT_DUTY_IN = 0 ∧ t.fld Reg.RELAY_PAIR_STAT_LINE_FAULT = 1) ∧
      (s.pathLost alt = true → s.allLost = false → Does [stat] [] (exec (.heartbeatLoss alt) s) s fun t => t.fld hb = 0 ∧
        t.fld Reg.RELAY_PAIR_STAT_STATE = st) ∧
      (s.pathLost alt = true → s.allLost = true → s.isStandby = false → Does [stat] [] (exec (.heartbeatLoss alt) s) s fun t =>
        t.fld hb = 0 ∧ t.fld Reg.RELAY_PAIR_STAT_STATE = 0) ∧
      (s.pathLost alt = true → s.allLost = true → s.isStandby = true → s.flag Reg.RELAY_PAIR_STAT_DUTY_IN = true →
        Does (stat :: incRegs 10) [] (exec (.heartbeatLoss alt) s) s fun t => t.fld hb = 0 ∧ t.fld Reg.RELAY_PAIR_STAT_STATE = 0 ∧
          t.fld Reg.RELAY_PAIR_STAT_SPLIT = 1)) ∧
    (s.flag Reg.RELAY_PAIR_STAT_DUTY_IN = true → Does [stat] [.relay] (exec .dutyInFall s) s fun t =>
      t.fld Reg.RELAY_PAIR_STAT_DUTY_IN = 0 ∧ t.relay = { s.relay with dutyLow := s.uptime }) ∧
    (let applied (t : State) : Prop := t.reg Reg.RELAY_MIRROR_APPLIED = s.reg Reg.RELAY_MIRROR_APPLIED + 1
     (s.isStandby = false → ∀ m, Does [] [] (exec (.mirrorRecordApply m) s) s fun _ => True) ∧
     (s.isStandby = true →
      (∀ (pa : BitVec 44) (data : List Byte), data ≠ [] → pa.toNat % 65536 + data.length ≤ 65536 →
        s.isVdHome (pa.toNat / 65536) = true → s.poisonedAt pa.toNat = false → s.movingAt pa.toNat = false →
        (∀ i, i < data.length → s.winAt (pa.toNat + i) = none) →
        Does [Reg.RELAY_MIRROR_APPLIED] [.mem, .teller, .field] (exec (.mirrorRecordApply (.write pa data)) s) s fun t => applied t ∧
          MemKeptOutside pa.toNat data.length s t ∧ ∀ i b, data[i]? = some b → t.byteAt (pa.toNat + i) = b) ∧
      (∀ slot x id, slot < 1024 → Does [Reg.RELAY_MIRROR_APPLIED] [.fusion] (exec (.mirrorRecordApply (.tracks [(slot, x)] id)) s) s
        fun t => applied t ∧ t.fusion.nextId = id ∧ mget (fun _ => none) t.fusion.tracks slot = some x ∧
          ∀ k, k ≠ slot → mget (fun _ => (none : Option Track)) t.fusion.tracks k = none) ∧
      (∀ (c : CtxId) (img : CtxImage), s.covered c = true → (s.ctx c).stage = .escrow →
        Does [Reg.RELAY_MIRROR_APPLIED] [.ctxs, .field, .lanes, .relay] (exec (.mirrorRecordApply (.image c img)) s) s fun t => applied t ∧
          c.val ∈ t.relay.current ∧ CtxsKept c s t ∧ t.ctx c = { s.ctx c with
            pc := img.pc, sregs := img.sregs, preds := img.preds, descs := img.descs, swinSave := img.sprint
            wait := some (.lwrel img.pd img.sd img.dl) }))) ∧
    (∀ (c : CtxId) (img : CtxImage), s.isDuty = true → s.covered c = true → s.imageOf c = some img → s.relay.handover = false →
      up s.pairLink → Does [Reg.RELAY_MIRROR_SENT] [.out] (exec (.contextCheckpoint c) s) s fun t =>
        t.out = s.out ++ [.checkpoint s.pairLink c img] ∧ t.reg Reg.RELAY_MIRROR_SENT = s.reg Reg.RELAY_MIRROR_SENT + 1) ∧
    (let may (y : Bool) : Prop := s.isStandby = true ∧ s.flag Reg.RELAY_PAIR_STAT_DUTY_IN = false ∧
        5000 ≤ (s.uptime - s.relay.dutyLow).toNat ∧
        (((s.relay.yieldIn = true ∨ y = true) ∧ st = 2) ∨ s.relay.take = true ∨ s.allLost = true)
     (∀ y, may y → s.ctxs = [] → s.flag Reg.RELAY_PAIR_CFG_TRACKS = false →
      Does (stat :: Reg.RELAY_FAILOVER_CNT :: forces) [.relay, .island, .judge] (exec (.dutyTakeover y) s) s fun t =>
        t.flag Reg.RELAY_PAIR_STAT_DUTY = true ∧ (∀ b, b < 12 → s.pairForced b = true → t.fld (Reg.PWM_BR_FORCE_FORCE b) = 0) ∧
          t.fld Reg.RELAY_FAILOVER_CNT_TAKEOVERS = satAdd 16 (s.fld Reg.RELAY_FAILOVER_CNT_TAKEOVERS) 1 ∧
          t.relay = { s.relay with yieldIn := false, take := false, handover := false } ∧
          ∀ o, (t.jout o).rejoined = false ∧ (t.jout o).e0 = none) ∧
     (∀ y, ¬ may y → Does [] [] (exec (.dutyTakeover y) s) s fun _ => True)) ∧
    (s.holds r 8 = true →
      (¬ (s.isDuty = true ∧ st = 2) → err (.handover r) 2) ∧
      (s.isDuty = true → st = 2 → s.allInLwrel = false → Does [stat] [.relay] (exec (.handover r) s) s fun t => is 2 1 t ∧
        t.relay = { s.relay with handover := true } ∧ t.fld Reg.RELAY_PAIR_STAT_ERR = 0) ∧
      (s.isDuty = true → st = 2 → uncovered → up s.yieldLink →
        Does (stat :: Reg.RELAY_FAILOVER_CNT :: forces) [.relay, .island, .out] (exec (.handover r) s) s fun t => is 1 0 t ∧ off t ∧
          t.out = s.out ++ [.yield s.yieldLink] ∧ t.relay.handover = false ∧
          t.fld Reg.RELAY_FAILOVER_CNT_YIELDS = satAdd 16 (s.fld Reg.RELAY_FAILOVER_CNT_YIELDS) 1) ∧
      (s.holds r 10 = true → let may := s.isStandby = true ∧ s.flag Reg.RELAY_PAIR_STAT_DUTY_IN = false ∧ (r.val = 34 ∨ r.val = 35)
        (¬ may → err (.take r) 1) ∧
        (may → Does [stat] [.relay] (exec (.take r) s) s fun t => t.relay = { s.relay with take := true } ∧
          t.fld Reg.RELAY_PAIR_STAT_ERR = 0)) ∧
      Does [stat] [] (exec (.leave r) s) s fun t => is 0 (s.fld Reg.RELAY_PAIR_STAT_DUTY) t ∧ t.fld Reg.RELAY_PAIR_STAT_ERR = 0)

/-- R397, R414 to R416, R418: a link trains with eight lanes, with four or more, or not; it retrains when commanded or after more
than 64 CRC errors; group data is sent, forwarded and received; an image is written or fetched, and activated in a restart. -/
def Obligations.LinksGroupsAndImagesAct : Prop :=
  ∀ (s : State) (r : Requester),
    let state (l : Nat) (t : State) : Nat := t.fld (Reg.RELAY_LINK_STAT_STATE l)
    (∀ (l : Fin 4) (mask reach : Byte), s.present (7 + l) = true →
      let n := ((List.range 8).filter fun k => mask.getLsbD k).length
      let was := mget (fun _ => 0) s.relay.bad l.val
      let ks := [Reg.RELAY_LINK_STAT l, Reg.RELAY_GRP_CFG]
      let ends (c : Instr) : Prop :=
        (n = 8 → Does ks [.relay, .out] (exec c s) s fun t => state l t = 2 ∧ t.fld (Reg.RELAY_LINK_STAT_LANES l) = 8 ∧
          t.fld (Reg.RELAY_LINK_STAT_LANE_MASK l) = 0xFF ∧ t.out = s.out ++ ((s.relay.held.filter fun e => e.1 == l.val).map (·.2)) ∧
          t.relay.held = (s.relay.held.filter fun e => e.1 != l.val) ∧
          ∀ m, m < 8 → s.routeOf m = l.val → m ≠ s.fld Reg.RELAY_GRP_CFG_INDEX →
            bitAt (t.fld Reg.RELAY_GRP_CFG_REACHABLE) m = reach.getLsbD m) ∧
        (4 ≤ n → n < 8 → was ≠ 1 → Does (ks ++ incRegs 10) [.relay, .out] (exec c s) s fun t => state l t = 3 ∧
          t.fld (Reg.RELAY_LINK_STAT_LANES l) = n ∧ t.fld (Reg.RELAY_LINK_STAT_LANE_MASK l) = mask.toNat ∧
          t.fld (Reg.INC_CNT_COUNT 10) = satAdd 16 (s.fld (Reg.INC_CNT_COUNT 10)) 1) ∧
        (n < 4 → was = 2 → Does ks [.relay] (exec c s) s fun t => state l t = 0 ∧ t.fld (Reg.RELAY_LINK_STAT_LANES l) = 0 ∧
          t.relay.held = s.relay.held)
      (s.boot.porHigh = true → s.fld Reg.SYS_START_STAGE ≠ 3 → state l s < 2 → ends (.relayLinkTrain l mask reach)) ∧
      (state l s = 1 → ends (.linkRetrainComplete l mask reach)) ∧
      (let drops (c : Instr) (crc : Nat) : Prop := Does [Reg.RELAY_LINK_STAT l, Reg.RELAY_LINK_CNT l] [] (exec c s) s fun t => state l t = 1 ∧
        t.fld (Reg.RELAY_LINK_CNT_RETRAINS l) = satAdd 16 (s.fld (Reg.RELAY_LINK_CNT_RETRAINS l)) 1 ∧
        t.fld (Reg.RELAY_LINK_CNT_CRC_ERR l) = satAdd 16 (s.fld (Reg.RELAY_LINK_CNT_CRC_ERR l)) crc
       (s.holds r 8 = true → state l s ≠ 1 → drops (.retrain r l) 0) ∧
       (∀ k : W16, 2 ≤ state l s → (64 < k.toNat → drops (.linkCrcBurst l k) k.toNat) ∧
        (k.toNat ≤ 64 → Does [Reg.RELAY_LINK_CNT l] [] (exec (.linkCrcBurst l k) s) s fun t => state l t = state l s ∧
          t.fld (Reg.RELAY_LINK_CNT_CRC_ERR l) = satAdd 16 (s.fld (Reg.RELAY_LINK_CNT_CRC_ERR l)) k.toNat)))) ∧
    (∀ c : Fin 16, s.flag Reg.RELAY_GRP_CFG_EN = true → s.boot.computeReset = false → s.flag (Reg.RELAY_GCH_CFG_EN c) = true →
      let a := (s.gchSpan c).1
      let room := (s.gchSpan c).2
      let pa := s.gchRcpt c
      let w := s.fld (Reg.RELAY_GCH_RCPT_WIN c)
      let m := s.fld (Reg.RELAY_GCH_CFG_PEER c)
      let counted (t : State) : Prop := t.fld (Reg.RELAY_GCH_CNT_TRANSFERS c) = satAdd 16 (s.fld (Reg.RELAY_GCH_CNT_TRANSFERS c)) 1
      (s.flag (Reg.RELAY_GCH_CFG_DIR c) = false → s.groupLink (s.routeOf m) = true → 2 ≤ state (s.routeOf m) s →
        s.sourceReads a room = true → s.rcptWin pa = some w → s.overMode w = true → rcptState (s.rcptWord pa) ≠ 0 →
        Does [Reg.RELAY_GCH_CNT c] [.out] (exec (.groupSend c) s) s fun t => counted t ∧
          t.out = s.out ++ [.group (s.routeOf m) m (s.fld (Reg.RELAY_GCH_CFG_PEER_CH c)) (s.bytesAt a room)]) ∧
      (∀ (l : Fin 4) (dest : Fin 8) (data : List Byte), 2 ≤ state l s →
        (dest.val ≠ s.fld Reg.RELAY_GRP_CFG_INDEX → s.groupLink (s.routeOf dest) = true → 2 ≤ state (s.routeOf dest) s →
          Does [] [.out] (exec (.groupRecv l dest c data) s) s fun t =>
            t.out = s.out ++ [.group (s.routeOf dest) dest c data]) ∧
        (dest.val = s.fld Reg.RELAY_GRP_CFG_INDEX → s.flag (Reg.RELAY_GCH_CFG_DIR c) = true →
          (room < data.length → Does [Reg.RELAY_GCH_CNT c] [] (exec (.groupRecv l dest c data) s) s fun t =>
            t.fld (Reg.RELAY_GCH_CNT_DROPS c) = satAdd 16 (s.fld (Reg.RELAY_GCH_CNT_DROPS c)) 1) ∧
          (data.length ≤ room → s.rcptWin pa = some w → s.overMode w = false → s.canTake pa (.unit 0xA c) = true →
            s.flag (Reg.RELAY_GCH_TALLY_EN c) = false → s.sourceReads a data.length = true →
            (∀ i, i < data.length → s.winAt (a + i) = none) →
            (∀ k p n pd sd dl, (s.ctx k).wait ≠ some (.rcpt p n pd sd dl)) →
            Does [Reg.RELAY_GCH_CNT c] [.mem, .teller, .field, .tally] (exec (.groupRecv l dest c data) s) s fun t => counted t ∧
              (∀ i b, data[i]? = some b → t.byteAt (a + i) = b) ∧ t.holder pa = none ∧ rcptState (t.rcptWord pa) = 1 ∧
                rcptSeq (t.rcptWord pa) = rcptSeq (rcptSeq (s.rcptWord pa) + 1))))) ∧
    (let img := Reg.RELAY_IMG_STAT
     let st := s.fld Reg.RELAY_IMG_STAT_STATE
     let shows (state crc err : Nat) (t : State) : Prop := t.fld Reg.RELAY_IMG_STAT_STATE = state ∧
      t.fld Reg.RELAY_IMG_STAT_CRC_OK = crc ∧ t.fld Reg.RELAY_IMG_STAT_ERR = err
     (s.holds r 8 = true → st ≠ 1 → ∀ c fetch, (c = .imgWrite r ∧ fetch = false) ∨ (c = .imgFetch r ∧ fetch = true) →
      Does [img] [.boot, .relay] (exec c s) s fun t => shows 1 0 0 t ∧ t.fld Reg.RELAY_IMG_STAT_DONE_KIB = 0 ∧
        t.boot.nor.badSections ≠ [] ∧ t.relay.fetch = fetch ∧ t.relay.norWas = some s.boot.nor) ∧
     (st = 1 →
      Does [img] [] (exec (.imageWriteComplete .failed) s) s (fun t => shows 0 (s.fld Reg.RELAY_IMG_STAT_CRC_OK) 3 t) ∧
      (s.relay.fetch = true → Does [img] [.boot] (exec (.imageWriteComplete .refused) s) s fun t =>
        shows 0 (s.fld Reg.RELAY_IMG_STAT_CRC_OK) 2 t ∧ t.boot.nor = s.relay.norWas.getD s.boot.nor) ∧
      ∀ ver data bad, let bytes := if s.relay.fetch then data else s.relay.img
        Does [img] [.boot] (exec (.imageWriteComplete (.written ver data bad)) s) s fun t =>
          shows 2 (if bad = [] then 1 else 0) (s.fld Reg.RELAY_IMG_STAT_ERR) t ∧
            t.boot.nor = { ver := ver, bytes := bytes, badSections := bad } ∧
            t.fld Reg.RELAY_IMG_STAT_DONE_KIB = bytes.length / 1024 % 2 ^ 24) ∧
     (s.holds r 8 = true →
      let may := s.flag Reg.RELAY_IMG_STAT_CRC_OK = true ∧
        ¬ (s.flag Reg.RELAY_PAIR_STAT_DUTY = true ∧ s.fld Reg.RELAY_PAIR_STAT_STATE ≠ 2)
      (¬ may → Does [img] [] (exec (.activate r) s) s fun t => t.fld Reg.RELAY_IMG_STAT_ERR = 1) ∧
      (may → s.isReady = true → Gives (exec (.activate r) s) fun t => t.fld Reg.RELAY_IMG_STAT_STATE = 3 ∧
        t.boot.shadow = some s.boot.nor ∧ t.boot.computeReset = true ∧ t.fld Reg.SYS_RESET_STAT_LAST_CAUSE = 3 ∧
          t.fld Reg.SYS_RESET_STAT_REQUESTER = r)))

/-! ### Cameras, hot-plug lines, slow buses and links (18) -/

/-- R425 to R427, R437, R438, R52: packets of a camera build a frame; it is dropped when its hold-mode Receipt is still POSTED, and
otherwise its header, its samples and its Receipt are written; a qualified edge of an HPD line is shown, and the departure of
a camera ends its frame and its Lane. -/
def Obligations.CamerasAndLinesAct : Prop :=
  ∀ (s : State) (k : Fin 8),
    let x := s.cam k
    let is (u : CamUnit) (t : State) : Prop := t.cam k = u ∧ ∀ j, j ≠ k.val → t.cam j = s.cam j
    let win := s.fld (Reg.CAM_RCPT_WIN k)
    let pa := s.rcptAddr win (s.fld (Reg.CAM_RCPT_RCPT k))
    let w := s.fld (Reg.CAM_SIZE_W k)
    let h := s.fld (Reg.CAM_SIZE_H k)
    let hIn := s.fld (Reg.CAM_IN_SIZE_H k)
    (s.flag (Reg.CAM_CFG_EN k) = true → s.hpd k = true → s.present 11 = true → s.boot.computeReset = false →
      let on (p : CsiPacket) : Prop := p.headerOk = true ∧ p.vc.val = s.fld (Reg.CAM_CFG_VC k)
      (∀ p : CsiPacket, p.headerOk = false → Does [Reg.CAM_STAT k] [] (exec (.csiPacket k p) s) s fun t =>
        t.fld (Reg.CAM_STAT_ERR k) = satAdd 16 (s.fld (Reg.CAM_STAT_ERR k)) 1) ∧
      (∀ p : CsiPacket, p.headerOk = true → p.vc.val ≠ s.fld (Reg.CAM_CFG_VC k) → exec (.csiPacket k p) s = .next s) ∧
      (∀ p n, on p → p.body = .frameStart n → Does [] [.port] (exec (.csiPacket k p) s) s (is { x with cur := some { num := n } })) ∧
      (∀ p dt px c, on p → p.body = .line dt px → x.cur = some c →
        (dt.val ≠ s.fld (Reg.CAM_CFG_DT k) → exec (.csiPacket k p) s = .next s) ∧
        (dt.val = s.fld (Reg.CAM_CFG_DT k) → Does [] [.port] (exec (.csiPacket k p) s) s
          (is { x with cur := some { num := c.num, lines := c.lines ++ [px], crcErr := c.crcErr || !p.crcOk } }))) ∧
      (∀ p c, on p → p.body = .frameEnd → x.cur = some c → Does [] [.port] (exec (.csiPacket k p) s) s fun t =>
        ∃ num : W64, is { x with cur := none, last := some num, done := x.done ++
            [{ num := num, stamp := s.laneVal (s.fld (Reg.CAM_CFG_LANE k)), lines := c.lines, crcErr := c.crcErr
               short := c.lines.length != hIn
               drop := s.rcptWin pa == some win && !s.overMode win && rcptState (s.rcptWord pa) == 1 }] } t ∧
          num.toNat % 65536 = c.num.toNat ∧ (x.last = none → num = c.num.setWidth 64) ∧
            ∀ q, x.last = some q → -(2 ^ 15) ≤ (num - q).toInt ∧ (num - q).toInt < 2 ^ 15)) ∧
    (∀ d rest, x.done = d :: rest →
      (d.drop = true → Does [Reg.CAM_STAT k] [.port] (exec (.frameReceiptPost k) s) s fun t => is { x with done := rest } t ∧
        t.fld (Reg.CAM_STAT_DROP k) = satAdd 16 (s.fld (Reg.CAM_STAT_DROP k)) 1) ∧
      (d.drop = false → s.rcptWin pa = some win → s.flag (Reg.CAM_TALLY_EN k) = false → s.fld (Reg.CAM_CFG_OUT_FMT k) = 0 →
        s.fld (Reg.CAM_CFG_DT k) ≠ 0x1E → w = s.fld (Reg.CAM_IN_SIZE_W k) → h = hIn →
        let seq := rcptSeq (rcptSeq (s.rcptWord pa) + 1)
        let a := 65536 * (s.fld (Reg.CAM_BUF_BASE_ADDR k) +
          seq % Nat.max 1 (s.fld (Reg.CAM_CFG_COUNT k)) * s.fld (Reg.CAM_CFG_STRIDE k))
        let n := 64 + 2 * w * h
        s.sourceReads a n = true → (∀ i, i < n → s.winAt (a + i) = none) →
        (∀ c p m pd sd dl, (s.ctx c).wait ≠ some (.rcpt p m pd sd dl)) →
        let posted (lost : Bool) : Prop := Does [] [.mem, .teller, .field, .tally, .port] (exec (.frameReceiptPost k) s) s fun t =>
          is { x with done := rest } t ∧ rcptState (t.rcptWord pa) = 1 ∧ rcptSeq (t.rcptWord pa) = seq ∧
          t.natAt (s.noteAddr win pa) 8 = s.noteWord false false lost 9 0x100 ∧
          t.natAt a 8 = d.stamp.toNat ∧ t.natAt (a + 8) 8 = d.num.toNat ∧ t.natAt (a + 16) 8 = seq ∧ t.natAt (a + 24) 2 = w ∧
          t.natAt (a + 26) 2 = h ∧ t.natAt (a + 28) 1 = 0 ∧ t.natAt (a + 29) 1 = b2n d.crcErr + 2 * b2n d.short ∧
          ∀ (i j : Nat) (v : W16), i < w → j < h → (d.lines[j]?).bind (fun (l : List W16) => l[i]?) = some v →
            t.natAt (a + 64 + 2 * (w * j + i)) 2 = v.toNat
        (s.overMode win = false → s.canTake pa (.unit 9 k) = true → posted false) ∧
        (s.overMode win = true → posted (rcptState (s.rcptWord pa) == 1)))) ∧
    (∀ l, mget (fun _ => none) s.lanes.camTrig k = some l → l ≤ s.lanes.ticks →
      Does [] [.lanes] (exec (.camTriggerPulseEnd k) s) s fun t => mget (fun _ => none) t.lanes.camTrig k = none ∧
        (∀ j, j ≠ k.val → mget (fun _ => none) t.lanes.camTrig j = mget (fun _ => none) s.lanes.camTrig j) ∧
          t.lanes = { s.lanes with camTrig := t.lanes.camTrig }) ∧
    (∀ (n : Fin 16) (up : Bool), s.boot.porHigh = true → s.hpd n ≠ up →
      let of (l : Nat) : Prop := s.flag (Reg.LANE_CFG_EN l) = true ∧ s.laneSrc l = 4 ∧ s.fld (Reg.LANE_CFG_SRC_IDX l) = n
      let shown (t : State) : Prop := (∀ m, m < 16 → t.hpd m = if m = n.val then up else s.hpd m) ∧
        bitAt (t.fld Reg.PORT_HP_STAT_CHANGED) n = true ∧
        bitAt (t.fld (if up then Reg.PORT_HP_EVT_ARRIVED else Reg.PORT_HP_EVT_DEPARTED)) n = true ∧
        ∀ j, t.cam j = if j = n.val ∧ j < 8 then { s.cam j with cur := none, last := none } else s.cam j
      s.flag Reg.PORT_HP_CFG_TALLY_EN = false →
      (up = true ∨ 8 ≤ n.val ∨ (∀ l, l < 16 → ¬ of l) →
        Does [Reg.PORT_HP_STAT, Reg.PORT_HP_EVT] [.port] (exec (.hpdQualified n up) s) s shown) ∧
      (up = false → n.val < 8 → NoStreams s →
        Does ([Reg.PORT_HP_STAT, Reg.PORT_HP_EVT] ++ (List.range 16).map Reg.LANE_STAT) [.port] (exec (.hpdQualified n up) s) s fun t =>
          shown t ∧ ∀ l, l < 16 → of l → t.fld (Reg.LANE_STAT_SRC_LOST l) = 1 ∧ t.fld (Reg.LANE_STAT_RUN l) = 0)) ∧
    (∀ (n : Fin 16) (up : Bool), s.boot.porHigh = true → s.hpd n ≠ up → s.flag Reg.PORT_HP_CFG_TALLY_EN = true →
      let i := s.fld Reg.PORT_HP_CFG_TALLY
      QuietTally s i → (s.tallyOf i).state ≠ .forfeit → (s.tallyOf i).count.toNat < 2 ^ 32 - 1 →
      Gives (exec (.hpdQualified n up) s) fun t => t.hpd n = up ∧ (t.tallyOf i).count = (s.tallyOf i).count + 1)

/-- R431, R439, R398: a bus controller executes the command whose words stand at the head of BUS_TX; a read of BUS_RX takes a
word; an in-band interrupt and a hot-join are delivered, the latter refused where the controller takes none; PCIe and Ethernet
links show their state, and a link that goes down is noted. A command that is none ends with an error word: the model's
choice (assumption 46). -/
def Obligations.BusesAndLinksAct : Prop :=
  ∀ (s : State),
    (∀ b : Fin 6, s.flag (Reg.BUS_CFG_EN b) = true →
      let x := s.bus b
      let is (u : BusUnit) (t : State) : Prop := t.bus b = u ∧ ∀ c, c ≠ b.val → t.bus c = s.bus c
      let word (op addr n : Nat) (w : W32) : Prop := w.toNat / 2 ^ 28 = op ∧ w.toNat / 2 ^ 21 % 128 = addr ∧ w.toNat / 256 % 256 = n
      let err (addr : Nat) : W32 := BitVec.ofNat 32 (3 * 2 ^ 30 + 2 ^ 23 * addr)
      x.rx.length < 64 →
      (∀ w more rest addr n, x.tx = w :: (more ++ rest) → word 1 addr n w → n ≠ 0 → more.length = (n + 2) / 4 →
        let bytes := (BitVec.ofNat 8 w.toNat :: more.flatMap fun q => toBytes 4 q.toNat).take n
        Does [] [.port] (exec (.busWrite b false) s) s (is { x with tx := rest, rx := x.rx ++ [err addr] }) ∧
        Does [] [.port, .out] (exec (.busWrite b true) s) s fun t => t.out = s.out ++ [.bus b addr bytes] ∧
          (¬ (b.val < 4 ∧ addr = 0x7E ∧ bytes.head? = some 6) → is { x with tx := rest } t)) ∧
      (∀ w rest addr n, x.tx = w :: rest → word 2 addr n w → n ≠ 0 →
        let asked (t : State) : Prop := t.out = s.out ++ [.busRead b addr n]
        Does [] [.port, .out] (exec (.busRead b none) s) s (fun t => asked t ∧ is { x with tx := rest, rx := x.rx ++ [err addr] } t) ∧
        ∀ bs, Does [] [.port, .out] (exec (.busRead b (some bs)) s) s fun t => asked t ∧ (t.bus b).tx = rest ∧
          ∃ ws : List W32, (t.bus b).rx = x.rx ++ ws ∧ ws.length = (Nat.min n bs.length + 1) / 2 ∧
            ∀ i v, (bs.take n)[i]? = some v → ∃ q, ws[i / 2]? = some q ∧ q.toNat / 2 ^ (8 * (i % 2)) % 256 = v.toNat ∧
              q.toNat / 2 ^ 23 = addr) ∧
      (∀ w rest addr n addrs, x.tx = w :: rest → word 3 addr n w → b.val < 4 →
        Does [] [.port, .out] (exec (.entdaa b addrs) s) s fun t => t.out = s.out ++ [.entdaa b (addrs.map (·.val))] ∧
          is { x with tx := rest, targets := (x.targets ++ (addrs.map (·.val)).filter fun a => !x.targets.contains a).take 11 } t) ∧
      (∀ w rest addr n, x.tx = w :: rest → word 4 addr n w → Does [] [.port, .out] (exec (.busStop b) s) s fun t =>
        t.out = s.out ++ [.busStop b addr] ∧ is { x with tx := rest } t) ∧
      ∀ w rest op addr n c, x.tx = w :: rest → word op addr n w → op = 0 ∨ 4 < op →
        c = .busWrite b true ∨ c = .busRead b none ∨ c = .entdaa b [] ∨ c = .busStop b →
        Does [] [.port] (exec c s) s (is { x with tx := rest, rx := x.rx ++ [err addr] })) ∧
    (∀ (r : Requester) (b : Fin 6), let x := s.bus b
      (s.standing r = 0 → Does (denyRegs r) [.reply] (exec (.busRxRead r b) s) s fun t => t.reply.status = .denied) ∧
      (s.holds r 0 = true →
        (∀ w rest, x.rx = w :: rest → Does [] [.reply, .port] (exec (.busRxRead r b) s) s fun t =>
          t.reply = { req := r, status := .ok, value := w.setWidth 64, bytes := toBytes 4 w.toNat } ∧
            t.bus b = { x with rx := rest } ∧ ∀ c, c ≠ b.val → t.bus c = s.bus c) ∧
        (x.rx = [] → Does [] [.reply] (exec (.busRxRead r b) s) s fun t => t.reply.status = .ok ∧ t.reply.value = 0))) ∧
    (∀ (b : Fin 4) (addr : Fin 128) (data : List Byte), s.flag (Reg.BUS_CFG_EN b) = true → (s.bus b).rx.length < 64 →
      let x := s.bus b
      let head (kind : Nat) (w : W32) : Prop := w.toNat / 2 ^ 30 = kind ∧ w.toNat / 2 ^ 23 % 128 = addr
      Does [] [.port] (exec (.inBandInterrupt b addr data) s) s (fun t => ∃ w ws, (t.bus b) = { x with rx := x.rx ++ w :: ws } ∧ head 1 w ∧
        (∀ v, data[0]? = some v → w.toNat % 256 = v.toNat) ∧ ∀ v, data[1]? = some v → w.toNat / 256 % 256 = v.toNat) ∧
      (s.flag (Reg.BUS_CFG_HJ_EN b) = true → x.targets.length < 11 → addr.val ∉ x.targets →
        Does [] [.port, .out] (exec (.hotJoin b addr) s) s fun t => t.out = s.out ++ [.entdaa b [addr.val]] ∧
          ∃ w, t.bus b = { x with rx := x.rx ++ [w], targets := x.targets ++ [addr.val] } ∧ head 2 w) ∧
      (s.flag (Reg.BUS_CFG_HJ_EN b) = false ∨ 11 ≤ x.targets.length →
        Does [Reg.BUS_STAT b] [.out] (exec (.hotJoin b addr) s) s fun t => t.out = s.out ++ [.disec b] ∧
          t.fld (Reg.BUS_STAT_REFUSED b) = satAdd 8 (s.fld (Reg.BUS_STAT_REFUSED b)) 1)) ∧
    (s.boot.porHigh = true →
      (∀ (w : Fin 9) (r : Fin 6) (partner : Bool), w ≠ 0 → r ≠ 0 →
        let shown (t : State) : Prop := t.fld Reg.PORT_PCIE_STAT_UP = 1 ∧ t.fld Reg.PORT_PCIE_STAT_WIDTH = w ∧
          t.fld Reg.PORT_PCIE_STAT_RATE = r ∧ t.fld Reg.PORT_PCIE_STAT_ROOT = b2n (!s.boot.strapEp)
        (partner = false ∨ (w.val = 8 ∧ r.val = 5) → Does [Reg.PORT_PCIE_STAT] [] (exec (.pcieLinkChange w r partner) s) s shown) ∧
        (partner = true → w.val < 8 ∨ r.val < 5 →
          Does (Reg.PORT_PCIE_STAT :: incRegs 10) [] (exec (.pcieLinkChange w r partner) s) s fun t => shown t ∧
            t.fld (Reg.INC_CNT_COUNT 10) = satAdd 16 (s.fld (Reg.INC_CNT_COUNT 10)) 1)) ∧
      (∀ (w : Fin 9) (r : Fin 6), w = 0 ∨ r = 0 →
        Does (Reg.PORT_PCIE_STAT :: noteRegs s) [] (exec (.pcieLinkChange w r false) s) s fun t =>
          t.fld Reg.PORT_PCIE_STAT_UP = 0 ∧ t.fld Reg.PORT_PCIE_STAT_WIDTH = 0 ∧ t.fld Reg.PORT_PCIE_STAT_RATE = 0 ∧
            Noted 6 (2 ^ 16 + 1) s t) ∧
      ∀ (p : Fin 4) (partner : Bool),
        Does [Reg.NET_PORT_CNT p] [] (exec (.ethLinkChange p true partner) s) s (fun t => t.fld (Reg.NET_PORT_CNT_LINK p) = 1) ∧
        Does (Reg.NET_PORT_CNT p :: noteRegs s) [] (exec (.ethLinkChange p false partner) s) s fun t =>
          t.fld (Reg.NET_PORT_CNT_LINK p) = 0 ∧
            Noted 6 (BitVec.ofNat 64 (2 ^ 16 * b2n (!partner) + 2 ^ 8 * p + 2)) s t)

/-! ### The bridge (18) -/

/-- R428, R430, R444, R63, R64: a frame on a port of the bridge is filtered, its duplicate dropped, its source learned, and it goes
to the internal port, to the port its destination was learned on, to every other port, or to none; an event message is
corrected, a frame of a replicated stream gets its R-TAG and leaves on both ports of the pair; a receive buffer takes a frame
it matches; entries age out, gate lists advance and a recovery resets. -/
def Obligations.BridgeForwards : Prop :=
  ∀ (s : State),
    let bit (a lo len : Nat) (t : State) : Nat := t.nbits a lo len
    let flt (f : Nat) : Nat := 0x7000 + 0x20 * f
    let cb (r : Nat) : Nat := 0x7C00 + 0x20 * r
    (∀ (p : Fin 4) (b : List Byte) (res : W64), s.present 12 = true →
      let vid := frameVid b (s.pvidOf p)
      let go := exec (.bridgeFrameReceive ⟨p, by omega⟩ b none res) s
      let unlisted := ∀ i, i < 32 → s.rxbHit p b i = false
      let unmatched := ∀ f, f < 64 → s.filterHit p b f = false
      let single := ∀ r, r < 32 → bit (cb r) 0 1 s = 0
      let ready (q : Nat) : Prop := s.flag (Reg.NET_PORT_CFG_EN q) = true ∧ s.flag (Reg.NET_PORT_CFG_GATE_EN q) = false ∧ s.queueOf q = []
      let only (q : Nat) : Prop := ∀ x, x < 4 → x ≠ p.val → x ≠ q → s.flag (Reg.NET_PORT_CFG_EN x) = false
      let unicast := beAt b 0 1 % 2 = 0
      let other := unicast ∧ frameDa b ≠ s.fld Reg.NET_MAC_MAC ∧ frameDa b ≠ frameSa b
      (s.flag (Reg.NET_PORT_CFG_EN p) = false → go = .next s) ∧
      (s.flag (Reg.NET_PORT_CFG_EN p) = true →
        (unmatched → rtagOf b = none → unlisted → single →
          (unicast → frameDa b = s.fld Reg.NET_MAC_MAC → ptpOf b = none → Does [] [.net, .out] go s fun t =>
            t.out = s.out ++ [.frame 4 b] ∧
            (beAt b 6 1 % 2 = 0 → s.net.learn.length < 4096 → ⟨frameSa b, vid, p⟩ ∈ t.net.learn ∧
              ∀ e ∈ t.net.learn, e.mac = frameSa b → e.vid = vid → e.port = p)) ∧
          (frameDa b = 2 ^ 48 - 1 → ptpOf b = none → ∀ q, q < 4 → q ≠ p.val → ready q → only q →
            Does [] [.net, .out] go s fun t => t.out = s.out ++ [.frame 4 b, .frame q (State.wireFrame b)] ∧ t.queueOf q = []) ∧
          (other → ptpOf b = none → s.net.learn = [] → ∀ q, q < 4 → q ≠ p.val → ready q → only q →
            Does [] [.net, .out] go s fun t => t.out = s.out ++ [.frame q (State.wireFrame b)] ∧ t.queueOf q = []) ∧
          (other → ∀ e, s.net.learn = [e] → e.mac = frameDa b → e.vid = vid →
            (e.port = p → Does [] [.net] go s fun _ => True) ∧
            (e.port ≠ p → e.port < 4 → ready e.port →
              (ptpOf b = none → Does [] [.net, .out] go s fun t => t.out = s.out ++ [.frame e.port (State.wireFrame b)]) ∧
              ∀ h udp, ptpOf b = some (h, udp) → ptpEvent b h = true →
                let delay : Int := if ptpType b h = 0 ∧ bitAt (s.fld Reg.TC_CFG_PDELAY_EN) p then
                  (s.reg (Reg.PTP_PDELAY p)).toInt / 2 ^ 16 else 0
                let c := res.toInt / 2 ^ 16 + delay
                let later := ptpType b h = 0 ∧ ptpTwoStep b h = true ∧ bitAt (s.fld Reg.TC_CFG_ONE_STEP) e.port = false
                (¬ later → Does [] [.net, .out] go s fun t =>
                  t.out = s.out ++ [.frame e.port (State.wireFrame (correct b h udp c))] ∧ t.net.held = s.net.held) ∧
                (later → Does [] [.net, .out] go s fun t => t.out = s.out ++ [.frame e.port (State.wireFrame b)] ∧
                  t.net.held = s.net.held ++ [⟨e.port, ptpSeq b h, ptpDomain b h, ptpSdo b h, c⟩])))) ∧
        (∀ f, f < 64 → s.filterHit p b f = true → (∀ g, g < f → s.filterHit p b g = false) →
          let sdu := bit (flt f) 80 14 s
          let g := bit (flt f) 72 5 s
          let dropped (at_ : Nat) (t : State) : Prop := t.fld (Reg.NET_PORT_CNT_FILTERED p) = satAdd 16 (s.fld (Reg.NET_PORT_CNT_FILTERED p)) 1 ∧
            bit (flt f) at_ 16 t = satAdd 16 (bit (flt f) at_ 16 s) 1
          ((sdu ≠ 0 ∧ sdu < b.length) ∨ bit (flt f) 98 1 s = 1 → Does [Reg.NET_PORT_CNT p] [.net] go s fun t => dropped 144 t ∧
            (sdu ≠ 0 → sdu < b.length → bit (flt f) 97 1 s = 1 → bit (flt f) 98 1 t = 1)) ∧
          (¬ (sdu ≠ 0 ∧ sdu < b.length) → bit (flt f) 98 1 s = 0 → bit (flt f) 77 1 s = 1 → bit (State.sgOff g) 0 1 s = 1 →
            s.sgOpen g = false → Does [Reg.NET_PORT_CNT p] [.net] go s fun t => dropped 160 t ∧
              (bit (State.sgOff g) 2 1 s = 1 → bit (State.sgOff g) 3 1 t = 1))) ∧
        (unmatched → ∀ seq r h, rtagOf b = some seq → s.cbEntry (p / 2) b (s.pvidOf p) = some r → r < 32 → bit (cb r) 2 1 s = 1 →
          mget (fun _ => none) s.net.history r = some h →
          let n : Int := Nat.min (Nat.max (bit (cb r) 72 6 s) 1) 32
          let d := sext 16 (65536 + seq - bit (cb r) 112 16 s)
          let counted (at_ : Nat) (t : State) : Prop := bit (cb r) at_ 16 t = satAdd 16 (bit (cb r) at_ 16 s) 1
          (n ≤ d ∨ d ≤ -n → Does [] [.net] go s (counted 176)) ∧
          (-n < d → d ≤ 0 → bitAt h (-d).toNat = true → Does [] [.net] go s (counted 144))) ∧
        (unmatched → rtagOf b = none → unicast → frameDa b = s.fld Reg.NET_MAC_MAC → ptpOf b = none → ∀ i : Fin 32,
          (∀ j, j < 32 → s.rxbHit p b j = decide (j = i.val)) →
          Does [Reg.NET_RXB_SEQ i] [.net, .out] go s fun t =>
            (∀ j v, j < 256 → b[j]? = some v → mget (fun _ => 0) t.net.rxb (0x4000 + 0x100 * i + j) = v) ∧
              t.reg (Reg.NET_RXB_SEQ i) ≠ s.reg (Reg.NET_RXB_SEQ i)))) ∧
    (∀ (b : List Byte) (k r : Nat), k < 2 → s.present 12 = true → ptpOf b = none → 18 ≤ b.length → beAt b 0 1 % 2 = 0 →
      frameDa b ≠ s.fld Reg.NET_MAC_MAC → frameDa b ≠ frameSa b → s.net.learn = [] → (∀ i, i < 32 → s.rxbHit 4 b i = false) →
      s.cbEntry k b 1 = some r → r < 32 → bit (cb r) 1 1 s = 1 →
      (∀ x, x < 4 → s.flag (Reg.NET_PORT_CFG_EN x) = decide (x / 2 = k)) →
      (∀ x, x < 4 → x / 2 = k → s.flag (Reg.NET_PORT_CFG_GATE_EN x) = false ∧ s.queueOf x = []) →
      let f := State.wireFrame (addRtag b (bit (cb r) 96 16 s))
      Does [] [.net, .out] (exec (.bridgeFrameReceive 4 b none 0) s) s fun t =>
        t.out = s.out ++ [.frame (2 * k) f, .frame (2 * k + 1) f] ∧ bit (cb r) 96 16 t = (bit (cb r) 96 16 s + 1) % 65536) ∧
    (∀ (mac : BitVec 48) (vid : BitVec 12), Does [] [.net] (exec (.learningAgeOut mac vid) s) s fun t =>
      (∀ e, e ∈ t.net.learn ↔ e ∈ s.net.learn ∧ ¬ (e.mac = mac.toNat ∧ e.vid = vid.toNat)) ∧ t.net = { s.net with learn := t.net.learn }) ∧
    (let moves (c : Instr) (key : Nat) (at_ : State → Map Nat) (lane base : W64) (cycle n : Nat) (iv : Nat → Nat) : Prop :=
       let pos := (lane - base).toNat / 2 ^ 32 % cycle
       let sum (i : Nat) : Nat := ((List.range i).map iv).sum
       (cycle = 0 ∨ later base lane = true → Does [] [.net] (exec c s) s fun t => mget (fun _ => 0) (at_ t) key = 0) ∧
       (cycle ≠ 0 → later base lane = false → ∀ i, i < n → (∀ j, j ≤ i → iv j ≠ 0) → sum i ≤ pos → pos < sum (i + 1) →
         Does [] [.net] (exec c s) s fun t => mget (fun _ => 0) (at_ t) key = i + 1)
     (∀ p : Fin 4, s.queueOf p = [] → moves (.gateListAdvance p) p (·.net.gateAt) (s.laneVal (s.fld (Reg.LAUNCH_CFG_LANE p)))
       (s.reg (Reg.NET_GATE_BASE p)) (s.fld (Reg.NET_GATE_CYCLE_ALL p)) 256 fun k => s.ntab (0x6000 + 0x400 * p + 4 * k) % 2 ^ 24) ∧
     ∀ g : Fin 32, let o := State.sgOff g
       bit o 8 7 s + bit o 16 8 s ≤ 128 → moves (.streamGateAdvance g) g (·.net.sgateAt) (s.laneVal (bit o 24 4 s))
         (BitVec.ofNat 64 (s.ntab (o + 8) + 2 ^ 32 * s.ntab (o + 12))) (s.ntab (o + 4)) (bit o 16 8 s)
         fun k => s.ntab (0x7A00 + 4 * (bit o 8 7 s + k)) % 2 ^ 24) ∧
    (∀ r : Fin 32, let h := mget (fun _ => none) s.net.history r
      (h = none → exec (.recoveryReset r) s = .next s) ∧
      (h ≠ none → Does [] [.net] (exec (.recoveryReset r) s) s fun t => mget (fun _ => none) t.net.history r = none ∧
        bit (cb r) 208 16 t = satAdd 16 (bit (cb r) 208 16 s) 1))

/-! ### Accesses (01, 18) -/

/-- R434: a requester holds the rights of its default standing but those its Mint entry removes; a write of PORT_GRANT_p keeps only
what PCIe function 0 holds, and PORT_STANDING_r reads as the standing. -/
def Obligations.StandingIsTheDefaultLessTheRemoved : Prop :=
  ∀ (s : State),
    let strap := s.boot.strapSvc
    let given (r q : Nat) : Prop :=
      if r < 18 then q ≠ 10 ∧ q ≠ 11
      else if r < 26 then q < 4
      else if r < 30 then bitAt (s.fld (Reg.PORT_GRANT_GRANT (r - 26))) q = true
      else if r < 34 then q = 8 ∨ q = 2
      else if r = 34 then strap = true ∨ q = 12
      else if r = 35 then if strap then q ≠ 11 else q = 12
      else q = 11
    let entry (r : Nat) : Nat :=
      if r < 16 then 0 else if r < 18 then 1 else if r < 34 then r - 16 else if r = 34 then 18 else if r = 35 then 19 else 20
    (∀ (r : Requester) (q : Nat), s.holds r q = true ↔
      q < 13 ∧ given r q ∧ bitAt (mget (fun _ => 0) s.boot.mint.standing (entry r)) q = false) ∧
    (∀ (r : Requester) (p : Fin 4) (v : W64), s.holds r 9 = true → let k := Reg.PORT_GRANT p
      Does [k] [.reply] (exec (.registerWrite r (BitVec.ofNat 24 k) .b4 v) s) s fun t => t.reply.status = .ok ∧
        ∀ q, q < 13 → bitAt (t.fld (Reg.PORT_GRANT_GRANT p)) q = (bitAt v.toNat q && s.holds 18 q)) ∧
    (∀ (r r' : Requester), s.canRead r = true →
      Does [] [.reply] (exec (.readClear r (BitVec.ofNat 24 (0xE0000 + 4 * r')) .b4) s) s fun t =>
        t.reply.status = .ok ∧ t.reply.value = BitVec.ofNat 64 (s.standing r') ∧
          ∀ q, bitAt t.reply.value.toNat q = s.holds r' q)

/-- R33, R34, R228, R239, R424, R435, R436: a load or store of a core, an inbound PCIe request or a READ or WRITE command frame that
reaches homes with its right moves exactly its bytes; without the right it has no effect and is counted; an unmapped address
is reported, and counted from outside; a poisoned page is reported, and an access to a moving page waits. Control space and
Tally memory give a core what their own commands give. That a posted write of PCIe to a moving page stays open is shown in the
reply, the model's choice (assumption 47). -/
def Obligations.AccessesReachMemory : Prop :=
  ∀ (s : State),
    let every (a n : Nat) (p : Nat → Prop) : Prop := ∀ i, i < n → p (a + i)
    let seen (r a n : Nat) : Prop := every a n (fun b => s.reaches r b = true) ∧ s.region a ≠ .ctl ∧ s.region a ≠ .tally
    let home (r a n : Nat) : Prop := seen r a n ∧ s.region a ≠ .nand
    let still (a n : Nat) : Prop := every a n fun b => s.movingAt (65536 * (b / 65536)) = false
    let whole (a n : Nat) : Prop := every a n fun b => s.poisonedAt (65536 * (b / 65536)) = false
    let free (a n : Nat) : Prop := every a n fun b => s.winAt b = none
    let counted (r right addr : Nat) (t : State) : Prop :=
      t.fld (Reg.PORT_DENY_CNT_COUNT r) = satAdd 16 (s.fld (Reg.PORT_DENY_CNT_COUNT r)) 1 ∧
      t.fld (Reg.INC_CNT_COUNT 8) = satAdd 16 (s.fld (Reg.INC_CNT_COUNT 8)) 1 ∧ t.fld Reg.PORT_DENY_LAST_REQUESTER = r ∧
      t.fld Reg.PORT_DENY_LAST_RIGHT = right ∧ t.fld Reg.PORT_DENY_LAST_ADDR = addr % 2 ^ 44
    let stored (a : Nat) (bs : List Byte) (t : State) : Prop := MemKeptOutside a bs.length s t ∧
      ∀ i b, bs[i]? = some b → t.byteAt (a + i) = b
    let parts := [Part.mem, .teller, .field, .reply]
    (∀ (r : Fin 18) (pa : BitVec 44) (w : Width), let n := Width.bytes w
      let a := pa.toNat
      let load := exec (.coreAccess r pa w .load) s
      let store (v : W64) := exec (.coreAccess r pa w (.store v)) s
      (seen r a n →
        (s.holds r 0 = true → still a n →
          (whole a n → s.winAt a = none → Does [] [.reply] load s fun t => t.reply =
            { req := r, status := .ok, value := BitVec.ofNat 64 (s.natAt a n), bytes := s.bytesAt a n }) ∧
          (¬ whole a n → Does [] [.reply] load s fun t => t.reply.status = .accessFault)) ∧
        (¬ still a n → s.holds r 0 = true → Does [] [.reply] load s fun t => t.reply.status = .waits) ∧
        (s.holds r 0 = false → Does (denyRegs r) [.reply] load s fun t => counted r 0 a t ∧ t.reply.value = 0)) ∧
      (home r a n → ∀ v,
        (s.holds r 1 = true → still a n →
          (whole a n → free a n → Does [] parts (store v) s fun t => t.reply.status = .ok ∧ stored a (toBytes n v.toNat) t) ∧
          (¬ whole a n → Does [] [.reply] (store v) s fun t => t.reply.status = .accessFault)) ∧
        (¬ still a n → s.holds r 1 = true → Does [] [.reply] (store v) s fun t => t.reply.status = .waits) ∧
        (s.holds r 1 = false → Does (denyRegs r) [.reply] (store v) s (counted r 1 a))) ∧
      ((¬ every a n fun b => s.reaches r b = true) →
        Does [] [.reply] load s (fun t => t.reply.status = .accessFault ∧ t.reply.value = 0) ∧
        ∀ v, Does [] [.reply] (store v) s fun t => t.reply.status = .accessFault) ∧
      (every a n (fun b => s.reaches r b = true) → s.region a = .nand → ∀ v, Does (denyRegs r) [.reply] (store v) s (counted r 0xE a)) ∧
      (every a n (fun b => s.reaches r b = true) → s.region a = .tally → s.holds r 2 = true → a % n = 0 →
        let x := s.tallyOf (a % 0x20000 / 8)
        (w = .b8 → Does [] [.reply] load s fun t => t.reply.value =
          BitVec.ofNat 64 (2 ^ 62 * (match x.state with | .idle => 0 | .owned => 1 | .forfeit => 2) + x.count.toNat)) ∧
        (w ≠ .b4 → ∀ v, Does [] [.reply] (store v) s fun t => t.reply.status = .ok) ∧
        (w = .b4 → a % 8 = 4 → x.state ≠ .forfeit → ∀ v, Does [Reg.TALLY_STAT] [.reply, .tally] (store v) s fun t =>
          t.tallyOf (a % 0x20000 / 8) = { x with count := BitVec.ofNat 32 (x.count.toNat - v.toNat % 2 ^ 32) })) ∧
      (∀ off : BitVec 24, a = 0xF0000000 + off.toNat → every a n (fun b => s.reaches r b = true) → s.region a = .ctl →
        (∃ t, load = .next t ∧ exec (.readClear ⟨r, by omega⟩ off w) s = .next t) ∧
        ∀ v, ∃ t, store v = .next t ∧ exec (.registerWrite ⟨r, by omega⟩ off w v) s = .next t)) ∧
    (∀ (f : Fin 8) (bar2 : Bool) (off : W64), let root := s.flag Reg.PORT_PCIE_STAT_ROOT
      let r := if root then 18 else 18 + f.val
      let a := if root then off.toNat else if bar2 then 2 ^ 30 * s.fld (Reg.PORT_PCIE_BAR2_BASE f) + off.toNat else 0xF0000000 + off.toNat
      let size := if bar2 then 2 ^ (30 + Nat.min 6 (s.fld (Reg.PORT_PCIE_BAR2_SIZE_LOG2 f))) else 0x2000000
      (∀ n, 0 < n → n ≤ 4096 → let read := exec (.pcieRequest f bar2 off (.read n)) s
        (root = true ∨ off.toNat + n ≤ size → seen r a n →
          (s.holds r 0 = true → still a n → whole a n → s.winAt a = none → Does [] [.reply] read s fun t =>
            t.reply.req = r ∧ t.reply.status = .ok ∧ t.reply.bytes = s.bytesAt a n) ∧
          (s.holds r 0 = false → Does (denyRegs r) [.reply] read s fun t => counted r 0 a t ∧ t.reply.status = .unsupported)) ∧
        (root = false → size < off.toNat + n → Does (denyRegs r) [.reply] read s fun t => counted r 0xF a t ∧
          t.reply.status = .unsupported)) ∧
      (∀ bs : List Byte, bs ≠ [] → bs.length ≤ 4096 → let write := exec (.pcieRequest f bar2 off (.write bs)) s
        root = true ∨ off.toNat + bs.length ≤ size → home r a bs.length →
          (s.holds r 1 = true → still a bs.length → whole a bs.length → free a bs.length →
            Does [] [.mem, .teller, .field] write s (stored a bs)) ∧
          (s.holds r 1 = false → Does (denyRegs r) [] write s (counted r 1 a)))) ∧
    (∀ (path : Fin 9) (tag : W16) (addr : W64), let r := 26 + path.val
      let a := addr.toNat
      let answers (st : Status) (t : State) : Prop := t.reply.req = r ∧ t.reply.status = st ∧ t.reply.tag = some tag
      let bad (n : Nat) : Prop := n % 4 ≠ 0 ∨ n < 4 ∨ 4096 < n ∨ (s.region a = .ctl ∧ n ≠ 4 ∧ n ≠ 8)
      (∀ len : W32, let n := len.toNat
        let read := exec (.commandRead path tag addr len) s
        (bad n → Does [] [.reply] read s (answers .malformed)) ∧
        (¬ bad n → seen r a n →
          (s.holds r 0 = true → still a n → whole a n → s.winAt a = none →
            Does [] [.reply] read s fun t => answers .ok t ∧ t.reply.bytes = s.bytesAt a n) ∧
          (s.holds r 0 = false → Does (denyRegs r) [.reply] read s fun t => counted r 0 a t ∧ answers .denied t)) ∧
        (¬ bad n → (¬ every a n fun b => s.reaches r b = true) → Does (denyRegs r) [.reply] read s fun t =>
          counted r 0xF a t ∧ answers .unmapped t)) ∧
      ∀ bs : List Byte, let write := exec (.commandWrite path tag addr bs) s
        (bad bs.length → Does [] [.reply] write s (answers .malformed)) ∧
        (¬ bad bs.length → home r a bs.length →
          (s.holds r 1 = true → still a bs.length →
            (whole a bs.length → free a bs.length → Does [] parts write s fun t => answers .ok t ∧ stored a bs t) ∧
            (¬ whole a bs.length → Does [] [.reply] write s (answers .poisoned))) ∧
          (s.holds r 1 = false → Does (denyRegs r) [.reply] write s fun t => counted r 1 a t ∧ answers .denied t)))

/-- R13 to R15, R37, R433, R435, R466, R468: a write of a register without behaviour of its own sets its read-write fields and clears
its write-one-to-clear fields, in one half where it writes one; narrow and unaligned writes and writes of absent units and
undefined offsets do nothing; a write without its right is counted. A read clears its read-clears fields; a record is latched
for its reader; SYS_INC_CMD clears counters with their records, and notes. -/
def Obligations.ControlSpaceAccessed : Prop :=
  ∀ (s : State) (r : Requester),
    let counted (right : Nat) (t : State) : Prop := t.fld (Reg.PORT_DENY_CNT_COUNT r) = satAdd 16 (s.fld (Reg.PORT_DENY_CNT_COUNT r)) 1 ∧
      t.fld Reg.PORT_DENY_LAST_REQUESTER = r ∧ t.fld Reg.PORT_DENY_LAST_RIGHT = right
    (∀ (off : BitVec 24) (v : W64), let o := off.toNat
      let write (w : Width) := exec (.registerWrite r off w v) s
      let said (st : Status) (t : State) : Prop := t.reply = { req := r, status := st }
      let ignored (w : Width) : Prop := Does [] [.reply] (write w) s (said .ok)
      0xE2000 ≤ o → o < 0xE3000 →
        (s.holds r 4 = false → ∀ w, w ≠ .b8 → Does (denyRegs r) [.reply] (write w) s fun t => counted 4 t ∧ said .denied t) ∧
        (s.holds r 4 = true → ignored .b1 ∧ ignored .b2 ∧ (o % 4 ≠ 0 → ignored .b4) ∧
          (s.present 11 = false ∨ regInfo o = none → ignored .b4) ∧
          (s.present 11 = true → ∀ i, regInfo o = some (i, 0) → i.width = 32 → o % 4 = 0 → let k := o
            Does [k] [.reply] (write .b4) s fun t => said .ok t ∧ ∀ j, j < 32 → (t.reg k).getLsbD j =
              if i.w1c.testBit j && v.getLsbD j then false
              else if i.rw.testBit j then v.getLsbD j else (s.reg k).getLsbD j))) ∧
    (∀ (d : Fin 4) (v : W64), s.holds r 5 = true →
      let k := Reg.LANE_INCR d
      Does [k] [.reply] (exec (.registerWrite r (BitVec.ofNat 24 k) .b8 v) s) s (fun t => t.reg k = v) ∧
      Does [k] [.reply] (exec (.registerWrite r (BitVec.ofNat 24 k) .b4 v) s) s (fun t =>
        t.reg k = (s.reg k).extractLsb' 32 32 ++ v.setWidth 32) ∧
      Does [k] [.reply] (exec (.registerWrite r (BitVec.ofNat 24 (k + 4)) .b4 v) s) s fun t =>
        t.reg k = v.setWidth 32 ++ (s.reg k).setWidth 32) ∧
    (∀ (off : BitVec 24) (w : Width), let o := off.toNat
      let read (w : Width) := exec (.readClear r off w) s
      let got (v : W64) (t : State) : Prop := t.reply.req = r ∧ t.reply.status = .ok ∧ t.reply.value = v
      (s.canRead r = false → Does (denyRegs r) [.reply] (read w) s fun t => counted 0xD t ∧ t.reply.status = .denied ∧ t.reply.value = 0) ∧
      (s.canRead r = true →
        (o % Width.bytes w ≠ 0 → Does [] [.reply] (read w) s (got 0)) ∧
        (o % 4 = 0 → 0x100000 ≤ o ∨ s.absentAt o = true ∨ (State.isWindow o = false ∧ regInfo o = none) →
          Does [] [.reply] (read .b4) s (got 0)) ∧
        (∀ i, regInfo o = some (i, 0) → i.width = 32 → o < 0x100000 → o % 4 = 0 → s.absentAt o = false → State.isWindow o = false →
          (∀ b, b < 6 → o ≠ Reg.BUS_RX b) → o ≠ Reg.PWR_THERM → let k := State.keyOf r o
          Does [k] [.reply] (read .b4) s fun t => got ((s.shown r o).setWidth 32 |>.setWidth 64) t ∧
            t.reg k = s.reg k &&& ~~~ BitVec.ofNat 64 i.rc))) ∧
    (∀ rec_ : Fin 90, s.canRead r = true →
      let k := if rec_.val < 26 then 0x1000 + 0x20 * rec_.val else 0x2000 + 0x20 * (rec_.val - 26)
      Does [] [.reply, .latch] (exec (.incidentRecordRead r rec_) s) s fun t => t.reply.value = s.reg k ∧
        (∀ u : State, u.recLatch = t.recLatch → ∀ j, j = 1 ∨ j = 2 ∨ j = 3 → u.recShown r (k + 8 * j) = s.reg (k + 8 * j)) ∧
        ∀ q, q ≠ r.val → mget (fun _ => none) t.recLatch q = mget (fun _ => none) s.recLatch q) ∧
    (s.holds r 9 = true →
      (∀ n : Fin 16, n.val < 13 → Does (incRegs n) [] (exec (.clearOne r n) s) s fun t => t.fld (Reg.INC_CNT_COUNT n) = 0 ∧
        ∀ w, w < 8 → t.reg (Reg.INC_REC n w) = 0) ∧
      (∀ n : Fin 16, 13 ≤ n.val → exec (.clearOne r n) s = .next s) ∧
      Does ((List.range 13).flatMap incRegs) [] (exec (.clearAll r) s) s (fun t => ∀ n, n < 13 → t.fld (Reg.INC_CNT_COUNT n) = 0 ∧
        ∀ w, w < 8 → t.reg (Reg.INC_REC n w) = 0) ∧
      Does ((List.range 64).flatMap fun i => (List.range 4).map (Reg.SYS_NOTE i)) [] (exec (.clearNotes r) s) s fun t =>
        ∀ i w, i < 64 → w < 4 → t.reg (Reg.SYS_NOTE i w) = 0)

/-- R387, R418, R436, R441, R466: the command frames beside READ and WRITE: FUSE adds Mint entries, IMAGE continues an image, JUDGE
passes a safety-port frame to the Judge, all for the service port alone and with their rights; INCIDENT reads whole records. -/
def Obligations.CommandFramesAct : Prop :=
  ∀ (s : State) (path : Fin 9) (tag : W16),
    let r := 26 + path.val
    let answers (st : Status) (b : List Byte) (t : State) : Prop :=
      t.reply.req = r ∧ t.reply.status = st ∧ t.reply.tag = some tag ∧ t.reply.bytes = b
    let refused (c : Instr) (right addr : Nat) : Prop := Does (denyRegs r) [.reply] (exec c s) s fun t => answers .denied [] t ∧
      t.fld (Reg.PORT_DENY_CNT_COUNT r) = satAdd 16 (s.fld (Reg.PORT_DENY_CNT_COUNT r)) 1 ∧
      t.fld Reg.PORT_DENY_LAST_RIGHT = right ∧ t.fld Reg.PORT_DENY_LAST_ADDR = addr % 2 ^ 44
    let service (c : Instr) (right : Nat) : Prop := (s.holds r right = false → refused c right 0) ∧
      (s.holds r right = true → path.val ≠ 8 → refused c 0xE 0)
    (∀ l : List W16, let c := Instr.fuse path tag l
      let m := s.boot.mint.added.length + s.boot.mintNew.length
      service c 10 ∧
      (s.holds r 10 = true → path.val = 8 → m + l.length ≤ 32 → Does [Reg.SYS_MINT_STAT] [.boot, .reply] (exec c s) s fun t =>
        answers .ok [] t ∧ t.boot = { s.boot with mintNew := s.boot.mintNew ++ l } ∧
          t.fld Reg.SYS_MINT_STAT_ADDED_FREE = 32 - (m + l.length))) ∧
    (∀ data : List Byte, let c := Instr.image path tag data
      let bad := data.length % 4 ≠ 0 ∨ data = [] ∨ 4096 < data.length
      service c 9 ∧
      (s.holds r 9 = true → path.val = 8 →
        (bad → Does [] [.reply] (exec c s) s (answers .malformed [])) ∧
        (¬ bad → s.fld Reg.RELAY_IMG_STAT_STATE = 1 → s.relay.fetch = false →
          Does [Reg.RELAY_IMG_STAT] [.relay, .reply] (exec c s) s fun t => answers .ok [] t ∧
            t.relay = { s.relay with img := s.relay.img ++ data } ∧
            t.fld Reg.RELAY_IMG_STAT_DONE_KIB = (s.relay.img.length + data.length) / 1024 % 2 ^ 24))) ∧
    (∀ (addr : W64) (len : W32), let c := Instr.incident path tag addr len
      let a := addr.toNat
      let n := len.toNat
      let k := a - 0xF0000000
      let recs := 0xF0001000 ≤ a ∧ a + n ≤ 0xF0001340
      let notes := 0xF0002000 ≤ a ∧ a + n ≤ 0xF0002800
      (s.holds r 12 = false → refused c 12 a) ∧
      (s.holds r 12 = true → a % 64 = 0 → n % 64 = 0 → n ≠ 0 → recs ∨ notes → Does [] [.reply] (exec c s) s fun t =>
        answers .ok ((List.range (n / 8)).flatMap fun i => toBytes 8 (s.reg (k + 8 * i)).toNat) t) ∧
      (s.holds r 12 = true → a % 64 ≠ 0 ∨ n % 64 ≠ 0 ∨ n = 0 ∨ ¬ (recs ∨ notes) →
        Does [] [.reply] (exec c s) s (answers .malformed []))) ∧
    (∀ b : List Byte, let c := Instr.judge path tag b
      let seq := ofBytes (b.take 2)
      let next := ∀ l, s.judge.svSeq = some l → seq = (l.toNat + 1) % 65536
      let ok := (crc32 (b.take 124)).toNat = ofBytes (b.drop 124)
      service c 11 ∧
      (s.holds r 11 = true → path.val = 8 →
        (b.length ≠ 128 → Does [] [.reply] (exec c s) s (answers .malformed [])) ∧
        (b.length = 128 → s.judgeOn = true →
          (¬ (ok ∧ next) → Does [] [.judge] (exec c s) s fun t => t.reply = s.reply) ∧
          (ok → next → (b.drop 2).headD 0 = 0 → Does [] [.judge, .reply] (exec c s) s fun t =>
            t.judge.svSeq = some (BitVec.ofNat 16 seq) ∧ t.reply.status = .ok ∧ t.reply.tag = some tag ∧
              t.reply.bytes.length = 128 ∧ (t.reply.bytes.drop 2).headD 0 = 0x80))))

/-! ### The block as a whole -/

/-- A step takes the command at the front of the queue, with the queue's rest; on an empty queue the block idles, the model's
choice (assumption 1). -/
def Obligations.StepRunsTheFrontCommand : Prop :=
  (∀ (c : Instr) (s : State) (rest : List Instr), s.pending = c :: rest →
    Sys2Proof.Machine.step s = exec c { s with pending := rest }) ∧
  ∀ s : State, s.pending = [] → Sys2Proof.Machine.step s = .next s

/-- Every command has its effect: it answers a next state, touches nothing of the queue, withdraws nothing that has left the
block, and lets the counters of free values and of orders only rise (assumption 2). -/
def Obligations.EveryCommandCompletes : Prop :=
  ∀ (c : Instr) (s : State), ∃ t, exec c s = .next t ∧ t.pending = s.pending ∧ s.out <+: t.out ∧ s.freeCtr ≤ t.freeCtr ∧
    s.stamp ≤ t.stamp

/-- The canonical form of the sparse maps is kept by every step. -/
def Obligations.CanonKept : Prop :=
  ∀ s t : State, Canon s → Sys2Proof.Machine.step s = .next t → Canon t

/-- As many steps as commands wait empty the queue, whatever the commands are; what has left the block stays out, and the maps
stay canonical. -/
def Obligations.RunsEmptyTheQueue : Prop :=
  ∀ s : State, ∃ t, Sys2Proof.core.run s.pending.length s = .next t ∧ t.pending = [] ∧ s.out <+: t.out ∧ (Canon s → Canon t)

/-- R458, R42 to R44, R367, R291: right after reset the maps are canonical and no command waits; SYS_UPTIME is 0, Lane 15 alone is
enabled, with 5 ns a tick as every Lane; both channels of every group are in STO, the island is in reset and the Judge has no
configuration; no context is defined, no Tally counts, no Cue is armed. That memory reads 0 is the model's choice
(assumption 4). -/
def Obligations.ResetState : Prop :=
  let s := State.reset
  Canon s ∧ s.pending = [] ∧ s.out = [] ∧ s.uptime = 0 ∧
  (∀ n, n < 16 → s.flag (Reg.LANE_CFG_EN n) = decide (n = 15) ∧ s.reg (Reg.LANE_INCR n) = 5 * 2 ^ 32 ∧ s.laneVal n = 0) ∧
  s.judge.cmd = 15 ∧ s.island.stopLine = 15 ∧ s.judge.cfgValid = false ∧ s.island.reset = true ∧ s.boot.computeReset = true ∧
  (∀ c, (s.ctx c).stage = .undefined) ∧ (∀ i, (s.tallyOf i).count = 0 ∧ (s.cue i).armed = false) ∧ ∀ a, s.byteAt a = 0

/-- R91 to R94: a word holds every field of its instruction, and an instruction every bit of its word: what is encoded in a
format of its opcode decodes to itself, and what decodes encodes to the word again. -/
def Obligations.WordsRoundTrip : Prop :=
  (∀ w : NWord, fmtOf w.mn = NOps.fmt w.ops → decodeN (encodeN w) = some w) ∧
  ∀ (v : W128) (w : NWord), decodeN v = some w → encodeN w = v ∧ fmtOf w.mn = NOps.fmt w.ops
end

