-- ==== Sys2Proof/Laws/Bits.lean ====
section
/-!
SUPPORT. Bit fields: what a field reads after it, or another field of the same word, has been written.
-/

namespace Sys2Proof.Machine

open Sys2Proof

/-- A field's bits, one by one. -/
theorem testBit_bitsOf (w : W64) (lo len i : Nat) :
    (bitsOf w lo len).testBit i = (decide (i < len) && w.getLsbD (lo + i)) := by
  unfold bitsOf
  rw [Nat.testBit_mod_two_pow, Nat.testBit_shiftRight, BitVec.testBit_toNat]

theorem getLsbD_maskOf (lo len i : Nat) (h : i < 64) :
    (maskOf lo len).getLsbD i = (decide (lo ≤ i) && decide (i < lo + len)) := by
  unfold maskOf
  rw [BitVec.getLsbD_ofNat, Nat.testBit_shiftLeft, Nat.testBit_two_pow_sub_one]
  by_cases h1 : lo ≤ i
  · simp [h, h1, Nat.sub_lt_iff_lt_add' h1]
  · simp [h1]

/-- A word whose field was replaced, bit by bit. -/
theorem getLsbD_putBits (w : W64) (lo len v i : Nat) (h : i < 64) :
    (putBits w lo len v).getLsbD i =
      if lo ≤ i ∧ i < lo + len then v.testBit (i - lo) else w.getLsbD i := by
  unfold putBits
  rw [BitVec.getLsbD_or, BitVec.getLsbD_and, BitVec.getLsbD_not, getLsbD_maskOf _ _ _ h, BitVec.getLsbD_ofNat,
    Nat.testBit_shiftLeft, Nat.testBit_mod_two_pow]
  by_cases h1 : lo ≤ i
  · by_cases h2 : i < lo + len
    · have h3 : i - lo < len := by omega
      simp [h, h1, h2, h3]
    · have h3 : ¬ i - lo < len := by omega
      simp [h, h1, h2, h3]
  · simp [h, h1]

/-- A field reads as what was written to it. -/
theorem bitsOf_putBits_same (w : W64) (lo len v : Nat) (h : lo + len ≤ 64) :
    bitsOf (putBits w lo len v) lo len = v % 2 ^ len := by
  apply Nat.eq_of_testBit_eq
  intro i
  rw [testBit_bitsOf, Nat.testBit_mod_two_pow]
  by_cases hi : i < len
  · rw [getLsbD_putBits _ _ _ _ _ (by omega)]
    have h1 : lo ≤ lo + i ∧ lo + i < lo + len := by omega
    simp [hi]
  · simp [hi]

/-- A field reads as before when bits outside it were written. -/
theorem bitsOf_putBits_other (w : W64) (lo len v lo' len' : Nat) (h : lo' + len' ≤ lo ∨ lo + len ≤ lo')
    (h64 : lo' + len' ≤ 64) : bitsOf (putBits w lo len v) lo' len' = bitsOf w lo' len' := by
  apply Nat.eq_of_testBit_eq
  intro i
  rw [testBit_bitsOf, testBit_bitsOf]
  by_cases hi : i < len'
  · rw [getLsbD_putBits _ _ _ _ _ (by omega)]
    have h1 : ¬ (lo ≤ lo' + i ∧ lo' + i < lo + len) := by omega
    simp [h1]
  · simp [hi]

theorem bitsOf_lt (w : W64) (lo len : Nat) : bitsOf w lo len < 2 ^ len := Nat.mod_lt _ (Nat.two_pow_pos len)

end Sys2Proof.Machine
end

