-- ==== Sys2Proof/Laws/Maps.lean ====
section
/-!
SUPPORT. The laws of sparse maps: a read after a write, and that every operation keeps the canonical form.
-/

namespace Sys2Proof.Machine

variable {α : Type}

/-! ### Reads after writes -/

theorem mget_mins_same (d : Nat → α) (m : Map α) (k : Nat) (v : α) : mget d (mins m k v) k = v := by
  induction m with
  | nil => simp [mins, mget]
  | cons e t ih =>
    obtain ⟨a, x⟩ := e
    simp only [mins]
    split
    · simp [mget]
    · split
      · simp [mget]
      · simp [mget, *]

theorem mget_mins_other (d : Nat → α) (m : Map α) (k j : Nat) (v : α) (h : j ≠ k) :
    mget d (mins m k v) j = mget d m j := by
  induction m with
  | nil => simp [mins, mget, h]
  | cons e t ih =>
    obtain ⟨a, x⟩ := e
    simp only [mins]
    split
    · simp [mget, h]
    · split
      · subst_vars; simp [mget, h]
      · simp [mget, ih]

theorem mget_mdel_same (d : Nat → α) (m : Map α) (k : Nat) : mget d (mdel m k) k = d k := by
  induction m with
  | nil => simp [mdel, mget]
  | cons e t ih =>
    obtain ⟨a, x⟩ := e
    simp only [mdel]
    split
    · exact ih
    · next h => simp [mget, Ne.symm h, ih]

theorem mget_mdel_other (d : Nat → α) (m : Map α) (k j : Nat) (h : j ≠ k) : mget d (mdel m k) j = mget d m j := by
  induction m with
  | nil => simp [mdel]
  | cons e t ih =>
    obtain ⟨a, x⟩ := e
    simp only [mdel]
    split
    · next h' => subst h'; simp [mget, h, ih]
    · simp [mget, ih]

/-- A read of the key just written gives the value written. -/
@[simp] theorem mget_mset_same [DecidableEq α] (d : Nat → α) (m : Map α) (k : Nat) (v : α) :
    mget d (mset d m k v) k = v := by
  unfold mset
  split
  · next h => rw [mget_mdel_same, h]
  · exact mget_mins_same d m k v

/-- A write leaves every other key as it was. -/
theorem mget_mset_other [DecidableEq α] (d : Nat → α) (m : Map α) (k j : Nat) (v : α) (h : j ≠ k) :
    mget d (mset d m k v) j = mget d m j := by
  unfold mset
  split
  · exact mget_mdel_other d m k j h
  · exact mget_mins_other d m k j v h

theorem mget_mset [DecidableEq α] (d : Nat → α) (m : Map α) (k j : Nat) (v : α) :
    mget d (mset d m k v) j = if j = k then v else mget d m j := by
  split
  · next h => subst h; exact mget_mset_same d m j v
  · next h => exact mget_mset_other d m k j v h

@[simp] theorem mget_nil (d : Nat → α) (k : Nat) : mget d [] k = d k := rfl

/-! ### The canonical form -/

theorem mwfFrom_mono [DecidableEq α] (d : Nat → α) (m : Map α) (lo lo' : Nat) (h : lo' ≤ lo)
    (w : mwfFrom d lo m = true) : mwfFrom d lo' m = true := by
  cases m with
  | nil => rfl
  | cons e t =>
    obtain ⟨a, x⟩ := e
    simp only [mwfFrom, Bool.and_eq_true, decide_eq_true_eq] at w ⊢
    exact ⟨⟨by omega, w.1.2⟩, w.2⟩

theorem mwfFrom_filter [DecidableEq α] (d : Nat → α) (p : Nat × α → Bool) (m : Map α) (lo : Nat)
    (w : mwfFrom d lo m = true) : mwfFrom d lo (m.filter p) = true := by
  induction m generalizing lo with
  | nil => rfl
  | cons e t ih =>
    obtain ⟨a, x⟩ := e
    simp only [mwfFrom, Bool.and_eq_true, decide_eq_true_eq] at w
    simp only [List.filter]
    split
    · simp only [mwfFrom, Bool.and_eq_true, decide_eq_true_eq]
      exact ⟨w.1, ih _ w.2⟩
    · exact ih _ (mwfFrom_mono d t (a + 1) lo (by omega) w.2)

theorem mwfFrom_mdel [DecidableEq α] (d : Nat → α) (m : Map α) (k lo : Nat) (w : mwfFrom d lo m = true) :
    mwfFrom d lo (mdel m k) = true := by
  induction m generalizing lo with
  | nil => rfl
  | cons e t ih =>
    obtain ⟨a, x⟩ := e
    simp only [mwfFrom, Bool.and_eq_true, decide_eq_true_eq] at w
    simp only [mdel]
    split
    · exact ih _ (mwfFrom_mono d t (a + 1) lo (by omega) w.2)
    · simp only [mwfFrom, Bool.and_eq_true, decide_eq_true_eq]
      exact ⟨w.1, ih _ w.2⟩

theorem mwfFrom_mins [DecidableEq α] (d : Nat → α) (m : Map α) (k lo : Nat) (v : α) (hv : v ≠ d k) (hk : lo ≤ k)
    (w : mwfFrom d lo m = true) : mwfFrom d lo (mins m k v) = true := by
  induction m generalizing lo with
  | nil => simp [mins, mwfFrom, hk, hv]
  | cons e t ih =>
    obtain ⟨a, x⟩ := e
    have w' := w
    simp only [mwfFrom, Bool.and_eq_true, decide_eq_true_eq] at w
    simp only [mins]
    split
    · next hlt =>
      simp only [mwfFrom, Bool.and_eq_true, decide_eq_true_eq]
      exact ⟨⟨hk, by simp [hv]⟩, ⟨by omega, w.1.2⟩, w.2⟩
    · split
      · next he =>
        subst he
        simp only [mwfFrom, Bool.and_eq_true, decide_eq_true_eq]
        exact ⟨⟨hk, by simp [hv]⟩, w.2⟩
      · simp only [mwfFrom, Bool.and_eq_true, decide_eq_true_eq]
        exact ⟨w.1, ih _ (by omega) w.2⟩

/-- A write keeps the canonical form. -/
theorem mwf_mset [DecidableEq α] (d : Nat → α) (m : Map α) (k : Nat) (v : α) (w : mwf d m = true) :
    mwf d (mset d m k v) = true := by
  unfold mset
  split
  · exact mwfFrom_mdel d m k 0 w
  · next h => exact mwfFrom_mins d m k 0 v h (Nat.zero_le k) w

/-- Dropping entries keeps the canonical form. -/
theorem mwf_filter [DecidableEq α] (d : Nat → α) (p : Nat × α → Bool) (m : Map α) (w : mwf d m = true) :
    mwf d (m.filter p) = true := mwfFrom_filter d p m 0 w

/-- The canonical form depends on the default only at the keys listed. -/
theorem mwfFrom_congr [DecidableEq α] (d e : Nat → α) (m : Map α) (lo : Nat)
    (h : ∀ x ∈ m, d x.1 = e x.1) (w : mwfFrom d lo m = true) : mwfFrom e lo m = true := by
  induction m generalizing lo with
  | nil => rfl
  | cons y t ih =>
    obtain ⟨a, x⟩ := y
    simp only [mwfFrom, Bool.and_eq_true, decide_eq_true_eq] at w ⊢
    have ha : d a = e a := h (a, x) (by simp)
    exact ⟨⟨w.1.1, by rw [← ha]; exact w.1.2⟩, ih _ (fun z hz => h z (by simp [hz])) w.2⟩

theorem mwf_congr [DecidableEq α] (d e : Nat → α) (m : Map α)
    (h : ∀ x ∈ m, d x.1 = e x.1) (w : mwf d m = true) : mwf e m = true := mwfFrom_congr d e m 0 h w

end Sys2Proof.Machine
end

