-- ==== Sys2Proof/Laws/State.lean ====
section
/-!
SUPPORT. What each primitive update of the state leaves as it was, field by field, and what it makes of the field it
updates.
-/

namespace Sys2Proof.Machine.State

open Sys2Proof

variable (s : State)

/-! ### setReg -/

@[simp] theorem setReg_pending (k : Nat) (v : W64) : (s.setReg k v).pending = s.pending := rfl
@[simp] theorem setReg_mem (k : Nat) (v : W64) : (s.setReg k v).mem = s.mem := rfl
@[simp] theorem setReg_overlay (k : Nat) (v : W64) : (s.setReg k v).overlay = s.overlay := rfl
@[simp] theorem setReg_vaultGen (k : Nat) (v : W64) : (s.setReg k v).vaultGen = s.vaultGen := rfl
@[simp] theorem setReg_dramGen (k : Nat) (v : W64) : (s.setReg k v).dramGen = s.dramGen := rfl
@[simp] theorem setReg_lostPages (k : Nat) (v : W64) : (s.setReg k v).lostPages = s.lostPages := rfl
@[simp] theorem setReg_freeCtr (k : Nat) (v : W64) : (s.setReg k v).freeCtr = s.freeCtr := rfl
@[simp] theorem setReg_stamp (k : Nat) (v : W64) : (s.setReg k v).stamp = s.stamp := rfl
@[simp] theorem setReg_reply (k : Nat) (v : W64) : (s.setReg k v).reply = s.reply := rfl
@[simp] theorem setReg_out (k : Nat) (v : W64) : (s.setReg k v).out = s.out := rfl
@[simp] theorem setReg_recLatch (k : Nat) (v : W64) : (s.setReg k v).recLatch = s.recLatch := rfl
@[simp] theorem setReg_lanes (k : Nat) (v : W64) : (s.setReg k v).lanes = s.lanes := rfl
@[simp] theorem setReg_tally (k : Nat) (v : W64) : (s.setReg k v).tally = s.tally := rfl
@[simp] theorem setReg_ctxs (k : Nat) (v : W64) : (s.setReg k v).ctxs = s.ctxs := rfl
@[simp] theorem setReg_teller (k : Nat) (v : W64) : (s.setReg k v).teller = s.teller := rfl
@[simp] theorem setReg_field (k : Nat) (v : W64) : (s.setReg k v).field = s.field := rfl
@[simp] theorem setReg_starter (k : Nat) (v : W64) : (s.setReg k v).starter = s.starter := rfl
@[simp] theorem setReg_boot (k : Nat) (v : W64) : (s.setReg k v).boot = s.boot := rfl
@[simp] theorem setReg_island (k : Nat) (v : W64) : (s.setReg k v).island = s.island := rfl
@[simp] theorem setReg_net (k : Nat) (v : W64) : (s.setReg k v).net = s.net := rfl
@[simp] theorem setReg_judge (k : Nat) (v : W64) : (s.setReg k v).judge = s.judge := rfl
@[simp] theorem setReg_fusion (k : Nat) (v : W64) : (s.setReg k v).fusion = s.fusion := rfl
@[simp] theorem setReg_hurdle (k : Nat) (v : W64) : (s.setReg k v).hurdle = s.hurdle := rfl
@[simp] theorem setReg_stream (k : Nat) (v : W64) : (s.setReg k v).stream = s.stream := rfl
@[simp] theorem setReg_sprint (k : Nat) (v : W64) : (s.setReg k v).sprint = s.sprint := rfl
@[simp] theorem setReg_relay (k : Nat) (v : W64) : (s.setReg k v).relay = s.relay := rfl
@[simp] theorem setReg_port (k : Nat) (v : W64) : (s.setReg k v).port = s.port := rfl
@[simp] theorem setReg_power (k : Nat) (v : W64) : (s.setReg k v).power = s.power := rfl

/-! ### setFld -/

@[simp] theorem setFld_pending (f : Fld) (v : Nat) : (s.setFld f v).pending = s.pending := rfl
@[simp] theorem setFld_mem (f : Fld) (v : Nat) : (s.setFld f v).mem = s.mem := rfl
@[simp] theorem setFld_overlay (f : Fld) (v : Nat) : (s.setFld f v).overlay = s.overlay := rfl
@[simp] theorem setFld_vaultGen (f : Fld) (v : Nat) : (s.setFld f v).vaultGen = s.vaultGen := rfl
@[simp] theorem setFld_dramGen (f : Fld) (v : Nat) : (s.setFld f v).dramGen = s.dramGen := rfl
@[simp] theorem setFld_lostPages (f : Fld) (v : Nat) : (s.setFld f v).lostPages = s.lostPages := rfl
@[simp] theorem setFld_freeCtr (f : Fld) (v : Nat) : (s.setFld f v).freeCtr = s.freeCtr := rfl
@[simp] theorem setFld_stamp (f : Fld) (v : Nat) : (s.setFld f v).stamp = s.stamp := rfl
@[simp] theorem setFld_reply (f : Fld) (v : Nat) : (s.setFld f v).reply = s.reply := rfl
@[simp] theorem setFld_out (f : Fld) (v : Nat) : (s.setFld f v).out = s.out := rfl
@[simp] theorem setFld_recLatch (f : Fld) (v : Nat) : (s.setFld f v).recLatch = s.recLatch := rfl
@[simp] theorem setFld_lanes (f : Fld) (v : Nat) : (s.setFld f v).lanes = s.lanes := rfl
@[simp] theorem setFld_tally (f : Fld) (v : Nat) : (s.setFld f v).tally = s.tally := rfl
@[simp] theorem setFld_ctxs (f : Fld) (v : Nat) : (s.setFld f v).ctxs = s.ctxs := rfl
@[simp] theorem setFld_teller (f : Fld) (v : Nat) : (s.setFld f v).teller = s.teller := rfl
@[simp] theorem setFld_field (f : Fld) (v : Nat) : (s.setFld f v).field = s.field := rfl
@[simp] theorem setFld_starter (f : Fld) (v : Nat) : (s.setFld f v).starter = s.starter := rfl
@[simp] theorem setFld_boot (f : Fld) (v : Nat) : (s.setFld f v).boot = s.boot := rfl
@[simp] theorem setFld_island (f : Fld) (v : Nat) : (s.setFld f v).island = s.island := rfl
@[simp] theorem setFld_net (f : Fld) (v : Nat) : (s.setFld f v).net = s.net := rfl
@[simp] theorem setFld_judge (f : Fld) (v : Nat) : (s.setFld f v).judge = s.judge := rfl
@[simp] theorem setFld_fusion (f : Fld) (v : Nat) : (s.setFld f v).fusion = s.fusion := rfl
@[simp] theorem setFld_hurdle (f : Fld) (v : Nat) : (s.setFld f v).hurdle = s.hurdle := rfl
@[simp] theorem setFld_stream (f : Fld) (v : Nat) : (s.setFld f v).stream = s.stream := rfl
@[simp] theorem setFld_sprint (f : Fld) (v : Nat) : (s.setFld f v).sprint = s.sprint := rfl
@[simp] theorem setFld_relay (f : Fld) (v : Nat) : (s.setFld f v).relay = s.relay := rfl
@[simp] theorem setFld_port (f : Fld) (v : Nat) : (s.setFld f v).port = s.port := rfl
@[simp] theorem setFld_power (f : Fld) (v : Nat) : (s.setFld f v).power = s.power := rfl

/-! ### bump -/

@[simp] theorem bump_pending (f : Fld) (n : Nat) : (s.bump f n).pending = s.pending := rfl
@[simp] theorem bump_mem (f : Fld) (n : Nat) : (s.bump f n).mem = s.mem := rfl
@[simp] theorem bump_overlay (f : Fld) (n : Nat) : (s.bump f n).overlay = s.overlay := rfl
@[simp] theorem bump_vaultGen (f : Fld) (n : Nat) : (s.bump f n).vaultGen = s.vaultGen := rfl
@[simp] theorem bump_dramGen (f : Fld) (n : Nat) : (s.bump f n).dramGen = s.dramGen := rfl
@[simp] theorem bump_lostPages (f : Fld) (n : Nat) : (s.bump f n).lostPages = s.lostPages := rfl
@[simp] theorem bump_freeCtr (f : Fld) (n : Nat) : (s.bump f n).freeCtr = s.freeCtr := rfl
@[simp] theorem bump_stamp (f : Fld) (n : Nat) : (s.bump f n).stamp = s.stamp := rfl
@[simp] theorem bump_reply (f : Fld) (n : Nat) : (s.bump f n).reply = s.reply := rfl
@[simp] theorem bump_out (f : Fld) (n : Nat) : (s.bump f n).out = s.out := rfl
@[simp] theorem bump_recLatch (f : Fld) (n : Nat) : (s.bump f n).recLatch = s.recLatch := rfl
@[simp] theorem bump_lanes (f : Fld) (n : Nat) : (s.bump f n).lanes = s.lanes := rfl
@[simp] theorem bump_tally (f : Fld) (n : Nat) : (s.bump f n).tally = s.tally := rfl
@[simp] theorem bump_ctxs (f : Fld) (n : Nat) : (s.bump f n).ctxs = s.ctxs := rfl
@[simp] theorem bump_teller (f : Fld) (n : Nat) : (s.bump f n).teller = s.teller := rfl
@[simp] theorem bump_field (f : Fld) (n : Nat) : (s.bump f n).field = s.field := rfl
@[simp] theorem bump_starter (f : Fld) (n : Nat) : (s.bump f n).starter = s.starter := rfl
@[simp] theorem bump_boot (f : Fld) (n : Nat) : (s.bump f n).boot = s.boot := rfl
@[simp] theorem bump_island (f : Fld) (n : Nat) : (s.bump f n).island = s.island := rfl
@[simp] theorem bump_net (f : Fld) (n : Nat) : (s.bump f n).net = s.net := rfl
@[simp] theorem bump_judge (f : Fld) (n : Nat) : (s.bump f n).judge = s.judge := rfl
@[simp] theorem bump_fusion (f : Fld) (n : Nat) : (s.bump f n).fusion = s.fusion := rfl
@[simp] theorem bump_hurdle (f : Fld) (n : Nat) : (s.bump f n).hurdle = s.hurdle := rfl
@[simp] theorem bump_stream (f : Fld) (n : Nat) : (s.bump f n).stream = s.stream := rfl
@[simp] theorem bump_sprint (f : Fld) (n : Nat) : (s.bump f n).sprint = s.sprint := rfl
@[simp] theorem bump_relay (f : Fld) (n : Nat) : (s.bump f n).relay = s.relay := rfl
@[simp] theorem bump_port (f : Fld) (n : Nat) : (s.bump f n).port = s.port := rfl
@[simp] theorem bump_power (f : Fld) (n : Nat) : (s.bump f n).power = s.power := rfl

/-! ### rise -/

@[simp] theorem rise_pending (f : Fld) (n : Nat) : (s.rise f n).pending = s.pending := rfl
@[simp] theorem rise_mem (f : Fld) (n : Nat) : (s.rise f n).mem = s.mem := rfl
@[simp] theorem rise_overlay (f : Fld) (n : Nat) : (s.rise f n).overlay = s.overlay := rfl
@[simp] theorem rise_vaultGen (f : Fld) (n : Nat) : (s.rise f n).vaultGen = s.vaultGen := rfl
@[simp] theorem rise_dramGen (f : Fld) (n : Nat) : (s.rise f n).dramGen = s.dramGen := rfl
@[simp] theorem rise_lostPages (f : Fld) (n : Nat) : (s.rise f n).lostPages = s.lostPages := rfl
@[simp] theorem rise_freeCtr (f : Fld) (n : Nat) : (s.rise f n).freeCtr = s.freeCtr := rfl
@[simp] theorem rise_stamp (f : Fld) (n : Nat) : (s.rise f n).stamp = s.stamp := rfl
@[simp] theorem rise_reply (f : Fld) (n : Nat) : (s.rise f n).reply = s.reply := rfl
@[simp] theorem rise_out (f : Fld) (n : Nat) : (s.rise f n).out = s.out := rfl
@[simp] theorem rise_recLatch (f : Fld) (n : Nat) : (s.rise f n).recLatch = s.recLatch := rfl
@[simp] theorem rise_lanes (f : Fld) (n : Nat) : (s.rise f n).lanes = s.lanes := rfl
@[simp] theorem rise_tally (f : Fld) (n : Nat) : (s.rise f n).tally = s.tally := rfl
@[simp] theorem rise_ctxs (f : Fld) (n : Nat) : (s.rise f n).ctxs = s.ctxs := rfl
@[simp] theorem rise_teller (f : Fld) (n : Nat) : (s.rise f n).teller = s.teller := rfl
@[simp] theorem rise_field (f : Fld) (n : Nat) : (s.rise f n).field = s.field := rfl
@[simp] theorem rise_starter (f : Fld) (n : Nat) : (s.rise f n).starter = s.starter := rfl
@[simp] theorem rise_boot (f : Fld) (n : Nat) : (s.rise f n).boot = s.boot := rfl
@[simp] theorem rise_island (f : Fld) (n : Nat) : (s.rise f n).island = s.island := rfl
@[simp] theorem rise_net (f : Fld) (n : Nat) : (s.rise f n).net = s.net := rfl
@[simp] theorem rise_judge (f : Fld) (n : Nat) : (s.rise f n).judge = s.judge := rfl
@[simp] theorem rise_fusion (f : Fld) (n : Nat) : (s.rise f n).fusion = s.fusion := rfl
@[simp] theorem rise_hurdle (f : Fld) (n : Nat) : (s.rise f n).hurdle = s.hurdle := rfl
@[simp] theorem rise_stream (f : Fld) (n : Nat) : (s.rise f n).stream = s.stream := rfl
@[simp] theorem rise_sprint (f : Fld) (n : Nat) : (s.rise f n).sprint = s.sprint := rfl
@[simp] theorem rise_relay (f : Fld) (n : Nat) : (s.rise f n).relay = s.relay := rfl
@[simp] theorem rise_port (f : Fld) (n : Nat) : (s.rise f n).port = s.port := rfl
@[simp] theorem rise_power (f : Fld) (n : Nat) : (s.rise f n).power = s.power := rfl

/-! ### emit -/

@[simp] theorem emit_pending (e : Emit) : (s.emit e).pending = s.pending := rfl
@[simp] theorem emit_regs (e : Emit) : (s.emit e).regs = s.regs := rfl
@[simp] theorem emit_mem (e : Emit) : (s.emit e).mem = s.mem := rfl
@[simp] theorem emit_overlay (e : Emit) : (s.emit e).overlay = s.overlay := rfl
@[simp] theorem emit_vaultGen (e : Emit) : (s.emit e).vaultGen = s.vaultGen := rfl
@[simp] theorem emit_dramGen (e : Emit) : (s.emit e).dramGen = s.dramGen := rfl
@[simp] theorem emit_lostPages (e : Emit) : (s.emit e).lostPages = s.lostPages := rfl
@[simp] theorem emit_freeCtr (e : Emit) : (s.emit e).freeCtr = s.freeCtr := rfl
@[simp] theorem emit_stamp (e : Emit) : (s.emit e).stamp = s.stamp := rfl
@[simp] theorem emit_reply (e : Emit) : (s.emit e).reply = s.reply := rfl
@[simp] theorem emit_recLatch (e : Emit) : (s.emit e).recLatch = s.recLatch := rfl
@[simp] theorem emit_lanes (e : Emit) : (s.emit e).lanes = s.lanes := rfl
@[simp] theorem emit_tally (e : Emit) : (s.emit e).tally = s.tally := rfl
@[simp] theorem emit_ctxs (e : Emit) : (s.emit e).ctxs = s.ctxs := rfl
@[simp] theorem emit_teller (e : Emit) : (s.emit e).teller = s.teller := rfl
@[simp] theorem emit_field (e : Emit) : (s.emit e).field = s.field := rfl
@[simp] theorem emit_starter (e : Emit) : (s.emit e).starter = s.starter := rfl
@[simp] theorem emit_boot (e : Emit) : (s.emit e).boot = s.boot := rfl
@[simp] theorem emit_island (e : Emit) : (s.emit e).island = s.island := rfl
@[simp] theorem emit_net (e : Emit) : (s.emit e).net = s.net := rfl
@[simp] theorem emit_judge (e : Emit) : (s.emit e).judge = s.judge := rfl
@[simp] theorem emit_fusion (e : Emit) : (s.emit e).fusion = s.fusion := rfl
@[simp] theorem emit_hurdle (e : Emit) : (s.emit e).hurdle = s.hurdle := rfl
@[simp] theorem emit_stream (e : Emit) : (s.emit e).stream = s.stream := rfl
@[simp] theorem emit_sprint (e : Emit) : (s.emit e).sprint = s.sprint := rfl
@[simp] theorem emit_relay (e : Emit) : (s.emit e).relay = s.relay := rfl
@[simp] theorem emit_port (e : Emit) : (s.emit e).port = s.port := rfl
@[simp] theorem emit_power (e : Emit) : (s.emit e).power = s.power := rfl

/-! ### answer -/

@[simp] theorem answer_pending (r : Nat) (st : Status) (v : W64) (bs : List Byte) : (s.answer r st v bs).pending = s.pending := rfl
@[simp] theorem answer_regs (r : Nat) (st : Status) (v : W64) (bs : List Byte) : (s.answer r st v bs).regs = s.regs := rfl
@[simp] theorem answer_mem (r : Nat) (st : Status) (v : W64) (bs : List Byte) : (s.answer r st v bs).mem = s.mem := rfl
@[simp] theorem answer_overlay (r : Nat) (st : Status) (v : W64) (bs : List Byte) : (s.answer r st v bs).overlay = s.overlay := rfl
@[simp] theorem answer_vaultGen (r : Nat) (st : Status) (v : W64) (bs : List Byte) : (s.answer r st v bs).vaultGen = s.vaultGen := rfl
@[simp] theorem answer_dramGen (r : Nat) (st : Status) (v : W64) (bs : List Byte) : (s.answer r st v bs).dramGen = s.dramGen := rfl
@[simp] theorem answer_lostPages (r : Nat) (st : Status) (v : W64) (bs : List Byte) : (s.answer r st v bs).lostPages = s.lostPages := rfl
@[simp] theorem answer_freeCtr (r : Nat) (st : Status) (v : W64) (bs : List Byte) : (s.answer r st v bs).freeCtr = s.freeCtr := rfl
@[simp] theorem answer_stamp (r : Nat) (st : Status) (v : W64) (bs : List Byte) : (s.answer r st v bs).stamp = s.stamp := rfl
@[simp] theorem answer_out (r : Nat) (st : Status) (v : W64) (bs : List Byte) : (s.answer r st v bs).out = s.out := rfl
@[simp] theorem answer_recLatch (r : Nat) (st : Status) (v : W64) (bs : List Byte) : (s.answer r st v bs).recLatch = s.recLatch := rfl
@[simp] theorem answer_lanes (r : Nat) (st : Status) (v : W64) (bs : List Byte) : (s.answer r st v bs).lanes = s.lanes := rfl
@[simp] theorem answer_tally (r : Nat) (st : Status) (v : W64) (bs : List Byte) : (s.answer r st v bs).tally = s.tally := rfl
@[simp] theorem answer_ctxs (r : Nat) (st : Status) (v : W64) (bs : List Byte) : (s.answer r st v bs).ctxs = s.ctxs := rfl
@[simp] theorem answer_teller (r : Nat) (st : Status) (v : W64) (bs : List Byte) : (s.answer r st v bs).teller = s.teller := rfl
@[simp] theorem answer_field (r : Nat) (st : Status) (v : W64) (bs : List Byte) : (s.answer r st v bs).field = s.field := rfl
@[simp] theorem answer_starter (r : Nat) (st : Status) (v : W64) (bs : List Byte) : (s.answer r st v bs).starter = s.starter := rfl
@[simp] theorem answer_boot (r : Nat) (st : Status) (v : W64) (bs : List Byte) : (s.answer r st v bs).boot = s.boot := rfl
@[simp] theorem answer_island (r : Nat) (st : Status) (v : W64) (bs : List Byte) : (s.answer r st v bs).island = s.island := rfl
@[simp] theorem answer_net (r : Nat) (st : Status) (v : W64) (bs : List Byte) : (s.answer r st v bs).net = s.net := rfl
@[simp] theorem answer_judge (r : Nat) (st : Status) (v : W64) (bs : List Byte) : (s.answer r st v bs).judge = s.judge := rfl
@[simp] theorem answer_fusion (r : Nat) (st : Status) (v : W64) (bs : List Byte) : (s.answer r st v bs).fusion = s.fusion := rfl
@[simp] theorem answer_hurdle (r : Nat) (st : Status) (v : W64) (bs : List Byte) : (s.answer r st v bs).hurdle = s.hurdle := rfl
@[simp] theorem answer_stream (r : Nat) (st : Status) (v : W64) (bs : List Byte) : (s.answer r st v bs).stream = s.stream := rfl
@[simp] theorem answer_sprint (r : Nat) (st : Status) (v : W64) (bs : List Byte) : (s.answer r st v bs).sprint = s.sprint := rfl
@[simp] theorem answer_relay (r : Nat) (st : Status) (v : W64) (bs : List Byte) : (s.answer r st v bs).relay = s.relay := rfl
@[simp] theorem answer_port (r : Nat) (st : Status) (v : W64) (bs : List Byte) : (s.answer r st v bs).port = s.port := rfl
@[simp] theorem answer_power (r : Nat) (st : Status) (v : W64) (bs : List Byte) : (s.answer r st v bs).power = s.power := rfl

/-! ### bumpFree -/

@[simp] theorem bumpFree_pending : (s.bumpFree).pending = s.pending := rfl
@[simp] theorem bumpFree_regs : (s.bumpFree).regs = s.regs := rfl
@[simp] theorem bumpFree_mem : (s.bumpFree).mem = s.mem := rfl
@[simp] theorem bumpFree_overlay : (s.bumpFree).overlay = s.overlay := rfl
@[simp] theorem bumpFree_vaultGen : (s.bumpFree).vaultGen = s.vaultGen := rfl
@[simp] theorem bumpFree_dramGen : (s.bumpFree).dramGen = s.dramGen := rfl
@[simp] theorem bumpFree_lostPages : (s.bumpFree).lostPages = s.lostPages := rfl
@[simp] theorem bumpFree_stamp : (s.bumpFree).stamp = s.stamp := rfl
@[simp] theorem bumpFree_reply : (s.bumpFree).reply = s.reply := rfl
@[simp] theorem bumpFree_out : (s.bumpFree).out = s.out := rfl
@[simp] theorem bumpFree_recLatch : (s.bumpFree).recLatch = s.recLatch := rfl
@[simp] theorem bumpFree_lanes : (s.bumpFree).lanes = s.lanes := rfl
@[simp] theorem bumpFree_tally : (s.bumpFree).tally = s.tally := rfl
@[simp] theorem bumpFree_ctxs : (s.bumpFree).ctxs = s.ctxs := rfl
@[simp] theorem bumpFree_teller : (s.bumpFree).teller = s.teller := rfl
@[simp] theorem bumpFree_field : (s.bumpFree).field = s.field := rfl
@[simp] theorem bumpFree_starter : (s.bumpFree).starter = s.starter := rfl
@[simp] theorem bumpFree_boot : (s.bumpFree).boot = s.boot := rfl
@[simp] theorem bumpFree_island : (s.bumpFree).island = s.island := rfl
@[simp] theorem bumpFree_net : (s.bumpFree).net = s.net := rfl
@[simp] theorem bumpFree_judge : (s.bumpFree).judge = s.judge := rfl
@[simp] theorem bumpFree_fusion : (s.bumpFree).fusion = s.fusion := rfl
@[simp] theorem bumpFree_hurdle : (s.bumpFree).hurdle = s.hurdle := rfl
@[simp] theorem bumpFree_stream : (s.bumpFree).stream = s.stream := rfl
@[simp] theorem bumpFree_sprint : (s.bumpFree).sprint = s.sprint := rfl
@[simp] theorem bumpFree_relay : (s.bumpFree).relay = s.relay := rfl
@[simp] theorem bumpFree_port : (s.bumpFree).port = s.port := rfl
@[simp] theorem bumpFree_power : (s.bumpFree).power = s.power := rfl

/-! ### nextStamp -/

@[simp] theorem nextStamp_pending : (s.nextStamp).pending = s.pending := rfl
@[simp] theorem nextStamp_regs : (s.nextStamp).regs = s.regs := rfl
@[simp] theorem nextStamp_mem : (s.nextStamp).mem = s.mem := rfl
@[simp] theorem nextStamp_overlay : (s.nextStamp).overlay = s.overlay := rfl
@[simp] theorem nextStamp_vaultGen : (s.nextStamp).vaultGen = s.vaultGen := rfl
@[simp] theorem nextStamp_dramGen : (s.nextStamp).dramGen = s.dramGen := rfl
@[simp] theorem nextStamp_lostPages : (s.nextStamp).lostPages = s.lostPages := rfl
@[simp] theorem nextStamp_freeCtr : (s.nextStamp).freeCtr = s.freeCtr := rfl
@[simp] theorem nextStamp_reply : (s.nextStamp).reply = s.reply := rfl
@[simp] theorem nextStamp_out : (s.nextStamp).out = s.out := rfl
@[simp] theorem nextStamp_recLatch : (s.nextStamp).recLatch = s.recLatch := rfl
@[simp] theorem nextStamp_lanes : (s.nextStamp).lanes = s.lanes := rfl
@[simp] theorem nextStamp_tally : (s.nextStamp).tally = s.tally := rfl
@[simp] theorem nextStamp_ctxs : (s.nextStamp).ctxs = s.ctxs := rfl
@[simp] theorem nextStamp_teller : (s.nextStamp).teller = s.teller := rfl
@[simp] theorem nextStamp_field : (s.nextStamp).field = s.field := rfl
@[simp] theorem nextStamp_starter : (s.nextStamp).starter = s.starter := rfl
@[simp] theorem nextStamp_boot : (s.nextStamp).boot = s.boot := rfl
@[simp] theorem nextStamp_island : (s.nextStamp).island = s.island := rfl
@[simp] theorem nextStamp_net : (s.nextStamp).net = s.net := rfl
@[simp] theorem nextStamp_judge : (s.nextStamp).judge = s.judge := rfl
@[simp] theorem nextStamp_fusion : (s.nextStamp).fusion = s.fusion := rfl
@[simp] theorem nextStamp_hurdle : (s.nextStamp).hurdle = s.hurdle := rfl
@[simp] theorem nextStamp_stream : (s.nextStamp).stream = s.stream := rfl
@[simp] theorem nextStamp_sprint : (s.nextStamp).sprint = s.sprint := rfl
@[simp] theorem nextStamp_relay : (s.nextStamp).relay = s.relay := rfl
@[simp] theorem nextStamp_port : (s.nextStamp).port = s.port := rfl
@[simp] theorem nextStamp_power : (s.nextStamp).power = s.power := rfl

/-! ### setOverlay -/

@[simp] theorem setOverlay_pending (a : Nat) (b : Option Byte) : (s.setOverlay a b).pending = s.pending := rfl
@[simp] theorem setOverlay_regs (a : Nat) (b : Option Byte) : (s.setOverlay a b).regs = s.regs := rfl
@[simp] theorem setOverlay_mem (a : Nat) (b : Option Byte) : (s.setOverlay a b).mem = s.mem := rfl
@[simp] theorem setOverlay_vaultGen (a : Nat) (b : Option Byte) : (s.setOverlay a b).vaultGen = s.vaultGen := rfl
@[simp] theorem setOverlay_dramGen (a : Nat) (b : Option Byte) : (s.setOverlay a b).dramGen = s.dramGen := rfl
@[simp] theorem setOverlay_lostPages (a : Nat) (b : Option Byte) : (s.setOverlay a b).lostPages = s.lostPages := rfl
@[simp] theorem setOverlay_freeCtr (a : Nat) (b : Option Byte) : (s.setOverlay a b).freeCtr = s.freeCtr := rfl
@[simp] theorem setOverlay_stamp (a : Nat) (b : Option Byte) : (s.setOverlay a b).stamp = s.stamp := rfl
@[simp] theorem setOverlay_reply (a : Nat) (b : Option Byte) : (s.setOverlay a b).reply = s.reply := rfl
@[simp] theorem setOverlay_out (a : Nat) (b : Option Byte) : (s.setOverlay a b).out = s.out := rfl
@[simp] theorem setOverlay_recLatch (a : Nat) (b : Option Byte) : (s.setOverlay a b).recLatch = s.recLatch := rfl
@[simp] theorem setOverlay_lanes (a : Nat) (b : Option Byte) : (s.setOverlay a b).lanes = s.lanes := rfl
@[simp] theorem setOverlay_tally (a : Nat) (b : Option Byte) : (s.setOverlay a b).tally = s.tally := rfl
@[simp] theorem setOverlay_ctxs (a : Nat) (b : Option Byte) : (s.setOverlay a b).ctxs = s.ctxs := rfl
@[simp] theorem setOverlay_teller (a : Nat) (b : Option Byte) : (s.setOverlay a b).teller = s.teller := rfl
@[simp] theorem setOverlay_field (a : Nat) (b : Option Byte) : (s.setOverlay a b).field = s.field := rfl
@[simp] theorem setOverlay_starter (a : Nat) (b : Option Byte) : (s.setOverlay a b).starter = s.starter := rfl
@[simp] theorem setOverlay_boot (a : Nat) (b : Option Byte) : (s.setOverlay a b).boot = s.boot := rfl
@[simp] theorem setOverlay_island (a : Nat) (b : Option Byte) : (s.setOverlay a b).island = s.island := rfl
@[simp] theorem setOverlay_net (a : Nat) (b : Option Byte) : (s.setOverlay a b).net = s.net := rfl
@[simp] theorem setOverlay_judge (a : Nat) (b : Option Byte) : (s.setOverlay a b).judge = s.judge := rfl
@[simp] theorem setOverlay_fusion (a : Nat) (b : Option Byte) : (s.setOverlay a b).fusion = s.fusion := rfl
@[simp] theorem setOverlay_hurdle (a : Nat) (b : Option Byte) : (s.setOverlay a b).hurdle = s.hurdle := rfl
@[simp] theorem setOverlay_stream (a : Nat) (b : Option Byte) : (s.setOverlay a b).stream = s.stream := rfl
@[simp] theorem setOverlay_sprint (a : Nat) (b : Option Byte) : (s.setOverlay a b).sprint = s.sprint := rfl
@[simp] theorem setOverlay_relay (a : Nat) (b : Option Byte) : (s.setOverlay a b).relay = s.relay := rfl
@[simp] theorem setOverlay_port (a : Nat) (b : Option Byte) : (s.setOverlay a b).port = s.port := rfl
@[simp] theorem setOverlay_power (a : Nat) (b : Option Byte) : (s.setOverlay a b).power = s.power := rfl

/-! ### setHome -/

@[simp] theorem setHome_pending (a : Nat) (b : Byte) : (s.setHome a b).pending = s.pending := rfl
@[simp] theorem setHome_regs (a : Nat) (b : Byte) : (s.setHome a b).regs = s.regs := rfl
@[simp] theorem setHome_overlay (a : Nat) (b : Byte) : (s.setHome a b).overlay = s.overlay := rfl
@[simp] theorem setHome_vaultGen (a : Nat) (b : Byte) : (s.setHome a b).vaultGen = s.vaultGen := rfl
@[simp] theorem setHome_dramGen (a : Nat) (b : Byte) : (s.setHome a b).dramGen = s.dramGen := rfl
@[simp] theorem setHome_lostPages (a : Nat) (b : Byte) : (s.setHome a b).lostPages = s.lostPages := rfl
@[simp] theorem setHome_freeCtr (a : Nat) (b : Byte) : (s.setHome a b).freeCtr = s.freeCtr := rfl
@[simp] theorem setHome_stamp (a : Nat) (b : Byte) : (s.setHome a b).stamp = s.stamp := rfl
@[simp] theorem setHome_reply (a : Nat) (b : Byte) : (s.setHome a b).reply = s.reply := rfl
@[simp] theorem setHome_out (a : Nat) (b : Byte) : (s.setHome a b).out = s.out := rfl
@[simp] theorem setHome_recLatch (a : Nat) (b : Byte) : (s.setHome a b).recLatch = s.recLatch := rfl
@[simp] theorem setHome_lanes (a : Nat) (b : Byte) : (s.setHome a b).lanes = s.lanes := rfl
@[simp] theorem setHome_tally (a : Nat) (b : Byte) : (s.setHome a b).tally = s.tally := rfl
@[simp] theorem setHome_ctxs (a : Nat) (b : Byte) : (s.setHome a b).ctxs = s.ctxs := rfl
@[simp] theorem setHome_teller (a : Nat) (b : Byte) : (s.setHome a b).teller = s.teller := rfl
@[simp] theorem setHome_field (a : Nat) (b : Byte) : (s.setHome a b).field = s.field := rfl
@[simp] theorem setHome_starter (a : Nat) (b : Byte) : (s.setHome a b).starter = s.starter := rfl
@[simp] theorem setHome_boot (a : Nat) (b : Byte) : (s.setHome a b).boot = s.boot := rfl
@[simp] theorem setHome_island (a : Nat) (b : Byte) : (s.setHome a b).island = s.island := rfl
@[simp] theorem setHome_net (a : Nat) (b : Byte) : (s.setHome a b).net = s.net := rfl
@[simp] theorem setHome_judge (a : Nat) (b : Byte) : (s.setHome a b).judge = s.judge := rfl
@[simp] theorem setHome_fusion (a : Nat) (b : Byte) : (s.setHome a b).fusion = s.fusion := rfl
@[simp] theorem setHome_hurdle (a : Nat) (b : Byte) : (s.setHome a b).hurdle = s.hurdle := rfl
@[simp] theorem setHome_stream (a : Nat) (b : Byte) : (s.setHome a b).stream = s.stream := rfl
@[simp] theorem setHome_sprint (a : Nat) (b : Byte) : (s.setHome a b).sprint = s.sprint := rfl
@[simp] theorem setHome_relay (a : Nat) (b : Byte) : (s.setHome a b).relay = s.relay := rfl
@[simp] theorem setHome_port (a : Nat) (b : Byte) : (s.setHome a b).port = s.port := rfl
@[simp] theorem setHome_power (a : Nat) (b : Byte) : (s.setHome a b).power = s.power := rfl

/-! ### setPage -/

@[simp] theorem setPage_pending (p : Nat) (v : Page) : (s.setPage p v).pending = s.pending := rfl
@[simp] theorem setPage_regs (p : Nat) (v : Page) : (s.setPage p v).regs = s.regs := rfl
@[simp] theorem setPage_mem (p : Nat) (v : Page) : (s.setPage p v).mem = s.mem := rfl
@[simp] theorem setPage_overlay (p : Nat) (v : Page) : (s.setPage p v).overlay = s.overlay := rfl
@[simp] theorem setPage_vaultGen (p : Nat) (v : Page) : (s.setPage p v).vaultGen = s.vaultGen := rfl
@[simp] theorem setPage_dramGen (p : Nat) (v : Page) : (s.setPage p v).dramGen = s.dramGen := rfl
@[simp] theorem setPage_lostPages (p : Nat) (v : Page) : (s.setPage p v).lostPages = s.lostPages := rfl
@[simp] theorem setPage_freeCtr (p : Nat) (v : Page) : (s.setPage p v).freeCtr = s.freeCtr := rfl
@[simp] theorem setPage_stamp (p : Nat) (v : Page) : (s.setPage p v).stamp = s.stamp := rfl
@[simp] theorem setPage_reply (p : Nat) (v : Page) : (s.setPage p v).reply = s.reply := rfl
@[simp] theorem setPage_out (p : Nat) (v : Page) : (s.setPage p v).out = s.out := rfl
@[simp] theorem setPage_recLatch (p : Nat) (v : Page) : (s.setPage p v).recLatch = s.recLatch := rfl
@[simp] theorem setPage_lanes (p : Nat) (v : Page) : (s.setPage p v).lanes = s.lanes := rfl
@[simp] theorem setPage_tally (p : Nat) (v : Page) : (s.setPage p v).tally = s.tally := rfl
@[simp] theorem setPage_ctxs (p : Nat) (v : Page) : (s.setPage p v).ctxs = s.ctxs := rfl
@[simp] theorem setPage_field (p : Nat) (v : Page) : (s.setPage p v).field = s.field := rfl
@[simp] theorem setPage_starter (p : Nat) (v : Page) : (s.setPage p v).starter = s.starter := rfl
@[simp] theorem setPage_boot (p : Nat) (v : Page) : (s.setPage p v).boot = s.boot := rfl
@[simp] theorem setPage_island (p : Nat) (v : Page) : (s.setPage p v).island = s.island := rfl
@[simp] theorem setPage_net (p : Nat) (v : Page) : (s.setPage p v).net = s.net := rfl
@[simp] theorem setPage_judge (p : Nat) (v : Page) : (s.setPage p v).judge = s.judge := rfl
@[simp] theorem setPage_fusion (p : Nat) (v : Page) : (s.setPage p v).fusion = s.fusion := rfl
@[simp] theorem setPage_hurdle (p : Nat) (v : Page) : (s.setPage p v).hurdle = s.hurdle := rfl
@[simp] theorem setPage_stream (p : Nat) (v : Page) : (s.setPage p v).stream = s.stream := rfl
@[simp] theorem setPage_sprint (p : Nat) (v : Page) : (s.setPage p v).sprint = s.sprint := rfl
@[simp] theorem setPage_relay (p : Nat) (v : Page) : (s.setPage p v).relay = s.relay := rfl
@[simp] theorem setPage_port (p : Nat) (v : Page) : (s.setPage p v).port = s.port := rfl
@[simp] theorem setPage_power (p : Nat) (v : Page) : (s.setPage p v).power = s.power := rfl

/-! ### setCtx -/

@[simp] theorem setCtx_pending (c : Nat) (v : Ctx) : (s.setCtx c v).pending = s.pending := rfl
@[simp] theorem setCtx_regs (c : Nat) (v : Ctx) : (s.setCtx c v).regs = s.regs := rfl
@[simp] theorem setCtx_mem (c : Nat) (v : Ctx) : (s.setCtx c v).mem = s.mem := rfl
@[simp] theorem setCtx_overlay (c : Nat) (v : Ctx) : (s.setCtx c v).overlay = s.overlay := rfl
@[simp] theorem setCtx_vaultGen (c : Nat) (v : Ctx) : (s.setCtx c v).vaultGen = s.vaultGen := rfl
@[simp] theorem setCtx_dramGen (c : Nat) (v : Ctx) : (s.setCtx c v).dramGen = s.dramGen := rfl
@[simp] theorem setCtx_lostPages (c : Nat) (v : Ctx) : (s.setCtx c v).lostPages = s.lostPages := rfl
@[simp] theorem setCtx_freeCtr (c : Nat) (v : Ctx) : (s.setCtx c v).freeCtr = s.freeCtr := rfl
@[simp] theorem setCtx_stamp (c : Nat) (v : Ctx) : (s.setCtx c v).stamp = s.stamp := rfl
@[simp] theorem setCtx_reply (c : Nat) (v : Ctx) : (s.setCtx c v).reply = s.reply := rfl
@[simp] theorem setCtx_out (c : Nat) (v : Ctx) : (s.setCtx c v).out = s.out := rfl
@[simp] theorem setCtx_recLatch (c : Nat) (v : Ctx) : (s.setCtx c v).recLatch = s.recLatch := rfl
@[simp] theorem setCtx_lanes (c : Nat) (v : Ctx) : (s.setCtx c v).lanes = s.lanes := rfl
@[simp] theorem setCtx_tally (c : Nat) (v : Ctx) : (s.setCtx c v).tally = s.tally := rfl
@[simp] theorem setCtx_teller (c : Nat) (v : Ctx) : (s.setCtx c v).teller = s.teller := rfl
@[simp] theorem setCtx_field (c : Nat) (v : Ctx) : (s.setCtx c v).field = s.field := rfl
@[simp] theorem setCtx_starter (c : Nat) (v : Ctx) : (s.setCtx c v).starter = s.starter := rfl
@[simp] theorem setCtx_boot (c : Nat) (v : Ctx) : (s.setCtx c v).boot = s.boot := rfl
@[simp] theorem setCtx_island (c : Nat) (v : Ctx) : (s.setCtx c v).island = s.island := rfl
@[simp] theorem setCtx_net (c : Nat) (v : Ctx) : (s.setCtx c v).net = s.net := rfl
@[simp] theorem setCtx_judge (c : Nat) (v : Ctx) : (s.setCtx c v).judge = s.judge := rfl
@[simp] theorem setCtx_fusion (c : Nat) (v : Ctx) : (s.setCtx c v).fusion = s.fusion := rfl
@[simp] theorem setCtx_hurdle (c : Nat) (v : Ctx) : (s.setCtx c v).hurdle = s.hurdle := rfl
@[simp] theorem setCtx_stream (c : Nat) (v : Ctx) : (s.setCtx c v).stream = s.stream := rfl
@[simp] theorem setCtx_sprint (c : Nat) (v : Ctx) : (s.setCtx c v).sprint = s.sprint := rfl
@[simp] theorem setCtx_relay (c : Nat) (v : Ctx) : (s.setCtx c v).relay = s.relay := rfl
@[simp] theorem setCtx_port (c : Nat) (v : Ctx) : (s.setCtx c v).port = s.port := rfl
@[simp] theorem setCtx_power (c : Nat) (v : Ctx) : (s.setCtx c v).power = s.power := rfl

/-! ### modCtx -/

@[simp] theorem modCtx_pending (c : Nat) (g : Ctx → Ctx) : (s.modCtx c g).pending = s.pending := rfl
@[simp] theorem modCtx_regs (c : Nat) (g : Ctx → Ctx) : (s.modCtx c g).regs = s.regs := rfl
@[simp] theorem modCtx_mem (c : Nat) (g : Ctx → Ctx) : (s.modCtx c g).mem = s.mem := rfl
@[simp] theorem modCtx_overlay (c : Nat) (g : Ctx → Ctx) : (s.modCtx c g).overlay = s.overlay := rfl
@[simp] theorem modCtx_vaultGen (c : Nat) (g : Ctx → Ctx) : (s.modCtx c g).vaultGen = s.vaultGen := rfl
@[simp] theorem modCtx_dramGen (c : Nat) (g : Ctx → Ctx) : (s.modCtx c g).dramGen = s.dramGen := rfl
@[simp] theorem modCtx_lostPages (c : Nat) (g : Ctx → Ctx) : (s.modCtx c g).lostPages = s.lostPages := rfl
@[simp] theorem modCtx_freeCtr (c : Nat) (g : Ctx → Ctx) : (s.modCtx c g).freeCtr = s.freeCtr := rfl
@[simp] theorem modCtx_stamp (c : Nat) (g : Ctx → Ctx) : (s.modCtx c g).stamp = s.stamp := rfl
@[simp] theorem modCtx_reply (c : Nat) (g : Ctx → Ctx) : (s.modCtx c g).reply = s.reply := rfl
@[simp] theorem modCtx_out (c : Nat) (g : Ctx → Ctx) : (s.modCtx c g).out = s.out := rfl
@[simp] theorem modCtx_recLatch (c : Nat) (g : Ctx → Ctx) : (s.modCtx c g).recLatch = s.recLatch := rfl
@[simp] theorem modCtx_lanes (c : Nat) (g : Ctx → Ctx) : (s.modCtx c g).lanes = s.lanes := rfl
@[simp] theorem modCtx_tally (c : Nat) (g : Ctx → Ctx) : (s.modCtx c g).tally = s.tally := rfl
@[simp] theorem modCtx_teller (c : Nat) (g : Ctx → Ctx) : (s.modCtx c g).teller = s.teller := rfl
@[simp] theorem modCtx_field (c : Nat) (g : Ctx → Ctx) : (s.modCtx c g).field = s.field := rfl
@[simp] theorem modCtx_starter (c : Nat) (g : Ctx → Ctx) : (s.modCtx c g).starter = s.starter := rfl
@[simp] theorem modCtx_boot (c : Nat) (g : Ctx → Ctx) : (s.modCtx c g).boot = s.boot := rfl
@[simp] theorem modCtx_island (c : Nat) (g : Ctx → Ctx) : (s.modCtx c g).island = s.island := rfl
@[simp] theorem modCtx_net (c : Nat) (g : Ctx → Ctx) : (s.modCtx c g).net = s.net := rfl
@[simp] theorem modCtx_judge (c : Nat) (g : Ctx → Ctx) : (s.modCtx c g).judge = s.judge := rfl
@[simp] theorem modCtx_fusion (c : Nat) (g : Ctx → Ctx) : (s.modCtx c g).fusion = s.fusion := rfl
@[simp] theorem modCtx_hurdle (c : Nat) (g : Ctx → Ctx) : (s.modCtx c g).hurdle = s.hurdle := rfl
@[simp] theorem modCtx_stream (c : Nat) (g : Ctx → Ctx) : (s.modCtx c g).stream = s.stream := rfl
@[simp] theorem modCtx_sprint (c : Nat) (g : Ctx → Ctx) : (s.modCtx c g).sprint = s.sprint := rfl
@[simp] theorem modCtx_relay (c : Nat) (g : Ctx → Ctx) : (s.modCtx c g).relay = s.relay := rfl
@[simp] theorem modCtx_port (c : Nat) (g : Ctx → Ctx) : (s.modCtx c g).port = s.port := rfl
@[simp] theorem modCtx_power (c : Nat) (g : Ctx → Ctx) : (s.modCtx c g).power = s.power := rfl

/-! ### pcNext -/

@[simp] theorem pcNext_pending (c : Nat) : (s.pcNext c).pending = s.pending := rfl
@[simp] theorem pcNext_regs (c : Nat) : (s.pcNext c).regs = s.regs := rfl
@[simp] theorem pcNext_mem (c : Nat) : (s.pcNext c).mem = s.mem := rfl
@[simp] theorem pcNext_overlay (c : Nat) : (s.pcNext c).overlay = s.overlay := rfl
@[simp] theorem pcNext_vaultGen (c : Nat) : (s.pcNext c).vaultGen = s.vaultGen := rfl
@[simp] theorem pcNext_dramGen (c : Nat) : (s.pcNext c).dramGen = s.dramGen := rfl
@[simp] theorem pcNext_lostPages (c : Nat) : (s.pcNext c).lostPages = s.lostPages := rfl
@[simp] theorem pcNext_freeCtr (c : Nat) : (s.pcNext c).freeCtr = s.freeCtr := rfl
@[simp] theorem pcNext_stamp (c : Nat) : (s.pcNext c).stamp = s.stamp := rfl
@[simp] theorem pcNext_reply (c : Nat) : (s.pcNext c).reply = s.reply := rfl
@[simp] theorem pcNext_out (c : Nat) : (s.pcNext c).out = s.out := rfl
@[simp] theorem pcNext_recLatch (c : Nat) : (s.pcNext c).recLatch = s.recLatch := rfl
@[simp] theorem pcNext_lanes (c : Nat) : (s.pcNext c).lanes = s.lanes := rfl
@[simp] theorem pcNext_tally (c : Nat) : (s.pcNext c).tally = s.tally := rfl
@[simp] theorem pcNext_teller (c : Nat) : (s.pcNext c).teller = s.teller := rfl
@[simp] theorem pcNext_field (c : Nat) : (s.pcNext c).field = s.field := rfl
@[simp] theorem pcNext_starter (c : Nat) : (s.pcNext c).starter = s.starter := rfl
@[simp] theorem pcNext_boot (c : Nat) : (s.pcNext c).boot = s.boot := rfl
@[simp] theorem pcNext_island (c : Nat) : (s.pcNext c).island = s.island := rfl
@[simp] theorem pcNext_net (c : Nat) : (s.pcNext c).net = s.net := rfl
@[simp] theorem pcNext_judge (c : Nat) : (s.pcNext c).judge = s.judge := rfl
@[simp] theorem pcNext_fusion (c : Nat) : (s.pcNext c).fusion = s.fusion := rfl
@[simp] theorem pcNext_hurdle (c : Nat) : (s.pcNext c).hurdle = s.hurdle := rfl
@[simp] theorem pcNext_stream (c : Nat) : (s.pcNext c).stream = s.stream := rfl
@[simp] theorem pcNext_sprint (c : Nat) : (s.pcNext c).sprint = s.sprint := rfl
@[simp] theorem pcNext_relay (c : Nat) : (s.pcNext c).relay = s.relay := rfl
@[simp] theorem pcNext_port (c : Nat) : (s.pcNext c).port = s.port := rfl
@[simp] theorem pcNext_power (c : Nat) : (s.pcNext c).power = s.power := rfl

/-! ### What they update -/

@[simp] theorem emit_out (e : Emit) : (s.emit e).out = s.out ++ [e] := rfl
@[simp] theorem answer_reply (r : Nat) (st : Status) (v : W64) (bs : List Byte) :
    (s.answer r st v bs).reply = { req := r, status := st, value := v, bytes := bs } := rfl
@[simp] theorem bumpFree_freeCtr : s.bumpFree.freeCtr = s.freeCtr + 1 := rfl
@[simp] theorem nextStamp_stamp : s.nextStamp.stamp = s.stamp + 1 := rfl

end Sys2Proof.Machine.State
end

