-- ==== Sys2Proof/Laws/Regs.lean ====
section
/-!
SUPPORT. Reads of registers and fields after writes of registers and fields, and reads of memory after them.
-/

namespace Sys2Proof.Machine.State

open Sys2Proof

variable (s : State)

/-! ### Registers -/

@[simp] theorem reg_setReg_same (k : Nat) (v : W64) : (s.setReg k v).reg k = v := mget_mset_same _ _ _ _

theorem reg_setReg (k j : Nat) (v : W64) : (s.setReg k v).reg j = if j = k then v else s.reg j := mget_mset _ _ _ _ _

theorem reg_setReg_other {k j : Nat} (v : W64) (h : j ≠ k) : (s.setReg k v).reg j = s.reg j :=
  mget_mset_other _ _ _ _ _ h

theorem reg_setFld_other {f : Fld} {j : Nat} (v : Nat) (h : j ≠ f.reg) : (s.setFld f v).reg j = s.reg j :=
  reg_setReg_other s _ h

theorem reg_bump_other {f : Fld} {j : Nat} (n : Nat) (h : j ≠ f.reg) : (s.bump f n).reg j = s.reg j :=
  reg_setFld_other s _ h

theorem reg_rise_other {f : Fld} {j : Nat} (n : Nat) (h : j ≠ f.reg) : (s.rise f n).reg j = s.reg j :=
  reg_setFld_other s _ h

/-! ### Fields -/

/-- A field reads as what was written to it, cut to its width. -/
theorem fld_setFld_same (f : Fld) (v : Nat) (h : f.lo + f.len ≤ 64) : (s.setFld f v).fld f = v % 2 ^ f.len := by
  unfold setFld fld
  rw [reg_setReg_same]
  exact bitsOf_putBits_same _ _ _ _ h

/-- A field of another register reads as before. -/
theorem fld_setFld_other {f g : Fld} (v : Nat) (h : g.reg ≠ f.reg) : (s.setFld f v).fld g = s.fld g := by
  unfold fld
  rw [reg_setFld_other s v h]

/-- Another field of the same register reads as before. -/
theorem fld_setFld_disjoint {f g : Fld} (v : Nat) (h : g.lo + g.len ≤ f.lo ∨ f.lo + f.len ≤ g.lo)
    (h64 : g.lo + g.len ≤ 64) : (s.setFld f v).fld g = s.fld g := by
  by_cases e : g.reg = f.reg
  · unfold setFld fld
    rw [e, reg_setReg_same]
    exact bitsOf_putBits_other _ _ _ _ _ _ h h64
  · exact fld_setFld_other s v e

theorem fld_setReg_other {k : Nat} {g : Fld} (v : W64) (h : g.reg ≠ k) : (s.setReg k v).fld g = s.fld g := by
  unfold fld
  rw [reg_setReg_other s v h]

theorem fld_setReg_same (g : Fld) (v : W64) : (s.setReg g.reg v).fld g = bitsOf v g.lo g.len := by
  unfold fld
  rw [reg_setReg_same]

/-- A saturating count. -/
theorem fld_bump_same (f : Fld) (n : Nat) (h : f.lo + f.len ≤ 64) :
    (s.bump f n).fld f = satAdd f.len (s.fld f) n := by
  unfold bump
  rw [fld_setFld_same s f _ h]
  apply Nat.mod_eq_of_lt
  unfold satAdd
  have := Nat.two_pow_pos f.len
  split <;> omega

theorem fld_bump_other {f g : Fld} (n : Nat) (h : g.reg ≠ f.reg) : (s.bump f n).fld g = s.fld g :=
  fld_setFld_other s _ h

/-- A rising count. -/
theorem fld_rise_same (f : Fld) (n : Nat) (h : f.lo + f.len ≤ 64) :
    (s.rise f n).fld f = (s.fld f + n) % 2 ^ f.len := fld_setFld_same s f _ h

theorem fld_rise_other {f g : Fld} (n : Nat) (h : g.reg ≠ f.reg) : (s.rise f n).fld g = s.fld g :=
  fld_setFld_other s _ h

/-- A one-bit field. -/
theorem flag_setFld_one (f : Fld) (h : f.lo + f.len ≤ 64) (h1 : f.len = 1) : (s.setFld f 1).flag f = true := by
  unfold flag
  rw [fld_setFld_same s f 1 h, h1]
  rfl

theorem flag_setFld_zero (f : Fld) (h : f.lo + f.len ≤ 64) : (s.setFld f 0).flag f = false := by
  unfold flag
  rw [fld_setFld_same s f 0 h, Nat.zero_mod]
  rfl

theorem flag_setFld_other {f g : Fld} (v : Nat) (h : g.reg ≠ f.reg) : (s.setFld f v).flag g = s.flag g := by
  unfold flag
  rw [fld_setFld_other s v h]

theorem flag_setFld_disjoint {f g : Fld} (v : Nat) (h : g.lo + g.len ≤ f.lo ∨ f.lo + f.len ≤ g.lo)
    (h64 : g.lo + g.len ≤ 64) : (s.setFld f v).flag g = s.flag g := by
  unfold flag
  rw [fld_setFld_disjoint s v h h64]

/-- Registers that agree give fields that agree. -/
theorem fld_congr {s t : State} {f : Fld} (h : t.reg f.reg = s.reg f.reg) : t.fld f = s.fld f := by
  unfold fld
  rw [h]

theorem reg_congr {s t : State} (h : t.regs = s.regs) (k : Nat) : t.reg k = s.reg k := by
  unfold reg
  rw [h]

/-! ### Bytes of memory -/

/-- What a byte reads as depends on the cells, the raised bytes and what memory has lost, and on nothing else. -/
theorem byteAt_congr {s t : State} (h1 : t.mem = s.mem) (h2 : t.overlay = s.overlay) (h3 : t.vaultGen = s.vaultGen)
    (h4 : t.dramGen = s.dramGen) (h5 : t.lostPages = s.lostPages) (a : Nat) : t.byteAt a = s.byteAt a := by
  unfold byteAt homeByte memDefault
  rw [h1, h2, h3, h4, h5]

/-- A byte written to a home reads as what was written, and every other home byte as before. -/
theorem homeByte_setHome (a j : Nat) (b : Byte) : (s.setHome a b).homeByte j = if j = a then b else s.homeByte j :=
  mget_mset _ _ _ _ _

end Sys2Proof.Machine.State
end

