-- ==== Sys2Proof/Laws/Ctx.lean ====
section
/-!
SUPPORT. Contexts: reads of a context's registers after writes, and what an instruction that passes its checks does first.
-/

namespace Sys2Proof.Machine.State

open Sys2Proof

variable (s : State)

/-! ### One context among others -/

@[simp] theorem ctx_setCtx_same (c : Nat) (v : Ctx) : (s.setCtx c v).ctx c = v := mget_mset_same _ _ _ _

theorem ctx_setCtx_other {c d : Nat} (v : Ctx) (h : d ≠ c) : (s.setCtx c v).ctx d = s.ctx d := mget_mset_other _ _ _ _ _ h

@[simp] theorem ctx_modCtx_same (c : Nat) (f : Ctx → Ctx) : (s.modCtx c f).ctx c = f (s.ctx c) := ctx_setCtx_same _ _ _

theorem ctx_modCtx_other {c d : Nat} (f : Ctx → Ctx) (h : d ≠ c) : (s.modCtx c f).ctx d = s.ctx d :=
  ctx_setCtx_other _ _ h

/-- A change of one context keeps all that lies outside it. -/
theorem outside_modCtx (c : Nat) (f : Ctx → Ctx) : Outside c s (s.modCtx c f) where
  regs := fun _ _ => rfl
  mem := fun _ => rfl
  ctxs := fun _ h => ctx_modCtx_other s f h

theorem outside_refl (c : Nat) : Outside c s s := ⟨fun _ _ => rfl, fun _ => rfl, fun _ _ => rfl⟩

variable {s} in
theorem outside_trans {c : Nat} {t u : State} (h : Outside c s t) (g : Outside c t u) : Outside c s u where
  regs := fun k hk => (g.regs k hk).trans (h.regs k hk)
  mem := fun a => (g.mem a).trans (h.mem a)
  ctxs := fun d hd => (g.ctxs d hd).trans (h.ctxs d hd)

/-! ### Scalars, predicates and slots -/

theorem sget_sput (c : Nat) (sd r : Fin 32) (v : W64) :
    (s.sput c sd v).sget c r = if r = sd ∧ r.val ≠ 0 then v else s.sget c r := by
  unfold sget sput
  by_cases h0 : sd.val = 0
  · by_cases hr : r.val = 0
    · simp [h0, hr]
    · have hne : ¬ r = sd := fun e => hr (by rw [e]; exact h0)
      simp [h0, hr, hne]
  · by_cases hr : r.val = 0
    · simp [hr]
    · simp only [h0, hr, if_false, ctx_modCtx_same]
      by_cases e : r = sd
      · subst e; simp [hr]
      · have : r.val ≠ sd.val := fun h => e (Fin.ext h)
        simp [e, mget_mset_other _ _ _ _ _ this]

theorem getLsbD_predsWith (b : Byte) (p i : Nat) (v : Bool) (hp : p < 8) (hi : i < 8) :
    (predsWith b p v).getLsbD i = if i = p then v else b.getLsbD i := by
  unfold predsWith
  have e : (BitVec.ofNat 8 (2 ^ p)).getLsbD i = decide (i = p) := by
    rw [BitVec.getLsbD_ofNat, Nat.testBit_two_pow]
    simp [hi, eq_comm]
  cases v
  · simp only [Bool.false_eq_true, if_false, BitVec.getLsbD_and, BitVec.getLsbD_not, e]
    by_cases h : i = p <;> simp [h, hi, hp]
  · simp only [if_true, BitVec.getLsbD_or, e]
    by_cases h : i = p <;> simp [h]

theorem pget_pput (c : Nat) (pd p : Fin 8) (v : Bool) :
    (s.pput c pd v).pget c p = if p = pd ∧ p.val ≠ 0 then v else s.pget c p := by
  unfold pget pput
  by_cases h0 : pd.val = 0
  · by_cases hp : p.val = 0
    · simp [h0, hp]
    · have hne : ¬ p = pd := fun e => hp (by rw [e]; exact h0)
      simp [h0, hp, hne]
  · by_cases hp : p.val = 0
    · simp [hp]
    · simp only [h0, if_false, ctx_modCtx_same]
      rw [getLsbD_predsWith _ _ _ _ pd.isLt p.isLt]
      by_cases e : p = pd
      · subst e; simp [hp]
      · have : ¬ p.val = pd.val := fun h => e (Fin.ext h)
        simp [e, this]

theorem slot_slotPut (c dd d : Nat) (v : Desc) : (s.slotPut c dd v).slot c d = if d = dd then v else s.slot c d := by
  unfold slot slotPut
  simp only [ctx_modCtx_same]
  exact mget_mset _ _ _ _ _

/-! ### Translation -/

/-- Keys of cached translations tell contexts and pages apart. -/
theorem tlbKey_inj {c d v w : Nat} (hv : v < 2 ^ 32) (hw : w < 2 ^ 32) (h : tlbKey d w = tlbKey c v) : d = c ∧ w = v := by
  unfold tlbKey at h
  omega

/-- A cached translation is the one in use: keeping it changes no translation (R219). -/
theorem xlate_noteTlb (c : Nat) (va : W64) (d : Nat) (wa : W64) : (s.noteTlb c va).xlate d wa = s.xlate d wa := by
  unfold noteTlb
  split
  · next e he =>
    have hw : ∀ m : Map (Option W64), ∀ r v,
        ({ s with teller := { s.teller with tlb := m } } : State).walk r v = s.walk r v := fun _ _ _ => rfl
    have hx : ∀ m : Map (Option W64), ({ s with teller := { s.teller with tlb := m } } : State).ctx d = s.ctx d :=
      fun _ => rfl
    have hva : ¬ va.toNat ≥ 2 ^ 48 := fun h => by
      unfold xlate at he
      rw [if_pos h] at he
      cases he
    unfold xlate
    simp only [hw, hx]
    split
    · rfl
    · next hwa =>
      by_cases hk : tlbKey d (wa.toNat / 65536) = tlbKey c (va.toNat / 65536)
      · obtain ⟨hd, hp⟩ := tlbKey_inj (by omega) (by omega) hk
        subst hd
        unfold xlate at he
        rw [if_neg hva] at he
        dsimp only at he
        rw [hp, mget_mset_same]
        generalize s.walk (s.ctx d).root (va.toNat / 65536) = w at he ⊢
        cases hm : mget (fun _ => none) s.teller.tlb (tlbKey d (va.toNat / 65536)) with
        | none =>
          rw [hm] at he
          dsimp only at he ⊢
          rw [if_pos he]
        | some e' =>
          rw [hm] at he
          dsimp only at he ⊢
          by_cases h1 : w = .entry e'
          · rw [if_pos h1] at he
            rw [if_pos he, if_pos h1]
          · rw [if_neg h1] at he ⊢
            cases hf : Config.freeBit s.freeCtr (tlbKey d (va.toNat / 65536)) with
            | true =>
              rw [hf, if_pos rfl] at he
              injection he with he
              subst he
              rw [if_neg h1]
            | false =>
              rw [hf] at he
              simp only [Bool.false_eq_true, if_false] at he ⊢
              rw [if_pos he]
      · rw [mget_mset_other _ _ _ _ _ hk]
  · rfl

/-- What keeping a translation leaves as it was: everything but the cached translations. -/
theorem noteTlb_ctxs (c : Nat) (va : W64) : (s.noteTlb c va).ctxs = s.ctxs := by unfold noteTlb; split <;> rfl
theorem noteTlb_regs (c : Nat) (va : W64) : (s.noteTlb c va).regs = s.regs := by unfold noteTlb; split <;> rfl
theorem noteTlb_mem (c : Nat) (va : W64) : (s.noteTlb c va).mem = s.mem := by unfold noteTlb; split <;> rfl
theorem noteTlb_overlay (c : Nat) (va : W64) : (s.noteTlb c va).overlay = s.overlay := by unfold noteTlb; split <;> rfl
theorem noteTlb_vaultGen (c : Nat) (va : W64) : (s.noteTlb c va).vaultGen = s.vaultGen := by unfold noteTlb; split <;> rfl
theorem noteTlb_dramGen (c : Nat) (va : W64) : (s.noteTlb c va).dramGen = s.dramGen := by unfold noteTlb; split <;> rfl
theorem noteTlb_lostPages (c : Nat) (va : W64) : (s.noteTlb c va).lostPages = s.lostPages := by
  unfold noteTlb; split <;> rfl
theorem noteTlb_pages (c : Nat) (va : W64) : (s.noteTlb c va).teller.pages = s.teller.pages := by
  unfold noteTlb; split <;> rfl
theorem noteTlb_tally (c : Nat) (va : W64) : (s.noteTlb c va).tally = s.tally := by unfold noteTlb; split <;> rfl
theorem noteTlb_lanes (c : Nat) (va : W64) : (s.noteTlb c va).lanes = s.lanes := by unfold noteTlb; split <;> rfl
theorem noteTlb_boot (c : Nat) (va : W64) : (s.noteTlb c va).boot = s.boot := by unfold noteTlb; split <;> rfl

theorem noteTlb_ctx (c : Nat) (va : W64) (d : Nat) : (s.noteTlb c va).ctx d = s.ctx d := by
  unfold ctx; rw [noteTlb_ctxs]

theorem noteTlb_reg (c : Nat) (va : W64) (k : Nat) : (s.noteTlb c va).reg k = s.reg k := by
  unfold reg; rw [noteTlb_regs]

theorem noteTlb_page (c : Nat) (va : W64) (p : Nat) : (s.noteTlb c va).page p = s.page p := by
  unfold page; rw [noteTlb_pages]

theorem noteTlb_byteAt (c : Nat) (va : W64) (a : Nat) : (s.noteTlb c va).byteAt a = s.byteAt a :=
  byteAt_congr (noteTlb_mem s c va) (noteTlb_overlay s c va) (noteTlb_vaultGen s c va) (noteTlb_dramGen s c va)
    (noteTlb_lostPages s c va) a

theorem outside_noteTlb (d c : Nat) (va : W64) : Outside d s (s.noteTlb c va) where
  regs := fun k _ => noteTlb_reg s c va k
  mem := noteTlb_byteAt s c va
  ctxs := fun e _ => by show mget _ _ _ = mget _ _ _; rw [noteTlb_ctxs]

/-- The region of an address depends on registers and the units present only. -/
theorem region_congr {s t : State} (h : t.regs = s.regs) (b : t.boot = s.boot) (a : Nat) : t.region a = s.region a := by
  have hr := reg_congr h
  unfold region inHurdleMap homeFrames inSave dramTop inPages nandBacked present mintUnits flag fld
  simp only [hr, b]

/-- Keeping a translation changes the outcome of no access. -/
theorem check_noteTlb (c : Nat) (va : W64) (d : Nat) (wa : W64) (w f r : Bool) :
    (s.noteTlb c va).check d wa w f r = s.check d wa w f r := by
  unfold check
  rw [xlate_noteTlb]
  have hr := fun a => region_congr (noteTlb_regs s c va) (noteTlb_boot s c va) a
  have hp := noteTlb_page s c va
  have hb : (s.noteTlb c va).present 6 = s.present 6 := by
    unfold present mintUnits
    rw [noteTlb_boot]
  simp only [hr, hp, hb]

theorem sget_noteTlb (c : Nat) (va : W64) (d : Nat) (r : Fin 32) : (s.noteTlb c va).sget d r = s.sget d r := by
  unfold sget; rw [noteTlb_ctx]

theorem pget_noteTlb (c : Nat) (va : W64) (d : Nat) (p : Fin 8) : (s.noteTlb c va).pget d p = s.pget d p := by
  unfold pget; rw [noteTlb_ctx]

theorem slot_noteTlb (c : Nat) (va : W64) (d k : Nat) : (s.noteTlb c va).slot d k = s.slot d k := by
  unfold slot; rw [noteTlb_ctx]

theorem srcB_noteTlb (c : Nat) (va : W64) (d : Nat) (o : OpS) : (s.noteTlb c va).srcB d o = s.srcB d o := by
  unfold srcB; rw [sget_noteTlb]

/-! ### The issue of one instruction -/

/-- An instruction that passes its checks goes on to its own work. -/
theorem runN_of_issues {s : State} {q : Issue} {m : Mn} {o : NOps} (h : Issues s q m o) (k : State → State) :
    s.runN q m o k = k (s.fetched q) := by
  obtain ⟨h1, ⟨pa, h2, h3⟩, h4, h5⟩ := h
  have hs : (s.noteTlb q.ctx (s.ctx q.ctx).pc).selected q.ctx q.neg q.sel = true := by
    unfold selected at h4 ⊢
    rw [pget_noteTlb]
    exact h4
  unfold runN withFetch fetched
  simp only [h1, h2, h3, hs, h5, Bool.not_true, Bool.false_eq_true, if_false]

/-! ### The next word -/

@[simp] theorem sget_pcNext (c : Nat) (r : Fin 32) : (s.pcNext c).sget c r = s.sget c r := by
  unfold sget pcNext; rw [ctx_modCtx_same]

@[simp] theorem pget_pcNext (c : Nat) (p : Fin 8) : (s.pcNext c).pget c p = s.pget c p := by
  unfold pget pcNext; rw [ctx_modCtx_same]

@[simp] theorem slot_pcNext (c d : Nat) : (s.pcNext c).slot c d = s.slot c d := by
  unfold slot pcNext; rw [ctx_modCtx_same]

@[simp] theorem pc_pcNext (c : Nat) : ((s.pcNext c).ctx c).pc = (s.ctx c).pc + 16 := by
  unfold pcNext; rw [ctx_modCtx_same]

@[simp] theorem preds_pcNext (c : Nat) : ((s.pcNext c).ctx c).preds = (s.ctx c).preds := by
  unfold pcNext; rw [ctx_modCtx_same]

@[simp] theorem descs_pcNext (c : Nat) : ((s.pcNext c).ctx c).descs = (s.ctx c).descs := by
  unfold pcNext; rw [ctx_modCtx_same]

@[simp] theorem ops_pcNext (c : Nat) : ((s.pcNext c).ctx c).ops = (s.ctx c).ops := by
  unfold pcNext; rw [ctx_modCtx_same]

@[simp] theorem pc_sput (c : Nat) (r : Fin 32) (v : W64) : ((s.sput c r v).ctx c).pc = (s.ctx c).pc := by
  unfold sput; split
  · rfl
  · rw [ctx_modCtx_same]

@[simp] theorem preds_sput (c : Nat) (r : Fin 32) (v : W64) : ((s.sput c r v).ctx c).preds = (s.ctx c).preds := by
  unfold sput; split
  · rfl
  · rw [ctx_modCtx_same]

@[simp] theorem descs_sput (c : Nat) (r : Fin 32) (v : W64) : ((s.sput c r v).ctx c).descs = (s.ctx c).descs := by
  unfold sput; split
  · rfl
  · rw [ctx_modCtx_same]

@[simp] theorem ops_sput (c : Nat) (r : Fin 32) (v : W64) : ((s.sput c r v).ctx c).ops = (s.ctx c).ops := by
  unfold sput; split
  · rfl
  · rw [ctx_modCtx_same]

@[simp] theorem pget_sput (c : Nat) (r : Fin 32) (v : W64) (p : Fin 8) : (s.sput c r v).pget c p = s.pget c p := by
  unfold pget; rw [preds_sput]

@[simp] theorem pc_pput (c : Nat) (p : Fin 8) (v : Bool) : ((s.pput c p v).ctx c).pc = (s.ctx c).pc := by
  unfold pput; split
  · rfl
  · rw [ctx_modCtx_same]

@[simp] theorem sget_pput (c : Nat) (p : Fin 8) (v : Bool) (r : Fin 32) : (s.pput c p v).sget c r = s.sget c r := by
  unfold sget pput; split
  · rfl
  · split
    · rfl
    · rw [ctx_modCtx_same]

@[simp] theorem descs_pput (c : Nat) (p : Fin 8) (v : Bool) : ((s.pput c p v).ctx c).descs = (s.ctx c).descs := by
  unfold pput; split
  · rfl
  · rw [ctx_modCtx_same]

@[simp] theorem ops_pput (c : Nat) (p : Fin 8) (v : Bool) : ((s.pput c p v).ctx c).ops = (s.ctx c).ops := by
  unfold pput; split
  · rfl
  · rw [ctx_modCtx_same]

theorem outside_sput (c : Nat) (r : Fin 32) (v : W64) : Outside c s (s.sput c r v) := by
  unfold sput; split
  · exact outside_refl s c
  · exact outside_modCtx s c _

theorem outside_pput (c : Nat) (p : Fin 8) (v : Bool) : Outside c s (s.pput c p v) := by
  unfold pput; split
  · exact outside_refl s c
  · exact outside_modCtx s c _

theorem outside_fetched (q : Issue) : Outside q.ctx s (s.fetched q) := outside_noteTlb s _ _ _

theorem fetched_ctx (q : Issue) (d : Nat) : (s.fetched q).ctx d = s.ctx d := noteTlb_ctx s _ _ d

/-- A scalar register written after the fetch, then the next word. -/
theorem wroteScalar (q : Issue) (sd : Fin 32) (v : W64) :
    WroteScalar q.ctx sd v s (((s.fetched q).sput q.ctx sd v).pcNext q.ctx) where
  value := fun r => by
    rw [sget_pcNext, sget_sput]
    unfold fetched
    rw [sget_noteTlb]
  pc := by rw [pc_pcNext, pc_sput, fetched_ctx]
  rest :=
    { preds := by rw [preds_pcNext, preds_sput, fetched_ctx]
      descs := by rw [descs_pcNext, descs_sput, fetched_ctx]
      ops := by rw [ops_pcNext, ops_sput, fetched_ctx]
      outside := outside_trans (outside_trans (outside_fetched s q) (outside_sput _ _ _ _)) (outside_modCtx _ _ _) }

/-- A predicate written after the fetch, then the next word. -/
theorem wrotePred (q : Issue) (pd : Fin 8) (v : Bool) :
    WrotePred q.ctx pd v s (((s.fetched q).pput q.ctx pd v).pcNext q.ctx) where
  value := fun p => by
    rw [pget_pcNext, pget_pput]
    unfold fetched
    rw [pget_noteTlb]
  pc := by rw [pc_pcNext, pc_pput, fetched_ctx]
  scalars := fun r => by
    rw [sget_pcNext, sget_pput]
    exact sget_noteTlb _ _ _ _ _
  descs := by rw [descs_pcNext, descs_pput, fetched_ctx]
  ops := by rw [ops_pcNext, ops_pput, fetched_ctx]
  outside := outside_trans (outside_trans (outside_fetched s q) (outside_pput _ _ _ _)) (outside_modCtx _ _ _)

/-- A descriptor slot written after the fetch, then the next word. -/
theorem wroteSlot (q : Issue) (dd : Nat) (v : Desc) :
    WroteSlot q.ctx dd v s (((s.fetched q).slotPut q.ctx dd v).pcNext q.ctx) where
  value := fun d => by
    rw [slot_pcNext, slot_slotPut]
    unfold fetched
    rw [slot_noteTlb]
  pc := by
    rw [pc_pcNext]
    unfold slotPut
    rw [ctx_modCtx_same, fetched_ctx]
  scalars := fun r => by
    rw [sget_pcNext]
    unfold sget slotPut
    rw [ctx_modCtx_same, fetched_ctx]
  preds := by
    rw [preds_pcNext]
    unfold slotPut
    rw [ctx_modCtx_same, fetched_ctx]
  ops := by
    rw [ops_pcNext]
    unfold slotPut
    rw [ctx_modCtx_same, fetched_ctx]
  outside := outside_trans (outside_trans (outside_fetched s q) (outside_modCtx _ _ _)) (outside_modCtx _ _ _)

end Sys2Proof.Machine.State
end

