-- ==== Sys2Proof/Laws/Bytes.lean ====
section
/-!
SUPPORT. Bytes of memory: reads after writes of one byte, of several bytes, and of an agent's access.
-/

namespace Sys2Proof.Machine.State

open Sys2Proof

variable (s : State)

/-- A byte written reads as what was written, wherever its page lies, and every other byte as before. -/
theorem byteAt_putByte (a j : Nat) (b : Byte) : (s.putByte a b).byteAt j = if j = a then b else s.byteAt j := by
  unfold putByte
  dsimp only
  split
  · show (match mget (fun _ => none) (mset (fun _ => none) s.overlay a (some b)) j with
      | some b => b
      | none => s.homeByte j) = _
    rw [mget_mset]
    by_cases h : j = a
    · rw [if_pos h, if_pos h]
    · rw [if_neg h, if_neg h]
      rfl
  · show (match mget (fun _ => none) (mset (fun _ => none) s.overlay a none) j with
      | some b => b
      | none => (s.setHome a b).homeByte j) = _
    rw [mget_mset, homeByte_setHome]
    by_cases h : j = a
    · rw [if_pos h, if_pos h, if_pos h]
    · rw [if_neg h, if_neg h, if_neg h]
      rfl

/-- Bytes written upward from an address. -/
theorem byteAt_putBytes (l : List Byte) (a j : Nat) :
    (s.putBytes a l).byteAt j = if a ≤ j ∧ j < a + l.length then l.getD (j - a) 0 else s.byteAt j := by
  induction l generalizing s a with
  | nil =>
    have : ¬ (a ≤ j ∧ j < a + ([] : List Byte).length) := by simp only [List.length_nil]; omega
    rw [if_neg this]
    rfl
  | cons b l ih =>
    show ((s.putByte a b).putBytes (a + 1) l).byteAt j = _
    rw [ih, byteAt_putByte]
    simp only [List.length_cons]
    by_cases h : j = a
    · subst h
      have h1 : ¬ (j + 1 ≤ j ∧ j < j + 1 + l.length) := by omega
      have h2 : j ≤ j ∧ j < j + (l.length + 1) := by omega
      rw [if_neg h1, if_pos rfl, if_pos h2, Nat.sub_self]
      rfl
    · by_cases h1 : a + 1 ≤ j ∧ j < a + 1 + l.length
      · have h2 : a ≤ j ∧ j < a + (l.length + 1) := by omega
        have h3 : j - a = j - (a + 1) + 1 := by omega
        rw [if_pos h1, if_pos h2, h3, List.getD_cons_succ]
      · have h2 : ¬ (a ≤ j ∧ j < a + (l.length + 1)) := by omega
        rw [if_neg h1, if_neg h2, if_neg h]

/-! ### What writing bytes leaves as it was -/

theorem putByte_regs (a : Nat) (b : Byte) : (s.putByte a b).regs = s.regs := by unfold putByte; dsimp only; split <;> rfl
theorem putByte_ctxs (a : Nat) (b : Byte) : (s.putByte a b).ctxs = s.ctxs := by unfold putByte; dsimp only; split <;> rfl
theorem putByte_tally (a : Nat) (b : Byte) : (s.putByte a b).tally = s.tally := by
  unfold putByte; dsimp only; split <;> rfl
theorem putByte_boot (a : Nat) (b : Byte) : (s.putByte a b).boot = s.boot := by unfold putByte; dsimp only; split <;> rfl

theorem putBytes_regs (l : List Byte) (a : Nat) : (s.putBytes a l).regs = s.regs := by
  induction l generalizing s a with
  | nil => rfl
  | cons b l ih => exact (ih (s.putByte a b) (a + 1)).trans (putByte_regs s a b)

theorem putBytes_ctxs (l : List Byte) (a : Nat) : (s.putBytes a l).ctxs = s.ctxs := by
  induction l generalizing s a with
  | nil => rfl
  | cons b l ih => exact (ih (s.putByte a b) (a + 1)).trans (putByte_ctxs s a b)

theorem putBytes_tally (l : List Byte) (a : Nat) : (s.putBytes a l).tally = s.tally := by
  induction l generalizing s a with
  | nil => rfl
  | cons b l ih => exact (ih (s.putByte a b) (a + 1)).trans (putByte_tally s a b)

/-- The windows of an address depend on registers only. -/
theorem winAt_congr {s t : State} (h : t.regs = s.regs) (a : Nat) : t.winAt a = s.winAt a := by
  have hr := reg_congr h
  unfold winAt winOn flag fld
  simp only [hr]

/-- Bytes that no Receipt window holds are written as they are. -/
theorem agentBytes_eq (l : List Byte) (a : Nat) (h : ∀ k, k < l.length → s.winAt (a + k) = none) :
    s.agentBytes a l = s.putBytes a l := by
  induction l generalizing s a with
  | nil => rfl
  | cons b l ih =>
    have h0 : s.winAt a = none := h 0 (by simp)
    show (if (s.winAt a).isSome then s else s.putByte a b).agentBytes (a + 1) l = (s.putByte a b).putBytes (a + 1) l
    rw [h0]
    refine ih (s.putByte a b) (a + 1) fun k hk => ?_
    rw [winAt_congr (putByte_regs s a b)]
    have := h (k + 1) (by simp only [List.length_cons]; omega)
    rwa [Nat.add_assoc, Nat.add_comm 1 k]

/-- An agent's write outside every Receipt window. -/
theorem agentWrite_eq (l : List Byte) (a : Nat) (h : ∀ k, k < l.length → s.winAt (a + k) = none) :
    s.agentWrite a l = (s.dropResidues a l.length).putBytes a l := agentBytes_eq _ l a h

theorem agentWrite_byteAt (l : List Byte) (a j : Nat) (h : ∀ k, k < l.length → s.winAt (a + k) = none) :
    (s.agentWrite a l).byteAt j = if a ≤ j ∧ j < a + l.length then l.getD (j - a) 0 else s.byteAt j := by
  rw [agentWrite_eq s l a h, byteAt_putBytes]
  rfl

theorem agentWrite_regs (l : List Byte) (a : Nat) (h : ∀ k, k < l.length → s.winAt (a + k) = none) :
    (s.agentWrite a l).regs = s.regs := by rw [agentWrite_eq s l a h, putBytes_regs]; rfl

theorem agentWrite_ctxs (l : List Byte) (a : Nat) (h : ∀ k, k < l.length → s.winAt (a + k) = none) :
    (s.agentWrite a l).ctxs = s.ctxs := by rw [agentWrite_eq s l a h, putBytes_ctxs]; rfl

/-! ### Numbers as bytes -/

theorem length_toBytes (n v : Nat) : (toBytes n v).length = n := by
  induction n generalizing v with
  | zero => rfl
  | succ n ih => simp [toBytes, ih]

theorem ofBytes_toBytes (n v : Nat) : ofBytes (toBytes n v) = v % 256 ^ n := by
  induction n generalizing v with
  | zero => simp [toBytes, ofBytes, Nat.mod_one]
  | succ n ih =>
    simp only [toBytes, ofBytes, ih, BitVec.toNat_ofNat]
    have e : (256 : Nat) ^ (n + 1) = 256 * 256 ^ n := by rw [Nat.pow_succ, Nat.mul_comm]
    rw [e, Nat.mod_mul]

theorem getD_map_range (f : Nat → Byte) (n k : Nat) (h : k < n) : ((List.range n).map f).getD k 0 = f k := by
  simp [List.getD_eq_getElem?_getD, h]

/-- Bytes read back as they were written. -/
theorem bytesAt_putBytes (l : List Byte) (a : Nat) : (s.putBytes a l).bytesAt a l.length = l := by
  unfold bytesAt
  apply List.ext_getElem
  · simp
  · intro k h1 h2
    have hk : k < l.length := h2
    rw [List.getElem_map, List.getElem_range, byteAt_putBytes]
    have : a ≤ a + k ∧ a + k < a + l.length := by omega
    rw [if_pos this, Nat.add_sub_cancel_left, List.getD_eq_getElem?_getD, List.getElem?_eq_getElem hk]
    rfl

/-- A number reads back as it was written, cut to its bytes. -/
theorem natAt_putNat (a n v : Nat) : (s.putNat a n v).natAt a n = v % 256 ^ n := by
  unfold natAt putNat
  have := bytesAt_putBytes s (toBytes n v) a
  rw [length_toBytes] at this
  rw [this, ofBytes_toBytes]

end Sys2Proof.Machine.State
end

