-- ==== Sys2Proof/Laws/Frame.lean ====
section
/-!
SUPPORT. The frame `Only`: it composes along the operations that a meaning is written with.
-/

namespace Sys2Proof.Machine

open Sys2Proof State

/-- Nothing has changed. -/
theorem Only.refl (ks : List Nat) (ps : List Part) (s : State) : Only ks ps s s where
  regs := fun _ _ => rfl
  parts := fun p _ => by cases p <;> first | rfl | exact fun _ => rfl

theorem Part.same_trans {s t u : State} (p : Part) (h : p.same s t) (h' : p.same t u) : p.same s u := by
  cases p
  case mem => exact fun a => (h' a).trans (h a)
  all_goals exact Eq.trans h' h

/-- Two changes in a row. -/
theorem Only.trans {ks : List Nat} {ps : List Part} {s t u : State} (h : Only ks ps s t) (h' : Only ks ps t u) :
    Only ks ps s u where
  regs := fun k hk => (h'.regs k hk).trans (h.regs k hk)
  parts := fun p hp => p.same_trans (h.parts p hp) (h'.parts p hp)

/-- A wider frame. -/
theorem Only.mono {ks ks' : List Nat} {ps ps' : List Part} {s t : State} (h : Only ks ps s t)
    (hk : ∀ k, k ∈ ks → k ∈ ks') (hp : ∀ p, p ∈ ps → p ∈ ps') : Only ks' ps' s t where
  regs := fun k n => h.regs k fun m => n (hk k m)
  parts := fun p n => h.parts p fun m => n (hp p m)

/-- A register is set. -/
theorem Only.setReg {ks : List Nat} {ps : List Part} {s t : State} (h : Only ks ps s t) {k : Nat} (v : W64) (hk : k ∈ ks) :
    Only ks ps s (t.setReg k v) :=
  h.trans { regs := fun j hj => reg_setReg_other t v fun e => hj (e ▸ hk)
            parts := fun p _ => by cases p <;> first | rfl | exact fun _ => rfl }

/-- A field is set. -/
theorem Only.setFld {ks : List Nat} {ps : List Part} {s t : State} (h : Only ks ps s t) {f : Fld} (v : Nat)
    (hk : f.reg ∈ ks) : Only ks ps s (t.setFld f v) := h.setReg _ hk

theorem Only.bump {ks : List Nat} {ps : List Part} {s t : State} (h : Only ks ps s t) {f : Fld} (v : Nat)
    (hk : f.reg ∈ ks) : Only ks ps s (t.bump f v) := h.setReg _ hk

theorem Only.rise {ks : List Nat} {ps : List Part} {s t : State} (h : Only ks ps s t) {f : Fld} (v : Nat)
    (hk : f.reg ∈ ks) : Only ks ps s (t.rise f v) := h.setReg _ hk

/-- A state that agrees on the registers and on every piece of the state outside the frame. -/
theorem Only.parts_of {ks : List Nat} {ps : List Part} {s t u : State} (h : Only ks ps s t) (hr : u.regs = t.regs)
    (hp : ∀ p, p ∉ ps → p.same t u) : Only ks ps s u :=
  h.trans { regs := fun k _ => by show mget _ u.regs k = mget _ t.regs k; rw [hr]
            parts := hp }

theorem Only.emit {ks : List Nat} {ps : List Part} {s t : State} (h : Only ks ps s t) (e : Emit) (hp : Part.out ∈ ps) :
    Only ks ps s (t.emit e) :=
  h.parts_of rfl fun p n => by cases p <;> first | rfl | exact fun _ => rfl | exact absurd hp n

theorem Only.answer {ks : List Nat} {ps : List Part} {s t : State} (h : Only ks ps s t) (r : Nat) (st : Status) (v : W64)
    (bs : List Byte) (hp : Part.reply ∈ ps) : Only ks ps s (t.answer r st v bs) :=
  h.parts_of rfl fun p n => by cases p <;> first | rfl | exact fun _ => rfl | exact absurd hp n

theorem Only.bumpFree {ks : List Nat} {ps : List Part} {s t : State} (h : Only ks ps s t) : Only ks ps s t.bumpFree :=
  h.parts_of rfl fun p _ => by cases p <;> first | rfl | exact fun _ => rfl

theorem Only.nextStamp {ks : List Nat} {ps : List Part} {s t : State} (h : Only ks ps s t) : Only ks ps s t.nextStamp :=
  h.parts_of rfl fun p _ => by cases p <;> first | rfl | exact fun _ => rfl

/-- A list of changes, each within the frame. -/
theorem Only.foldl {α : Type} {ks : List Nat} {ps : List Part} {f : State → α → State}
    (h : ∀ t a, Only ks ps t (f t a)) (l : List α) (s : State) : Only ks ps s (l.foldl f s) := by
  induction l generalizing s with
  | nil => exact Only.refl _ _ _
  | cons a l ih => exact (h s a).trans (ih (f s a))

end Sys2Proof.Machine
end

