-- ==== Sys2Proof/Laws/Keeps.lean ====
section
/-!
SUPPORT. What every operation of the block keeps, whatever it does: the queue, what has left the block, the counters that
only rise, and the canonical form of the sparse maps. One lemma for each primitive; the other files of this folder lift
them to every shared operation.
-/

namespace Sys2Proof.Machine

open Sys2Proof

/-- The step from `s` to `t` touches the queue in nothing, withdraws nothing that has left the block, draws no free value
twice, and keeps the maps canonical. -/
structure Keeps (s t : State) : Prop where
  pending : t.pending = s.pending
  out : s.out <+: t.out
  free : s.freeCtr ≤ t.freeCtr
  stamp : s.stamp ≤ t.stamp
  canon : Canon s → Canon t

/-- A command answers a next state, and the way there keeps what every operation keeps. -/
def Answers (s : State) (o : Host.Outcome State Fault Refusal) : Prop := ∃ t, o = .next t ∧ Keeps s t

variable {s₀ s t : State}

theorem Keeps.refl (s : State) : Keeps s s := ⟨rfl, List.prefix_rfl, Nat.le_refl _, Nat.le_refl _, id⟩

theorem Keeps.trans (h : Keeps s₀ s) (g : Keeps s t) : Keeps s₀ t :=
  ⟨g.pending.trans h.pending, h.out.trans g.out, Nat.le_trans h.free g.free, Nat.le_trans h.stamp g.stamp,
    fun c => g.canon (h.canon c)⟩

theorem Answers.mk (h : Keeps s₀ s) : Answers s₀ (.next s) := ⟨s, rfl, h⟩

/-- What no list of cells, no register and no counter is, may be anything. -/
theorem Keeps.upd (h : Keeps s₀ s) (reply : Reply) (recLatch : Map (Option (Nat × List W64))) (lanes : LaneUnit)
    (tally : TallyUnit) (ctxs : Map Ctx) (teller : TellerUnit) (field : FieldUnit) (starter : StarterUnit)
    (boot : BootUnit) (island : IslandUnit) (net : NetUnit) (judge : JudgeUnit) (fusion : FusionUnit)
    (hurdle : HurdleUnit) (stream : StreamUnit) (sprint : SprintUnit) (relay : RelayUnit) (port : PortUnit)
    (power : PowerUnit) :
    Keeps s₀ ⟨s.pending, s.regs, s.mem, s.overlay, s.vaultGen, s.dramGen, s.lostPages, s.freeCtr, s.stamp, reply, s.out,
      recLatch, lanes, tally, ctxs, teller, field, starter, boot, island, net, judge, fusion, hurdle, stream, sprint,
      relay, port, power⟩ :=
  ⟨h.pending, h.out, h.free, h.stamp, fun c =>
    let d := h.canon c
    ⟨d.mem, d.regs, d.overlay, d.lostPages⟩⟩

theorem Keeps.foldl {α : Type} {f : State → α → State} {l : List α} (h : Keeps s₀ s)
    (hf : ∀ s x, Keeps s₀ s → Keeps s₀ (f s x)) : Keeps s₀ (l.foldl f s) := by
  induction l generalizing s with
  | nil => exact h
  | cons x l ih => exact ih (hf _ _ h)

theorem Keeps.foldl_fst {α β : Type} {f : State × β → α → State × β} {l : List α} {b : β} (h : Keeps s₀ s)
    (hf : ∀ s b x, Keeps s₀ s → Keeps s₀ (f (s, b) x).1) : Keeps s₀ (l.foldl f (s, b)).1 := by
  induction l generalizing s b with
  | nil => exact h
  | cons x l ih => exact ih (hf s b x h)

theorem Keeps.foldl_snd {α β : Type} {f : β × State → α → β × State} {l : List α} {b : β} (h : Keeps s₀ s)
    (hf : ∀ s b x, Keeps s₀ s → Keeps s₀ (f (b, s) x).2) : Keeps s₀ (l.foldl f (b, s)).2 := by
  induction l generalizing s b with
  | nil => exact h
  | cons x l ih => exact ih (hf s b x h)

namespace State

/-! ### Primitives -/

theorem setReg_keeps (h : Keeps s₀ s) (k : Nat) (v : W64) : Keeps s₀ (s.setReg k v) :=
  ⟨h.pending, h.out, h.free, h.stamp, fun c =>
    let d := h.canon c
    ⟨d.mem, mwf_mset _ _ _ _ d.regs, d.overlay, d.lostPages⟩⟩

theorem emit_keeps (h : Keeps s₀ s) (e : Emit) : Keeps s₀ (s.emit e) :=
  ⟨h.pending, h.out.trans (List.prefix_append _ _), h.free, h.stamp, fun c =>
    let d := h.canon c
    ⟨d.mem, d.regs, d.overlay, d.lostPages⟩⟩

theorem bumpFree_keeps (h : Keeps s₀ s) : Keeps s₀ s.bumpFree :=
  ⟨h.pending, h.out, Nat.le_succ_of_le h.free, h.stamp, fun c =>
    let d := h.canon c
    ⟨d.mem, d.regs, d.overlay, d.lostPages⟩⟩

theorem nextStamp_keeps (h : Keeps s₀ s) : Keeps s₀ s.nextStamp :=
  ⟨h.pending, h.out, h.free, Nat.le_succ_of_le h.stamp, fun c =>
    let d := h.canon c
    ⟨d.mem, d.regs, d.overlay, d.lostPages⟩⟩

theorem setHome_keeps (h : Keeps s₀ s) (a : Nat) (b : Byte) : Keeps s₀ (s.setHome a b) :=
  ⟨h.pending, h.out, h.free, h.stamp, fun c =>
    let d := h.canon c
    ⟨mwf_mset _ _ _ _ d.mem, d.regs, d.overlay, d.lostPages⟩⟩

/-- Writing raised bytes. -/
theorem setOverlay_keeps (h : Keeps s₀ s) (a : Nat) (b : Option Byte) :
    Keeps s₀ (s.setOverlay a b) :=
  ⟨h.pending, h.out, h.free, h.stamp, fun c =>
    let d := h.canon c
    ⟨d.mem, d.regs, mwf_mset _ _ _ _ d.overlay, d.lostPages⟩⟩

/-- Dropping raised bytes. -/
theorem filterOverlay_keeps (h : Keeps s₀ s) (p : Nat × Option Byte → Bool) :
    Keeps s₀ { s with overlay := s.overlay.filter p } :=
  ⟨h.pending, h.out, h.free, h.stamp, fun c =>
    let d := h.canon c
    ⟨d.mem, d.regs, mwf_filter _ _ _ d.overlay, d.lostPages⟩⟩

/-- Dropping registers: they read as their table says. -/
theorem dropRegs_keeps (h : Keeps s₀ s) (p : Nat × W64 → Bool) : Keeps s₀ { s with regs := s.regs.filter p } :=
  ⟨h.pending, h.out, h.free, h.stamp, fun c =>
    let d := h.canon c
    ⟨d.mem, mwf_filter _ _ _ d.regs, d.overlay, d.lostPages⟩⟩

theorem forgetPage_keeps (h : Keeps s₀ s) (p : Nat) : Keeps s₀ (s.forgetPage p) :=
  ⟨h.pending, h.out, h.free, h.stamp, fun c =>
    let d := h.canon c
    ⟨mwf_filter _ _ _ d.mem, d.regs, mwf_filter _ _ _ d.overlay, d.lostPages⟩⟩

end State

/-- Dropping registers, and any change of what is neither register nor memory. -/
theorem Keeps.updRegs (h : Keeps s₀ s) (p : Nat × W64 → Bool) (reply : Reply) (recLatch : Map (Option (Nat × List W64))) (lanes : LaneUnit)
    (tally : TallyUnit) (ctxs : Map Ctx) (teller : TellerUnit) (field : FieldUnit) (starter : StarterUnit)
    (boot : BootUnit) (island : IslandUnit) (net : NetUnit) (judge : JudgeUnit) (fusion : FusionUnit)
    (hurdle : HurdleUnit) (stream : StreamUnit) (sprint : SprintUnit) (relay : RelayUnit) (port : PortUnit)
    (power : PowerUnit) :
    Keeps s₀ ⟨s.pending, s.regs.filter p, s.mem, s.overlay, s.vaultGen, s.dramGen, s.lostPages, s.freeCtr, s.stamp, reply,
      s.out, recLatch, lanes, tally, ctxs, teller, field, starter, boot, island, net, judge, fusion, hurdle, stream, sprint,
      relay, port, power⟩ :=
  (State.dropRegs_keeps h p).upd reply recLatch lanes tally ctxs teller field starter boot island net judge fusion hurdle
    stream sprint relay port power

end Sys2Proof.Machine
end

