-- ==== Sys2Proof/Laws/Mem.lean ====
section
/-!
SUPPORT. The operations that change what unlisted bytes of memory read as keep the canonical form: what they leave open
they no longer list.
-/

namespace Sys2Proof.Machine

open Sys2Proof

variable {s₀ s t : State}

namespace State

/-- The default of an address depends on the list of lost pages only at its own page. -/
theorem memDefault_lost (s : State) (m : Map (Option Nat)) (a : Nat)
    (h : mget (fun _ => none) m (a / 65536) = mget (fun _ => none) s.lostPages (a / 65536)) :
    ({ s with lostPages := m } : State).memDefault a = s.memDefault a := by
  unfold memDefault
  simp only [h]

/-- After a page's cells are dropped, what its bytes read as when unlisted may change. -/
theorem canon_lost (c : Canon s) (p : Nat) (v : Option Nat) :
    Canon { s.forgetPage p with lostPages := mset (fun _ => none) s.lostPages p v } := by
  have f := (forgetPage_keeps (Keeps.refl s) p).canon c
  refine ⟨?_, f.regs, f.overlay, mwf_mset _ _ _ _ c.lostPages⟩
  refine mwf_congr _ _ _ (fun x hx => ?_) f.mem
  have hp : x.1 / 65536 ≠ p := by
    have := (List.mem_filter.mp hx).2
    simpa using this
  exact (memDefault_lost (s.forgetPage p) _ x.1 (mget_mset_other _ _ _ _ _ hp)).symm

theorem losePage_keeps (h : Keeps s₀ s) (p : Nat) : Keeps s₀ (s.losePage p) :=
  ⟨h.pending, h.out, h.free, h.stamp, fun c => canon_lost (h.canon c) p _⟩

theorem zeroPage_keeps (h : Keeps s₀ s) (p : Nat) : Keeps s₀ (s.zeroPage p) := by
  refine ⟨?_, ?_, ?_, ?_, fun c => ?_⟩
  · unfold zeroPage; dsimp only; split <;> exact h.pending
  · unfold zeroPage; dsimp only; split <;> exact h.out
  · unfold zeroPage; dsimp only; split <;> exact h.free
  · unfold zeroPage; dsimp only; split <;> exact h.stamp
  · have d := h.canon c
    unfold zeroPage; dsimp only
    split
    · exact canon_lost d p none
    · have f := (forgetPage_keeps (Keeps.refl s) p).canon d
      refine ⟨?_, f.regs, f.overlay, by
        show mwf _ (mset (fun _ => none) (mset (fun _ => none) s.lostPages p none) p (some 0)) = true
        exact mwf_mset _ _ _ _ (mwf_mset _ _ _ _ d.lostPages)⟩
      refine mwf_congr _ _ _ (fun x hx => ?_) f.mem
      have hp : x.1 / 65536 ≠ p := by
        have := (List.mem_filter.mp hx).2
        simpa using this
      exact (memDefault_lost (s.forgetPage p) _ x.1
        ((mget_mset_other _ _ _ _ _ hp).trans (mget_mset_other _ _ _ _ _ hp))).symm

theorem mget_filter (d : Nat → Option Nat) (p : Nat → Bool) (m : Map (Option Nat)) (k : Nat) (h : p k = true) :
    mget d (m.filter fun e => p e.1) k = mget d m k := by
  induction m with
  | nil => rfl
  | cons e l ih =>
    obtain ⟨a, x⟩ := e
    simp only [List.filter]
    split
    · simp only [mget, ih]
    · next hp =>
      have : k ≠ a := by
        intro hk; subst hk; simp [h] at hp
      simp only [mget, this, if_false, ih]

/-- The default of an address depends on its page's mark, and on the counters of its own memory. -/
theorem memDefault_gens (s t : State) (a : Nat)
    (h : mget (fun _ => none) t.lostPages (a / 65536) = mget (fun _ => none) s.lostPages (a / 65536))
    (v : a < 0x7000000 → t.vaultGen = s.vaultGen)
    (r : 0x1000000000 ≤ a ∧ a < 0x2000000000 → t.dramGen = s.dramGen) : t.memDefault a = s.memDefault a := by
  unfold memDefault
  rw [h]
  split
  · rfl
  · by_cases hv : a < 0x7000000
    · have hr : ¬ (0x1000000000 ≤ a ∧ a < 0x2000000000) := by omega
      simp [v hv, hv, hr]
    · by_cases hr : 0x1000000000 ≤ a ∧ a < 0x2000000000
      · simp [r hr, hv]
      · simp [hv, hr]

theorem loseVault_keeps (h : Keeps s₀ s) : Keeps s₀ s.loseVault :=
  ⟨h.pending, h.out, h.free, h.stamp, fun c => by
    have d := h.canon c
    refine ⟨?_, d.regs, d.overlay, mwf_filter _ _ _ d.lostPages⟩
    refine mwf_congr _ _ _ (fun x hx => ?_) (mwf_filter _ _ _ d.mem)
    have hp : ¬ x.1 < 0x7000000 := by
      have := (List.mem_filter.mp hx).2
      simpa using this
    refine (memDefault_gens s s.loseVault _ ?_ (fun hv => absurd hv hp) (fun _ => rfl)).symm
    exact mget_filter (fun _ => none) (fun k => !decide (k < 0x700)) _ _ (by simp; omega)⟩

theorem loseDram_keeps (h : Keeps s₀ s) : Keeps s₀ s.loseDram :=
  ⟨h.pending, h.out, h.free, h.stamp, fun c => by
    have d := h.canon c
    refine ⟨?_, d.regs, d.overlay, mwf_filter _ _ _ d.lostPages⟩
    refine mwf_congr _ _ _ (fun x hx => ?_) (mwf_filter _ _ _ d.mem)
    have hp : ¬ (0x1000000000 ≤ x.1 ∧ x.1 < 0x2000000000) := by
      have := (List.mem_filter.mp hx).2
      simp only [Bool.not_eq_true', Bool.and_eq_false_iff, decide_eq_false_iff_not] at this
      omega
    refine (memDefault_gens s s.loseDram _ ?_ (fun _ => rfl) (fun hr => absurd hr hp)).symm
    exact mget_filter (fun _ => none) (fun k => !(decide (0x100000 ≤ k) && decide (k < 0x200000))) _ _
      (by simp; omega)⟩

theorem dropOverlay_keeps (h : Keeps s₀ s) : Keeps s₀ s.dropOverlay :=
  ⟨h.pending, h.out, h.free, h.stamp, fun c =>
    let d := h.canon c
    ⟨d.mem, d.regs, rfl, d.lostPages⟩⟩

end State

end Sys2Proof.Machine
end

