-- ==== Sys2Proof/Laws/KeepsOps.lean ====
section
/-!
SUPPORT. What the operations of Machine/Ops.lean keep (Laws/Keeps.lean).
-/

namespace Sys2Proof.Machine

open Sys2Proof State

variable {s₀ s : State}

theorem State.setFld_keeps (h : Keeps s₀ s) (f : Fld) (v : Nat) : Keeps s₀ (State.setFld s f v) := by
  unfold State.setFld
  try dsimp only
  repeat' first
    | with_reducible assumption
    | intro _
    | with_reducible apply State.setReg_keeps
    | split
    | with_reducible apply Keeps.upd

theorem State.bump_keeps (h : Keeps s₀ s) (f : Fld) (a : Nat) : Keeps s₀ (State.bump s f a) := by
  unfold State.bump
  try dsimp only
  repeat' first
    | with_reducible assumption
    | intro _
    | with_reducible apply State.setFld_keeps
    | split
    | with_reducible apply Keeps.upd

theorem State.rise_keeps (h : Keeps s₀ s) (f : Fld) (a : Nat) : Keeps s₀ (State.rise s f a) := by
  unfold State.rise
  try dsimp only
  repeat' first
    | with_reducible assumption
    | intro _
    | with_reducible apply State.setFld_keeps
    | split
    | with_reducible apply Keeps.upd

theorem State.relayOut_keeps (h : Keeps s₀ s) (l : Nat) (e : Emit) : Keeps s₀ (State.relayOut s l e) := by
  unfold State.relayOut
  try dsimp only
  repeat' first
    | with_reducible assumption
    | intro _
    | with_reducible apply State.emit_keeps
    | split
    | with_reducible apply Keeps.upd

theorem State.mirrorOut_keeps (h : Keeps s₀ s) (e : Emit) : Keeps s₀ (State.mirrorOut s e) := by
  unfold State.mirrorOut
  try dsimp only
  repeat' first
    | with_reducible assumption
    | intro _
    | with_reducible apply State.relayOut_keeps
    | with_reducible apply State.rise_keeps
    | split
    | with_reducible apply Keeps.upd

theorem State.answer_keeps (h : Keeps s₀ s) (r : Nat) (st : Status) (v : W64) (bs : List Byte) : Keeps s₀ (State.answer s r st v bs) := by
  unfold State.answer
  try dsimp only
  repeat' first
    | with_reducible assumption
    | intro _
    | split
    | with_reducible apply Keeps.upd

theorem State.putRec_keeps (h : Keeps s₀ s) (n : Nat) (w0 : Nat) (w2 : W64) (d : W64) : Keeps s₀ (State.putRec s n w0 w2 d) := by
  unfold State.putRec
  try dsimp only
  repeat' first
    | with_reducible assumption
    | intro _
    | with_reducible apply State.setReg_keeps
    | split
    | with_reducible apply Keeps.upd

theorem State.incident_keeps (h : Keeps s₀ s) (n : Nat) (source : Nat) (ctx : Nat) (d : W64) : Keeps s₀ (State.incident s n source ctx d) := by
  unfold State.incident
  try dsimp only
  repeat' first
    | with_reducible assumption
    | intro _
    | with_reducible apply State.bump_keeps
    | with_reducible apply State.putRec_keeps
    | split
    | with_reducible apply Keeps.upd

theorem State.note_keeps (h : Keeps s₀ s) (code : Nat) (source : Nat) (d : W64) : Keeps s₀ (State.note s code source d) := by
  unfold State.note
  try dsimp only
  repeat' first
    | with_reducible assumption
    | intro _
    | with_reducible apply State.rise_keeps
    | with_reducible apply State.setReg_keeps
    | split
    | with_reducible apply Keeps.upd

theorem State.deny_keeps (h : Keeps s₀ s) (r : Nat) (right : Nat) (addr : Nat) : Keeps s₀ (State.deny s r right addr) := by
  unfold State.deny
  try dsimp only
  repeat' first
    | with_reducible assumption
    | intro _
    | with_reducible apply State.bump_keeps
    | with_reducible apply State.incident_keeps
    | with_reducible apply State.setReg_keeps
    | split
    | with_reducible apply Keeps.upd

theorem State.clocked_keeps (h : Keeps s₀ s) (f : State → State) (hf : ∀ y0, Keeps s₀ y0 → Keeps s₀ (f y0)) : Keeps s₀ (State.clocked s f) := by
  unfold State.clocked
  try dsimp only
  repeat' first
    | with_reducible assumption
    | intro _
    | with_reducible apply hf
    | split
    | with_reducible apply Keeps.upd

theorem State.setPage_keeps (h : Keeps s₀ s) (p : Nat) (v : Page) : Keeps s₀ (State.setPage s p v) := by
  unfold State.setPage
  try dsimp only
  repeat' first
    | with_reducible assumption
    | intro _
    | split
    | with_reducible apply Keeps.upd

theorem State.putByte_keeps (h : Keeps s₀ s) (a : Nat) (b : Byte) : Keeps s₀ (State.putByte s a b) := by
  unfold State.putByte
  try dsimp only
  repeat' first
    | with_reducible assumption
    | intro _
    | with_reducible apply State.setHome_keeps
    | with_reducible apply State.setOverlay_keeps
    | with_reducible apply State.setPage_keeps
    | split
    | with_reducible apply Keeps.upd

theorem State.putBytes_keeps (h : Keeps s₀ s) (a : Nat) (l : List Byte) : Keeps s₀ (State.putBytes s a l) := by
  induction l generalizing s a with
  | nil => exact h
  | cons b l ih => exact ih (State.putByte_keeps h a b) (a + 1)

theorem State.putNat_keeps (h : Keeps s₀ s) (a : Nat) (n : Nat) (v : Nat) : Keeps s₀ (State.putNat s a n v) := by
  unfold State.putNat
  try dsimp only
  repeat' first
    | with_reducible assumption
    | intro _
    | with_reducible apply State.putBytes_keeps
    | split
    | with_reducible apply Keeps.upd

end Sys2Proof.Machine
end

