-- ==== Sys2Proof/Laws/KeepsPages.lean ====
section
/-!
SUPPORT. What the operations of Machine/Pages.lean keep (Laws/Keeps.lean).
-/

namespace Sys2Proof.Machine

open Sys2Proof State

variable {s₀ s : State}

theorem State.setCtx_keeps (h : Keeps s₀ s) (c : Nat) (v : Ctx) : Keeps s₀ (State.setCtx s c v) := by
  unfold State.setCtx
  try dsimp only
  repeat' first
    | with_reducible assumption
    | intro _
    | split
    | with_reducible apply Keeps.upd

theorem State.modCtx_keeps (h : Keeps s₀ s) (c : Nat) (f : Ctx → Ctx) : Keeps s₀ (State.modCtx s c f) := by
  unfold State.modCtx
  try dsimp only
  repeat' first
    | with_reducible assumption
    | intro _
    | with_reducible apply State.setCtx_keeps
    | split
    | with_reducible apply Keeps.upd

theorem State.noteTlb_keeps (h : Keeps s₀ s) (c : Nat) (va : W64) : Keeps s₀ (State.noteTlb s c va) := by
  unfold State.noteTlb
  try dsimp only
  repeat' first
    | with_reducible assumption
    | intro _
    | split
    | with_reducible apply Keeps.upd

theorem State.agentBytes_keeps (h : Keeps s₀ s) (pa : Nat) (l : List Byte) :
    Keeps s₀ (State.agentBytes s pa l) := by
  induction l generalizing s pa with
  | nil => exact h
  | cons b l ih =>
    unfold State.agentBytes
    apply ih
    split
    · exact h
    · exact State.putByte_keeps h pa b

theorem State.dropResidues_keeps (h : Keeps s₀ s) (pa : Nat) (n : Nat) : Keeps s₀ (State.dropResidues s pa n) := by
  unfold State.dropResidues
  try dsimp only
  repeat' first
    | with_reducible assumption
    | intro _
    | split
    | with_reducible apply Keeps.upd

theorem State.agentWrite_keeps (h : Keeps s₀ s) (pa : Nat) (bs : List Byte) : Keeps s₀ (State.agentWrite s pa bs) := by
  unfold State.agentWrite
  try dsimp only
  repeat' first
    | with_reducible assumption
    | intro _
    | with_reducible apply State.agentBytes_keeps
    | with_reducible apply State.dropResidues_keeps
    | split
    | with_reducible apply Keeps.upd

theorem State.collectWord_keeps (h : Keeps s₀ s) (pa : Nat) : Keeps s₀ (State.collectWord s pa).2 := by
  unfold State.collectWord
  try dsimp only
  repeat' first
    | with_reducible assumption
    | intro _
    | with_reducible apply State.putNat_keeps
    | split
    | with_reducible apply Keeps.upd

theorem State.collectWord_of (h : Keeps s₀ s) {pa : Nat} {x0 : W64} {t : State} (he : State.collectWord s pa = (x0, t)) : Keeps s₀ t := by
  have g := State.collectWord_keeps h pa
  rw [he] at g
  exact g

theorem State.agentRead_keeps (h : Keeps s₀ s) (pa : Nat) (n : Nat) : Keeps s₀ (State.agentRead s pa n).2 := by
  unfold State.agentRead
  try dsimp only
  repeat' first
    | with_reducible assumption
    | intro _
    | with_reducible apply State.collectWord_keeps
    | with_reducible apply State.replicate_keeps
    | with_reducible refine State.collectWord_of ?_ (by assumption)
    | with_reducible refine State.replicate_of ?_ (by assumption)
    | split
    | with_reducible apply Keeps.upd

theorem State.agentRead_of (h : Keeps s₀ s) {pa : Nat} {n : Nat} {x0 : List Byte} {t : State} (he : State.agentRead s pa n = (x0, t)) : Keeps s₀ t := by
  have g := State.agentRead_keeps h pa n
  rw [he] at g
  exact g

theorem State.modPage_keeps (h : Keeps s₀ s) (p : Nat) (f : Page → Page) : Keeps s₀ (State.modPage s p f) := by
  unfold State.modPage
  try dsimp only
  repeat' first
    | with_reducible assumption
    | intro _
    | with_reducible apply State.setPage_keeps
    | split
    | with_reducible apply Keeps.upd

theorem State.takeClaim_keeps (h : Keeps s₀ s) (c : Nat) (p : Nat) : Keeps s₀ (State.takeClaim s c p) := by
  unfold State.takeClaim
  try dsimp only
  repeat' first
    | with_reducible assumption
    | intro _
    | with_reducible apply State.bump_keeps
    | with_reducible apply State.modPage_keeps
    | split
    | with_reducible apply Keeps.upd

theorem State.stampEnd_keeps (h : Keeps s₀ s) (p : Nat) : Keeps s₀ (State.stampEnd s p) := by
  unfold State.stampEnd
  try dsimp only
  repeat' first
    | with_reducible assumption
    | intro _
    | with_reducible apply State.modPage_keeps
    | with_reducible apply State.nextStamp_keeps
    | split
    | with_reducible apply Keeps.upd

theorem State.dropClaim_keeps (h : Keeps s₀ s) (c : Nat) (p : Nat) : Keeps s₀ (State.dropClaim s c p) := by
  unfold State.dropClaim
  try dsimp only
  repeat' first
    | with_reducible assumption
    | intro _
    | with_reducible apply State.modPage_keeps
    | with_reducible apply State.stampEnd_keeps
    | split
    | with_reducible apply Keeps.upd

theorem State.takeTrans_keeps (h : Keeps s₀ s) (c : Nat) (id : Nat) (p : Nat) : Keeps s₀ (State.takeTrans s c id p) := by
  unfold State.takeTrans
  try dsimp only
  repeat' first
    | with_reducible assumption
    | intro _
    | with_reducible apply State.modPage_keeps
    | split
    | with_reducible apply Keeps.upd

theorem State.endTrans_keeps (h : Keeps s₀ s) (c : Nat) (id : Nat) : Keeps s₀ (State.endTrans s c id) := by
  unfold State.endTrans
  try dsimp only
  repeat' first
    | with_reducible assumption
    | intro _
    | with_reducible apply State.modPage_keeps
    | with_reducible apply State.stampEnd_keeps
    | with_reducible apply Keeps.foldl
    | with_reducible apply Keeps.foldl_fst
    | with_reducible apply Keeps.foldl_snd
    | split
    | with_reducible apply Keeps.upd

theorem State.endClaims_keeps (h : Keeps s₀ s) (c : Nat) : Keeps s₀ (State.endClaims s c) := by
  unfold State.endClaims
  try dsimp only
  repeat' first
    | with_reducible assumption
    | intro _
    | with_reducible apply State.modPage_keeps
    | with_reducible apply State.stampEnd_keeps
    | with_reducible apply Keeps.foldl
    | with_reducible apply Keeps.foldl_fst
    | with_reducible apply Keeps.foldl_snd
    | split
    | with_reducible apply Keeps.upd

theorem State.queueMove_keeps (h : Keeps s₀ s) (m : Move) : Keeps s₀ (State.queueMove s m) := by
  unfold State.queueMove
  try dsimp only
  repeat' first
    | with_reducible assumption
    | intro _
    | with_reducible apply State.nextStamp_keeps
    | split
    | with_reducible apply Keeps.upd

theorem State.raisePage_keeps (h : Keeps s₀ s) (c : Nat) (op : Option Nat) (vpn : Nat) (p : Nat) (toDram : Bool) : Keeps s₀ (State.raisePage s c op vpn p toDram) := by
  unfold State.raisePage
  try dsimp only
  repeat' first
    | with_reducible assumption
    | intro _
    | with_reducible apply State.modPage_keeps
    | with_reducible apply State.queueMove_keeps
    | with_reducible apply State.takeClaim_keeps
    | split
    | with_reducible apply Keeps.upd

theorem State.writeBack_keeps (h : Keeps s₀ s) (p : Nat) : Keeps s₀ (State.writeBack s p) := by
  unfold State.writeBack
  try dsimp only
  repeat' first
    | with_reducible assumption
    | intro _
    | with_reducible apply State.setHome_keeps
    | with_reducible apply State.setOverlay_keeps
    | with_reducible apply Keeps.foldl
    | with_reducible apply Keeps.foldl_fst
    | with_reducible apply Keeps.foldl_snd
    | split
    | with_reducible apply Keeps.upd

theorem State.paceIssue_keeps (h : Keeps s₀ s) (c : Nat) (e : PaceEnt) : Keeps s₀ (State.paceIssue s c e) := by
  unfold State.paceIssue
  try dsimp only
  repeat' first
    | with_reducible assumption
    | intro _
    | with_reducible apply State.dropClaim_keeps
    | with_reducible apply State.raisePage_keeps
    | with_reducible apply Keeps.foldl
    | with_reducible apply Keeps.foldl_fst
    | with_reducible apply Keeps.foldl_snd
    | split
    | with_reducible apply Keeps.upd

theorem State.paceRun_keeps (h : Keeps s₀ s) (n : Nat) (p : Pace) (v : W64) :
    Keeps s₀ (State.paceRun n s p v).1 := by
  induction n generalizing s p with
  | zero => exact h
  | succ n ih =>
    unfold State.paceRun
    split
    · split
      · exact h
      · exact ih h _
    · split
      · exact ih (State.paceIssue_keeps h _ _) _
      · exact h

theorem State.paceRun_of (h : Keeps s₀ s) {n : Nat} {p : Pace} {v : W64} {q : Option Pace} {t : State}
    (e : State.paceRun n s p v = (t, q)) : Keeps s₀ t := by
  have g := State.paceRun_keeps h n p v
  rw [e] at g
  exact g

theorem State.paceDue_keeps (h : Keeps s₀ s) (tally : Nat) (count : W64) (rose : W64) : Keeps s₀ (State.paceDue s tally count rose) := by
  unfold State.paceDue
  try dsimp only
  repeat' first
    | with_reducible assumption
    | intro _
    | with_reducible apply State.paceRun_keeps
    | with_reducible refine State.paceRun_of ?_ (by assumption)
    | with_reducible apply Keeps.foldl
    | with_reducible apply Keeps.foldl_fst
    | with_reducible apply Keeps.foldl_snd
    | split
    | with_reducible apply Keeps.upd

end Sys2Proof.Machine
end

