-- ==== Sys2Proof/Laws/KeepsTally.lean ====
section
/-!
SUPPORT. What the operations and commands of Machine/Tally.lean keep (Laws/Keeps.lean).
-/

namespace Sys2Proof.Machine

open Sys2Proof State

variable {s₀ s : State}

theorem State.sput_keeps (h : Keeps s₀ s) (c : Nat) (r : Fin 32) (v : W64) : Keeps s₀ (State.sput s c r v) := by
  unfold State.sput
  try dsimp only
  repeat' first
    | with_reducible assumption
    | intro _
    | with_reducible apply State.modCtx_keeps
    | with_reducible apply Keeps.updRegs
    | split
    | with_reducible apply Keeps.upd

theorem State.pput_keeps (h : Keeps s₀ s) (c : Nat) (p : Fin 8) (v : Bool) : Keeps s₀ (State.pput s c p v) := by
  unfold State.pput
  try dsimp only
  repeat' first
    | with_reducible assumption
    | intro _
    | with_reducible apply State.modCtx_keeps
    | split
    | with_reducible apply Keeps.upd

theorem State.pcNext_keeps (h : Keeps s₀ s) (c : Nat) : Keeps s₀ (State.pcNext s c) := by
  unfold State.pcNext
  try dsimp only
  repeat' first
    | with_reducible assumption
    | intro _
    | with_reducible apply State.modCtx_keeps
    | split
    | with_reducible apply Keeps.upd

theorem State.endWait_keeps (h : Keeps s₀ s) (c : Nat) (pd : Fin 8) (sd : Fin 32) (outcome : Nat) : Keeps s₀ (State.endWait s c pd sd outcome) := by
  unfold State.endWait
  try dsimp only
  repeat' first
    | with_reducible assumption
    | intro _
    | with_reducible apply State.modCtx_keeps
    | with_reducible apply State.nextStamp_keeps
    | with_reducible apply State.pcNext_keeps
    | with_reducible apply State.pput_keeps
    | with_reducible apply State.sput_keeps
    | split
    | with_reducible apply Keeps.upd

theorem State.watchSet_keeps (h : Keeps s₀ s) (k : Nat) (f : Fld) : Keeps s₀ (State.watchSet s k f) := by
  unfold State.watchSet
  try dsimp only
  repeat' first
    | with_reducible assumption
    | intro _
    | with_reducible apply State.emit_keeps
    | with_reducible apply State.setFld_keeps
    | with_reducible apply Keeps.foldl
    | with_reducible apply Keeps.foldl_fst
    | with_reducible apply Keeps.foldl_snd
    | split
    | with_reducible apply Keeps.upd

theorem State.setTally_keeps (h : Keeps s₀ s) (i : Nat) (t : Tally) : Keeps s₀ (State.setTally s i t) := by
  unfold State.setTally
  try dsimp only
  repeat' first
    | with_reducible assumption
    | intro _
    | split
    | with_reducible apply Keeps.upd

theorem State.tallyStat_keeps (h : Keeps s₀ s) (i : Nat) (f : Fld) : Keeps s₀ (State.tallyStat s i f) := by
  unfold State.tallyStat
  try dsimp only
  repeat' first
    | with_reducible assumption
    | intro _
    | with_reducible apply State.setFld_keeps
    | split
    | with_reducible apply Keeps.upd

theorem State.wakeTwait_keeps (h : Keeps s₀ s) (i : Nat) (count : Nat) (c : Nat) : Keeps s₀ (State.wakeTwait i count s c) := by
  unfold State.wakeTwait
  try dsimp only
  repeat' first
    | with_reducible assumption
    | intro _
    | with_reducible apply State.endWait_keeps
    | split
    | with_reducible apply Keeps.upd

theorem State.watchAdd_keeps (h : Keeps s₀ s) (i : Nat) (before : Nat) (after : Nat) (k : Nat) : Keeps s₀ (State.watchAdd i before after s k) := by
  unfold State.watchAdd
  try dsimp only
  repeat' first
    | with_reducible assumption
    | intro _
    | with_reducible apply State.watchSet_keeps
    | split
    | with_reducible apply Keeps.upd

theorem State.tallyAdd_keeps (h : Keeps s₀ s) (i : Nat) (a : Nat) : Keeps s₀ (State.tallyAdd s i a) := by
  unfold State.tallyAdd
  try dsimp only
  repeat' first
    | with_reducible assumption
    | intro _
    | with_reducible apply State.paceDue_keeps
    | with_reducible apply State.setTally_keeps
    | with_reducible apply State.tallyStat_keeps
    | with_reducible apply State.wakeTwait_keeps
    | with_reducible apply State.watchAdd_keeps
    | with_reducible apply Keeps.foldl
    | with_reducible apply Keeps.foldl_fst
    | with_reducible apply Keeps.foldl_snd
    | split
    | with_reducible apply Keeps.upd

theorem State.tallySub_keeps (h : Keeps s₀ s) (i : Nat) (a : Nat) : Keeps s₀ (State.tallySub s i a) := by
  unfold State.tallySub
  try dsimp only
  repeat' first
    | with_reducible assumption
    | intro _
    | with_reducible apply State.setTally_keeps
    | with_reducible apply State.tallyStat_keeps
    | split
    | with_reducible apply Keeps.upd

theorem State.tallyForfeit_keeps (h : Keeps s₀ s) (owner : Nat) (i : Nat) : Keeps s₀ (State.tallyForfeit owner s i) := by
  unfold State.tallyForfeit
  try dsimp only
  repeat' first
    | with_reducible assumption
    | intro _
    | with_reducible apply State.endWait_keeps
    | with_reducible apply State.incident_keeps
    | with_reducible apply State.setTally_keeps
    | with_reducible apply State.watchSet_keeps
    | with_reducible apply Keeps.foldl
    | with_reducible apply Keeps.foldl_fst
    | with_reducible apply Keeps.foldl_snd
    | split
    | with_reducible apply Keeps.upd

theorem State.setMapEnt_keeps (h : Keeps s₀ s) (c : Nat) (v : Nat) (e : Option MapEnt) : Keeps s₀ (State.setMapEnt s c v e) := by
  unfold State.setMapEnt
  try dsimp only
  repeat' first
    | with_reducible assumption
    | intro _
    | split
    | with_reducible apply Keeps.upd

theorem State.setBar_keeps (h : Keeps s₀ s) (b : Nat) (v : Barrier) : Keeps s₀ (State.setBar s b v) := by
  unfold State.setBar
  try dsimp only
  repeat' first
    | with_reducible assumption
    | intro _
    | split
    | with_reducible apply Keeps.upd

theorem State.wakeBar_keeps (h : Keeps s₀ s) (b : Nat) (c : Nat) : Keeps s₀ (State.wakeBar b s c) := by
  unfold State.wakeBar
  try dsimp only
  repeat' first
    | with_reducible assumption
    | intro _
    | with_reducible apply State.endWait_keeps
    | split
    | with_reducible apply Keeps.upd

theorem State.barComplete_keeps (h : Keeps s₀ s) (b : Nat) : Keeps s₀ (State.barComplete s b) := by
  unfold State.barComplete
  try dsimp only
  repeat' first
    | with_reducible assumption
    | intro _
    | with_reducible apply State.setBar_keeps
    | with_reducible apply State.wakeBar_keeps
    | with_reducible apply Keeps.foldl
    | with_reducible apply Keeps.foldl_fst
    | with_reducible apply Keeps.foldl_snd
    | split
    | with_reducible apply Keeps.upd

theorem State.barArrive_keeps (h : Keeps s₀ s) (b : Nat) (slot : Nat) : Keeps s₀ (State.barArrive s b slot) := by
  unfold State.barArrive
  try dsimp only
  repeat' first
    | with_reducible assumption
    | intro _
    | with_reducible apply State.barComplete_keeps
    | with_reducible apply State.setBar_keeps
    | split
    | with_reducible apply Keeps.upd

theorem State.barBreak_keeps (h : Keeps s₀ s) (b : Nat) : Keeps s₀ (State.barBreak s b) := by
  unfold State.barBreak
  try dsimp only
  repeat' first
    | with_reducible assumption
    | intro _
    | with_reducible apply State.endWait_keeps
    | with_reducible apply State.setBar_keeps
    | with_reducible apply Keeps.foldl
    | with_reducible apply Keeps.foldl_fst
    | with_reducible apply Keeps.foldl_snd
    | split
    | with_reducible apply Keeps.upd

theorem State.tallyTeardown_keeps (h : Keeps s₀ s) (c : Nat) : Keeps s₀ (State.tallyTeardown s c) := by
  unfold State.tallyTeardown
  try dsimp only
  repeat' first
    | with_reducible assumption
    | intro _
    | with_reducible apply State.barBreak_keeps
    | with_reducible apply State.modCtx_keeps
    | with_reducible apply State.tallyForfeit_keeps
    | with_reducible apply Keeps.foldl
    | with_reducible apply Keeps.foldl_fst
    | with_reducible apply Keeps.foldl_snd
    | split
    | with_reducible apply Keeps.upd

theorem State.permit_keeps (h : Keeps s₀ s) (r : Nat) (right : Nat) (off : Nat) (f : State → State) (hf : ∀ y0, Keeps s₀ y0 → Keeps s₀ (f y0)) : Keeps s₀ (State.permit s r right off f) := by
  unfold State.permit
  try dsimp only
  repeat' first
    | with_reducible assumption
    | intro _
    | with_reducible apply State.deny_keeps
    | with_reducible apply hf
    | split
    | with_reducible apply Keeps.upd

theorem State.tallyInfo_keeps (h : Keeps s₀ s) (r : Nat) (i : Nat) (err : Nat) : Keeps s₀ (State.tallyInfo s r i err) := by
  unfold State.tallyInfo
  try dsimp only
  repeat' first
    | with_reducible assumption
    | intro _
    | with_reducible apply State.setReg_keeps
    | split
    | with_reducible apply Keeps.upd

theorem State.tallyRead_keeps (h : Keeps s₀ s) (r : Nat) : Keeps s₀ (State.tallyRead r s) := by
  unfold State.tallyRead
  try dsimp only
  repeat' first
    | with_reducible assumption
    | intro _
    | with_reducible apply State.setReg_keeps
    | with_reducible apply State.tallyInfo_keeps
    | split
    | with_reducible apply Keeps.upd

theorem State.tallyReclaim_keeps (h : Keeps s₀ s) (r : Nat) : Keeps s₀ (State.tallyReclaim r s) := by
  unfold State.tallyReclaim
  try dsimp only
  repeat' first
    | with_reducible assumption
    | intro _
    | with_reducible apply State.setTally_keeps
    | with_reducible apply State.tallyInfo_keeps
    | split
    | with_reducible apply Keeps.upd

theorem State.tmapInfo_keeps (h : Keeps s₀ s) (r : Nat) (err : Nat) : Keeps s₀ (State.tmapInfo s r err) := by
  unfold State.tmapInfo
  try dsimp only
  repeat' first
    | with_reducible assumption
    | intro _
    | with_reducible apply State.setReg_keeps
    | split
    | with_reducible apply Keeps.upd

theorem State.tmapSet_keeps (h : Keeps s₀ s) (r : Nat) : Keeps s₀ (State.tmapSet r s) := by
  unfold State.tmapSet
  try dsimp only
  repeat' first
    | with_reducible assumption
    | intro _
    | with_reducible apply State.setMapEnt_keeps
    | with_reducible apply State.setTally_keeps
    | with_reducible apply State.tmapInfo_keeps
    | split
    | with_reducible apply Keeps.upd

theorem State.tmapClear_keeps (h : Keeps s₀ s) (r : Nat) : Keeps s₀ (State.tmapClear r s) := by
  unfold State.tmapClear
  try dsimp only
  repeat' first
    | with_reducible assumption
    | intro _
    | with_reducible apply State.setMapEnt_keeps
    | with_reducible apply State.setTally_keeps
    | with_reducible apply State.tmapInfo_keeps
    | split
    | with_reducible apply Keeps.upd

theorem State.tmapRead_keeps (h : Keeps s₀ s) (r : Nat) : Keeps s₀ (State.tmapRead r s) := by
  unfold State.tmapRead
  try dsimp only
  repeat' first
    | with_reducible assumption
    | intro _
    | with_reducible apply State.setReg_keeps
    | with_reducible apply State.tmapInfo_keeps
    | split
    | with_reducible apply Keeps.upd

theorem State.barInfo_keeps (h : Keeps s₀ s) (r : Nat) (b : Nat) (err : Nat) : Keeps s₀ (State.barInfo s r b err) := by
  unfold State.barInfo
  try dsimp only
  repeat' first
    | with_reducible assumption
    | intro _
    | with_reducible apply State.setReg_keeps
    | split
    | with_reducible apply Keeps.upd

theorem State.barDefine_keeps (h : Keeps s₀ s) (r : Nat) : Keeps s₀ (State.barDefine r s) := by
  unfold State.barDefine
  try dsimp only
  repeat' first
    | with_reducible assumption
    | intro _
    | with_reducible apply State.barInfo_keeps
    | with_reducible apply State.setBar_keeps
    | split
    | with_reducible apply Keeps.upd

theorem State.barUndefine_keeps (h : Keeps s₀ s) (r : Nat) : Keeps s₀ (State.barUndefine r s) := by
  unfold State.barUndefine
  try dsimp only
  repeat' first
    | with_reducible assumption
    | intro _
    | with_reducible apply State.barInfo_keeps
    | with_reducible apply State.setBar_keeps
    | split
    | with_reducible apply Keeps.upd

theorem State.barRearm_keeps (h : Keeps s₀ s) (r : Nat) : Keeps s₀ (State.barRearm r s) := by
  unfold State.barRearm
  try dsimp only
  repeat' first
    | with_reducible assumption
    | intro _
    | with_reducible apply State.barInfo_keeps
    | with_reducible apply State.setBar_keeps
    | split
    | with_reducible apply Keeps.upd

theorem State.barSetMembers_keeps (h : Keeps s₀ s) (r : Nat) : Keeps s₀ (State.barSetMembers r s) := by
  unfold State.barSetMembers
  try dsimp only
  repeat' first
    | with_reducible assumption
    | intro _
    | with_reducible apply State.barComplete_keeps
    | with_reducible apply State.barInfo_keeps
    | with_reducible apply State.setBar_keeps
    | split
    | with_reducible apply Keeps.upd

theorem State.barCmdArrive_keeps (h : Keeps s₀ s) (r : Nat) (slot : Nat) : Keeps s₀ (State.barCmdArrive r slot s) := by
  unfold State.barCmdArrive
  try dsimp only
  repeat' first
    | with_reducible assumption
    | intro _
    | with_reducible apply State.barArrive_keeps
    | with_reducible apply State.barInfo_keeps
    | split
    | with_reducible apply Keeps.upd

theorem State.barRead_keeps (h : Keeps s₀ s) (r : Nat) : Keeps s₀ (State.barRead r s) := by
  unfold State.barRead
  try dsimp only
  repeat' first
    | with_reducible assumption
    | intro _
    | with_reducible apply State.barInfo_keeps
    | with_reducible apply State.setReg_keeps
    | split
    | with_reducible apply Keeps.upd

theorem State.watchCfg_keeps (h : Keeps s₀ s) (k : Nat) (v : W32) : Keeps s₀ (State.watchCfg k v s) := by
  unfold State.watchCfg
  try dsimp only
  repeat' first
    | with_reducible assumption
    | intro _
    | with_reducible apply State.setReg_keeps
    | with_reducible apply State.watchSet_keeps
    | split
    | with_reducible apply Keeps.upd

theorem State.tallyPort_keeps (h : Keeps s₀ s) (r : Nat) (a : Nat) (f : State → State) (hf : ∀ y0, Keeps s₀ y0 → Keeps s₀ (f y0)) : Keeps s₀ (State.tallyPort s r a f) := by
  unfold State.tallyPort
  try dsimp only
  repeat' first
    | with_reducible assumption
    | intro _
    | with_reducible apply State.deny_keeps
    | with_reducible apply hf
    | split
    | with_reducible apply Keeps.upd

/-! ### Commands: each answers a next state -/

theorem execTallyPortAdd_keeps (r : Requester) (i : TallyId) (v : W32) : Answers s (execTallyPortAdd r i v s) := by
  unfold execTallyPortAdd
  try dsimp only
  repeat' first
    | with_reducible assumption
    | with_reducible exact Keeps.refl _
    | intro _
    | with_reducible apply Answers.mk
    | with_reducible apply State.tallyAdd_keeps
    | with_reducible apply State.tallyPort_keeps
    | split
    | with_reducible apply Keeps.upd

theorem execTallyPortSubtract_keeps (r : Requester) (i : TallyId) (v : W32) : Answers s (execTallyPortSubtract r i v s) := by
  unfold execTallyPortSubtract
  try dsimp only
  repeat' first
    | with_reducible assumption
    | with_reducible exact Keeps.refl _
    | intro _
    | with_reducible apply Answers.mk
    | with_reducible apply State.tallyPort_keeps
    | with_reducible apply State.tallySub_keeps
    | split
    | with_reducible apply Keeps.upd

theorem execTallyRead_keeps (r : Requester) : Answers s (execTallyRead r s) := by
  unfold execTallyRead
  try dsimp only
  repeat' first
    | with_reducible assumption
    | with_reducible exact Keeps.refl _
    | intro _
    | with_reducible apply Answers.mk
    | with_reducible apply State.permit_keeps
    | with_reducible apply State.tallyRead_keeps
    | split
    | with_reducible apply Keeps.upd

theorem execReclaim_keeps (r : Requester) : Answers s (execReclaim r s) := by
  unfold execReclaim
  try dsimp only
  repeat' first
    | with_reducible assumption
    | with_reducible exact Keeps.refl _
    | intro _
    | with_reducible apply Answers.mk
    | with_reducible apply State.permit_keeps
    | with_reducible apply State.tallyReclaim_keeps
    | split
    | with_reducible apply Keeps.upd

theorem execTmapSet_keeps (r : Requester) : Answers s (execTmapSet r s) := by
  unfold execTmapSet
  try dsimp only
  repeat' first
    | with_reducible assumption
    | with_reducible exact Keeps.refl _
    | intro _
    | with_reducible apply Answers.mk
    | with_reducible apply State.permit_keeps
    | with_reducible apply State.tmapSet_keeps
    | split
    | with_reducible apply Keeps.upd

theorem execTmapClear_keeps (r : Requester) : Answers s (execTmapClear r s) := by
  unfold execTmapClear
  try dsimp only
  repeat' first
    | with_reducible assumption
    | with_reducible exact Keeps.refl _
    | intro _
    | with_reducible apply Answers.mk
    | with_reducible apply State.permit_keeps
    | with_reducible apply State.tmapClear_keeps
    | split
    | with_reducible apply Keeps.upd

theorem execTmapRead_keeps (r : Requester) : Answers s (execTmapRead r s) := by
  unfold execTmapRead
  try dsimp only
  repeat' first
    | with_reducible assumption
    | with_reducible exact Keeps.refl _
    | intro _
    | with_reducible apply Answers.mk
    | with_reducible apply State.permit_keeps
    | with_reducible apply State.tmapRead_keeps
    | split
    | with_reducible apply Keeps.upd

theorem execBarDefine_keeps (r : Requester) : Answers s (execBarDefine r s) := by
  unfold execBarDefine
  try dsimp only
  repeat' first
    | with_reducible assumption
    | with_reducible exact Keeps.refl _
    | intro _
    | with_reducible apply Answers.mk
    | with_reducible apply State.barDefine_keeps
    | with_reducible apply State.permit_keeps
    | split
    | with_reducible apply Keeps.upd

theorem execBarUndefine_keeps (r : Requester) : Answers s (execBarUndefine r s) := by
  unfold execBarUndefine
  try dsimp only
  repeat' first
    | with_reducible assumption
    | with_reducible exact Keeps.refl _
    | intro _
    | with_reducible apply Answers.mk
    | with_reducible apply State.barUndefine_keeps
    | with_reducible apply State.permit_keeps
    | split
    | with_reducible apply Keeps.upd

theorem execRearm_keeps (r : Requester) : Answers s (execRearm r s) := by
  unfold execRearm
  try dsimp only
  repeat' first
    | with_reducible assumption
    | with_reducible exact Keeps.refl _
    | intro _
    | with_reducible apply Answers.mk
    | with_reducible apply State.barRearm_keeps
    | with_reducible apply State.permit_keeps
    | split
    | with_reducible apply Keeps.upd

theorem execSetMembers_keeps (r : Requester) : Answers s (execSetMembers r s) := by
  unfold execSetMembers
  try dsimp only
  repeat' first
    | with_reducible assumption
    | with_reducible exact Keeps.refl _
    | intro _
    | with_reducible apply Answers.mk
    | with_reducible apply State.barSetMembers_keeps
    | with_reducible apply State.permit_keeps
    | split
    | with_reducible apply Keeps.upd

theorem execArrive_keeps (r : Requester) (slot : Fin 64) : Answers s (execArrive r slot s) := by
  unfold execArrive
  try dsimp only
  repeat' first
    | with_reducible assumption
    | with_reducible exact Keeps.refl _
    | intro _
    | with_reducible apply Answers.mk
    | with_reducible apply State.barCmdArrive_keeps
    | with_reducible apply State.permit_keeps
    | split
    | with_reducible apply Keeps.upd

theorem execBarRead_keeps (r : Requester) : Answers s (execBarRead r s) := by
  unfold execBarRead
  try dsimp only
  repeat' first
    | with_reducible assumption
    | with_reducible exact Keeps.refl _
    | intro _
    | with_reducible apply Answers.mk
    | with_reducible apply State.barRead_keeps
    | with_reducible apply State.permit_keeps
    | split
    | with_reducible apply Keeps.upd

theorem execWatchEnable_keeps (r : Requester) (k : Fin 16) (v : W32) : Answers s (execWatchEnable r k v s) := by
  unfold execWatchEnable
  try dsimp only
  repeat' first
    | with_reducible assumption
    | with_reducible exact Keeps.refl _
    | intro _
    | with_reducible apply Answers.mk
    | with_reducible apply State.permit_keeps
    | with_reducible apply State.watchCfg_keeps
    | split
    | with_reducible apply Keeps.upd

end Sys2Proof.Machine
end

