-- ==== Sys2Proof/Laws/KeepsReceipts.lean ====
section
/-!
SUPPORT. What the operations and commands of Machine/Receipts.lean keep (Laws/Keeps.lean).
-/

namespace Sys2Proof.Machine

open Sys2Proof State

variable {s₀ s : State}

theorem State.setHolder_keeps (h : Keeps s₀ s) (pa : Nat) (p : Option Producer) : Keeps s₀ (State.setHolder s pa p) := by
  unfold State.setHolder
  try dsimp only
  repeat' first
    | with_reducible assumption
    | intro _
    | split
    | with_reducible apply Keeps.upd

theorem State.releaseHolds_keeps (h : Keeps s₀ s) (f : Nat → Producer → Bool) : Keeps s₀ (State.releaseHolds s f) := by
  unfold State.releaseHolds
  try dsimp only
  repeat' first
    | with_reducible assumption
    | intro _
    | split
    | with_reducible apply Keeps.upd

theorem State.producerStart_keeps (h : Keeps s₀ s) (pa : Nat) (me : Producer) (count : Bool) : Keeps s₀ (State.producerStart s pa me count).2 := by
  unfold State.producerStart
  try dsimp only
  repeat' first
    | with_reducible assumption
    | intro _
    | with_reducible apply State.bump_keeps
    | with_reducible apply State.putNat_keeps
    | with_reducible apply State.setHolder_keeps
    | split
    | with_reducible apply Keeps.upd

theorem State.producerStart_of (h : Keeps s₀ s) {pa : Nat} {me : Producer} {count : Bool} {x0 : Take} {t : State} (he : State.producerStart s pa me count = (x0, t)) : Keeps s₀ t := by
  have g := State.producerStart_keeps h pa me count
  rw [he] at g
  exact g

theorem State.wakeRwait_keeps (h : Keeps s₀ s) (pa : Nat) (seq : Nat) (c : Nat) : Keeps s₀ (State.wakeRwait pa seq s c) := by
  unfold State.wakeRwait
  try dsimp only
  repeat' first
    | with_reducible assumption
    | intro _
    | with_reducible apply State.endWait_keeps
    | split
    | with_reducible apply Keeps.upd

theorem State.postWord_keeps (h : Keeps s₀ s) (w : Nat) (pa : Nat) (seq : Nat) (note : Nat) : Keeps s₀ (State.postWord s w pa seq note) := by
  unfold State.postWord
  try dsimp only
  repeat' first
    | with_reducible assumption
    | intro _
    | with_reducible apply State.note_keeps
    | with_reducible apply State.putNat_keeps
    | with_reducible apply State.wakeRwait_keeps
    | with_reducible apply Keeps.foldl
    | with_reducible apply Keeps.foldl_fst
    | with_reducible apply Keeps.foldl_snd
    | split
    | with_reducible apply Keeps.upd

theorem State.producerPost_keeps (h : Keeps s₀ s) (pa : Nat) (me : Producer) (taken : Option (Nat × Bool)) (emptyOut : Bool) (unit : Nat) (ctx : Nat) (count : Bool) : Keeps s₀ (State.producerPost s pa me taken emptyOut unit ctx count).2 := by
  unfold State.producerPost
  try dsimp only
  repeat' first
    | with_reducible assumption
    | intro _
    | with_reducible apply State.bump_keeps
    | with_reducible apply State.note_keeps
    | with_reducible apply State.postWord_keeps
    | with_reducible apply State.putNat_keeps
    | with_reducible apply State.setHolder_keeps
    | split
    | with_reducible apply Keeps.upd

theorem State.producerPost_of (h : Keeps s₀ s) {pa : Nat} {me : Producer} {taken : Option (Nat × Bool)} {emptyOut : Bool} {unit : Nat} {ctx : Nat} {count : Bool} {x0 : Posted} {t : State} (he : State.producerPost s pa me taken emptyOut unit ctx count = (x0, t)) : Keeps s₀ t := by
  have g := State.producerPost_keeps h pa me taken emptyOut unit ctx count
  rw [he] at g
  exact g

theorem State.postFault_keeps (h : Keeps s₀ s) (pa : Nat) (ctx : Nat) : Keeps s₀ (State.postFault s pa ctx) := by
  unfold State.postFault
  try dsimp only
  repeat' first
    | with_reducible assumption
    | intro _
    | with_reducible apply State.postWord_keeps
    | split
    | with_reducible apply Keeps.upd

theorem State.rwinOff_keeps (h : Keeps s₀ s) (r : Nat) (w : Nat) : Keeps s₀ (State.rwinOff r w s) := by
  unfold State.rwinOff
  try dsimp only
  repeat' first
    | with_reducible assumption
    | intro _
    | with_reducible apply State.bumpFree_keeps
    | with_reducible apply State.endWait_keeps
    | with_reducible apply State.incident_keeps
    | with_reducible apply State.losePage_keeps
    | with_reducible apply State.releaseHolds_keeps
    | with_reducible apply State.setFld_keeps
    | with_reducible apply Keeps.foldl
    | with_reducible apply Keeps.foldl_fst
    | with_reducible apply Keeps.foldl_snd
    | split
    | with_reducible apply Keeps.upd

theorem State.rwinCfg_keeps (h : Keeps s₀ s) (r : Nat) (w : Nat) (v : W32) : Keeps s₀ (State.rwinCfg r w v s) := by
  unfold State.rwinCfg
  try dsimp only
  repeat' first
    | with_reducible assumption
    | intro _
    | with_reducible apply State.rwinOff_keeps
    | with_reducible apply State.setFld_keeps
    | split
    | with_reducible apply Keeps.upd

theorem State.rwinDone_keeps (h : Keeps s₀ s) (w : Nat) : Keeps s₀ (State.rwinDone w s) := by
  unfold State.rwinDone
  try dsimp only
  repeat' first
    | with_reducible assumption
    | intro _
    | with_reducible apply State.setFld_keeps
    | with_reducible apply State.zeroPage_keeps
    | with_reducible apply Keeps.foldl
    | with_reducible apply Keeps.foldl_fst
    | with_reducible apply Keeps.foldl_snd
    | split
    | with_reducible apply Keeps.upd

theorem State.collectBy_keeps (h : Keeps s₀ s) (r : Nat) (pa : Nat) : Keeps s₀ (State.collectBy r pa s) := by
  unfold State.collectBy
  try dsimp only
  repeat' first
    | with_reducible assumption
    | intro _
    | with_reducible apply State.agentRead_keeps
    | with_reducible apply State.answer_keeps
    | with_reducible apply State.deny_keeps
    | with_reducible apply State.replicate_keeps
    | with_reducible refine State.agentRead_of ?_ (by assumption)
    | with_reducible refine State.replicate_of ?_ (by assumption)
    | split
    | with_reducible apply Keeps.upd

/-! ### Commands: each answers a next state -/

theorem execRwinRegister_keeps (r : Requester) (w : Fin 16) (v : W32) : Answers s (execRwinRegister r w v s) := by
  unfold execRwinRegister
  try dsimp only
  repeat' first
    | with_reducible assumption
    | with_reducible exact Keeps.refl _
    | intro _
    | with_reducible apply Answers.mk
    | with_reducible apply State.permit_keeps
    | with_reducible apply State.rwinCfg_keeps
    | split
    | with_reducible apply Keeps.upd

theorem execRwinRegisterComplete_keeps (w : Fin 16) : Answers s (execRwinRegisterComplete w s) := by
  unfold execRwinRegisterComplete
  try dsimp only
  repeat' first
    | with_reducible assumption
    | with_reducible exact Keeps.refl _
    | intro _
    | with_reducible apply Answers.mk
    | with_reducible apply State.rwinDone_keeps
    | split
    | with_reducible apply Keeps.upd

theorem execRwinUnregister_keeps (r : Requester) (w : Fin 16) (v : W32) : Answers s (execRwinUnregister r w v s) := by
  unfold execRwinUnregister
  try dsimp only
  repeat' first
    | with_reducible assumption
    | with_reducible exact Keeps.refl _
    | intro _
    | with_reducible apply Answers.mk
    | with_reducible apply State.permit_keeps
    | with_reducible apply State.rwinCfg_keeps
    | split
    | with_reducible apply Keeps.upd

theorem execCollect_keeps (r : Requester) (pa : BitVec 44) : Answers s (execCollect r pa s) := by
  unfold execCollect
  try dsimp only
  repeat' first
    | with_reducible assumption
    | with_reducible exact Keeps.refl _
    | intro _
    | with_reducible apply Answers.mk
    | with_reducible apply State.collectBy_keeps
    | split
    | with_reducible apply Keeps.upd

end Sys2Proof.Machine
end

