-- ==== Sys2Proof/Laws/KeepsOperands.lean ====
section
/-!
SUPPORT. What the operations of Machine/Operands.lean keep (Laws/Keeps.lean).
-/

namespace Sys2Proof.Machine

open Sys2Proof State

variable {s₀ s : State}

theorem State.slotPut_keeps (h : Keeps s₀ s) (c : Nat) (d : Nat) (v : Desc) : Keeps s₀ (State.slotPut s c d v) := by
  unfold State.slotPut
  try dsimp only
  repeat' first
    | with_reducible assumption
    | intro _
    | with_reducible apply State.modCtx_keeps
    | split
    | with_reducible apply Keeps.upd

end Sys2Proof.Machine
end

