-- ==== Sys2Proof/Laws/KeepsTensor.lean ====
section
/-!
SUPPORT. What the operations of Machine/Tensor.lean keep (Laws/Keeps.lean).
-/

namespace Sys2Proof.Machine

open Sys2Proof State

variable {s₀ s : State}

theorem State.mirror_keeps (h : Keeps s₀ s) (c : Nat) (va : W64) (pa : Nat) (bs : List Byte) : Keeps s₀ (State.mirror s c va pa bs) := by
  unfold State.mirror
  try dsimp only
  repeat' first
    | with_reducible assumption
    | intro _
    | with_reducible apply State.mirrorOut_keeps
    | split
    | with_reducible apply Keeps.upd

theorem State.ledPut_keeps (h : Keeps s₀ s) (c : Nat) (va : W64) (b : Nat) : Keeps s₀ (State.ledPut s c va b) := by
  unfold State.ledPut
  try dsimp only
  repeat' first
    | with_reducible assumption
    | intro _
    | with_reducible apply State.agentWrite_keeps
    | with_reducible apply State.mirror_keeps
    | split
    | with_reducible apply Keeps.upd

theorem State.spacePut_keeps (h : Keeps s₀ s) (c : Nat) (sp : Nat) (a : Int) (b : Nat) : Keeps s₀ (State.spacePut s c sp a b) := by
  unfold State.spacePut
  try dsimp only
  repeat' first
    | with_reducible assumption
    | intro _
    | with_reducible apply State.ledPut_keeps
    | split
    | with_reducible apply Keeps.upd

theorem State.codePut_keeps (h : Keeps s₀ s) (c : Nat) (sp : Nat) (bit : Int) (w : Nat) (v : Nat) : Keeps s₀ (State.codePut s c sp bit w v) := by
  unfold State.codePut
  try dsimp only
  repeat' first
    | with_reducible assumption
    | intro _
    | with_reducible apply State.spacePut_keeps
    | with_reducible apply Keeps.foldl
    | with_reducible apply Keeps.foldl_fst
    | with_reducible apply Keeps.foldl_snd
    | split
    | with_reducible apply Keeps.upd

theorem State.pursePut_keeps (h : Keeps s₀ s) (c : Nat) (d : Desc) (v : List Nat) : Keeps s₀ (State.pursePut s c d v) := by
  unfold State.pursePut
  try dsimp only
  repeat' first
    | with_reducible assumption
    | intro _
    | split
    | with_reducible apply Keeps.upd

theorem State.writeElems_keeps (h : Keeps s₀ s) (c : Nat) (d : Desc) (es : List (List Nat × Nat)) (scales : List (Nat × Nat)) : Keeps s₀ (State.writeElems s c d es scales) := by
  unfold State.writeElems
  try dsimp only
  repeat' first
    | with_reducible assumption
    | intro _
    | with_reducible apply State.codePut_keeps
    | with_reducible apply State.pursePut_keeps
    | with_reducible apply State.spacePut_keeps
    | with_reducible apply Keeps.foldl
    | with_reducible apply Keeps.foldl_fst
    | with_reducible apply Keeps.foldl_snd
    | split
    | with_reducible apply Keeps.upd

end Sys2Proof.Machine
end

