-- ==== Sys2Proof/Laws/KeepsMoves.lean ====
section
/-!
SUPPORT. What the operations of Machine/Moves.lean keep (Laws/Keeps.lean).
-/

namespace Sys2Proof.Machine

open Sys2Proof State

variable {s₀ s : State}

theorem State.queuePages_keeps (h : Keeps s₀ s) (c : Nat) (id : Nat) (kind : MoveKind) (vpns : List Nat) : Keeps s₀ (State.queuePages s c id kind vpns) := by
  unfold State.queuePages
  try dsimp only
  repeat' first
    | with_reducible assumption
    | intro _
    | with_reducible apply State.queueMove_keeps
    | with_reducible apply Keeps.foldl
    | with_reducible apply Keeps.foldl_fst
    | with_reducible apply Keeps.foldl_snd
    | split
    | with_reducible apply Keeps.upd

theorem State.raisePages_of (h : Keeps s₀ s) {c id : Nat} {drop tier : Bool} {l : List Nat} {t : State}
    (e : s.raisePages c id drop tier l = .started t) : Keeps s₀ t := by
  induction l generalizing s with
  | nil => cases e; exact h
  | cons v l ih =>
    unfold State.raisePages at e
    dsimp only at e
    split at e
    · cases e
    · refine ih ?_ e
      split
      · exact State.dropClaim_keeps (State.noteTlb_keeps h _ _) _ _
      · exact State.raisePage_keeps (State.noteTlb_keeps h _ _) _ _ _ _ _

/-- A move that starts has passed its check. -/
theorem State.thenStart_started {a : TAcc} {tag : Nat} {k : MoveStart} {t : State}
    (e : State.thenStart a tag k = .started t) : k = .started t := by
  unfold State.thenStart at e
  split at e
  · cases e
  · exact e

theorem State.startMove_of (h : Keeps s₀ s) {c : Nat} {o : AsyncOp} {t : State}
    (e : s.startMove c o = .started t) : Keeps s₀ t := by
  have g := fun f => State.modCtx_keeps h c f
  unfold State.startMove at e
  dsimp only at e
  split at e
  · exact State.raisePages_of (g _) e
  · exact State.raisePages_of (g _) e
  · have e' := State.thenStart_started (State.thenStart_started e)
    split at e'
    · cases e'; exact State.queuePages_keeps (g _) _ _ _ _
    · cases e'; exact g _
  · have e' := State.thenStart_started (State.thenStart_started e)
    split at e'
    · cases e'; exact State.queuePages_keeps (g _) _ _ _ _
    · cases e'; exact g _
  · split at e
    · cases e
    · have e' := State.thenStart_started (State.thenStart_started e)
      cases e'; exact State.queuePages_keeps (g _) _ _ _ _
  · cases e; exact g _

theorem State.copyPage_keeps (h : Keeps s₀ s) (c : Nat) (o : AsyncOp) (vpn : Option Nat) : Keeps s₀ (State.copyPage s c o vpn) := by
  unfold State.copyPage
  try dsimp only
  repeat' first
    | with_reducible assumption
    | intro _
    | with_reducible apply State.writeElems_keeps
    | split
    | with_reducible apply Keeps.upd

end Sys2Proof.Machine
end

