-- ==== Sys2Proof/Laws/KeepsHmap.lean ====
section
/-!
SUPPORT. What the operations of Machine/Hmap.lean keep (Laws/Keeps.lean).
-/

namespace Sys2Proof.Machine

open Sys2Proof State

variable {s₀ s : State}

theorem State.hurdleCount_keeps (h : Keeps s₀ s) (a : HAcc) : Keeps s₀ (State.hurdleCount s a) := by
  unfold State.hurdleCount
  try dsimp only
  repeat' first
    | with_reducible assumption
    | intro _
    | with_reducible apply State.bump_keeps
    | with_reducible apply State.rise_keeps
    | with_reducible apply State.setFld_keeps
    | split
    | with_reducible apply Keeps.upd

theorem State.stopVerify_keeps (h : Keeps s₀ s)  : Keeps s₀ (State.stopVerify s) := by
  unfold State.stopVerify
  try dsimp only
  repeat' first
    | with_reducible assumption
    | intro _
    | with_reducible apply State.bumpFree_keeps
    | with_reducible apply State.hurdleCount_keeps
    | with_reducible apply State.setFld_keeps
    | with_reducible apply State.tallyAdd_keeps
    | split
    | with_reducible apply Keeps.upd

theorem State.stopLoad_keeps (h : Keeps s₀ s) (pa : Nat) (index : Nat) : Keeps s₀ (State.stopLoad s pa index) := by
  unfold State.stopLoad
  try dsimp only
  repeat' first
    | with_reducible assumption
    | intro _
    | with_reducible apply State.load_keeps
    | with_reducible apply State.setFld_keeps
    | with_reducible apply State.stopVerify_keeps
    | with_reducible refine State.load_of ?_ (by assumption)
    | split
    | with_reducible apply Keeps.upd

theorem State.hurdleSettle_keeps (h : Keeps s₀ s)  : Keeps s₀ (State.hurdleSettle s) := by
  unfold State.hurdleSettle
  try dsimp only
  repeat' first
    | with_reducible assumption
    | intro _
    | with_reducible apply State.load_keeps
    | with_reducible apply State.stopLoad_keeps
    | with_reducible refine State.load_of ?_ (by assumption)
    | split
    | with_reducible apply Keeps.upd

theorem State.setTree_keeps (h : Keeps s₀ s) (t : VTree) : Keeps s₀ (State.setTree s t) := by
  unfold State.setTree
  try dsimp only
  repeat' first
    | with_reducible assumption
    | intro _
    | with_reducible apply State.setFld_keeps
    | split
    | with_reducible apply Keeps.upd

end Sys2Proof.Machine
end

