-- ==== Sys2Proof/Laws/KeepsContexts.lean ====
section
/-!
SUPPORT. What the operations and commands of Machine/Contexts.lean keep (Laws/Keeps.lean).
-/

namespace Sys2Proof.Machine

open Sys2Proof State

variable {s₀ s : State}

theorem State.faultCtx_keeps (h : Keeps s₀ s) (c : Nat) (f : FaultInfo) : Keeps s₀ (State.faultCtx s c f) := by
  unfold State.faultCtx
  try dsimp only
  repeat' first
    | with_reducible assumption
    | intro _
    | with_reducible apply State.setCtx_keeps
    | split
    | with_reducible apply Keeps.upd

theorem State.precise_keeps (h : Keeps s₀ s) (c : Nat) (code : Nat) (detail : W64) (vaddr : W64) (unit : Nat) (tag : Nat) : Keeps s₀ (State.precise s c code detail vaddr unit tag) := by
  unfold State.precise
  try dsimp only
  repeat' first
    | with_reducible assumption
    | intro _
    | with_reducible apply State.faultCtx_keeps
    | split
    | with_reducible apply Keeps.upd

theorem State.illegalOperand_keeps (h : Keeps s₀ s) (c : Nat) (i : Nat) : Keeps s₀ (State.illegalOperand s c i) := by
  unfold State.illegalOperand
  try dsimp only
  repeat' first
    | with_reducible assumption
    | intro _
    | with_reducible apply State.precise_keeps
    | split
    | with_reducible apply Keeps.upd

theorem State.ctxLoad_of (h : Keeps s₀ s) {c : Nat} {va : W64} {n : Nat} {bs : List Byte} {t : State}
    (e : s.ctxLoad c va n = .ok bs t) : Keeps s₀ t := by
  unfold State.ctxLoad at e
  split at e
  · cases e
  · split at e
    · cases e
    · cases e
      exact State.agentRead_keeps (State.noteTlb_keeps h _ _) _ _

theorem State.ctxStore_of (h : Keeps s₀ s) {c : Nat} {va : W64} {bs rs : List Byte} {ro : Bool} {t : State}
    (e : s.ctxStore c va bs ro = .ok rs t) : Keeps s₀ t := by
  unfold State.ctxStore at e
  split at e
  · cases e
  · split at e
    · cases e
    · cases e
      exact State.mirror_keeps (State.agentWrite_keeps (State.noteTlb_keeps h _ _) _ _) _ _ _ _

theorem State.withLoad_keeps (h : Keeps s₀ s) (c : Nat) (va : W64) (n : Nat) (k : List Byte → State → State) (hk : ∀ y0 y1, Keeps s₀ y1 → Keeps s₀ (k y0 y1)) : Keeps s₀ (State.withLoad s c va n k) := by
  unfold State.withLoad
  try dsimp only
  repeat' first
    | with_reducible assumption
    | intro _
    | with_reducible apply State.precise_keeps
    | with_reducible refine State.ctxLoad_of ?_ (by assumption)
    | with_reducible apply hk
    | split
    | with_reducible apply Keeps.upd

theorem State.withStore_keeps (h : Keeps s₀ s) (c : Nat) (va : W64) (bs : List Byte) (k : State → State) (hk : ∀ y0, Keeps s₀ y0 → Keeps s₀ (k y0)) : Keeps s₀ (State.withStore s c va bs k) := by
  unfold State.withStore
  try dsimp only
  repeat' first
    | with_reducible assumption
    | intro _
    | with_reducible apply State.precise_keeps
    | with_reducible refine State.ctxStore_of ?_ (by assumption)
    | with_reducible apply hk
    | split
    | with_reducible apply Keeps.upd

theorem State.withFetch_keeps (h : Keeps s₀ s) (c : Nat) (k : State → State) (hk : ∀ y0, Keeps s₀ y0 → Keeps s₀ (k y0)) : Keeps s₀ (State.withFetch s c k) := by
  unfold State.withFetch
  try dsimp only
  repeat' first
    | with_reducible assumption
    | intro _
    | with_reducible apply State.noteTlb_keeps
    | with_reducible apply State.precise_keeps
    | with_reducible apply hk
    | split
    | with_reducible apply Keeps.upd

theorem State.runN_keeps (h : Keeps s₀ s) (i : Issue) (m : Mn) (o : NOps) (k : State → State) (hk : ∀ y0, Keeps s₀ y0 → Keeps s₀ (k y0)) : Keeps s₀ (State.runN s i m o k) := by
  unfold State.runN
  try dsimp only
  repeat' first
    | with_reducible assumption
    | intro _
    | with_reducible apply State.pcNext_keeps
    | with_reducible apply State.precise_keeps
    | with_reducible apply State.withFetch_keeps
    | with_reducible apply hk
    | split
    | with_reducible apply Keeps.upd

theorem State.jobBegin_keeps (h : Keeps s₀ s) (c : Nat) : Keeps s₀ (State.jobBegin s c) := by
  unfold State.jobBegin
  try dsimp only
  repeat' first
    | with_reducible assumption
    | intro _
    | with_reducible apply State.modCtx_keeps
    | split
    | with_reducible apply Keeps.upd

theorem State.jobEnd_keeps (h : Keeps s₀ s) (c : Nat) : Keeps s₀ (State.jobEnd s c) := by
  unfold State.jobEnd
  try dsimp only
  repeat' first
    | with_reducible assumption
    | intro _
    | with_reducible apply State.modCtx_keeps
    | with_reducible apply State.setFld_keeps
    | with_reducible apply Keeps.foldl
    | with_reducible apply Keeps.foldl_fst
    | with_reducible apply Keeps.foldl_snd
    | split
    | with_reducible apply Keeps.upd

theorem State.modOp_keeps (h : Keeps s₀ s) (c : Nat) (id : Nat) (f : AsyncOp → AsyncOp) : Keeps s₀ (State.modOp s c id f) := by
  unfold State.modOp
  try dsimp only
  repeat' first
    | with_reducible assumption
    | intro _
    | with_reducible apply State.modCtx_keeps
    | split
    | with_reducible apply Keeps.upd

theorem State.opGo_keeps (h : Keeps s₀ s) (c : Nat) (id : Nat) : Keeps s₀ (State.opGo s c id) := by
  unfold State.opGo
  try dsimp only
  repeat' first
    | with_reducible assumption
    | intro _
    | with_reducible apply State.modOp_keeps
    | split
    | with_reducible apply Keeps.upd

theorem State.opStart_keeps (h : Keeps s₀ s) (c : Nat) (id : Nat) (count : Bool) : Keeps s₀ (State.opStart s c id count) := by
  unfold State.opStart
  try dsimp only
  repeat' first
    | with_reducible assumption
    | intro _
    | with_reducible apply State.modOp_keeps
    | with_reducible apply State.opGo_keeps
    | with_reducible apply State.producerStart_keeps
    | with_reducible refine State.producerStart_of ?_ (by assumption)
    | split
    | with_reducible apply Keeps.upd

theorem State.pumpFusion_keeps (h : Keeps s₀ s)  : Keeps s₀ (State.pumpFusion s) := by
  unfold State.pumpFusion
  try dsimp only
  repeat' first
    | with_reducible assumption
    | intro _
    | with_reducible apply State.modOp_keeps
    | split
    | with_reducible apply Keeps.upd

theorem State.hurdleStart_keeps (h : Keeps s₀ s) (c : Nat) (id : Nat) : Keeps s₀ (State.hurdleStart s c id) := by
  unfold State.hurdleStart
  try dsimp only
  repeat' first
    | with_reducible assumption
    | intro _
    | with_reducible apply State.modOp_keeps
    | split
    | with_reducible apply Keeps.upd

theorem State.hurdleRestart_keeps (h : Keeps s₀ s) (h : HRun) : Keeps s₀ (State.hurdleRestart s h) := by
  unfold State.hurdleRestart
  try dsimp only
  repeat' first
    | with_reducible assumption
    | intro _
    | with_reducible apply State.bump_keeps
    | with_reducible apply State.modOp_keeps
    | split
    | with_reducible apply Keeps.upd

theorem State.hurdleResume_keeps (h : Keeps s₀ s)  : Keeps s₀ (State.hurdleResume s) := by
  unfold State.hurdleResume
  try dsimp only
  repeat' first
    | with_reducible assumption
    | intro _
    | split
    | with_reducible apply Keeps.upd

theorem State.pumpHurdle_keeps (h : Keeps s₀ s)  : Keeps s₀ (State.pumpHurdle s) := by
  unfold State.pumpHurdle
  try dsimp only
  repeat' first
    | with_reducible assumption
    | intro _
    | with_reducible apply State.hurdleRestart_keeps
    | with_reducible apply State.hurdleResume_keeps
    | with_reducible apply State.hurdleSettle_keeps
    | with_reducible apply State.hurdleStart_keeps
    | with_reducible apply Keeps.foldl
    | with_reducible apply Keeps.foldl_fst
    | with_reducible apply Keeps.foldl_snd
    | split
    | with_reducible apply Keeps.upd

theorem State.dropRuns_keeps (h : Keeps s₀ s) (c : Nat) (id : Nat) : Keeps s₀ (State.dropRuns s c id) := by
  unfold State.dropRuns
  try dsimp only
  repeat' first
    | with_reducible assumption
    | intro _
    | split
    | with_reducible apply Keeps.upd

theorem State.pumpTeller_keeps (h : Keeps s₀ s)  : Keeps s₀ (State.pumpTeller s) := by
  unfold State.pumpTeller
  try dsimp only
  repeat' first
    | with_reducible assumption
    | intro _
    | with_reducible apply State.faultCtx_keeps
    | with_reducible apply State.modCtx_keeps
    | with_reducible refine State.startMove_of ?_ (by assumption)
    | with_reducible apply Keeps.foldl
    | with_reducible apply Keeps.foldl_fst
    | with_reducible apply Keeps.foldl_snd
    | split
    | with_reducible apply Keeps.upd

theorem State.setBind_keeps (h : Keeps s₀ s) (e : Nat) (b : Option RxBind) : Keeps s₀ (State.setBind s e b) := by
  unfold State.setBind
  try dsimp only
  repeat' first
    | with_reducible assumption
    | intro _
    | with_reducible apply State.setFld_keeps
    | split
    | with_reducible apply Keeps.upd

theorem State.rxStart_keeps (h : Keeps s₀ s) (c : Nat) (o : AsyncOp) : Keeps s₀ (State.rxStart s c o) := by
  unfold State.rxStart
  try dsimp only
  repeat' first
    | with_reducible assumption
    | intro _
    | with_reducible apply State.modOp_keeps
    | with_reducible apply State.setBind_keeps
    | split
    | with_reducible apply Keeps.upd

theorem State.pumpReflex_keeps (h : Keeps s₀ s)  : Keeps s₀ (State.pumpReflex s) := by
  unfold State.pumpReflex
  try dsimp only
  repeat' first
    | with_reducible assumption
    | intro _
    | with_reducible apply State.rxStart_keeps
    | with_reducible apply Keeps.foldl
    | with_reducible apply Keeps.foldl_fst
    | with_reducible apply Keeps.foldl_snd
    | split
    | with_reducible apply Keeps.upd

theorem State.pump_keeps (h : Keeps s₀ s)  : Keeps s₀ (State.pump s) := by
  unfold State.pump
  try dsimp only
  repeat' first
    | with_reducible assumption
    | intro _
    | with_reducible apply State.pumpFusion_keeps
    | with_reducible apply State.pumpHurdle_keeps
    | with_reducible apply State.pumpReflex_keeps
    | with_reducible apply State.pumpTeller_keeps
    | split
    | with_reducible apply Keeps.upd

theorem State.promote_keeps (h : Keeps s₀ s) (c : Nat) : Keeps s₀ (State.promote s c) := by
  unfold State.promote
  try dsimp only
  repeat' first
    | with_reducible assumption
    | intro _
    | with_reducible apply State.opStart_keeps
    | with_reducible apply State.pump_keeps
    | with_reducible apply Keeps.foldl
    | with_reducible apply Keeps.foldl_fst
    | with_reducible apply Keeps.foldl_snd
    | split
    | with_reducible apply Keeps.upd

theorem State.handOver_keeps (h : Keeps s₀ s) (c : Nat) (o : AsyncOp) : Keeps s₀ (State.handOver s c o) := by
  unfold State.handOver
  try dsimp only
  repeat' first
    | with_reducible assumption
    | intro _
    | with_reducible apply State.modCtx_keeps
    | with_reducible apply State.nextStamp_keeps
    | with_reducible apply State.pcNext_keeps
    | with_reducible apply State.promote_keeps
    | split
    | with_reducible apply Keeps.upd

theorem State.opFault_keeps (h : Keeps s₀ s) (c : Nat) (id : Nat) (code : Nat) (unit : Nat) (detail : W64) (vaddr : W64) (tag : Nat) : Keeps s₀ (State.opFault s c id code unit detail vaddr tag) := by
  unfold State.opFault
  try dsimp only
  repeat' first
    | with_reducible assumption
    | intro _
    | with_reducible apply State.dropRuns_keeps
    | with_reducible apply State.faultCtx_keeps
    | with_reducible apply State.modCtx_keeps
    | with_reducible apply State.pump_keeps
    | split
    | with_reducible apply Keeps.upd

theorem State.barWaitNow_keeps (h : Keeps s₀ s) (c : Nat) (b : Nat) (slot : Nat) (pd : Fin 8) (sd : Fin 32) (dl : Option (Nat × W64)) : Keeps s₀ (State.barWaitNow s c b slot pd sd dl) := by
  unfold State.barWaitNow
  try dsimp only
  repeat' first
    | with_reducible assumption
    | intro _
    | with_reducible apply State.barArrive_keeps
    | with_reducible apply State.endWait_keeps
    | with_reducible apply State.modCtx_keeps
    | split
    | with_reducible apply Keeps.upd

theorem State.rpostNow_keeps (h : Keeps s₀ s) (c : Nat) (pa : Nat) : Keeps s₀ (State.rpostNow s c pa) := by
  unfold State.rpostNow
  try dsimp only
  repeat' first
    | with_reducible assumption
    | intro _
    | with_reducible apply State.modCtx_keeps
    | with_reducible apply State.pcNext_keeps
    | with_reducible apply State.precise_keeps
    | with_reducible apply State.producerPost_keeps
    | with_reducible refine State.producerPost_of ?_ (by assumption)
    | split
    | with_reducible apply Keeps.upd

theorem State.afterFence_keeps (h : Keeps s₀ s) (c : Nat) (k : AfterFence) : Keeps s₀ (State.afterFence s c k) := by
  unfold State.afterFence
  try dsimp only
  repeat' first
    | with_reducible assumption
    | intro _
    | with_reducible apply State.barArrive_keeps
    | with_reducible apply State.barWaitNow_keeps
    | with_reducible apply State.modCtx_keeps
    | with_reducible apply State.pcNext_keeps
    | with_reducible apply State.rpostNow_keeps
    | with_reducible apply State.tallyAdd_keeps
    | with_reducible apply State.tallySub_keeps
    | split
    | with_reducible apply Keeps.upd

theorem State.fenceThen_keeps (h : Keeps s₀ s) (c : Nat) (mask : Nat) (k : AfterFence) : Keeps s₀ (State.fenceThen s c mask k) := by
  unfold State.fenceThen
  try dsimp only
  repeat' first
    | with_reducible assumption
    | intro _
    | with_reducible apply State.afterFence_keeps
    | with_reducible apply State.modCtx_keeps
    | split
    | with_reducible apply Keeps.upd

theorem State.fenceCheck_keeps (h : Keeps s₀ s) (c : Nat) : Keeps s₀ (State.fenceCheck s c) := by
  unfold State.fenceCheck
  try dsimp only
  repeat' first
    | with_reducible assumption
    | intro _
    | with_reducible apply State.afterFence_keeps
    | split
    | with_reducible apply Keeps.upd

theorem State.opDone_keeps (h : Keeps s₀ s) (c : Nat) (id : Nat) : Keeps s₀ (State.opDone s c id) := by
  unfold State.opDone
  try dsimp only
  repeat' first
    | with_reducible assumption
    | intro _
    | with_reducible apply State.dropRuns_keeps
    | with_reducible apply State.endTrans_keeps
    | with_reducible apply State.fenceCheck_keeps
    | with_reducible apply State.modCtx_keeps
    | with_reducible apply State.promote_keeps
    | with_reducible apply State.tallyAdd_keeps
    | split
    | with_reducible apply Keeps.upd

theorem State.finishOp_keeps (h : Keeps s₀ s) (c : Nat) (id : Nat) (count : Bool) : Keeps s₀ (State.finishOp s c id count) := by
  unfold State.finishOp
  try dsimp only
  repeat' first
    | with_reducible assumption
    | intro _
    | with_reducible apply State.modOp_keeps
    | with_reducible apply State.opDone_keeps
    | with_reducible apply State.opFault_keeps
    | with_reducible apply State.producerPost_keeps
    | with_reducible refine State.producerPost_of ?_ (by assumption)
    | split
    | with_reducible apply Keeps.upd

theorem State.receiptTake_keeps (h : Keeps s₀ s) (c : Nat) : Keeps s₀ (State.receiptTake s c) := by
  unfold State.receiptTake
  try dsimp only
  repeat' first
    | with_reducible assumption
    | intro _
    | with_reducible apply State.finishOp_keeps
    | with_reducible apply State.opStart_keeps
    | with_reducible apply State.pump_keeps
    | with_reducible apply State.rpostNow_keeps
    | split
    | with_reducible apply Keeps.upd

theorem State.waitDeadline_keeps (h : Keeps s₀ s) (c : Nat) : Keeps s₀ (State.waitDeadline s c) := by
  unfold State.waitDeadline
  try dsimp only
  repeat' first
    | with_reducible assumption
    | intro _
    | with_reducible apply State.endWait_keeps
    | split
    | with_reducible apply Keeps.upd

theorem State.kernelFault_keeps (h : Keeps s₀ s) (c : Nat) (id : Nat) (va : W64) (write : Bool) : Keeps s₀ (State.kernelFault s c id va write) := by
  unfold State.kernelFault
  try dsimp only
  repeat' first
    | with_reducible assumption
    | intro _
    | with_reducible apply State.opFault_keeps
    | split
    | with_reducible apply Keeps.upd

/-! ### Commands: each answers a next state -/

theorem execWaitDeadline_keeps (c : CtxId) : Answers s (execWaitDeadline c s) := by
  unfold execWaitDeadline
  try dsimp only
  repeat' first
    | with_reducible assumption
    | with_reducible exact Keeps.refl _
    | intro _
    | with_reducible apply Answers.mk
    | with_reducible apply State.waitDeadline_keeps
    | split
    | with_reducible apply Keeps.upd

theorem execReceiptTake_keeps (c : CtxId) : Answers s (execReceiptTake c s) := by
  unfold execReceiptTake
  try dsimp only
  repeat' first
    | with_reducible assumption
    | with_reducible exact Keeps.refl _
    | intro _
    | with_reducible apply Answers.mk
    | with_reducible apply State.receiptTake_keeps
    | split
    | with_reducible apply Keeps.upd

end Sys2Proof.Machine
end

