-- ==== Sys2Proof/Laws/KeepsNovesScalar.lean ====
section
/-!
SUPPORT. What the operations and commands of Machine/NovesScalar.lean keep (Laws/Keeps.lean).
-/

namespace Sys2Proof.Machine

open Sys2Proof State

variable {s₀ s : State}

theorem State.runAlu_keeps (h : Keeps s₀ s) (i : Issue) (m : Mn) (o : OpS) : Keeps s₀ (State.runAlu s i m o) := by
  unfold State.runAlu
  try dsimp only
  repeat' first
    | with_reducible assumption
    | intro _
    | with_reducible apply State.pcNext_keeps
    | with_reducible apply State.runN_keeps
    | with_reducible apply State.sput_keeps
    | split
    | with_reducible apply Keeps.upd

theorem State.runCmp_keeps (h : Keeps s₀ s) (i : Issue) (m : Mn) (o : OpS) : Keeps s₀ (State.runCmp s i m o) := by
  unfold State.runCmp
  try dsimp only
  repeat' first
    | with_reducible assumption
    | intro _
    | with_reducible apply State.pcNext_keeps
    | with_reducible apply State.pput_keeps
    | with_reducible apply State.runN_keeps
    | split
    | with_reducible apply Keeps.upd

theorem State.runPget_keeps (h : Keeps s₀ s) (i : Issue) (o : OpS) : Keeps s₀ (State.runPget s i o) := by
  unfold State.runPget
  try dsimp only
  repeat' first
    | with_reducible assumption
    | intro _
    | with_reducible apply State.pcNext_keeps
    | with_reducible apply State.runN_keeps
    | with_reducible apply State.sput_keeps
    | split
    | with_reducible apply Keeps.upd

theorem State.atAddr_keeps (h : Keeps s₀ s) (c : Nat) (va : W64) (n : Nat) (k : State) (hk : Keeps s₀ k) : Keeps s₀ (State.atAddr s c va n k) := by
  unfold State.atAddr
  try dsimp only
  repeat' first
    | with_reducible assumption
    | intro _
    | with_reducible apply State.precise_keeps
    | with_reducible apply hk
    | split
    | with_reducible apply Keeps.upd

theorem State.runLoad_keeps (h : Keeps s₀ s) (i : Issue) (m : Mn) (n : Nat) (signed : Bool) (o : OpS) : Keeps s₀ (State.runLoad s i m n signed o) := by
  unfold State.runLoad
  try dsimp only
  repeat' first
    | with_reducible assumption
    | intro _
    | with_reducible apply State.atAddr_keeps
    | with_reducible apply State.pcNext_keeps
    | with_reducible apply State.runN_keeps
    | with_reducible apply State.sput_keeps
    | with_reducible apply State.withLoad_keeps
    | split
    | with_reducible apply Keeps.upd

theorem State.runStore_keeps (h : Keeps s₀ s) (i : Issue) (m : Mn) (n : Nat) (o : OpS) : Keeps s₀ (State.runStore s i m n o) := by
  unfold State.runStore
  try dsimp only
  repeat' first
    | with_reducible assumption
    | intro _
    | with_reducible apply State.atAddr_keeps
    | with_reducible apply State.pcNext_keeps
    | with_reducible apply State.runN_keeps
    | with_reducible apply State.withStore_keeps
    | split
    | with_reducible apply Keeps.upd

theorem State.runQry_keeps (h : Keeps s₀ s) (i : Issue) (o : OpS) : Keeps s₀ (State.runQry s i o) := by
  unfold State.runQry
  try dsimp only
  repeat' first
    | with_reducible assumption
    | intro _
    | with_reducible apply State.illegalOperand_keeps
    | with_reducible apply State.pcNext_keeps
    | with_reducible apply State.runN_keeps
    | with_reducible apply State.sput_keeps
    | split
    | with_reducible apply Keeps.upd

theorem State.runNop_keeps (h : Keeps s₀ s) (i : Issue) (o : OpS) : Keeps s₀ (State.runNop s i o) := by
  unfold State.runNop
  try dsimp only
  repeat' first
    | with_reducible assumption
    | intro _
    | with_reducible apply State.pcNext_keeps
    | with_reducible apply State.runN_keeps
    | split
    | with_reducible apply Keeps.upd

theorem State.runFence_keeps (h : Keeps s₀ s) (i : Issue) (o : OpS) : Keeps s₀ (State.runFence s i o) := by
  unfold State.runFence
  try dsimp only
  repeat' first
    | with_reducible assumption
    | intro _
    | with_reducible apply State.fenceThen_keeps
    | with_reducible apply State.illegalOperand_keeps
    | with_reducible apply State.runN_keeps
    | split
    | with_reducible apply Keeps.upd

theorem State.runTrap_keeps (h : Keeps s₀ s) (i : Issue) (o : OpS) : Keeps s₀ (State.runTrap s i o) := by
  unfold State.runTrap
  try dsimp only
  repeat' first
    | with_reducible assumption
    | intro _
    | with_reducible apply State.illegalOperand_keeps
    | with_reducible apply State.precise_keeps
    | with_reducible apply State.runN_keeps
    | split
    | with_reducible apply Keeps.upd

theorem State.goTo_keeps (h : Keeps s₀ s) (c : Nat) (target : W64) (k : State → State) (hk : ∀ y0, Keeps s₀ y0 → Keeps s₀ (k y0)) : Keeps s₀ (State.goTo s c target k) := by
  unfold State.goTo
  try dsimp only
  repeat' first
    | with_reducible assumption
    | intro _
    | with_reducible apply State.precise_keeps
    | with_reducible apply hk
    | split
    | with_reducible apply Keeps.upd

theorem State.setPc_keeps (h : Keeps s₀ s) (c : Nat) (pc : W64) : Keeps s₀ (State.setPc s c pc) := by
  unfold State.setPc
  try dsimp only
  repeat' first
    | with_reducible assumption
    | intro _
    | with_reducible apply State.modCtx_keeps
    | split
    | with_reducible apply Keeps.upd

theorem State.runBr_keeps (h : Keeps s₀ s) (i : Issue) (o : OpB) : Keeps s₀ (State.runBr s i o) := by
  unfold State.runBr
  try dsimp only
  repeat' first
    | with_reducible assumption
    | intro _
    | with_reducible apply State.goTo_keeps
    | with_reducible apply State.runN_keeps
    | with_reducible apply State.setPc_keeps
    | split
    | with_reducible apply Keeps.upd

theorem State.runCall_keeps (h : Keeps s₀ s) (i : Issue) (o : OpB) : Keeps s₀ (State.runCall s i o) := by
  unfold State.runCall
  try dsimp only
  repeat' first
    | with_reducible assumption
    | intro _
    | with_reducible apply State.goTo_keeps
    | with_reducible apply State.runN_keeps
    | with_reducible apply State.setPc_keeps
    | with_reducible apply State.sput_keeps
    | split
    | with_reducible apply Keeps.upd

theorem State.runJmp_keeps (h : Keeps s₀ s) (i : Issue) (o : OpB) : Keeps s₀ (State.runJmp s i o) := by
  unfold State.runJmp
  try dsimp only
  repeat' first
    | with_reducible assumption
    | intro _
    | with_reducible apply State.goTo_keeps
    | with_reducible apply State.runN_keeps
    | with_reducible apply State.setPc_keeps
    | split
    | with_reducible apply Keeps.upd

theorem State.runLoop_keeps (h : Keeps s₀ s) (i : Issue) (o : OpB) : Keeps s₀ (State.runLoop s i o) := by
  unfold State.runLoop
  try dsimp only
  repeat' first
    | with_reducible assumption
    | intro _
    | with_reducible apply State.goTo_keeps
    | with_reducible apply State.illegalOperand_keeps
    | with_reducible apply State.pcNext_keeps
    | with_reducible apply State.runN_keeps
    | with_reducible apply State.setPc_keeps
    | with_reducible apply State.sput_keeps
    | split
    | with_reducible apply Keeps.upd

theorem State.runExit_keeps (h : Keeps s₀ s) (i : Issue) (o : OpB) : Keeps s₀ (State.runExit s i o) := by
  unfold State.runExit
  try dsimp only
  repeat' first
    | with_reducible assumption
    | intro _
    | with_reducible apply State.jobEnd_keeps
    | with_reducible apply State.modCtx_keeps
    | with_reducible apply State.runN_keeps
    | split
    | with_reducible apply Keeps.upd

theorem State.runDld_keeps (h : Keeps s₀ s) (i : Issue) (o : OpD) : Keeps s₀ (State.runDld s i o) := by
  unfold State.runDld
  try dsimp only
  repeat' first
    | with_reducible assumption
    | intro _
    | with_reducible apply State.atAddr_keeps
    | with_reducible apply State.pcNext_keeps
    | with_reducible apply State.runN_keeps
    | with_reducible apply State.slotPut_keeps
    | with_reducible apply State.withLoad_keeps
    | split
    | with_reducible apply Keeps.upd

theorem State.runDst_keeps (h : Keeps s₀ s) (i : Issue) (o : OpD) : Keeps s₀ (State.runDst s i o) := by
  unfold State.runDst
  try dsimp only
  repeat' first
    | with_reducible assumption
    | intro _
    | with_reducible apply State.atAddr_keeps
    | with_reducible apply State.pcNext_keeps
    | with_reducible apply State.runN_keeps
    | with_reducible apply State.withStore_keeps
    | split
    | with_reducible apply Keeps.upd

theorem State.runDcpy_keeps (h : Keeps s₀ s) (i : Issue) (o : OpD) : Keeps s₀ (State.runDcpy s i o) := by
  unfold State.runDcpy
  try dsimp only
  repeat' first
    | with_reducible assumption
    | intro _
    | with_reducible apply State.pcNext_keeps
    | with_reducible apply State.runN_keeps
    | with_reducible apply State.slotPut_keeps
    | split
    | with_reducible apply Keeps.upd

theorem State.runDset_keeps (h : Keeps s₀ s) (i : Issue) (o : OpD) : Keeps s₀ (State.runDset s i o) := by
  unfold State.runDset
  try dsimp only
  repeat' first
    | with_reducible assumption
    | intro _
    | with_reducible apply State.illegalOperand_keeps
    | with_reducible apply State.pcNext_keeps
    | with_reducible apply State.runN_keeps
    | with_reducible apply State.slotPut_keeps
    | split
    | with_reducible apply Keeps.upd

theorem State.runDget_keeps (h : Keeps s₀ s) (i : Issue) (o : OpD) : Keeps s₀ (State.runDget s i o) := by
  unfold State.runDget
  try dsimp only
  repeat' first
    | with_reducible assumption
    | intro _
    | with_reducible apply State.illegalOperand_keeps
    | with_reducible apply State.pcNext_keeps
    | with_reducible apply State.runN_keeps
    | with_reducible apply State.sput_keeps
    | split
    | with_reducible apply Keeps.upd

theorem State.runDadd_keeps (h : Keeps s₀ s) (i : Issue) (o : OpD) : Keeps s₀ (State.runDadd s i o) := by
  unfold State.runDadd
  try dsimp only
  repeat' first
    | with_reducible assumption
    | intro _
    | with_reducible apply State.pcNext_keeps
    | with_reducible apply State.runN_keeps
    | with_reducible apply State.slotPut_keeps
    | split
    | with_reducible apply Keeps.upd

theorem State.runReserved_keeps (h : Keeps s₀ s) (c : Nat) (w : W128) : Keeps s₀ (State.runReserved s c w) := by
  unfold State.runReserved
  try dsimp only
  repeat' first
    | with_reducible assumption
    | intro _
    | with_reducible apply State.pcNext_keeps
    | with_reducible apply State.precise_keeps
    | with_reducible apply State.withFetch_keeps
    | split
    | with_reducible apply Keeps.upd

/-! ### Commands: each answers a next state -/

theorem execAdd_keeps (i : Issue) (o : OpS) : Answers s (execAdd i o s) := by
  unfold execAdd
  try dsimp only
  repeat' first
    | with_reducible assumption
    | with_reducible exact Keeps.refl _
    | intro _
    | with_reducible apply Answers.mk
    | with_reducible apply State.runAlu_keeps
    | split
    | with_reducible apply Keeps.upd

theorem execSub_keeps (i : Issue) (o : OpS) : Answers s (execSub i o s) := by
  unfold execSub
  try dsimp only
  repeat' first
    | with_reducible assumption
    | with_reducible exact Keeps.refl _
    | intro _
    | with_reducible apply Answers.mk
    | with_reducible apply State.runAlu_keeps
    | split
    | with_reducible apply Keeps.upd

theorem execAnd_keeps (i : Issue) (o : OpS) : Answers s (execAnd i o s) := by
  unfold execAnd
  try dsimp only
  repeat' first
    | with_reducible assumption
    | with_reducible exact Keeps.refl _
    | intro _
    | with_reducible apply Answers.mk
    | with_reducible apply State.runAlu_keeps
    | split
    | with_reducible apply Keeps.upd

theorem execOr_keeps (i : Issue) (o : OpS) : Answers s (execOr i o s) := by
  unfold execOr
  try dsimp only
  repeat' first
    | with_reducible assumption
    | with_reducible exact Keeps.refl _
    | intro _
    | with_reducible apply Answers.mk
    | with_reducible apply State.runAlu_keeps
    | split
    | with_reducible apply Keeps.upd

theorem execXor_keeps (i : Issue) (o : OpS) : Answers s (execXor i o s) := by
  unfold execXor
  try dsimp only
  repeat' first
    | with_reducible assumption
    | with_reducible exact Keeps.refl _
    | intro _
    | with_reducible apply Answers.mk
    | with_reducible apply State.runAlu_keeps
    | split
    | with_reducible apply Keeps.upd

theorem execShl_keeps (i : Issue) (o : OpS) : Answers s (execShl i o s) := by
  unfold execShl
  try dsimp only
  repeat' first
    | with_reducible assumption
    | with_reducible exact Keeps.refl _
    | intro _
    | with_reducible apply Answers.mk
    | with_reducible apply State.runAlu_keeps
    | split
    | with_reducible apply Keeps.upd

theorem execShr_keeps (i : Issue) (o : OpS) : Answers s (execShr i o s) := by
  unfold execShr
  try dsimp only
  repeat' first
    | with_reducible assumption
    | with_reducible exact Keeps.refl _
    | intro _
    | with_reducible apply Answers.mk
    | with_reducible apply State.runAlu_keeps
    | split
    | with_reducible apply Keeps.upd

theorem execSra_keeps (i : Issue) (o : OpS) : Answers s (execSra i o s) := by
  unfold execSra
  try dsimp only
  repeat' first
    | with_reducible assumption
    | with_reducible exact Keeps.refl _
    | intro _
    | with_reducible apply Answers.mk
    | with_reducible apply State.runAlu_keeps
    | split
    | with_reducible apply Keeps.upd

theorem execMul_keeps (i : Issue) (o : OpS) : Answers s (execMul i o s) := by
  unfold execMul
  try dsimp only
  repeat' first
    | with_reducible assumption
    | with_reducible exact Keeps.refl _
    | intro _
    | with_reducible apply Answers.mk
    | with_reducible apply State.runAlu_keeps
    | split
    | with_reducible apply Keeps.upd

theorem execMulhs_keeps (i : Issue) (o : OpS) : Answers s (execMulhs i o s) := by
  unfold execMulhs
  try dsimp only
  repeat' first
    | with_reducible assumption
    | with_reducible exact Keeps.refl _
    | intro _
    | with_reducible apply Answers.mk
    | with_reducible apply State.runAlu_keeps
    | split
    | with_reducible apply Keeps.upd

theorem execMulhu_keeps (i : Issue) (o : OpS) : Answers s (execMulhu i o s) := by
  unfold execMulhu
  try dsimp only
  repeat' first
    | with_reducible assumption
    | with_reducible exact Keeps.refl _
    | intro _
    | with_reducible apply Answers.mk
    | with_reducible apply State.runAlu_keeps
    | split
    | with_reducible apply Keeps.upd

theorem execDiv_keeps (i : Issue) (o : OpS) : Answers s (execDiv i o s) := by
  unfold execDiv
  try dsimp only
  repeat' first
    | with_reducible assumption
    | with_reducible exact Keeps.refl _
    | intro _
    | with_reducible apply Answers.mk
    | with_reducible apply State.runAlu_keeps
    | split
    | with_reducible apply Keeps.upd

theorem execDivu_keeps (i : Issue) (o : OpS) : Answers s (execDivu i o s) := by
  unfold execDivu
  try dsimp only
  repeat' first
    | with_reducible assumption
    | with_reducible exact Keeps.refl _
    | intro _
    | with_reducible apply Answers.mk
    | with_reducible apply State.runAlu_keeps
    | split
    | with_reducible apply Keeps.upd

theorem execRem_keeps (i : Issue) (o : OpS) : Answers s (execRem i o s) := by
  unfold execRem
  try dsimp only
  repeat' first
    | with_reducible assumption
    | with_reducible exact Keeps.refl _
    | intro _
    | with_reducible apply Answers.mk
    | with_reducible apply State.runAlu_keeps
    | split
    | with_reducible apply Keeps.upd

theorem execRemu_keeps (i : Issue) (o : OpS) : Answers s (execRemu i o s) := by
  unfold execRemu
  try dsimp only
  repeat' first
    | with_reducible assumption
    | with_reducible exact Keeps.refl _
    | intro _
    | with_reducible apply Answers.mk
    | with_reducible apply State.runAlu_keeps
    | split
    | with_reducible apply Keeps.upd

theorem execMin_keeps (i : Issue) (o : OpS) : Answers s (execMin i o s) := by
  unfold execMin
  try dsimp only
  repeat' first
    | with_reducible assumption
    | with_reducible exact Keeps.refl _
    | intro _
    | with_reducible apply Answers.mk
    | with_reducible apply State.runAlu_keeps
    | split
    | with_reducible apply Keeps.upd

theorem execMax_keeps (i : Issue) (o : OpS) : Answers s (execMax i o s) := by
  unfold execMax
  try dsimp only
  repeat' first
    | with_reducible assumption
    | with_reducible exact Keeps.refl _
    | intro _
    | with_reducible apply Answers.mk
    | with_reducible apply State.runAlu_keeps
    | split
    | with_reducible apply Keeps.upd

theorem execMinu_keeps (i : Issue) (o : OpS) : Answers s (execMinu i o s) := by
  unfold execMinu
  try dsimp only
  repeat' first
    | with_reducible assumption
    | with_reducible exact Keeps.refl _
    | intro _
    | with_reducible apply Answers.mk
    | with_reducible apply State.runAlu_keeps
    | split
    | with_reducible apply Keeps.upd

theorem execMaxu_keeps (i : Issue) (o : OpS) : Answers s (execMaxu i o s) := by
  unfold execMaxu
  try dsimp only
  repeat' first
    | with_reducible assumption
    | with_reducible exact Keeps.refl _
    | intro _
    | with_reducible apply Answers.mk
    | with_reducible apply State.runAlu_keeps
    | split
    | with_reducible apply Keeps.upd

theorem execMov_keeps (i : Issue) (o : OpS) : Answers s (execMov i o s) := by
  unfold execMov
  try dsimp only
  repeat' first
    | with_reducible assumption
    | with_reducible exact Keeps.refl _
    | intro _
    | with_reducible apply Answers.mk
    | with_reducible apply State.runAlu_keeps
    | split
    | with_reducible apply Keeps.upd

theorem execCmpEq_keeps (i : Issue) (o : OpS) : Answers s (execCmpEq i o s) := by
  unfold execCmpEq
  try dsimp only
  repeat' first
    | with_reducible assumption
    | with_reducible exact Keeps.refl _
    | intro _
    | with_reducible apply Answers.mk
    | with_reducible apply State.runCmp_keeps
    | split
    | with_reducible apply Keeps.upd

theorem execCmpNe_keeps (i : Issue) (o : OpS) : Answers s (execCmpNe i o s) := by
  unfold execCmpNe
  try dsimp only
  repeat' first
    | with_reducible assumption
    | with_reducible exact Keeps.refl _
    | intro _
    | with_reducible apply Answers.mk
    | with_reducible apply State.runCmp_keeps
    | split
    | with_reducible apply Keeps.upd

theorem execCmpLt_keeps (i : Issue) (o : OpS) : Answers s (execCmpLt i o s) := by
  unfold execCmpLt
  try dsimp only
  repeat' first
    | with_reducible assumption
    | with_reducible exact Keeps.refl _
    | intro _
    | with_reducible apply Answers.mk
    | with_reducible apply State.runCmp_keeps
    | split
    | with_reducible apply Keeps.upd

theorem execCmpLtu_keeps (i : Issue) (o : OpS) : Answers s (execCmpLtu i o s) := by
  unfold execCmpLtu
  try dsimp only
  repeat' first
    | with_reducible assumption
    | with_reducible exact Keeps.refl _
    | intro _
    | with_reducible apply Answers.mk
    | with_reducible apply State.runCmp_keeps
    | split
    | with_reducible apply Keeps.upd

theorem execCmpGe_keeps (i : Issue) (o : OpS) : Answers s (execCmpGe i o s) := by
  unfold execCmpGe
  try dsimp only
  repeat' first
    | with_reducible assumption
    | with_reducible exact Keeps.refl _
    | intro _
    | with_reducible apply Answers.mk
    | with_reducible apply State.runCmp_keeps
    | split
    | with_reducible apply Keeps.upd

theorem execCmpGeu_keeps (i : Issue) (o : OpS) : Answers s (execCmpGeu i o s) := by
  unfold execCmpGeu
  try dsimp only
  repeat' first
    | with_reducible assumption
    | with_reducible exact Keeps.refl _
    | intro _
    | with_reducible apply Answers.mk
    | with_reducible apply State.runCmp_keeps
    | split
    | with_reducible apply Keeps.upd

theorem execCmpLat_keeps (i : Issue) (o : OpS) : Answers s (execCmpLat i o s) := by
  unfold execCmpLat
  try dsimp only
  repeat' first
    | with_reducible assumption
    | with_reducible exact Keeps.refl _
    | intro _
    | with_reducible apply Answers.mk
    | with_reducible apply State.runCmp_keeps
    | split
    | with_reducible apply Keeps.upd

theorem execPset_keeps (i : Issue) (o : OpS) : Answers s (execPset i o s) := by
  unfold execPset
  try dsimp only
  repeat' first
    | with_reducible assumption
    | with_reducible exact Keeps.refl _
    | intro _
    | with_reducible apply Answers.mk
    | with_reducible apply State.runCmp_keeps
    | split
    | with_reducible apply Keeps.upd

theorem execPget_keeps (i : Issue) (o : OpS) : Answers s (execPget i o s) := by
  unfold execPget
  try dsimp only
  repeat' first
    | with_reducible assumption
    | with_reducible exact Keeps.refl _
    | intro _
    | with_reducible apply Answers.mk
    | with_reducible apply State.runPget_keeps
    | split
    | with_reducible apply Keeps.upd

theorem execLdu8_keeps (i : Issue) (o : OpS) : Answers s (execLdu8 i o s) := by
  unfold execLdu8
  try dsimp only
  repeat' first
    | with_reducible assumption
    | with_reducible exact Keeps.refl _
    | intro _
    | with_reducible apply Answers.mk
    | with_reducible apply State.runLoad_keeps
    | split
    | with_reducible apply Keeps.upd

theorem execLdu16_keeps (i : Issue) (o : OpS) : Answers s (execLdu16 i o s) := by
  unfold execLdu16
  try dsimp only
  repeat' first
    | with_reducible assumption
    | with_reducible exact Keeps.refl _
    | intro _
    | with_reducible apply Answers.mk
    | with_reducible apply State.runLoad_keeps
    | split
    | with_reducible apply Keeps.upd

theorem execLdu32_keeps (i : Issue) (o : OpS) : Answers s (execLdu32 i o s) := by
  unfold execLdu32
  try dsimp only
  repeat' first
    | with_reducible assumption
    | with_reducible exact Keeps.refl _
    | intro _
    | with_reducible apply Answers.mk
    | with_reducible apply State.runLoad_keeps
    | split
    | with_reducible apply Keeps.upd

theorem execLd64_keeps (i : Issue) (o : OpS) : Answers s (execLd64 i o s) := by
  unfold execLd64
  try dsimp only
  repeat' first
    | with_reducible assumption
    | with_reducible exact Keeps.refl _
    | intro _
    | with_reducible apply Answers.mk
    | with_reducible apply State.runLoad_keeps
    | split
    | with_reducible apply Keeps.upd

theorem execLds8_keeps (i : Issue) (o : OpS) : Answers s (execLds8 i o s) := by
  unfold execLds8
  try dsimp only
  repeat' first
    | with_reducible assumption
    | with_reducible exact Keeps.refl _
    | intro _
    | with_reducible apply Answers.mk
    | with_reducible apply State.runLoad_keeps
    | split
    | with_reducible apply Keeps.upd

theorem execLds16_keeps (i : Issue) (o : OpS) : Answers s (execLds16 i o s) := by
  unfold execLds16
  try dsimp only
  repeat' first
    | with_reducible assumption
    | with_reducible exact Keeps.refl _
    | intro _
    | with_reducible apply Answers.mk
    | with_reducible apply State.runLoad_keeps
    | split
    | with_reducible apply Keeps.upd

theorem execLds32_keeps (i : Issue) (o : OpS) : Answers s (execLds32 i o s) := by
  unfold execLds32
  try dsimp only
  repeat' first
    | with_reducible assumption
    | with_reducible exact Keeps.refl _
    | intro _
    | with_reducible apply Answers.mk
    | with_reducible apply State.runLoad_keeps
    | split
    | with_reducible apply Keeps.upd

theorem execSt8_keeps (i : Issue) (o : OpS) : Answers s (execSt8 i o s) := by
  unfold execSt8
  try dsimp only
  repeat' first
    | with_reducible assumption
    | with_reducible exact Keeps.refl _
    | intro _
    | with_reducible apply Answers.mk
    | with_reducible apply State.runStore_keeps
    | split
    | with_reducible apply Keeps.upd

theorem execSt16_keeps (i : Issue) (o : OpS) : Answers s (execSt16 i o s) := by
  unfold execSt16
  try dsimp only
  repeat' first
    | with_reducible assumption
    | with_reducible exact Keeps.refl _
    | intro _
    | with_reducible apply Answers.mk
    | with_reducible apply State.runStore_keeps
    | split
    | with_reducible apply Keeps.upd

theorem execSt32_keeps (i : Issue) (o : OpS) : Answers s (execSt32 i o s) := by
  unfold execSt32
  try dsimp only
  repeat' first
    | with_reducible assumption
    | with_reducible exact Keeps.refl _
    | intro _
    | with_reducible apply Answers.mk
    | with_reducible apply State.runStore_keeps
    | split
    | with_reducible apply Keeps.upd

theorem execSt64_keeps (i : Issue) (o : OpS) : Answers s (execSt64 i o s) := by
  unfold execSt64
  try dsimp only
  repeat' first
    | with_reducible assumption
    | with_reducible exact Keeps.refl _
    | intro _
    | with_reducible apply Answers.mk
    | with_reducible apply State.runStore_keeps
    | split
    | with_reducible apply Keeps.upd

theorem execNop_keeps (i : Issue) (o : OpS) : Answers s (execNop i o s) := by
  unfold execNop
  try dsimp only
  repeat' first
    | with_reducible assumption
    | with_reducible exact Keeps.refl _
    | intro _
    | with_reducible apply Answers.mk
    | with_reducible apply State.runNop_keeps
    | split
    | with_reducible apply Keeps.upd

theorem execQry_keeps (i : Issue) (o : OpS) : Answers s (execQry i o s) := by
  unfold execQry
  try dsimp only
  repeat' first
    | with_reducible assumption
    | with_reducible exact Keeps.refl _
    | intro _
    | with_reducible apply Answers.mk
    | with_reducible apply State.runQry_keeps
    | split
    | with_reducible apply Keeps.upd

theorem execFence_keeps (i : Issue) (o : OpS) : Answers s (execFence i o s) := by
  unfold execFence
  try dsimp only
  repeat' first
    | with_reducible assumption
    | with_reducible exact Keeps.refl _
    | intro _
    | with_reducible apply Answers.mk
    | with_reducible apply State.runFence_keeps
    | split
    | with_reducible apply Keeps.upd

theorem execTrap_keeps (i : Issue) (o : OpS) : Answers s (execTrap i o s) := by
  unfold execTrap
  try dsimp only
  repeat' first
    | with_reducible assumption
    | with_reducible exact Keeps.refl _
    | intro _
    | with_reducible apply Answers.mk
    | with_reducible apply State.runTrap_keeps
    | split
    | with_reducible apply Keeps.upd

theorem execBr_keeps (i : Issue) (o : OpB) : Answers s (execBr i o s) := by
  unfold execBr
  try dsimp only
  repeat' first
    | with_reducible assumption
    | with_reducible exact Keeps.refl _
    | intro _
    | with_reducible apply Answers.mk
    | with_reducible apply State.runBr_keeps
    | split
    | with_reducible apply Keeps.upd

theorem execCall_keeps (i : Issue) (o : OpB) : Answers s (execCall i o s) := by
  unfold execCall
  try dsimp only
  repeat' first
    | with_reducible assumption
    | with_reducible exact Keeps.refl _
    | intro _
    | with_reducible apply Answers.mk
    | with_reducible apply State.runCall_keeps
    | split
    | with_reducible apply Keeps.upd

theorem execJmp_keeps (i : Issue) (o : OpB) : Answers s (execJmp i o s) := by
  unfold execJmp
  try dsimp only
  repeat' first
    | with_reducible assumption
    | with_reducible exact Keeps.refl _
    | intro _
    | with_reducible apply Answers.mk
    | with_reducible apply State.runJmp_keeps
    | split
    | with_reducible apply Keeps.upd

theorem execLoop_keeps (i : Issue) (o : OpB) : Answers s (execLoop i o s) := by
  unfold execLoop
  try dsimp only
  repeat' first
    | with_reducible assumption
    | with_reducible exact Keeps.refl _
    | intro _
    | with_reducible apply Answers.mk
    | with_reducible apply State.runLoop_keeps
    | split
    | with_reducible apply Keeps.upd

theorem execExit_keeps (i : Issue) (o : OpB) : Answers s (execExit i o s) := by
  unfold execExit
  try dsimp only
  repeat' first
    | with_reducible assumption
    | with_reducible exact Keeps.refl _
    | intro _
    | with_reducible apply Answers.mk
    | with_reducible apply State.runExit_keeps
    | split
    | with_reducible apply Keeps.upd

theorem execDld_keeps (i : Issue) (o : OpD) : Answers s (execDld i o s) := by
  unfold execDld
  try dsimp only
  repeat' first
    | with_reducible assumption
    | with_reducible exact Keeps.refl _
    | intro _
    | with_reducible apply Answers.mk
    | with_reducible apply State.runDld_keeps
    | split
    | with_reducible apply Keeps.upd

theorem execDst_keeps (i : Issue) (o : OpD) : Answers s (execDst i o s) := by
  unfold execDst
  try dsimp only
  repeat' first
    | with_reducible assumption
    | with_reducible exact Keeps.refl _
    | intro _
    | with_reducible apply Answers.mk
    | with_reducible apply State.runDst_keeps
    | split
    | with_reducible apply Keeps.upd

theorem execDcpy_keeps (i : Issue) (o : OpD) : Answers s (execDcpy i o s) := by
  unfold execDcpy
  try dsimp only
  repeat' first
    | with_reducible assumption
    | with_reducible exact Keeps.refl _
    | intro _
    | with_reducible apply Answers.mk
    | with_reducible apply State.runDcpy_keeps
    | split
    | with_reducible apply Keeps.upd

theorem execDset_keeps (i : Issue) (o : OpD) : Answers s (execDset i o s) := by
  unfold execDset
  try dsimp only
  repeat' first
    | with_reducible assumption
    | with_reducible exact Keeps.refl _
    | intro _
    | with_reducible apply Answers.mk
    | with_reducible apply State.runDset_keeps
    | split
    | with_reducible apply Keeps.upd

theorem execDget_keeps (i : Issue) (o : OpD) : Answers s (execDget i o s) := by
  unfold execDget
  try dsimp only
  repeat' first
    | with_reducible assumption
    | with_reducible exact Keeps.refl _
    | intro _
    | with_reducible apply Answers.mk
    | with_reducible apply State.runDget_keeps
    | split
    | with_reducible apply Keeps.upd

theorem execDadd_keeps (i : Issue) (o : OpD) : Answers s (execDadd i o s) := by
  unfold execDadd
  try dsimp only
  repeat' first
    | with_reducible assumption
    | with_reducible exact Keeps.refl _
    | intro _
    | with_reducible apply Answers.mk
    | with_reducible apply State.runDadd_keeps
    | split
    | with_reducible apply Keeps.upd

theorem execReservedEncoding_keeps (c : CtxId) (word : W128) : Answers s (execReservedEncoding c word s) := by
  unfold execReservedEncoding
  try dsimp only
  repeat' first
    | with_reducible assumption
    | with_reducible exact Keeps.refl _
    | intro _
    | with_reducible apply Answers.mk
    | with_reducible apply State.runReserved_keeps
    | split
    | with_reducible apply Keeps.upd

end Sys2Proof.Machine
end

