-- ==== Sys2Proof/Laws/KeepsHwact.lean ====
section
/-!
SUPPORT. What the operations of Machine/Hwact.lean keep (Laws/Keeps.lean).
-/

namespace Sys2Proof.Machine

open Sys2Proof State

variable {s₀ s : State}

theorem State.setBridge_keeps (h : Keeps s₀ s) (b : Nat) (v : Bridge) : Keeps s₀ (State.setBridge s b v) := by
  unfold State.setBridge
  try dsimp only
  repeat' first
    | with_reducible assumption
    | intro _
    | split
    | with_reducible apply Keeps.upd

theorem State.settleBridge_keeps (h : Keeps s₀ s) (b : Nat) : Keeps s₀ (State.settleBridge s b) := by
  unfold State.settleBridge
  try dsimp only
  repeat' first
    | with_reducible assumption
    | intro _
    | with_reducible apply State.setBridge_keeps
    | with_reducible apply State.setFld_keeps
    | split
    | with_reducible apply Keeps.upd

theorem State.settleSto_keeps (h : Keeps s₀ s)  : Keeps s₀ (State.settleSto s) := by
  unfold State.settleSto
  try dsimp only
  repeat' first
    | with_reducible assumption
    | intro _
    | with_reducible apply State.setFld_keeps
    | with_reducible apply State.settleBridge_keeps
    | with_reducible apply Keeps.foldl
    | with_reducible apply Keeps.foldl_fst
    | with_reducible apply Keeps.foldl_snd
    | split
    | with_reducible apply Keeps.upd

theorem State.recmd_keeps (h : Keeps s₀ s) (b : Nat) : Keeps s₀ (State.recmd s b) := by
  unfold State.recmd
  try dsimp only
  repeat' first
    | with_reducible assumption
    | intro _
    | with_reducible apply State.setBridge_keeps
    | with_reducible apply State.settleBridge_keeps
    | split
    | with_reducible apply Keeps.upd

theorem State.setForce_keeps (h : Keeps s₀ s) (b : Nat) (v : Nat) : Keeps s₀ (State.setForce s b v) := by
  unfold State.setForce
  try dsimp only
  repeat' first
    | with_reducible assumption
    | intro _
    | with_reducible apply State.setFld_keeps
    | with_reducible apply State.settleBridge_keeps
    | split
    | with_reducible apply Keeps.upd

theorem State.pwmOp_keeps (h : Keeps s₀ s) (op : Nat) (t : Nat) : Keeps s₀ (State.pwmOp s op t) := by
  unfold State.pwmOp
  try dsimp only
  repeat' first
    | with_reducible assumption
    | intro _
    | with_reducible apply State.recmd_keeps
    | with_reducible apply State.setBridge_keeps
    | with_reducible apply State.setForce_keeps
    | split
    | with_reducible apply Keeps.upd

theorem State.stoBCue_keeps (h : Keeps s₀ s)  : Keeps s₀ (State.stoBCue s) := by
  unfold State.stoBCue
  try dsimp only
  repeat' first
    | with_reducible assumption
    | intro _
    | with_reducible apply State.settleSto_keeps
    | split
    | with_reducible apply Keeps.upd

theorem State.slotWrite_keeps (h : Keeps s₀ s) (off : Nat) (bs : List Byte) (judge : Bool) : Keeps s₀ (State.slotWrite s off bs judge) := by
  unfold State.slotWrite
  try dsimp only
  repeat' first
    | with_reducible assumption
    | intro _
    | with_reducible apply State.setFld_keeps
    | with_reducible apply Keeps.foldl
    | with_reducible apply Keeps.foldl_fst
    | with_reducible apply Keeps.foldl_snd
    | split
    | with_reducible apply Keeps.upd

theorem State.frameLaunch_keeps (h : Keeps s₀ s) (p : Nat) (k : Nat) : Keeps s₀ (State.frameLaunch s p k).1 := by
  unfold State.frameLaunch
  try dsimp only
  repeat' first
    | with_reducible assumption
    | intro _
    | with_reducible apply State.emit_keeps
    | with_reducible apply State.setFld_keeps
    | split
    | with_reducible apply Keeps.upd

theorem State.frameLaunch_of (h : Keeps s₀ s) {p : Nat} {k : Nat} {x1 : Bool} {t : State} (he : State.frameLaunch s p k = (t, x1)) : Keeps s₀ t := by
  have g := State.frameLaunch_keeps h p k
  rw [he] at g
  exact g

theorem State.camTrigger_keeps (h : Keeps s₀ s) (k : Nat) (width : Nat) : Keeps s₀ (State.camTrigger s k width) := by
  unfold State.camTrigger
  try dsimp only
  repeat' first
    | with_reducible assumption
    | intro _
    | split
    | with_reducible apply Keeps.upd

end Sys2Proof.Machine
end

