-- ==== Sys2Proof/Laws/KeepsLanes.lean ====
section
/-!
SUPPORT. What the operations and commands of Machine/Lanes.lean keep (Laws/Keeps.lean).
-/

namespace Sys2Proof.Machine

open Sys2Proof State

variable {s₀ s : State}

theorem State.setCue_keeps (h : Keeps s₀ s) (i : Nat) (c : Cue) : Keeps s₀ (State.setCue s i c) := by
  unfold State.setCue
  try dsimp only
  repeat' first
    | with_reducible assumption
    | intro _
    | split
    | with_reducible apply Keeps.upd

theorem State.setLaneEv_keeps (h : Keeps s₀ s) (n : Nat) (e : LaneEv) : Keeps s₀ (State.setLaneEv s n e) := by
  unfold State.setLaneEv
  try dsimp only
  repeat' first
    | with_reducible assumption
    | intro _
    | split
    | with_reducible apply Keeps.upd

theorem State.setResidue_keeps (h : Keeps s₀ s) (n : Nat) (r : Nat) : Keeps s₀ (State.setResidue s n r) := by
  unfold State.setResidue
  try dsimp only
  repeat' first
    | with_reducible assumption
    | intro _
    | split
    | with_reducible apply Keeps.upd

theorem State.cueMissed_keeps (h : Keeps s₀ s) (i : Nat) (k : Nat) : Keeps s₀ (State.cueMissed s i k) := by
  unfold State.cueMissed
  try dsimp only
  repeat' first
    | with_reducible assumption
    | intro _
    | with_reducible apply State.setCue_keeps
    | split
    | with_reducible apply Keeps.upd

theorem State.jobRelease_keeps (h : Keeps s₀ s) (c : Nat) : Keeps s₀ (State.jobRelease s c).1 := by
  unfold State.jobRelease
  try dsimp only
  repeat' first
    | with_reducible assumption
    | intro _
    | with_reducible apply State.endWait_keeps
    | with_reducible apply State.jobBegin_keeps
    | with_reducible apply State.modCtx_keeps
    | with_reducible apply State.setCtx_keeps
    | split
    | with_reducible apply Keeps.upd

theorem State.jobRelease_of (h : Keeps s₀ s) {c : Nat} {x1 : Bool} {t : State} (he : State.jobRelease s c = (t, x1)) : Keeps s₀ t := by
  have g := State.jobRelease_keeps h c
  rw [he] at g
  exact g

theorem State.queueFired_keeps (h : Keeps s₀ s) (i : Nat) (c : Cue) : Keeps s₀ (State.queueFired s i c) := by
  unfold State.queueFired
  try dsimp only
  repeat' first
    | with_reducible assumption
    | intro _
    | split
    | with_reducible apply Keeps.upd

theorem State.cueAction_keeps (h : Keeps s₀ s) (i : Nat) : Keeps s₀ (State.cueAction s i) := by
  unfold State.cueAction
  try dsimp only
  repeat' first
    | with_reducible assumption
    | intro _
    | with_reducible apply State.camTrigger_keeps
    | with_reducible apply State.cueMissed_keeps
    | with_reducible apply State.frameLaunch_keeps
    | with_reducible apply State.pwmOp_keeps
    | with_reducible apply State.queueFired_keeps
    | with_reducible apply State.stoBCue_keeps
    | with_reducible refine State.frameLaunch_of ?_ (by assumption)
    | split
    | with_reducible apply Keeps.upd

theorem State.cueAfter_keeps (h : Keeps s₀ s) (i : Nat) : Keeps s₀ (State.cueAfter s i) := by
  unfold State.cueAfter
  try dsimp only
  repeat' first
    | with_reducible assumption
    | intro _
    | with_reducible apply State.setCue_keeps
    | split
    | with_reducible apply Keeps.upd

theorem State.fireCue_keeps (h : Keeps s₀ s) (late : Bool) (i : Nat) : Keeps s₀ (State.fireCue late s i) := by
  unfold State.fireCue
  try dsimp only
  repeat' first
    | with_reducible assumption
    | intro _
    | with_reducible apply State.cueAction_keeps
    | with_reducible apply State.cueAfter_keeps
    | with_reducible apply State.setCue_keeps
    | split
    | with_reducible apply Keeps.upd

theorem State.wakeLwait_keeps (h : Keeps s₀ s) (n : Nat) (c : Nat) : Keeps s₀ (State.wakeLwait n s c) := by
  unfold State.wakeLwait
  try dsimp only
  repeat' first
    | with_reducible assumption
    | intro _
    | with_reducible apply State.endWait_keeps
    | split
    | with_reducible apply Keeps.upd

theorem State.laneMove_keeps (h : Keeps s₀ s) (n : Nat) (v : W64) (wraps : Int) (late : Bool) : Keeps s₀ (State.laneMove s n v wraps late) := by
  unfold State.laneMove
  try dsimp only
  repeat' first
    | with_reducible assumption
    | intro _
    | with_reducible apply State.fireCue_keeps
    | with_reducible apply State.setFld_keeps
    | with_reducible apply State.setReg_keeps
    | with_reducible apply State.wakeLwait_keeps
    | with_reducible apply Keeps.foldl
    | with_reducible apply Keeps.foldl_fst
    | with_reducible apply Keeps.foldl_snd
    | split
    | with_reducible apply Keeps.upd

theorem State.laneAdd_keeps (h : Keeps s₀ s) (n : Nat) (d : Int) (late : Bool) : Keeps s₀ (State.laneAdd s n d late) := by
  unfold State.laneAdd
  try dsimp only
  repeat' first
    | with_reducible assumption
    | intro _
    | with_reducible apply State.laneMove_keeps
    | split
    | with_reducible apply Keeps.upd

theorem State.laneTo_keeps (h : Keeps s₀ s) (n : Nat) (v : W64) : Keeps s₀ (State.laneTo s n v) := by
  unfold State.laneTo
  try dsimp only
  repeat' first
    | with_reducible assumption
    | intro _
    | with_reducible apply State.laneAdd_keeps
    | split
    | with_reducible apply Keeps.upd

theorem State.tickTime_keeps (h : Keeps s₀ s) (n : Nat) : Keeps s₀ (State.tickTime s n) := by
  unfold State.tickTime
  try dsimp only
  repeat' first
    | with_reducible assumption
    | intro _
    | with_reducible apply State.laneMove_keeps
    | with_reducible apply State.setResidue_keeps
    | split
    | with_reducible apply Keeps.upd

theorem State.tickFraction_keeps (h : Keeps s₀ s) (n : Nat) : Keeps s₀ (State.tickFraction s n) := by
  unfold State.tickFraction
  try dsimp only
  repeat' first
    | with_reducible assumption
    | intro _
    | with_reducible apply State.laneTo_keeps
    | split
    | with_reducible apply Keeps.upd

theorem State.tickLane_keeps (h : Keeps s₀ s) (n : Nat) : Keeps s₀ (State.tickLane s n) := by
  unfold State.tickLane
  try dsimp only
  repeat' first
    | with_reducible assumption
    | intro _
    | with_reducible apply State.tickFraction_keeps
    | with_reducible apply State.tickTime_keeps
    | split
    | with_reducible apply Keeps.upd

theorem State.chargeJobs_keeps (h : Keeps s₀ s) (ns : Nat) : Keeps s₀ (State.chargeJobs s ns) := by
  unfold State.chargeJobs
  try dsimp only
  repeat' first
    | with_reducible assumption
    | intro _
    | with_reducible apply Keeps.foldl
    | with_reducible apply Keeps.foldl_fst
    | with_reducible apply Keeps.foldl_snd
    | split
    | with_reducible apply Keeps.upd

theorem State.laneTick_keeps (h : Keeps s₀ s)  : Keeps s₀ (State.laneTick s) := by
  unfold State.laneTick
  try dsimp only
  repeat' first
    | with_reducible assumption
    | intro _
    | with_reducible apply State.chargeJobs_keeps
    | with_reducible apply State.setReg_keeps
    | with_reducible apply State.tickLane_keeps
    | with_reducible apply Keeps.foldl
    | with_reducible apply Keeps.foldl_fst
    | with_reducible apply Keeps.foldl_snd
    | split
    | with_reducible apply Keeps.upd

theorem State.laneAlive_keeps (h : Keeps s₀ s) (n : Nat) : Keeps s₀ (State.laneAlive s n) := by
  unfold State.laneAlive
  try dsimp only
  repeat' first
    | with_reducible assumption
    | intro _
    | with_reducible apply State.setFld_keeps
    | split
    | with_reducible apply Keeps.upd

theorem State.laneEdge_keeps (h : Keeps s₀ s) (n : Nat) : Keeps s₀ (State.laneEdge s n) := by
  unfold State.laneEdge
  try dsimp only
  repeat' first
    | with_reducible assumption
    | intro _
    | with_reducible apply State.laneAdd_keeps
    | with_reducible apply State.laneAlive_keeps
    | with_reducible apply State.setLaneEv_keeps
    | split
    | with_reducible apply Keeps.upd

theorem State.lanePosition_keeps (h : Keeps s₀ s) (n : Nat) (bits : Nat) (word : Nat) : Keeps s₀ (State.lanePosition s n bits word) := by
  unfold State.lanePosition
  try dsimp only
  repeat' first
    | with_reducible assumption
    | intro _
    | with_reducible apply State.laneAlive_keeps
    | with_reducible apply State.laneTo_keeps
    | with_reducible apply State.setLaneEv_keeps
    | split
    | with_reducible apply Keeps.upd

theorem State.laneEvent_keeps (h : Keeps s₀ s) (n : Nat) (e : LaneEvent) : Keeps s₀ (State.laneEvent s n e) := by
  unfold State.laneEvent
  try dsimp only
  repeat' first
    | with_reducible assumption
    | intro _
    | with_reducible apply State.laneAdd_keeps
    | with_reducible apply State.laneAlive_keeps
    | with_reducible apply State.laneEdge_keeps
    | with_reducible apply State.lanePosition_keeps
    | with_reducible apply State.laneTo_keeps
    | split
    | with_reducible apply Keeps.upd

theorem State.streamDepart_keeps (h : Keeps s₀ s) (k : Nat) : Keeps s₀ (State.streamDepart s k) := by
  unfold State.streamDepart
  try dsimp only
  repeat' first
    | with_reducible assumption
    | intro _
    | with_reducible apply State.setFld_keeps
    | split
    | with_reducible apply Keeps.upd

theorem State.laneLost_keeps (h : Keeps s₀ s) (n : Nat) : Keeps s₀ (State.laneLost s n) := by
  unfold State.laneLost
  try dsimp only
  repeat' first
    | with_reducible assumption
    | intro _
    | with_reducible apply State.setFld_keeps
    | with_reducible apply State.streamDepart_keeps
    | with_reducible apply Keeps.foldl
    | with_reducible apply Keeps.foldl_fst
    | with_reducible apply Keeps.foldl_snd
    | split
    | with_reducible apply Keeps.upd

theorem State.gptpHoldover_keeps (h : Keeps s₀ s) (n : Nat) : Keeps s₀ (State.gptpHoldover s n) := by
  unfold State.gptpHoldover
  try dsimp only
  repeat' first
    | with_reducible assumption
    | intro _
    | with_reducible apply State.setFld_keeps
    | split
    | with_reducible apply Keeps.upd

theorem State.evalArmed_keeps (h : Keeps s₀ s) (n : Nat) : Keeps s₀ (State.evalArmed s n) := by
  unfold State.evalArmed
  try dsimp only
  repeat' first
    | with_reducible assumption
    | intro _
    | with_reducible apply State.fireCue_keeps
    | with_reducible apply State.setCue_keeps
    | with_reducible apply Keeps.foldl
    | with_reducible apply Keeps.foldl_fst
    | with_reducible apply Keeps.foldl_snd
    | split
    | with_reducible apply Keeps.upd

theorem State.laneCfg_keeps (h : Keeps s₀ s) (n : Nat) (v : W32) : Keeps s₀ (State.laneCfg n v s) := by
  unfold State.laneCfg
  try dsimp only
  repeat' first
    | with_reducible assumption
    | intro _
    | with_reducible apply State.evalArmed_keeps
    | with_reducible apply State.setFld_keeps
    | with_reducible apply State.setLaneEv_keeps
    | with_reducible apply State.setResidue_keeps
    | split
    | with_reducible apply Keeps.upd

theorem State.readBy_keeps (h : Keeps s₀ s) (r : Nat) (off : Nat) (f : State → State) (hf : ∀ y0, Keeps s₀ y0 → Keeps s₀ (f y0)) : Keeps s₀ (State.readBy s r off f) := by
  unfold State.readBy
  try dsimp only
  repeat' first
    | with_reducible assumption
    | intro _
    | with_reducible apply State.answer_keeps
    | with_reducible apply State.deny_keeps
    | with_reducible apply hf
    | split
    | with_reducible apply Keeps.upd

theorem State.laneValueRead_keeps (h : Keeps s₀ s) (r : Nat) (n : Nat) : Keeps s₀ (State.laneValueRead r n s) := by
  unfold State.laneValueRead
  try dsimp only
  repeat' first
    | with_reducible assumption
    | intro _
    | with_reducible apply State.answer_keeps
    | split
    | with_reducible apply Keeps.upd

theorem State.laneEpochRead_keeps (h : Keeps s₀ s) (r : Nat) (n : Nat) : Keeps s₀ (State.laneEpochRead r n s) := by
  unfold State.laneEpochRead
  try dsimp only
  repeat' first
    | with_reducible assumption
    | intro _
    | with_reducible apply State.answer_keeps
    | split
    | with_reducible apply Keeps.upd

theorem State.laneValueWrite_keeps (h : Keeps s₀ s) (n : Nat) (v : W64) : Keeps s₀ (State.laneValueWrite n v s) := by
  unfold State.laneValueWrite
  try dsimp only
  repeat' first
    | with_reducible assumption
    | intro _
    | with_reducible apply State.setReg_keeps
    | split
    | with_reducible apply Keeps.upd

theorem State.laneStepNow_keeps (h : Keeps s₀ s) (n : Nat) (step : W64) : Keeps s₀ (State.laneStepNow s n step) := by
  unfold State.laneStepNow
  try dsimp only
  repeat' first
    | with_reducible assumption
    | intro _
    | with_reducible apply State.laneAdd_keeps
    | split
    | with_reducible apply Keeps.upd

theorem State.laneStep_keeps (h : Keeps s₀ s) (r : Nat) (n : Nat) (step : W64) : Keeps s₀ (State.laneStep r n step s) := by
  unfold State.laneStep
  try dsimp only
  repeat' first
    | with_reducible assumption
    | intro _
    | with_reducible apply State.incident_keeps
    | with_reducible apply State.laneStepNow_keeps
    | with_reducible apply State.setFld_keeps
    | split
    | with_reducible apply Keeps.upd

theorem State.laneForce_keeps (h : Keeps s₀ s) (n : Nat) (step : W64) : Keeps s₀ (State.laneForce n step s) := by
  unfold State.laneForce
  try dsimp only
  repeat' first
    | with_reducible assumption
    | intro _
    | with_reducible apply State.laneStepNow_keeps
    | with_reducible apply State.setFld_keeps
    | split
    | with_reducible apply Keeps.upd

theorem State.cueStat_keeps (h : Keeps s₀ s) (r : Nat) (i : Nat) (err : Nat) (read : Bool) : Keeps s₀ (State.cueStat s r i err read) := by
  unfold State.cueStat
  try dsimp only
  repeat' first
    | with_reducible assumption
    | intro _
    | with_reducible apply State.setReg_keeps
    | split
    | with_reducible apply Keeps.upd

theorem State.armTake_keeps (h : Keeps s₀ s) (i : Nat) (rank : Nat) (c : Cue) : Keeps s₀ (State.armTake s i rank c).1 := by
  unfold State.armTake
  try dsimp only
  repeat' first
    | with_reducible assumption
    | intro _
    | with_reducible apply State.fireCue_keeps
    | with_reducible apply State.setCue_keeps
    | with_reducible apply State.setFld_keeps
    | split
    | with_reducible apply Keeps.upd

theorem State.armTake_of (h : Keeps s₀ s) {i : Nat} {rank : Nat} {c : Cue} {x1 : Nat} {t : State} (he : State.armTake s i rank c = (t, x1)) : Keeps s₀ t := by
  have g := State.armTake_keeps h i rank c
  rw [he] at g
  exact g

theorem State.cueArm_keeps (h : Keeps s₀ s) (r : Nat) : Keeps s₀ (State.cueArm r s) := by
  unfold State.cueArm
  try dsimp only
  repeat' first
    | with_reducible assumption
    | intro _
    | with_reducible apply State.armTake_keeps
    | with_reducible apply State.cueStat_keeps
    | with_reducible apply State.deny_keeps
    | with_reducible refine State.armTake_of ?_ (by assumption)
    | split
    | with_reducible apply Keeps.upd

theorem State.cueDisarm_keeps (h : Keeps s₀ s) (r : Nat) : Keeps s₀ (State.cueDisarm r s) := by
  unfold State.cueDisarm
  try dsimp only
  repeat' first
    | with_reducible assumption
    | intro _
    | with_reducible apply State.cueStat_keeps
    | with_reducible apply State.setCue_keeps
    | split
    | with_reducible apply Keeps.upd

theorem State.cueRead_keeps (h : Keeps s₀ s) (r : Nat) : Keeps s₀ (State.cueRead r s) := by
  unfold State.cueRead
  try dsimp only
  repeat' first
    | with_reducible assumption
    | intro _
    | with_reducible apply State.cueStat_keeps
    | with_reducible apply State.setReg_keeps
    | split
    | with_reducible apply Keeps.upd

theorem State.cueRetarget_keeps (h : Keeps s₀ s) (i : Nat) (t : W64) : Keeps s₀ (State.cueRetarget s i t) := by
  unfold State.cueRetarget
  try dsimp only
  repeat' first
    | with_reducible assumption
    | intro _
    | with_reducible apply State.fireCue_keeps
    | with_reducible apply State.setCue_keeps
    | split
    | with_reducible apply Keeps.upd

theorem State.camPulseEnd_keeps (h : Keeps s₀ s) (k : Nat) : Keeps s₀ (State.camPulseEnd s k) := by
  unfold State.camPulseEnd
  try dsimp only
  repeat' first
    | with_reducible assumption
    | intro _
    | split
    | with_reducible apply Keeps.upd

theorem State.ptpDomCfg_keeps (h : Keeps s₀ s) (d : Nat) (v : W32) : Keeps s₀ (State.ptpDomCfg d v s) := by
  unfold State.ptpDomCfg
  try dsimp only
  repeat' first
    | with_reducible assumption
    | intro _
    | with_reducible apply State.setFld_keeps
    | with_reducible apply State.setReg_keeps
    | split
    | with_reducible apply Keeps.upd

/-! ### Commands: each answers a next state -/

theorem execLaneTick_keeps  : Answers s (execLaneTick s) := by
  unfold execLaneTick
  try dsimp only
  repeat' first
    | with_reducible assumption
    | with_reducible exact Keeps.refl _
    | intro _
    | with_reducible apply Answers.mk
    | with_reducible apply State.laneTick_keeps
    | split
    | with_reducible apply Keeps.upd

theorem execLaneSourceEvent_keeps (n : LaneId) (e : LaneEvent) : Answers s (execLaneSourceEvent n e s) := by
  unfold execLaneSourceEvent
  try dsimp only
  repeat' first
    | with_reducible assumption
    | with_reducible exact Keeps.refl _
    | intro _
    | with_reducible apply Answers.mk
    | with_reducible apply State.laneEvent_keeps
    | split
    | with_reducible apply Keeps.upd

theorem execLaneCfgWrite_keeps (r : Requester) (n : LaneId) (v : W32) : Answers s (execLaneCfgWrite r n v s) := by
  unfold execLaneCfgWrite
  try dsimp only
  repeat' first
    | with_reducible assumption
    | with_reducible exact Keeps.refl _
    | intro _
    | with_reducible apply Answers.mk
    | with_reducible apply State.laneCfg_keeps
    | with_reducible apply State.permit_keeps
    | split
    | with_reducible apply Keeps.upd

theorem execLaneValueRead_keeps (r : Requester) (n : LaneId) : Answers s (execLaneValueRead r n s) := by
  unfold execLaneValueRead
  try dsimp only
  repeat' first
    | with_reducible assumption
    | with_reducible exact Keeps.refl _
    | intro _
    | with_reducible apply Answers.mk
    | with_reducible apply State.laneValueRead_keeps
    | with_reducible apply State.readBy_keeps
    | split
    | with_reducible apply Keeps.upd

theorem execLaneEpochRead_keeps (r : Requester) (n : LaneId) : Answers s (execLaneEpochRead r n s) := by
  unfold execLaneEpochRead
  try dsimp only
  repeat' first
    | with_reducible assumption
    | with_reducible exact Keeps.refl _
    | intro _
    | with_reducible apply Answers.mk
    | with_reducible apply State.laneEpochRead_keeps
    | with_reducible apply State.readBy_keeps
    | split
    | with_reducible apply Keeps.upd

theorem execLaneStep_keeps (r : Requester) (n : LaneId) (step : W64) : Answers s (execLaneStep r n step s) := by
  unfold execLaneStep
  try dsimp only
  repeat' first
    | with_reducible assumption
    | with_reducible exact Keeps.refl _
    | intro _
    | with_reducible apply Answers.mk
    | with_reducible apply State.laneStep_keeps
    | with_reducible apply State.permit_keeps
    | split
    | with_reducible apply Keeps.upd

theorem execLaneStepForce_keeps (r : Requester) (n : LaneId) (step : W64) : Answers s (execLaneStepForce r n step s) := by
  unfold execLaneStepForce
  try dsimp only
  repeat' first
    | with_reducible assumption
    | with_reducible exact Keeps.refl _
    | intro _
    | with_reducible apply Answers.mk
    | with_reducible apply State.deny_keeps
    | with_reducible apply State.laneForce_keeps
    | with_reducible apply State.permit_keeps
    | split
    | with_reducible apply Keeps.upd

theorem execGptpHoldover_keeps (n : LaneId) : Answers s (execGptpHoldover n s) := by
  unfold execGptpHoldover
  try dsimp only
  repeat' first
    | with_reducible assumption
    | with_reducible exact Keeps.refl _
    | intro _
    | with_reducible apply Answers.mk
    | with_reducible apply State.gptpHoldover_keeps
    | split
    | with_reducible apply Keeps.upd

theorem execLaneSourceLost_keeps (n : LaneId) : Answers s (execLaneSourceLost n s) := by
  unfold execLaneSourceLost
  try dsimp only
  repeat' first
    | with_reducible assumption
    | with_reducible exact Keeps.refl _
    | intro _
    | with_reducible apply Answers.mk
    | with_reducible apply State.laneLost_keeps
    | split
    | with_reducible apply Keeps.upd

theorem execCamTriggerPulseEnd_keeps (k : Fin 8) : Answers s (execCamTriggerPulseEnd k s) := by
  unfold execCamTriggerPulseEnd
  try dsimp only
  repeat' first
    | with_reducible assumption
    | with_reducible exact Keeps.refl _
    | intro _
    | with_reducible apply Answers.mk
    | with_reducible apply State.camPulseEnd_keeps
    | split
    | with_reducible apply Keeps.upd

theorem execCueArm_keeps (r : Requester) : Answers s (execCueArm r s) := by
  unfold execCueArm
  try dsimp only
  repeat' first
    | with_reducible assumption
    | with_reducible exact Keeps.refl _
    | intro _
    | with_reducible apply Answers.mk
    | with_reducible apply State.cueArm_keeps
    | with_reducible apply State.permit_keeps
    | split
    | with_reducible apply Keeps.upd

theorem execCueDisarm_keeps (r : Requester) : Answers s (execCueDisarm r s) := by
  unfold execCueDisarm
  try dsimp only
  repeat' first
    | with_reducible assumption
    | with_reducible exact Keeps.refl _
    | intro _
    | with_reducible apply Answers.mk
    | with_reducible apply State.cueDisarm_keeps
    | with_reducible apply State.permit_keeps
    | split
    | with_reducible apply Keeps.upd

theorem execCueRead_keeps (r : Requester) : Answers s (execCueRead r s) := by
  unfold execCueRead
  try dsimp only
  repeat' first
    | with_reducible assumption
    | with_reducible exact Keeps.refl _
    | intro _
    | with_reducible apply Answers.mk
    | with_reducible apply State.cueRead_keeps
    | with_reducible apply State.permit_keeps
    | split
    | with_reducible apply Keeps.upd

theorem execPtpDomCfgWrite_keeps (r : Requester) (d : Fin 4) (v : W32) : Answers s (execPtpDomCfgWrite r d v s) := by
  unfold execPtpDomCfgWrite
  try dsimp only
  repeat' first
    | with_reducible assumption
    | with_reducible exact Keeps.refl _
    | intro _
    | with_reducible apply Answers.mk
    | with_reducible apply State.permit_keeps
    | with_reducible apply State.ptpDomCfg_keeps
    | split
    | with_reducible apply Keeps.upd

end Sys2Proof.Machine
end

