-- ==== Sys2Proof/Laws/KeepsNovesTally.lean ====
section
/-!
SUPPORT. What the operations and commands of Machine/NovesTally.lean keep (Laws/Keeps.lean).
-/

namespace Sys2Proof.Machine

open Sys2Proof State

variable {s₀ s : State}

theorem State.withTally_keeps (h : Keeps s₀ s) (c : Nat) (vt : Nat) (k : Nat) (f : Nat → State) (hf : ∀ y0, Keeps s₀ (f y0)) : Keeps s₀ (State.withTally s c vt k f) := by
  unfold State.withTally
  try dsimp only
  repeat' first
    | with_reducible assumption
    | intro _
    | with_reducible apply State.illegalOperand_keeps
    | with_reducible apply State.precise_keeps
    | with_reducible apply hf
    | split
    | with_reducible apply Keeps.upd

theorem State.withBar_keeps (h : Keeps s₀ s) (c : Nat) (vt : Nat) (f : Nat → Nat → State) (hf : ∀ y0 y1, Keeps s₀ (f y0 y1)) : Keeps s₀ (State.withBar s c vt f) := by
  unfold State.withBar
  try dsimp only
  repeat' first
    | with_reducible assumption
    | intro _
    | with_reducible apply State.illegalOperand_keeps
    | with_reducible apply State.precise_keeps
    | with_reducible apply hf
    | split
    | with_reducible apply Keeps.upd

theorem State.withAmount_keeps (h : Keeps s₀ s) (c : Nat) (o : OpY) (f : W32 → State) (hf : ∀ y0, Keeps s₀ (f y0)) : Keeps s₀ (State.withAmount s c o f) := by
  unfold State.withAmount
  try dsimp only
  repeat' first
    | with_reducible assumption
    | intro _
    | with_reducible apply State.illegalOperand_keeps
    | with_reducible apply hf
    | split
    | with_reducible apply Keeps.upd

theorem State.beginWait_keeps (h : Keeps s₀ s) (c : Nat) (w : Wait) : Keeps s₀ (State.beginWait s c w) := by
  unfold State.beginWait
  try dsimp only
  repeat' first
    | with_reducible assumption
    | intro _
    | with_reducible apply State.modCtx_keeps
    | with_reducible apply State.nextStamp_keeps
    | split
    | with_reducible apply Keeps.upd

theorem State.waitOrTimeout_keeps (h : Keeps s₀ s) (c : Nat) (pd : Fin 8) (sd : Fin 32) (dl : Option (Nat × W64)) (w : Wait) : Keeps s₀ (State.waitOrTimeout s c pd sd dl w) := by
  unfold State.waitOrTimeout
  try dsimp only
  repeat' first
    | with_reducible assumption
    | intro _
    | with_reducible apply State.beginWait_keeps
    | with_reducible apply State.endWait_keeps
    | split
    | with_reducible apply Keeps.upd

theorem State.runTadd_keeps (h : Keeps s₀ s) (i : Issue) (m : Mn) (o : OpY) : Keeps s₀ (State.runTadd s i m o) := by
  unfold State.runTadd
  try dsimp only
  repeat' first
    | with_reducible assumption
    | intro _
    | with_reducible apply State.afterFence_keeps
    | with_reducible apply State.fenceThen_keeps
    | with_reducible apply State.runN_keeps
    | with_reducible apply State.withAmount_keeps
    | with_reducible apply State.withTally_keeps
    | split
    | with_reducible apply Keeps.upd

theorem State.runTwait_keeps (h : Keeps s₀ s) (i : Issue) (o : OpY) : Keeps s₀ (State.runTwait s i o) := by
  unfold State.runTwait
  try dsimp only
  repeat' first
    | with_reducible assumption
    | intro _
    | with_reducible apply State.endWait_keeps
    | with_reducible apply State.runN_keeps
    | with_reducible apply State.waitOrTimeout_keeps
    | with_reducible apply State.withAmount_keeps
    | with_reducible apply State.withTally_keeps
    | split
    | with_reducible apply Keeps.upd

theorem State.runTread_keeps (h : Keeps s₀ s) (i : Issue) (o : OpY) : Keeps s₀ (State.runTread s i o) := by
  unfold State.runTread
  try dsimp only
  repeat' first
    | with_reducible assumption
    | intro _
    | with_reducible apply State.pcNext_keeps
    | with_reducible apply State.runN_keeps
    | with_reducible apply State.sput_keeps
    | with_reducible apply State.withTally_keeps
    | split
    | with_reducible apply Keeps.upd

theorem State.runTarrive_keeps (h : Keeps s₀ s) (i : Issue) (o : OpY) : Keeps s₀ (State.runTarrive s i o) := by
  unfold State.runTarrive
  try dsimp only
  repeat' first
    | with_reducible assumption
    | intro _
    | with_reducible apply State.afterFence_keeps
    | with_reducible apply State.fenceThen_keeps
    | with_reducible apply State.runN_keeps
    | with_reducible apply State.withBar_keeps
    | split
    | with_reducible apply Keeps.upd

theorem State.runTbarwait_keeps (h : Keeps s₀ s) (i : Issue) (o : OpY) : Keeps s₀ (State.runTbarwait s i o) := by
  unfold State.runTbarwait
  try dsimp only
  repeat' first
    | with_reducible assumption
    | intro _
    | with_reducible apply State.afterFence_keeps
    | with_reducible apply State.fenceThen_keeps
    | with_reducible apply State.runN_keeps
    | with_reducible apply State.withBar_keeps
    | split
    | with_reducible apply Keeps.upd

theorem State.runLread_keeps (h : Keeps s₀ s) (i : Issue) (o : OpY) : Keeps s₀ (State.runLread s i o) := by
  unfold State.runLread
  try dsimp only
  repeat' first
    | with_reducible assumption
    | intro _
    | with_reducible apply State.pcNext_keeps
    | with_reducible apply State.runN_keeps
    | with_reducible apply State.sput_keeps
    | split
    | with_reducible apply Keeps.upd

theorem State.runLwait_keeps (h : Keeps s₀ s) (i : Issue) (o : OpY) : Keeps s₀ (State.runLwait s i o) := by
  unfold State.runLwait
  try dsimp only
  repeat' first
    | with_reducible assumption
    | intro _
    | with_reducible apply State.beginWait_keeps
    | with_reducible apply State.endWait_keeps
    | with_reducible apply State.runN_keeps
    | split
    | with_reducible apply Keeps.upd

theorem State.runLwrel_keeps (h : Keeps s₀ s) (i : Issue) (o : OpY) : Keeps s₀ (State.runLwrel s i o) := by
  unfold State.runLwrel
  try dsimp only
  repeat' first
    | with_reducible assumption
    | intro _
    | with_reducible apply State.endWait_keeps
    | with_reducible apply State.jobBegin_keeps
    | with_reducible apply State.jobEnd_keeps
    | with_reducible apply State.modCtx_keeps
    | with_reducible apply State.runN_keeps
    | with_reducible apply State.waitOrTimeout_keeps
    | split
    | with_reducible apply Keeps.upd

theorem State.larmBlock_of (h : Keeps s₀ s) {c lane i b n : Nat} {t : State}
    (e : s.larmBlock c lane i b = .err n t) : Keeps s₀ t := by
  unfold State.larmBlock at e
  dsimp only at e
  repeat' split at e
  all_goals first
    | (cases e; exact h)
    | (cases e; exact State.armTake_keeps h _ _ _)
    | cases e

theorem State.withCueIndex_keeps (h : Keeps s₀ s) (c : Nat) (o : OpY) (f : Nat → State) (hf : ∀ y0, Keeps s₀ (f y0)) : Keeps s₀ (State.withCueIndex s c o f) := by
  unfold State.withCueIndex
  try dsimp only
  repeat' first
    | with_reducible assumption
    | intro _
    | with_reducible apply State.illegalOperand_keeps
    | with_reducible apply hf
    | split
    | with_reducible apply Keeps.upd

theorem State.runLarm_keeps (h : Keeps s₀ s) (i : Issue) (o : OpY) : Keeps s₀ (State.runLarm s i o) := by
  unfold State.runLarm
  try dsimp only
  repeat' first
    | with_reducible assumption
    | intro _
    | with_reducible apply State.pcNext_keeps
    | with_reducible apply State.precise_keeps
    | with_reducible apply State.runN_keeps
    | with_reducible apply State.sput_keeps
    | with_reducible apply State.unmapped_keeps
    | with_reducible apply State.withCueIndex_keeps
    | with_reducible apply State.withLoad_keeps
    | with_reducible refine State.larmBlock_of ?_ (by assumption)
    | split
    | with_reducible apply Keeps.upd

theorem State.runLdisarm_keeps (h : Keeps s₀ s) (i : Issue) (o : OpY) : Keeps s₀ (State.runLdisarm s i o) := by
  unfold State.runLdisarm
  try dsimp only
  repeat' first
    | with_reducible assumption
    | intro _
    | with_reducible apply State.pcNext_keeps
    | with_reducible apply State.runN_keeps
    | with_reducible apply State.setCue_keeps
    | with_reducible apply State.sput_keeps
    | with_reducible apply State.withCueIndex_keeps
    | split
    | with_reducible apply Keeps.upd

theorem State.withRcpt_keeps (h : Keeps s₀ s) (c : Nat) (va : W64) (f : Nat → State → State) (hf : ∀ y0 y1, Keeps s₀ y1 → Keeps s₀ (f y0 y1)) : Keeps s₀ (State.withRcpt s c va f) := by
  unfold State.withRcpt
  try dsimp only
  repeat' first
    | with_reducible assumption
    | intro _
    | with_reducible apply State.noteTlb_keeps
    | with_reducible apply State.precise_keeps
    | with_reducible apply hf
    | split
    | with_reducible apply Keeps.upd

theorem State.runRread_keeps (h : Keeps s₀ s) (i : Issue) (o : OpY) : Keeps s₀ (State.runRread s i o) := by
  unfold State.runRread
  try dsimp only
  repeat' first
    | with_reducible assumption
    | intro _
    | with_reducible apply State.pcNext_keeps
    | with_reducible apply State.runN_keeps
    | with_reducible apply State.sput_keeps
    | with_reducible apply State.withRcpt_keeps
    | split
    | with_reducible apply Keeps.upd

theorem State.runRcoll_keeps (h : Keeps s₀ s) (i : Issue) (o : OpY) : Keeps s₀ (State.runRcoll s i o) := by
  unfold State.runRcoll
  try dsimp only
  repeat' first
    | with_reducible assumption
    | intro _
    | with_reducible apply State.collectWord_keeps
    | with_reducible apply State.pcNext_keeps
    | with_reducible apply State.runN_keeps
    | with_reducible apply State.sput_keeps
    | with_reducible apply State.withRcpt_keeps
    | with_reducible refine State.collectWord_of ?_ (by assumption)
    | split
    | with_reducible apply Keeps.upd

theorem State.runRpost_keeps (h : Keeps s₀ s) (i : Issue) (o : OpY) : Keeps s₀ (State.runRpost s i o) := by
  unfold State.runRpost
  try dsimp only
  repeat' first
    | with_reducible assumption
    | intro _
    | with_reducible apply State.afterFence_keeps
    | with_reducible apply State.fenceThen_keeps
    | with_reducible apply State.precise_keeps
    | with_reducible apply State.runN_keeps
    | with_reducible apply State.withRcpt_keeps
    | split
    | with_reducible apply Keeps.upd

theorem State.runRwait_keeps (h : Keeps s₀ s) (i : Issue) (o : OpY) : Keeps s₀ (State.runRwait s i o) := by
  unfold State.runRwait
  try dsimp only
  repeat' first
    | with_reducible assumption
    | intro _
    | with_reducible apply State.endWait_keeps
    | with_reducible apply State.runN_keeps
    | with_reducible apply State.waitOrTimeout_keeps
    | with_reducible apply State.withRcpt_keeps
    | split
    | with_reducible apply Keeps.upd

/-! ### Commands: each answers a next state -/

theorem execTadd_keeps (i : Issue) (o : OpY) : Answers s (execTadd i o s) := by
  unfold execTadd
  try dsimp only
  repeat' first
    | with_reducible assumption
    | with_reducible exact Keeps.refl _
    | intro _
    | with_reducible apply Answers.mk
    | with_reducible apply State.runTadd_keeps
    | split
    | with_reducible apply Keeps.upd

theorem execTsub_keeps (i : Issue) (o : OpY) : Answers s (execTsub i o s) := by
  unfold execTsub
  try dsimp only
  repeat' first
    | with_reducible assumption
    | with_reducible exact Keeps.refl _
    | intro _
    | with_reducible apply Answers.mk
    | with_reducible apply State.runTadd_keeps
    | split
    | with_reducible apply Keeps.upd

theorem execTwait_keeps (i : Issue) (o : OpY) : Answers s (execTwait i o s) := by
  unfold execTwait
  try dsimp only
  repeat' first
    | with_reducible assumption
    | with_reducible exact Keeps.refl _
    | intro _
    | with_reducible apply Answers.mk
    | with_reducible apply State.runTwait_keeps
    | split
    | with_reducible apply Keeps.upd

theorem execTread_keeps (i : Issue) (o : OpY) : Answers s (execTread i o s) := by
  unfold execTread
  try dsimp only
  repeat' first
    | with_reducible assumption
    | with_reducible exact Keeps.refl _
    | intro _
    | with_reducible apply Answers.mk
    | with_reducible apply State.runTread_keeps
    | split
    | with_reducible apply Keeps.upd

theorem execTarrive_keeps (i : Issue) (o : OpY) : Answers s (execTarrive i o s) := by
  unfold execTarrive
  try dsimp only
  repeat' first
    | with_reducible assumption
    | with_reducible exact Keeps.refl _
    | intro _
    | with_reducible apply Answers.mk
    | with_reducible apply State.runTarrive_keeps
    | split
    | with_reducible apply Keeps.upd

theorem execTbarwait_keeps (i : Issue) (o : OpY) : Answers s (execTbarwait i o s) := by
  unfold execTbarwait
  try dsimp only
  repeat' first
    | with_reducible assumption
    | with_reducible exact Keeps.refl _
    | intro _
    | with_reducible apply Answers.mk
    | with_reducible apply State.runTbarwait_keeps
    | split
    | with_reducible apply Keeps.upd

theorem execLread_keeps (i : Issue) (o : OpY) : Answers s (execLread i o s) := by
  unfold execLread
  try dsimp only
  repeat' first
    | with_reducible assumption
    | with_reducible exact Keeps.refl _
    | intro _
    | with_reducible apply Answers.mk
    | with_reducible apply State.runLread_keeps
    | split
    | with_reducible apply Keeps.upd

theorem execLwait_keeps (i : Issue) (o : OpY) : Answers s (execLwait i o s) := by
  unfold execLwait
  try dsimp only
  repeat' first
    | with_reducible assumption
    | with_reducible exact Keeps.refl _
    | intro _
    | with_reducible apply Answers.mk
    | with_reducible apply State.runLwait_keeps
    | split
    | with_reducible apply Keeps.upd

theorem execLwrel_keeps (i : Issue) (o : OpY) : Answers s (execLwrel i o s) := by
  unfold execLwrel
  try dsimp only
  repeat' first
    | with_reducible assumption
    | with_reducible exact Keeps.refl _
    | intro _
    | with_reducible apply Answers.mk
    | with_reducible apply State.runLwrel_keeps
    | split
    | with_reducible apply Keeps.upd

theorem execLarm_keeps (i : Issue) (o : OpY) : Answers s (execLarm i o s) := by
  unfold execLarm
  try dsimp only
  repeat' first
    | with_reducible assumption
    | with_reducible exact Keeps.refl _
    | intro _
    | with_reducible apply Answers.mk
    | with_reducible apply State.runLarm_keeps
    | split
    | with_reducible apply Keeps.upd

theorem execLdisarm_keeps (i : Issue) (o : OpY) : Answers s (execLdisarm i o s) := by
  unfold execLdisarm
  try dsimp only
  repeat' first
    | with_reducible assumption
    | with_reducible exact Keeps.refl _
    | intro _
    | with_reducible apply Answers.mk
    | with_reducible apply State.runLdisarm_keeps
    | split
    | with_reducible apply Keeps.upd

theorem execRread_keeps (i : Issue) (o : OpY) : Answers s (execRread i o s) := by
  unfold execRread
  try dsimp only
  repeat' first
    | with_reducible assumption
    | with_reducible exact Keeps.refl _
    | intro _
    | with_reducible apply Answers.mk
    | with_reducible apply State.runRread_keeps
    | split
    | with_reducible apply Keeps.upd

theorem execRcoll_keeps (i : Issue) (o : OpY) : Answers s (execRcoll i o s) := by
  unfold execRcoll
  try dsimp only
  repeat' first
    | with_reducible assumption
    | with_reducible exact Keeps.refl _
    | intro _
    | with_reducible apply Answers.mk
    | with_reducible apply State.runRcoll_keeps
    | split
    | with_reducible apply Keeps.upd

theorem execRpost_keeps (i : Issue) (o : OpY) : Answers s (execRpost i o s) := by
  unfold execRpost
  try dsimp only
  repeat' first
    | with_reducible assumption
    | with_reducible exact Keeps.refl _
    | intro _
    | with_reducible apply Answers.mk
    | with_reducible apply State.runRpost_keeps
    | split
    | with_reducible apply Keeps.upd

theorem execRwait_keeps (i : Issue) (o : OpY) : Answers s (execRwait i o s) := by
  unfold execRwait
  try dsimp only
  repeat' first
    | with_reducible assumption
    | with_reducible exact Keeps.refl _
    | intro _
    | with_reducible apply Answers.mk
    | with_reducible apply State.runRwait_keeps
    | split
    | with_reducible apply Keeps.upd

end Sys2Proof.Machine
end

