-- ==== Sys2Proof/Laws/KeepsPacerCheck.lean ====
section
/-!
SUPPORT. What the operations of Machine/PacerCheck.lean keep (Laws/Keeps.lean).
-/

namespace Sys2Proof.Machine

open Sys2Proof State

variable {s₀ s : State}

theorem State.setPmem_keeps (h : Keeps s₀ s) (n : Nat) (w : Nat) (v : W32) : Keeps s₀ (State.setPmem s n w v) := by
  unfold State.setPmem
  try dsimp only
  repeat' first
    | with_reducible assumption
    | intro _
    | split
    | with_reducible apply Keeps.upd

theorem State.setPacer_keeps (h : Keeps s₀ s) (n : Nat) (p : Pacer) : Keeps s₀ (State.setPacer s n p) := by
  unfold State.setPacer
  try dsimp only
  repeat' first
    | with_reducible assumption
    | intro _
    | split
    | with_reducible apply Keeps.upd

theorem State.setChan_keeps (h : Keeps s₀ s) (n : Nat) (c : Nat) (x : Chan) : Keeps s₀ (State.setChan s n c x) := by
  unfold State.setChan
  try dsimp only
  repeat' first
    | with_reducible assumption
    | intro _
    | split
    | with_reducible apply Keeps.upd

theorem State.modChan_keeps (h : Keeps s₀ s) (n : Nat) (c : Nat) (f : Chan → Chan) : Keeps s₀ (State.modChan s n c f) := by
  unfold State.modChan
  try dsimp only
  repeat' first
    | with_reducible assumption
    | intro _
    | with_reducible apply State.setChan_keeps
    | split
    | with_reducible apply Keeps.upd

end Sys2Proof.Machine
end

