-- ==== Sys2Proof/Laws/KeepsPacer.lean ====
section
/-!
SUPPORT. What the operations and commands of Machine/Pacer.lean keep (Laws/Keeps.lean).
-/

namespace Sys2Proof.Machine

open Sys2Proof State

variable {s₀ s : State}

theorem State.driveBridge_keeps (h : Keeps s₀ s) (n : Nat) (claims : List Nat) (direct : List Nat) (fresh : Bool) (b : Nat) : Keeps s₀ (State.driveBridge n claims direct fresh s b) := by
  unfold State.driveBridge
  try dsimp only
  repeat' first
    | with_reducible assumption
    | intro _
    | with_reducible apply State.setBridge_keeps
    | with_reducible apply State.settleBridge_keeps
    | with_reducible apply Keeps.foldl
    | with_reducible apply Keeps.foldl_fst
    | with_reducible apply Keeps.foldl_snd
    | split
    | with_reducible apply Keeps.upd

theorem State.setDrivers_keeps (h : Keeps s₀ s) (n : Nat) (m : Nat) (fresh : Bool) : Keeps s₀ (State.setDrivers s n m fresh) := by
  unfold State.setDrivers
  try dsimp only
  repeat' first
    | with_reducible assumption
    | intro _
    | with_reducible apply State.driveBridge_keeps
    | with_reducible apply Keeps.foldl
    | with_reducible apply Keeps.foldl_fst
    | with_reducible apply Keeps.foldl_snd
    | split
    | with_reducible apply Keeps.upd

theorem State.pacerOff_keeps (h : Keeps s₀ s) (n : Nat) : Keeps s₀ (State.pacerOff s n) := by
  unfold State.pacerOff
  try dsimp only
  repeat' first
    | with_reducible assumption
    | intro _
    | with_reducible apply State.setDrivers_keeps
    | with_reducible apply State.setFld_keeps
    | with_reducible apply State.setPacer_keeps
    | split
    | with_reducible apply Keeps.upd

theorem State.freshChan_keeps (h : Keeps s₀ s) (n : Nat) (c : Nat) : Keeps s₀ (State.freshChan n s c) := by
  unfold State.freshChan
  try dsimp only
  repeat' first
    | with_reducible assumption
    | intro _
    | with_reducible apply State.modChan_keeps
    | split
    | with_reducible apply Keeps.upd

theorem State.ctlShow_keeps (h : Keeps s₀ s) (n : Nat) (ch : Nat) (pb : Nat) (kb : Nat) : Keeps s₀ (State.ctlShow s n ch pb kb) := by
  unfold State.ctlShow
  try dsimp only
  repeat' first
    | with_reducible assumption
    | intro _
    | with_reducible apply State.setFld_keeps
    | split
    | with_reducible apply Keeps.upd

theorem State.pacerTake_keeps (h : Keeps s₀ s) (n : Nat) (ch : Nat) (pb : Nat) (kb : Nat) (fresh : Bool) : Keeps s₀ (State.pacerTake s n ch pb kb fresh) := by
  unfold State.pacerTake
  try dsimp only
  repeat' first
    | with_reducible assumption
    | intro _
    | with_reducible apply State.freshChan_keeps
    | with_reducible apply State.setDrivers_keeps
    | with_reducible apply State.setFld_keeps
    | with_reducible apply State.setPacer_keeps
    | with_reducible apply Keeps.foldl
    | with_reducible apply Keeps.foldl_fst
    | with_reducible apply Keeps.foldl_snd
    | split
    | with_reducible apply Keeps.upd

theorem State.pacerErr_keeps (h : Keeps s₀ s) (n : Nat) (err : Nat) (pc : Nat) : Keeps s₀ (State.pacerErr s n err pc) := by
  unfold State.pacerErr
  try dsimp only
  repeat' first
    | with_reducible assumption
    | intro _
    | with_reducible apply State.setFld_keeps
    | split
    | with_reducible apply Keeps.upd

theorem State.pacerFail_keeps (h : Keeps s₀ s) (n : Nat) (err : Nat) (pc : Nat) : Keeps s₀ (State.pacerFail s n err pc) := by
  unfold State.pacerFail
  try dsimp only
  repeat' first
    | with_reducible assumption
    | intro _
    | with_reducible apply State.ctlShow_keeps
    | with_reducible apply State.pacerErr_keeps
    | split
    | with_reducible apply Keeps.upd

theorem State.pacerStart_keeps (h : Keeps s₀ s) (n : Nat) (ch : Nat) (pb : Nat) (kb : Nat) : Keeps s₀ (State.pacerStart s n ch pb kb) := by
  unfold State.pacerStart
  try dsimp only
  repeat' first
    | with_reducible assumption
    | intro _
    | with_reducible apply State.ctlShow_keeps
    | with_reducible apply State.pacerErr_keeps
    | with_reducible apply State.pacerTake_keeps
    | with_reducible apply State.setFld_keeps
    | with_reducible apply State.setPacer_keeps
    | split
    | with_reducible apply Keeps.upd

theorem State.pacerCtl_keeps (h : Keeps s₀ s) (n : Nat) (v : W32) : Keeps s₀ (State.pacerCtl n v s) := by
  unfold State.pacerCtl
  try dsimp only
  repeat' first
    | with_reducible assumption
    | intro _
    | with_reducible apply State.ctlShow_keeps
    | with_reducible apply State.pacerErr_keeps
    | with_reducible apply State.pacerFail_keeps
    | with_reducible apply State.pacerStart_keeps
    | with_reducible apply State.setFld_keeps
    | with_reducible apply State.setPacer_keeps
    | split
    | with_reducible apply Keeps.upd

theorem State.received_keeps (h : Keeps s₀ s) (b : Nat) (os : List Nat) : Keeps s₀ (State.received s b os) := by
  unfold State.received
  try dsimp only
  repeat' first
    | with_reducible assumption
    | intro _
    | with_reducible apply State.setBridge_keeps
    | split
    | with_reducible apply Keeps.upd

theorem State.updPhase_keeps (h : Keeps s₀ s) (b : Nat) (p : Nat) (x : W32) : Keeps s₀ (State.updPhase s b p x) := by
  unfold State.updPhase
  try dsimp only
  repeat' first
    | with_reducible assumption
    | intro _
    | with_reducible apply State.load_keeps
    | with_reducible apply State.received_keeps
    | with_reducible apply State.recmd_keeps
    | with_reducible apply State.setBridge_keeps
    | with_reducible refine State.load_of ?_ (by assumption)
    | split
    | with_reducible apply Keeps.upd

theorem State.updDirect_keeps (h : Keeps s₀ s) (b : Nat) (o : Nat) (x : W32) : Keeps s₀ (State.updDirect s b o x) := by
  unfold State.updDirect
  try dsimp only
  repeat' first
    | with_reducible assumption
    | intro _
    | with_reducible apply State.received_keeps
    | with_reducible apply State.setBridge_keeps
    | with_reducible apply State.settleBridge_keeps
    | split
    | with_reducible apply Keeps.upd

theorem State.updSlot_keeps (h : Keeps s₀ s) (e : W64) (x : W32) : Keeps s₀ (State.updSlot s e x) := by
  unfold State.updSlot
  try dsimp only
  repeat' first
    | with_reducible assumption
    | intro _
    | with_reducible apply State.slotWrite_keeps
    | with_reducible apply State.updDirect_keeps
    | with_reducible apply State.updPhase_keeps
    | split
    | with_reducible apply Keeps.upd

theorem State.updChan_keeps (h : Keeps s₀ s) (n : Nat) (c : Nat) : Keeps s₀ (State.updChan n s c) := by
  unfold State.updChan
  try dsimp only
  repeat' first
    | with_reducible assumption
    | intro _
    | with_reducible apply State.updSlot_keeps
    | with_reducible apply Keeps.foldl
    | with_reducible apply Keeps.foldl_fst
    | with_reducible apply Keeps.foldl_snd
    | split
    | with_reducible apply Keeps.upd

theorem State.adcConvert_keeps (h : Keeps s₀ s) (env : List Reading) (k : Nat) : Keeps s₀ (State.adcConvert env s k) := by
  unfold State.adcConvert
  try dsimp only
  repeat' first
    | with_reducible assumption
    | intro _
    | split
    | with_reducible apply Keeps.upd

theorem State.setEnc_keeps (h : Keeps s₀ s) (e : Nat) (v : Encoder) : Keeps s₀ (State.setEnc s e v) := by
  unfold State.setEnc
  try dsimp only
  repeat' first
    | with_reducible assumption
    | intro _
    | split
    | with_reducible apply Keeps.upd

theorem State.latchIn_keeps (h : Keeps s₀ s) (n : Nat) (c : Nat) (env : List Reading) (j : Nat) : Keeps s₀ (State.latchIn n c env s j) := by
  unfold State.latchIn
  try dsimp only
  repeat' first
    | with_reducible assumption
    | intro _
    | with_reducible apply State.setChan_keeps
    | split
    | with_reducible apply Keeps.upd

theorem State.latchRx_keeps (h : Keeps s₀ s) (n : Nat) (c : Nat) : Keeps s₀ (State.latchRx n s c) := by
  unfold State.latchRx
  try dsimp only
  repeat' first
    | with_reducible assumption
    | intro _
    | with_reducible apply State.bump_keeps
    | with_reducible apply State.setChan_keeps
    | with_reducible apply Keeps.foldl
    | with_reducible apply Keeps.foldl_fst
    | with_reducible apply Keeps.foldl_snd
    | split
    | with_reducible apply Keeps.upd

theorem State.latchMbx_keeps (h : Keeps s₀ s) (n : Nat) (c : Nat) : Keeps s₀ (State.latchMbx n s c) := by
  unfold State.latchMbx
  try dsimp only
  repeat' first
    | with_reducible assumption
    | intro _
    | with_reducible apply State.setChan_keeps
    | split
    | with_reducible apply Keeps.upd

theorem State.snapFeat_keeps (h : Keeps s₀ s) (n : Nat) (c : Nat) : Keeps s₀ (State.snapFeat n s c) := by
  unfold State.snapFeat
  try dsimp only
  repeat' first
    | with_reducible assumption
    | intro _
    | with_reducible apply State.setChan_keeps
    | with_reducible apply Keeps.foldl
    | with_reducible apply Keeps.foldl_fst
    | with_reducible apply Keeps.foldl_snd
    | split
    | with_reducible apply Keeps.upd

theorem State.latchChan_keeps (h : Keeps s₀ s) (n : Nat) (env : List Reading) (t : W64) (c : Nat) : Keeps s₀ (State.latchChan n env t s c) := by
  unfold State.latchChan
  try dsimp only
  repeat' first
    | with_reducible assumption
    | intro _
    | with_reducible apply State.latchIn_keeps
    | with_reducible apply State.latchMbx_keeps
    | with_reducible apply State.latchRx_keeps
    | with_reducible apply State.modChan_keeps
    | with_reducible apply State.setFld_keeps
    | with_reducible apply State.snapFeat_keeps
    | with_reducible apply Keeps.foldl
    | with_reducible apply Keeps.foldl_fst
    | with_reducible apply Keeps.foldl_snd
    | split
    | with_reducible apply Keeps.upd

theorem State.sdClocked_keeps (h : Keeps s₀ s) (arg : Reading) : Keeps s₀ (State.sdClocked s arg) := by
  unfold State.sdClocked
  try dsimp only
  repeat' first
    | with_reducible assumption
    | intro _
    | with_reducible apply State.setFld_keeps
    | split
    | with_reducible apply Keeps.upd

theorem State.pacerPeriod_keeps (h : Keeps s₀ s) (n : Nat) (env : List Reading) (t : W64) : Keeps s₀ (State.pacerPeriod s n env t) := by
  unfold State.pacerPeriod
  try dsimp only
  repeat' first
    | with_reducible assumption
    | intro _
    | with_reducible apply State.adcConvert_keeps
    | with_reducible apply State.bumpFree_keeps
    | with_reducible apply State.latchChan_keeps
    | with_reducible apply State.pacerOff_keeps
    | with_reducible apply State.pacerTake_keeps
    | with_reducible apply State.rise_keeps
    | with_reducible apply State.sdClocked_keeps
    | with_reducible apply State.setPacer_keeps
    | with_reducible apply State.updChan_keeps
    | with_reducible apply Keeps.foldl
    | with_reducible apply Keeps.foldl_fst
    | with_reducible apply Keeps.foldl_snd
    | split
    | with_reducible apply Keeps.upd

theorem State.pacerInstant_keeps (h : Keeps s₀ s) (n : Nat) (env : List Reading) : Keeps s₀ (State.pacerInstant n env s) := by
  unfold State.pacerInstant
  try dsimp only
  repeat' first
    | with_reducible assumption
    | intro _
    | with_reducible apply State.bump_keeps
    | with_reducible apply State.pacerPeriod_keeps
    | with_reducible apply State.setPacer_keeps
    | split
    | with_reducible apply Keeps.upd

theorem State.pacerBegin_keeps (h : Keeps s₀ s) (n : Nat) : Keeps s₀ (State.pacerBegin n s) := by
  unfold State.pacerBegin
  try dsimp only
  repeat' first
    | with_reducible assumption
    | intro _
    | with_reducible apply State.setPacer_keeps
    | split
    | with_reducible apply Keeps.upd

theorem State.pRun_keeps (h : Keeps s₀ s) (n : Nat) (op : Nat) (f : Nat → PIns → State → State) (hf : ∀ y0 y1 y2, Keeps s₀ y2 → Keeps s₀ (f y0 y1 y2)) : Keeps s₀ (State.pRun s n op f) := by
  unfold State.pRun
  try dsimp only
  repeat' first
    | with_reducible assumption
    | intro _
    | with_reducible apply hf
    | split
    | with_reducible apply Keeps.upd

theorem State.pAdvance_keeps (h : Keeps s₀ s) (n : Nat) (k : Nat) : Keeps s₀ (State.pAdvance n k s) := by
  unfold State.pAdvance
  try dsimp only
  repeat' first
    | with_reducible assumption
    | intro _
    | with_reducible apply State.setPacer_keeps
    | split
    | with_reducible apply Keeps.upd

theorem State.setPx_keeps (h : Keeps s₀ s) (n : Nat) (c : Nat) (r : Nat) (v : W32) : Keeps s₀ (State.setPx s n c r v) := by
  unfold State.setPx
  try dsimp only
  repeat' first
    | with_reducible assumption
    | intro _
    | with_reducible apply State.modChan_keeps
    | split
    | with_reducible apply Keeps.upd

theorem State.setSat_keeps (h : Keeps s₀ s) (n : Nat) (c : Nat) (sat : Bool) : Keeps s₀ (State.setSat s n c sat) := by
  unfold State.setSat
  try dsimp only
  repeat' first
    | with_reducible assumption
    | intro _
    | with_reducible apply State.setFld_keeps
    | split
    | with_reducible apply Keeps.upd

theorem State.putPx_keeps (h : Keeps s₀ s) (n : Nat) (c : Nat) (r : Nat) (v : W32 × Bool) : Keeps s₀ (State.putPx s n c r v) := by
  unfold State.putPx
  try dsimp only
  repeat' first
    | with_reducible assumption
    | intro _
    | with_reducible apply State.setPx_keeps
    | with_reducible apply State.setSat_keeps
    | split
    | with_reducible apply Keeps.upd

theorem State.putAcc_keeps (h : Keeps s₀ s) (n : Nat) (c : Nat) (v : Int) : Keeps s₀ (State.putAcc s n c v) := by
  unfold State.putAcc
  try dsimp only
  repeat' first
    | with_reducible assumption
    | intro _
    | with_reducible apply State.modChan_keeps
    | with_reducible apply State.setSat_keeps
    | split
    | with_reducible apply Keeps.upd

theorem State.pAlu_keeps (h : Keeps s₀ s) (n : Nat) (op : Nat) (f : Int → Int → PIns → W32 × Bool) : Keeps s₀ (State.pAlu n op f s) := by
  unfold State.pAlu
  try dsimp only
  repeat' first
    | with_reducible assumption
    | intro _
    | with_reducible apply State.pAdvance_keeps
    | with_reducible apply State.pRun_keeps
    | with_reducible apply State.putPx_keeps
    | split
    | with_reducible apply Keeps.upd

theorem State.pMac_keeps (h : Keeps s₀ s) (n : Nat) (op : Nat) (f : State → Nat → PIns → Int) : Keeps s₀ (State.pMac n op f s) := by
  unfold State.pMac
  try dsimp only
  repeat' first
    | with_reducible assumption
    | intro _
    | with_reducible apply State.pAdvance_keeps
    | with_reducible apply State.pRun_keeps
    | with_reducible apply State.putAcc_keeps
    | split
    | with_reducible apply Keeps.upd

theorem State.pStore_keeps (h : Keeps s₀ s) (n : Nat) (c : Nat) (a : Nat) (v : W32) : Keeps s₀ (State.pStore s n c a v) := by
  unfold State.pStore
  try dsimp only
  repeat' first
    | with_reducible assumption
    | intro _
    | with_reducible apply State.modChan_keeps
    | with_reducible apply State.setPmem_keeps
    | split
    | with_reducible apply Keeps.upd

theorem State.pHyst_keeps (h : Keeps s₀ s) (n : Nat) (c : Nat) (i : PIns) : Keeps s₀ (State.pHyst n c i s) := by
  unfold State.pHyst
  try dsimp only
  repeat' first
    | with_reducible assumption
    | intro _
    | with_reducible apply State.modChan_keeps
    | with_reducible apply State.setFld_keeps
    | with_reducible apply State.setPx_keeps
    | split
    | with_reducible apply Keeps.upd

theorem State.pHalt_keeps (h : Keeps s₀ s) (n : Nat) (c : Nat) : Keeps s₀ (State.pHalt n c s) := by
  unfold State.pHalt
  try dsimp only
  repeat' first
    | with_reducible assumption
    | intro _
    | with_reducible apply State.modChan_keeps
    | with_reducible apply State.setPacer_keeps
    | with_reducible apply Keeps.foldl
    | with_reducible apply Keeps.foldl_fst
    | with_reducible apply Keeps.foldl_snd
    | split
    | with_reducible apply Keeps.upd

theorem State.mbxTake_keeps (h : Keeps s₀ s) (n : Nat) (c : Nat) (ws : List W32) : Keeps s₀ (State.mbxTake s n c ws) := by
  unfold State.mbxTake
  try dsimp only
  repeat' first
    | with_reducible assumption
    | intro _
    | with_reducible apply State.modChan_keeps
    | with_reducible apply State.rise_keeps
    | split
    | with_reducible apply Keeps.upd

theorem State.mbxReject_keeps (h : Keeps s₀ s) (n : Nat) (c : Nat) : Keeps s₀ (State.mbxReject s n c) := by
  unfold State.mbxReject
  try dsimp only
  repeat' first
    | with_reducible assumption
    | intro _
    | with_reducible apply State.setFld_keeps
    | split
    | with_reducible apply Keeps.upd

theorem State.mbxCommit_keeps (h : Keeps s₀ s) (r : Nat) (n : Nat) (c : Nat) (v : W32) : Keeps s₀ (State.mbxCommit r n c v s) := by
  unfold State.mbxCommit
  try dsimp only
  repeat' first
    | with_reducible assumption
    | intro _
    | with_reducible apply State.mbxReject_keeps
    | with_reducible apply State.mbxTake_keeps
    | split
    | with_reducible apply Keeps.upd

theorem State.mbxJudge_keeps (h : Keeps s₀ s) (n : Nat) (c : Nat) (ws : List W32) : Keeps s₀ (State.mbxJudge s n c ws) := by
  unfold State.mbxJudge
  try dsimp only
  repeat' first
    | with_reducible assumption
    | intro _
    | with_reducible apply State.mbxReject_keeps
    | with_reducible apply State.mbxTake_keeps
    | split
    | with_reducible apply Keeps.upd

theorem State.mbxFeed_keeps (h : Keeps s₀ s) (n : Nat) (c : Nat) : Keeps s₀ (State.mbxFeed n c s) := by
  unfold State.mbxFeed
  try dsimp only
  repeat' first
    | with_reducible assumption
    | intro _
    | with_reducible apply State.bump_keeps
    | with_reducible apply State.collectWord_keeps
    | with_reducible apply State.mbxReject_keeps
    | with_reducible apply State.mbxTake_keeps
    | with_reducible refine State.collectWord_of ?_ (by assumption)
    | split
    | with_reducible apply Keeps.upd

theorem State.pacerEcc_keeps (h : Keeps s₀ s) (n : Nat) (uncorrectable : Bool) : Keeps s₀ (State.pacerEcc n uncorrectable s) := by
  unfold State.pacerEcc
  try dsimp only
  repeat' first
    | with_reducible assumption
    | intro _
    | with_reducible apply State.bump_keeps
    | with_reducible apply State.pacerOff_keeps
    | with_reducible apply State.setFld_keeps
    | split
    | with_reducible apply Keeps.upd

/-! ### Commands: each answers a next state -/

theorem execPacerArm_keeps (r : Requester) (n : Fin 16) (v : W32) : Answers s (execPacerArm r n v s) := by
  unfold execPacerArm
  try dsimp only
  repeat' first
    | with_reducible assumption
    | with_reducible exact Keeps.refl _
    | intro _
    | with_reducible apply Answers.mk
    | with_reducible apply State.pacerCtl_keeps
    | with_reducible apply State.permit_keeps
    | split
    | with_reducible apply Keeps.upd

theorem execPacerStop_keeps (r : Requester) (n : Fin 16) (v : W32) : Answers s (execPacerStop r n v s) := by
  unfold execPacerStop
  try dsimp only
  repeat' first
    | with_reducible assumption
    | with_reducible exact Keeps.refl _
    | intro _
    | with_reducible apply Answers.mk
    | with_reducible apply State.pacerCtl_keeps
    | with_reducible apply State.permit_keeps
    | split
    | with_reducible apply Keeps.upd

theorem execPacerSwitch_keeps (r : Requester) (n : Fin 16) (v : W32) : Answers s (execPacerSwitch r n v s) := by
  unfold execPacerSwitch
  try dsimp only
  repeat' first
    | with_reducible assumption
    | with_reducible exact Keeps.refl _
    | intro _
    | with_reducible apply Answers.mk
    | with_reducible apply State.pacerCtl_keeps
    | with_reducible apply State.permit_keeps
    | split
    | with_reducible apply Keeps.upd

theorem execPacerSampleInstant_keeps (n : Fin 16) (env : List Reading) : Answers s (execPacerSampleInstant n env s) := by
  unfold execPacerSampleInstant
  try dsimp only
  repeat' first
    | with_reducible assumption
    | with_reducible exact Keeps.refl _
    | intro _
    | with_reducible apply Answers.mk
    | with_reducible apply State.pacerInstant_keeps
    | split
    | with_reducible apply Keeps.upd

theorem execPacerExecutionStart_keeps (n : Fin 16) : Answers s (execPacerExecutionStart n s) := by
  unfold execPacerExecutionStart
  try dsimp only
  repeat' first
    | with_reducible assumption
    | with_reducible exact Keeps.refl _
    | intro _
    | with_reducible apply Answers.mk
    | with_reducible apply State.pacerBegin_keeps
    | split
    | with_reducible apply Keeps.upd

theorem execPacerEccError_keeps (n : Fin 16) (uncorrectable : Bool) : Answers s (execPacerEccError n uncorrectable s) := by
  unfold execPacerEccError
  try dsimp only
  repeat' first
    | with_reducible assumption
    | with_reducible exact Keeps.refl _
    | intro _
    | with_reducible apply Answers.mk
    | with_reducible apply State.pacerEcc_keeps
    | split
    | with_reducible apply Keeps.upd

theorem execMailboxCommit_keeps (r : Requester) (n : Fin 16) (c : Fin 4) (v : W32) : Answers s (execMailboxCommit r n c v s) := by
  unfold execMailboxCommit
  try dsimp only
  repeat' first
    | with_reducible assumption
    | with_reducible exact Keeps.refl _
    | intro _
    | with_reducible apply Answers.mk
    | with_reducible apply State.mbxCommit_keeps
    | with_reducible apply State.permit_keeps
    | split
    | with_reducible apply Keeps.upd

theorem execMailboxFeed_keeps (n : Fin 16) (c : Fin 4) : Answers s (execMailboxFeed n c s) := by
  unfold execMailboxFeed
  try dsimp only
  repeat' first
    | with_reducible assumption
    | with_reducible exact Keeps.refl _
    | intro _
    | with_reducible apply Answers.mk
    | with_reducible apply State.mbxFeed_keeps
    | split
    | with_reducible apply Keeps.upd

theorem execPacerHalt_keeps (n : Fin 16) : Answers s (execPacerHalt n s) := by
  unfold execPacerHalt
  try dsimp only
  repeat' first
    | with_reducible assumption
    | with_reducible exact Keeps.refl _
    | intro _
    | with_reducible apply Answers.mk
    | with_reducible apply State.pHalt_keeps
    | with_reducible apply State.pRun_keeps
    | split
    | with_reducible apply Keeps.upd

theorem execPacerNop_keeps (n : Fin 16) : Answers s (execPacerNop n s) := by
  unfold execPacerNop
  try dsimp only
  repeat' first
    | with_reducible assumption
    | with_reducible exact Keeps.refl _
    | intro _
    | with_reducible apply Answers.mk
    | with_reducible apply State.pAdvance_keeps
    | with_reducible apply State.pRun_keeps
    | split
    | with_reducible apply Keeps.upd

theorem execPacerLd_keeps (n : Fin 16) : Answers s (execPacerLd n s) := by
  unfold execPacerLd
  try dsimp only
  repeat' first
    | with_reducible assumption
    | with_reducible exact Keeps.refl _
    | intro _
    | with_reducible apply Answers.mk
    | with_reducible apply State.pAdvance_keeps
    | with_reducible apply State.pRun_keeps
    | with_reducible apply State.setPx_keeps
    | split
    | with_reducible apply Keeps.upd

theorem execPacerSt_keeps (n : Fin 16) : Answers s (execPacerSt n s) := by
  unfold execPacerSt
  try dsimp only
  repeat' first
    | with_reducible assumption
    | with_reducible exact Keeps.refl _
    | intro _
    | with_reducible apply Answers.mk
    | with_reducible apply State.pAdvance_keeps
    | with_reducible apply State.pRun_keeps
    | with_reducible apply State.pStore_keeps
    | split
    | with_reducible apply Keeps.upd

theorem execPacerLdi_keeps (n : Fin 16) : Answers s (execPacerLdi n s) := by
  unfold execPacerLdi
  try dsimp only
  repeat' first
    | with_reducible assumption
    | with_reducible exact Keeps.refl _
    | intro _
    | with_reducible apply Answers.mk
    | with_reducible apply State.pAlu_keeps
    | split
    | with_reducible apply Keeps.upd

theorem execPacerLdk_keeps (n : Fin 16) : Answers s (execPacerLdk n s) := by
  unfold execPacerLdk
  try dsimp only
  repeat' first
    | with_reducible assumption
    | with_reducible exact Keeps.refl _
    | intro _
    | with_reducible apply Answers.mk
    | with_reducible apply State.pAdvance_keeps
    | with_reducible apply State.pRun_keeps
    | with_reducible apply State.setPx_keeps
    | split
    | with_reducible apply Keeps.upd

theorem execPacerMov_keeps (n : Fin 16) : Answers s (execPacerMov n s) := by
  unfold execPacerMov
  try dsimp only
  repeat' first
    | with_reducible assumption
    | with_reducible exact Keeps.refl _
    | intro _
    | with_reducible apply Answers.mk
    | with_reducible apply State.pAlu_keeps
    | split
    | with_reducible apply Keeps.upd

theorem execPacerAdd_keeps (n : Fin 16) : Answers s (execPacerAdd n s) := by
  unfold execPacerAdd
  try dsimp only
  repeat' first
    | with_reducible assumption
    | with_reducible exact Keeps.refl _
    | intro _
    | with_reducible apply Answers.mk
    | with_reducible apply State.pAlu_keeps
    | split
    | with_reducible apply Keeps.upd

theorem execPacerSub_keeps (n : Fin 16) : Answers s (execPacerSub n s) := by
  unfold execPacerSub
  try dsimp only
  repeat' first
    | with_reducible assumption
    | with_reducible exact Keeps.refl _
    | intro _
    | with_reducible apply Answers.mk
    | with_reducible apply State.pAlu_keeps
    | split
    | with_reducible apply Keeps.upd

theorem execPacerWsub_keeps (n : Fin 16) : Answers s (execPacerWsub n s) := by
  unfold execPacerWsub
  try dsimp only
  repeat' first
    | with_reducible assumption
    | with_reducible exact Keeps.refl _
    | intro _
    | with_reducible apply Answers.mk
    | with_reducible apply State.pAlu_keeps
    | split
    | with_reducible apply Keeps.upd

theorem execPacerNeg_keeps (n : Fin 16) : Answers s (execPacerNeg n s) := by
  unfold execPacerNeg
  try dsimp only
  repeat' first
    | with_reducible assumption
    | with_reducible exact Keeps.refl _
    | intro _
    | with_reducible apply Answers.mk
    | with_reducible apply State.pAlu_keeps
    | split
    | with_reducible apply Keeps.upd

theorem execPacerAbs_keeps (n : Fin 16) : Answers s (execPacerAbs n s) := by
  unfold execPacerAbs
  try dsimp only
  repeat' first
    | with_reducible assumption
    | with_reducible exact Keeps.refl _
    | intro _
    | with_reducible apply Answers.mk
    | with_reducible apply State.pAlu_keeps
    | split
    | with_reducible apply Keeps.upd

theorem execPacerMin_keeps (n : Fin 16) : Answers s (execPacerMin n s) := by
  unfold execPacerMin
  try dsimp only
  repeat' first
    | with_reducible assumption
    | with_reducible exact Keeps.refl _
    | intro _
    | with_reducible apply Answers.mk
    | with_reducible apply State.pAlu_keeps
    | split
    | with_reducible apply Keeps.upd

theorem execPacerMax_keeps (n : Fin 16) : Answers s (execPacerMax n s) := by
  unfold execPacerMax
  try dsimp only
  repeat' first
    | with_reducible assumption
    | with_reducible exact Keeps.refl _
    | intro _
    | with_reducible apply Answers.mk
    | with_reducible apply State.pAlu_keeps
    | split
    | with_reducible apply Keeps.upd

theorem execPacerMul_keeps (n : Fin 16) : Answers s (execPacerMul n s) := by
  unfold execPacerMul
  try dsimp only
  repeat' first
    | with_reducible assumption
    | with_reducible exact Keeps.refl _
    | intro _
    | with_reducible apply Answers.mk
    | with_reducible apply State.pAlu_keeps
    | split
    | with_reducible apply Keeps.upd

theorem execPacerShift_keeps (n : Fin 16) : Answers s (execPacerShift n s) := by
  unfold execPacerShift
  try dsimp only
  repeat' first
    | with_reducible assumption
    | with_reducible exact Keeps.refl _
    | intro _
    | with_reducible apply Answers.mk
    | with_reducible apply State.pAlu_keeps
    | split
    | with_reducible apply Keeps.upd

theorem execPacerClamp_keeps (n : Fin 16) : Answers s (execPacerClamp n s) := by
  unfold execPacerClamp
  try dsimp only
  repeat' first
    | with_reducible assumption
    | with_reducible exact Keeps.refl _
    | intro _
    | with_reducible apply Answers.mk
    | with_reducible apply State.pAdvance_keeps
    | with_reducible apply State.pRun_keeps
    | with_reducible apply State.putPx_keeps
    | split
    | with_reducible apply Keeps.upd

theorem execPacerAclr_keeps (n : Fin 16) : Answers s (execPacerAclr n s) := by
  unfold execPacerAclr
  try dsimp only
  repeat' first
    | with_reducible assumption
    | with_reducible exact Keeps.refl _
    | intro _
    | with_reducible apply Answers.mk
    | with_reducible apply State.pAdvance_keeps
    | with_reducible apply State.pRun_keeps
    | with_reducible apply State.putAcc_keeps
    | split
    | with_reducible apply Keeps.upd

theorem execPacerAld_keeps (n : Fin 16) : Answers s (execPacerAld n s) := by
  unfold execPacerAld
  try dsimp only
  repeat' first
    | with_reducible assumption
    | with_reducible exact Keeps.refl _
    | intro _
    | with_reducible apply Answers.mk
    | with_reducible apply State.pAdvance_keeps
    | with_reducible apply State.pRun_keeps
    | with_reducible apply State.putAcc_keeps
    | split
    | with_reducible apply Keeps.upd

theorem execPacerMac_keeps (n : Fin 16) : Answers s (execPacerMac n s) := by
  unfold execPacerMac
  try dsimp only
  repeat' first
    | with_reducible assumption
    | with_reducible exact Keeps.refl _
    | intro _
    | with_reducible apply Answers.mk
    | with_reducible apply State.pMac_keeps
    | split
    | with_reducible apply Keeps.upd

theorem execPacerMsu_keeps (n : Fin 16) : Answers s (execPacerMsu n s) := by
  unfold execPacerMsu
  try dsimp only
  repeat' first
    | with_reducible assumption
    | with_reducible exact Keeps.refl _
    | intro _
    | with_reducible apply Answers.mk
    | with_reducible apply State.pMac_keeps
    | split
    | with_reducible apply Keeps.upd

theorem execPacerMacx_keeps (n : Fin 16) : Answers s (execPacerMacx n s) := by
  unfold execPacerMacx
  try dsimp only
  repeat' first
    | with_reducible assumption
    | with_reducible exact Keeps.refl _
    | intro _
    | with_reducible apply Answers.mk
    | with_reducible apply State.pMac_keeps
    | split
    | with_reducible apply Keeps.upd

theorem execPacerAst_keeps (n : Fin 16) : Answers s (execPacerAst n s) := by
  unfold execPacerAst
  try dsimp only
  repeat' first
    | with_reducible assumption
    | with_reducible exact Keeps.refl _
    | intro _
    | with_reducible apply Answers.mk
    | with_reducible apply State.pAdvance_keeps
    | with_reducible apply State.pRun_keeps
    | with_reducible apply State.putPx_keeps
    | split
    | with_reducible apply Keeps.upd

theorem execPacerDiv_keeps (n : Fin 16) : Answers s (execPacerDiv n s) := by
  unfold execPacerDiv
  try dsimp only
  repeat' first
    | with_reducible assumption
    | with_reducible exact Keeps.refl _
    | intro _
    | with_reducible apply Answers.mk
    | with_reducible apply State.pAlu_keeps
    | split
    | with_reducible apply Keeps.upd

theorem execPacerSqrt_keeps (n : Fin 16) : Answers s (execPacerSqrt n s) := by
  unfold execPacerSqrt
  try dsimp only
  repeat' first
    | with_reducible assumption
    | with_reducible exact Keeps.refl _
    | intro _
    | with_reducible apply Answers.mk
    | with_reducible apply State.pAlu_keeps
    | split
    | with_reducible apply Keeps.upd

theorem execPacerSincos_keeps (n : Fin 16) : Answers s (execPacerSincos n s) := by
  unfold execPacerSincos
  try dsimp only
  repeat' first
    | with_reducible assumption
    | with_reducible exact Keeps.refl _
    | intro _
    | with_reducible apply Answers.mk
    | with_reducible apply State.bumpFree_keeps
    | with_reducible apply State.pAdvance_keeps
    | with_reducible apply State.pRun_keeps
    | with_reducible apply State.putPx_keeps
    | split
    | with_reducible apply Keeps.upd

theorem execPacerHyst_keeps (n : Fin 16) : Answers s (execPacerHyst n s) := by
  unfold execPacerHyst
  try dsimp only
  repeat' first
    | with_reducible assumption
    | with_reducible exact Keeps.refl _
    | intro _
    | with_reducible apply Answers.mk
    | with_reducible apply State.pAdvance_keeps
    | with_reducible apply State.pHyst_keeps
    | with_reducible apply State.pRun_keeps
    | split
    | with_reducible apply Keeps.upd

theorem execPacerBr_keeps (n : Fin 16) : Answers s (execPacerBr n s) := by
  unfold execPacerBr
  try dsimp only
  repeat' first
    | with_reducible assumption
    | with_reducible exact Keeps.refl _
    | intro _
    | with_reducible apply Answers.mk
    | with_reducible apply State.pAdvance_keeps
    | with_reducible apply State.pRun_keeps
    | split
    | with_reducible apply Keeps.upd

theorem execPacerSetf_keeps (n : Fin 16) : Answers s (execPacerSetf n s) := by
  unfold execPacerSetf
  try dsimp only
  repeat' first
    | with_reducible assumption
    | with_reducible exact Keeps.refl _
    | intro _
    | with_reducible apply Answers.mk
    | with_reducible apply State.pAdvance_keeps
    | with_reducible apply State.pRun_keeps
    | with_reducible apply State.setFld_keeps
    | split
    | with_reducible apply Keeps.upd

theorem execPacerEvt_keeps (n : Fin 16) : Answers s (execPacerEvt n s) := by
  unfold execPacerEvt
  try dsimp only
  repeat' first
    | with_reducible assumption
    | with_reducible exact Keeps.refl _
    | intro _
    | with_reducible apply Answers.mk
    | with_reducible apply State.pAdvance_keeps
    | with_reducible apply State.pRun_keeps
    | with_reducible apply State.tallyAdd_keeps
    | split
    | with_reducible apply Keeps.upd

end Sys2Proof.Machine
end

