-- ==== Sys2Proof/Laws/KeepsIsland.lean ====
section
/-!
SUPPORT. What the operations and commands of Machine/Island.lean keep (Laws/Keeps.lean).
-/

namespace Sys2Proof.Machine

open Sys2Proof State

variable {s₀ s : State}

theorem State.sdTrip_keeps (h : Keeps s₀ s) (k : Nat) (v : Nat) : Keeps s₀ (State.sdTrip k v s) := by
  unfold State.sdTrip
  try dsimp only
  repeat' first
    | with_reducible assumption
    | intro _
    | with_reducible apply State.setFld_keeps
    | with_reducible apply State.settleBridge_keeps
    | split
    | with_reducible apply Keeps.upd

theorem State.sdNoClock_keeps (h : Keeps s₀ s) (k : Nat) : Keeps s₀ (State.sdNoClock k s) := by
  unfold State.sdNoClock
  try dsimp only
  repeat' first
    | with_reducible assumption
    | intro _
    | with_reducible apply State.setFld_keeps
    | split
    | with_reducible apply Keeps.upd

theorem State.encDepart_keeps (h : Keeps s₀ s) (e : Nat) : Keeps s₀ (State.encDepart s e) := by
  unfold State.encDepart
  try dsimp only
  repeat' first
    | with_reducible assumption
    | intro _
    | with_reducible apply State.laneLost_keeps
    | with_reducible apply Keeps.foldl
    | with_reducible apply Keeps.foldl_fst
    | with_reducible apply Keeps.foldl_snd
    | split
    | with_reducible apply Keeps.upd

theorem State.encFault_keeps (h : Keeps s₀ s) (e : Nat) (f : Fld) (run : Bool) : Keeps s₀ (State.encFault s e f run) := by
  unfold State.encFault
  try dsimp only
  repeat' first
    | with_reducible assumption
    | intro _
    | with_reducible apply State.encDepart_keeps
    | with_reducible apply State.setEnc_keeps
    | with_reducible apply State.setFld_keeps
    | split
    | with_reducible apply Keeps.upd

theorem State.encValid_keeps (h : Keeps s₀ s) (e : Nat) : Keeps s₀ (State.encValid s e) := by
  unfold State.encValid
  try dsimp only
  repeat' first
    | with_reducible assumption
    | intro _
    | with_reducible apply State.setEnc_keeps
    | with_reducible apply State.setFld_keeps
    | split
    | with_reducible apply Keeps.upd

theorem State.encPlace_keeps (h : Keeps s₀ s) (e : Nat) (num : Int) (den : Nat) : Keeps s₀ (State.encPlace s e num den) := by
  unfold State.encPlace
  try dsimp only
  repeat' first
    | with_reducible assumption
    | intro _
    | with_reducible apply State.bumpFree_keeps
    | with_reducible apply State.setEnc_keeps
    | split
    | with_reducible apply Keeps.upd

theorem State.encSample_keeps (h : Keeps s₀ s) (e : Nat) (x : EncSample) : Keeps s₀ (State.encSample e x s) := by
  unfold State.encSample
  try dsimp only
  repeat' first
    | with_reducible assumption
    | intro _
    | with_reducible apply State.bumpFree_keeps
    | with_reducible apply State.encFault_keeps
    | with_reducible apply State.encPlace_keeps
    | with_reducible apply State.encValid_keeps
    | with_reducible apply State.setEnc_keeps
    | split
    | with_reducible apply Keeps.upd

theorem State.ssiStart_keeps (h : Keeps s₀ s) (e : Nat) : Keeps s₀ (State.ssiStart e s) := by
  unfold State.ssiStart
  try dsimp only
  repeat' first
    | with_reducible assumption
    | intro _
    | with_reducible apply State.setEnc_keeps
    | split
    | with_reducible apply Keeps.upd

theorem State.ssiWord_keeps (h : Keeps s₀ s) (e : Nat) (w : Option W32) : Keeps s₀ (State.ssiWord e w s) := by
  unfold State.ssiWord
  try dsimp only
  repeat' first
    | with_reducible assumption
    | intro _
    | with_reducible apply State.encFault_keeps
    | with_reducible apply State.encValid_keeps
    | with_reducible apply State.setEnc_keeps
    | split
    | with_reducible apply Keeps.upd

theorem State.carrierEdge_keeps (h : Keeps s₀ s) (b : Nat) (peak : Bool) : Keeps s₀ (State.carrierEdge b peak s) := by
  unfold State.carrierEdge
  try dsimp only
  repeat' first
    | with_reducible assumption
    | intro _
    | with_reducible apply State.load_keeps
    | with_reducible apply State.recmd_keeps
    | with_reducible apply State.setBridge_keeps
    | with_reducible refine State.load_of ?_ (by assumption)
    | split
    | with_reducible apply Keeps.upd

theorem State.compareMatch_keeps (h : Keeps s₀ s) (b : Nat) (p : Nat) : Keeps s₀ (State.compareMatch b p s) := by
  unfold State.compareMatch
  try dsimp only
  repeat' first
    | with_reducible assumption
    | intro _
    | with_reducible apply State.recmd_keeps
    | with_reducible apply State.setBridge_keeps
    | split
    | with_reducible apply Keeps.upd

theorem State.enterHold_keeps (h : Keeps s₀ s) (cause : Nat) : Keeps s₀ (State.enterHold s cause) := by
  unfold State.enterHold
  try dsimp only
  repeat' first
    | with_reducible assumption
    | intro _
    | with_reducible apply State.setFld_keeps
    | split
    | with_reducible apply Keeps.upd

theorem State.islandRun_keeps (h : Keeps s₀ s) (r : Nat) : Keeps s₀ (State.islandRun r s) := by
  unfold State.islandRun
  try dsimp only
  repeat' first
    | with_reducible assumption
    | intro _
    | with_reducible apply State.setFld_keeps
    | split
    | with_reducible apply Keeps.upd

theorem State.islandToReset_keeps (h : Keeps s₀ s)  : Keeps s₀ (State.islandToReset s) := by
  unfold State.islandToReset
  try dsimp only
  repeat' first
    | with_reducible assumption
    | intro _
    | with_reducible apply Keeps.updRegs
    | split
    | with_reducible apply Keeps.upd

theorem State.islandRelease_keeps (h : Keeps s₀ s)  : Keeps s₀ (State.islandRelease s) := by
  unfold State.islandRelease
  try dsimp only
  repeat' first
    | with_reducible assumption
    | intro _
    | with_reducible apply State.settleSto_keeps
    | split
    | with_reducible apply Keeps.upd

theorem State.islandReady_keeps (h : Keeps s₀ s)  : Keeps s₀ (State.islandReady s) := by
  unfold State.islandReady
  try dsimp only
  repeat' first
    | with_reducible assumption
    | intro _
    | with_reducible apply State.setFld_keeps
    | split
    | with_reducible apply Keeps.upd

theorem State.winWrite_keeps (h : Keeps s₀ s) (r : Nat) (off : Nat) (v : W32) : Keeps s₀ (State.winWrite s r off v) := by
  unfold State.winWrite
  try dsimp only
  repeat' first
    | with_reducible assumption
    | intro _
    | with_reducible apply State.setFld_keeps
    | with_reducible apply State.setPmem_keeps
    | split
    | with_reducible apply Keeps.upd

/-! ### Commands: each answers a next state -/

theorem execSdTrip_keeps (k : Fin 48) (value : BitVec 16) : Answers s (execSdTrip k value s) := by
  unfold execSdTrip
  try dsimp only
  repeat' first
    | with_reducible assumption
    | with_reducible exact Keeps.refl _
    | intro _
    | with_reducible apply Answers.mk
    | with_reducible apply State.sdTrip_keeps
    | split
    | with_reducible apply Keeps.upd

theorem execSdNoClock_keeps (k : Fin 48) : Answers s (execSdNoClock k s) := by
  unfold execSdNoClock
  try dsimp only
  repeat' first
    | with_reducible assumption
    | with_reducible exact Keeps.refl _
    | intro _
    | with_reducible apply Answers.mk
    | with_reducible apply State.sdNoClock_keeps
    | split
    | with_reducible apply Keeps.upd

theorem execEncoderCount_keeps (e : Fin 12) (x : EncSample) : Answers s (execEncoderCount e x s) := by
  unfold execEncoderCount
  try dsimp only
  repeat' first
    | with_reducible assumption
    | with_reducible exact Keeps.refl _
    | intro _
    | with_reducible apply Answers.mk
    | with_reducible apply State.encSample_keeps
    | split
    | with_reducible apply Keeps.upd

theorem execSsiTransferStart_keeps (e : Fin 12) : Answers s (execSsiTransferStart e s) := by
  unfold execSsiTransferStart
  try dsimp only
  repeat' first
    | with_reducible assumption
    | with_reducible exact Keeps.refl _
    | intro _
    | with_reducible apply Answers.mk
    | with_reducible apply State.ssiStart_keeps
    | split
    | with_reducible apply Keeps.upd

theorem execSsiWordComplete_keeps (e : Fin 12) (word : Option W32) : Answers s (execSsiWordComplete e word s) := by
  unfold execSsiWordComplete
  try dsimp only
  repeat' first
    | with_reducible assumption
    | with_reducible exact Keeps.refl _
    | intro _
    | with_reducible apply Answers.mk
    | with_reducible apply State.ssiWord_keeps
    | split
    | with_reducible apply Keeps.upd

theorem execCarrierZero_keeps (b : Fin 12) (peak : Bool) : Answers s (execCarrierZero b peak s) := by
  unfold execCarrierZero
  try dsimp only
  repeat' first
    | with_reducible assumption
    | with_reducible exact Keeps.refl _
    | intro _
    | with_reducible apply Answers.mk
    | with_reducible apply State.carrierEdge_keeps
    | split
    | with_reducible apply Keeps.upd

theorem execPwmCompareMatch_keeps (b : Fin 12) (phase : Fin 3) : Answers s (execPwmCompareMatch b phase s) := by
  unfold execPwmCompareMatch
  try dsimp only
  repeat' first
    | with_reducible assumption
    | with_reducible exact Keeps.refl _
    | intro _
    | with_reducible apply Answers.mk
    | with_reducible apply State.compareMatch_keeps
    | split
    | with_reducible apply Keeps.upd

theorem execIslandHold_keeps (r : Requester) : Answers s (execIslandHold r s) := by
  unfold execIslandHold
  try dsimp only
  repeat' first
    | with_reducible assumption
    | with_reducible exact Keeps.refl _
    | intro _
    | with_reducible apply Answers.mk
    | with_reducible apply State.enterHold_keeps
    | with_reducible apply State.permit_keeps
    | split
    | with_reducible apply Keeps.upd

theorem execIslandRun_keeps (r : Requester) : Answers s (execIslandRun r s) := by
  unfold execIslandRun
  try dsimp only
  repeat' first
    | with_reducible assumption
    | with_reducible exact Keeps.refl _
    | intro _
    | with_reducible apply Answers.mk
    | with_reducible apply State.islandRun_keeps
    | with_reducible apply State.permit_keeps
    | split
    | with_reducible apply Keeps.upd

theorem execIslandResetRelease_keeps  : Answers s (execIslandResetRelease s) := by
  unfold execIslandResetRelease
  try dsimp only
  repeat' first
    | with_reducible assumption
    | with_reducible exact Keeps.refl _
    | intro _
    | with_reducible apply Answers.mk
    | with_reducible apply State.islandRelease_keeps
    | split
    | with_reducible apply Keeps.upd

theorem execIslandInitComplete_keeps  : Answers s (execIslandInitComplete s) := by
  unfold execIslandInitComplete
  try dsimp only
  repeat' first
    | with_reducible assumption
    | with_reducible exact Keeps.refl _
    | intro _
    | with_reducible apply Answers.mk
    | with_reducible apply State.islandReady_keeps
    | split
    | with_reducible apply Keeps.upd

theorem execVioDriveChange_keeps (up : Bool) : Answers s (execVioDriveChange up s) := by
  unfold execVioDriveChange
  try dsimp only
  repeat' first
    | with_reducible assumption
    | with_reducible exact Keeps.refl _
    | intro _
    | with_reducible apply Answers.mk
    | split
    | with_reducible apply Keeps.upd

end Sys2Proof.Machine
end

