-- ==== Sys2Proof/Laws/KeepsFusion.lean ====
section
/-!
SUPPORT. What the operations and commands of Machine/Fusion.lean keep (Laws/Keeps.lean).
-/

namespace Sys2Proof.Machine

open Sys2Proof State

variable {s₀ s : State}

theorem State.setFstr_keeps (h : Keeps s₀ s) (k : Nat) (v : FStream) : Keeps s₀ (State.setFstr s k v) := by
  unfold State.setFstr
  try dsimp only
  repeat' first
    | with_reducible assumption
    | intro _
    | split
    | with_reducible apply Keeps.upd

theorem State.setFState_keeps (h : Keeps s₀ s) (k : Nat) (v : Nat) : Keeps s₀ (State.setFState s k v) := by
  unfold State.setFState
  try dsimp only
  repeat' first
    | with_reducible assumption
    | intro _
    | with_reducible apply State.setFld_keeps
    | split
    | with_reducible apply Keeps.upd

theorem State.showClock_keeps (h : Keeps s₀ s) (k : Nat) : Keeps s₀ (State.showClock s k) := by
  unfold State.showClock
  try dsimp only
  repeat' first
    | with_reducible assumption
    | intro _
    | with_reducible apply State.setFld_keeps
    | with_reducible apply State.setReg_keeps
    | split
    | with_reducible apply Keeps.upd

theorem State.dropSamples_keeps (h : Keeps s₀ s) (k : Nat) : Keeps s₀ (State.dropSamples s k) := by
  unfold State.dropSamples
  try dsimp only
  repeat' first
    | with_reducible assumption
    | intro _
    | split
    | with_reducible apply Keeps.upd

theorem State.desync_keeps (h : Keeps s₀ s) (k : Nat) : Keeps s₀ (State.desync s k) := by
  unfold State.desync
  try dsimp only
  repeat' first
    | with_reducible assumption
    | intro _
    | with_reducible apply State.dropSamples_keeps
    | with_reducible apply State.incident_keeps
    | with_reducible apply State.setFState_keeps
    | with_reducible apply State.setFstr_keeps
    | split
    | with_reducible apply Keeps.upd

theorem State.monitor_keeps (h : Keeps s₀ s) (k : Nat) (y : W64) (off : Int) : Keeps s₀ (State.monitor s k y off) := by
  unfold State.monitor
  try dsimp only
  repeat' first
    | with_reducible assumption
    | intro _
    | with_reducible apply State.desync_keeps
    | with_reducible apply State.setFstr_keeps
    | with_reducible apply Keeps.foldl
    | with_reducible apply Keeps.foldl_fst
    | with_reducible apply Keeps.foldl_snd
    | split
    | with_reducible apply Keeps.upd

theorem State.clockPair_keeps (h : Keeps s₀ s) (k : Nat) (x : W64) (y : W64) : Keeps s₀ (State.clockPair s k x y) := by
  unfold State.clockPair
  try dsimp only
  repeat' first
    | with_reducible assumption
    | intro _
    | with_reducible apply State.bumpFree_keeps
    | with_reducible apply State.monitor_keeps
    | with_reducible apply State.setFState_keeps
    | with_reducible apply State.setFstr_keeps
    | with_reducible apply State.showClock_keeps
    | split
    | with_reducible apply Keeps.upd

theorem State.setFifo_keeps (h : Keeps s₀ s) (m : Nat) (l : List W64) : Keeps s₀ (State.setFifo s m l) := by
  unfold State.setFifo
  try dsimp only
  repeat' first
    | with_reducible assumption
    | intro _
    | with_reducible apply State.setFld_keeps
    | split
    | with_reducible apply Keeps.upd

theorem State.capturePairs_keeps (n : Nat) : ∀ {s : State}, Keeps s₀ s → ∀ k : Nat, Keeps s₀ (State.capturePairs n s k) := by
  induction n with
  | zero => intro s h k; exact h
  | succ n ih =>
    intro s h k
    unfold State.capturePairs
    dsimp only
    split
    · split
      · exact ih (State.clockPair_keeps (State.setFifo_keeps (State.setFifo_keeps h _ _) _ _) _ _ _) _
      · exact h
    · exact h

theorem State.capturePair_keeps (h : Keeps s₀ s) (k : Nat) : Keeps s₀ (State.capturePair s k) :=
  State.capturePairs_keeps 8 h k

theorem State.capPush_keeps (h : Keeps s₀ s) (m : Nat) (v : W64) : Keeps s₀ (State.capPush s m v) := by
  unfold State.capPush
  try dsimp only
  repeat' first
    | with_reducible assumption
    | intro _
    | with_reducible apply State.capturePair_keeps
    | with_reducible apply State.setFifo_keeps
    | with_reducible apply State.setFld_keeps
    | with_reducible apply Keeps.foldl
    | with_reducible apply Keeps.foldl_fst
    | with_reducible apply Keeps.foldl_snd
    | split
    | with_reducible apply Keeps.upd

theorem State.captureEdge_keeps (h : Keeps s₀ s) (input : Nat) (rising : Bool) (eighth : Nat) : Keeps s₀ (State.captureEdge input rising eighth s) := by
  unfold State.captureEdge
  try dsimp only
  repeat' first
    | with_reducible assumption
    | intro _
    | with_reducible apply State.capPush_keeps
    | with_reducible apply Keeps.foldl
    | with_reducible apply Keeps.foldl_fst
    | with_reducible apply Keeps.foldl_snd
    | split
    | with_reducible apply Keeps.upd

theorem State.capRead_keeps (h : Keeps s₀ s) (r : Nat) (m : Nat) : Keeps s₀ (State.capRead r m s) := by
  unfold State.capRead
  try dsimp only
  repeat' first
    | with_reducible assumption
    | intro _
    | with_reducible apply State.answer_keeps
    | with_reducible apply State.setFifo_keeps
    | split
    | with_reducible apply Keeps.upd

theorem State.dispatchOne_keeps (h : Keeps s₀ s) (f : FiredCue) : Keeps s₀ (State.dispatchOne s f) := by
  unfold State.dispatchOne
  try dsimp only
  repeat' first
    | with_reducible assumption
    | intro _
    | with_reducible apply State.capPush_keeps
    | with_reducible apply State.cueMissed_keeps
    | with_reducible apply State.jobRelease_keeps
    | with_reducible apply State.tallyAdd_keeps
    | with_reducible refine State.jobRelease_of ?_ (by assumption)
    | split
    | with_reducible apply Keeps.upd

theorem State.dispatchNext_keeps (h : Keeps s₀ s)  : Keeps s₀ (State.dispatchNext s) := by
  unfold State.dispatchNext
  try dsimp only
  repeat' first
    | with_reducible assumption
    | intro _
    | with_reducible apply State.dispatchOne_keeps
    | split
    | with_reducible apply Keeps.upd

theorem State.admitInfo_keeps (h : Keeps s₀ s) (r : Nat) (err : Nat) (f : Nat) (k : Nat) : Keeps s₀ (State.admitInfo s r err f k) := by
  unfold State.admitInfo
  try dsimp only
  repeat' first
    | with_reducible assumption
    | intro _
    | with_reducible apply State.setReg_keeps
    | split
    | with_reducible apply Keeps.upd

theorem State.admitTake_keeps (h : Keeps s₀ s) (r : Nat) (k : Nat) (f : Nat) : Keeps s₀ (State.admitTake s r k f) := by
  unfold State.admitTake
  try dsimp only
  repeat' first
    | with_reducible assumption
    | intro _
    | with_reducible apply State.admitInfo_keeps
    | with_reducible apply State.setFState_keeps
    | with_reducible apply State.setFld_keeps
    | with_reducible apply State.setFstr_keeps
    | with_reducible apply State.setReg_keeps
    | with_reducible apply State.showClock_keeps
    | split
    | with_reducible apply Keeps.upd

theorem State.fusionAdmit_keeps (h : Keeps s₀ s) (r : Nat) : Keeps s₀ (State.fusionAdmit r s) := by
  unfold State.fusionAdmit
  try dsimp only
  repeat' first
    | with_reducible assumption
    | intro _
    | with_reducible apply State.admitInfo_keeps
    | with_reducible apply State.admitTake_keeps
    | with_reducible apply State.bump_keeps
    | split
    | with_reducible apply Keeps.upd

theorem State.setFtab_keeps (h : Keeps s₀ s) (off : Nat) (b : Byte) : Keeps s₀ (State.setFtab s off b) := by
  unfold State.setFtab
  try dsimp only
  repeat' first
    | with_reducible assumption
    | intro _
    | split
    | with_reducible apply Keeps.upd

theorem State.fusionRetire_keeps (h : Keeps s₀ s) (r : Nat) (k : Nat) : Keeps s₀ (State.fusionRetire r k s) := by
  unfold State.fusionRetire
  try dsimp only
  repeat' first
    | with_reducible assumption
    | intro _
    | with_reducible apply State.admitInfo_keeps
    | with_reducible apply State.dropSamples_keeps
    | with_reducible apply State.setFState_keeps
    | with_reducible apply State.setFld_keeps
    | with_reducible apply State.setFstr_keeps
    | with_reducible apply State.setFtab_keeps
    | split
    | with_reducible apply Keeps.upd

theorem State.openInstant_keeps (h : Keeps s₀ s) (t : W64) : Keeps s₀ (State.openInstant s t) := by
  unfold State.openInstant
  try dsimp only
  repeat' first
    | with_reducible assumption
    | intro _
    | with_reducible apply State.setFState_keeps
    | with_reducible apply State.setFstr_keeps
    | with_reducible apply Keeps.foldl
    | with_reducible apply Keeps.foldl_fst
    | with_reducible apply Keeps.foldl_snd
    | split
    | with_reducible apply Keeps.upd

theorem State.sampleIn_keeps (h : Keeps s₀ s) (k : Nat) (y : W64) (seq : W32) (count : Nat) (data : List Byte) : Keeps s₀ (State.sampleIn s k y seq count data) := by
  unfold State.sampleIn
  try dsimp only
  repeat' first
    | with_reducible assumption
    | intro _
    | with_reducible apply State.bump_keeps
    | with_reducible apply State.incident_keeps
    | with_reducible apply State.setFstr_keeps
    | split
    | with_reducible apply Keeps.upd

theorem State.intakeTake_keeps (h : Keeps s₀ s) (k : Nat) (rec : List Byte) : Keeps s₀ (State.intakeTake s k rec) := by
  unfold State.intakeTake
  try dsimp only
  repeat' first
    | with_reducible assumption
    | intro _
    | with_reducible apply State.clockPair_keeps
    | with_reducible apply State.sampleIn_keeps
    | with_reducible apply State.setFState_keeps
    | with_reducible apply State.setFstr_keeps
    | with_reducible apply State.showClock_keeps
    | split
    | with_reducible apply Keeps.upd

theorem State.sampleIntake_keeps (h : Keeps s₀ s) (k : Nat) : Keeps s₀ (State.sampleIntake k s) := by
  unfold State.sampleIntake
  try dsimp only
  repeat' first
    | with_reducible assumption
    | intro _
    | with_reducible apply State.bump_keeps
    | with_reducible apply State.collectWord_keeps
    | with_reducible apply State.intakeTake_keeps
    | with_reducible refine State.collectWord_of ?_ (by assumption)
    | split
    | with_reducible apply Keeps.upd

theorem State.departure_keeps (h : Keeps s₀ s) (k : Nat) : Keeps s₀ (State.departure k s) := by
  unfold State.departure
  try dsimp only
  repeat' first
    | with_reducible assumption
    | intro _
    | with_reducible apply State.streamDepart_keeps
    | split
    | with_reducible apply Keeps.upd

theorem State.writeSet_keeps (h : Keeps s₀ s) (i : W64) (timeout : Bool) : Keeps s₀ (State.writeSet s i timeout) := by
  unfold State.writeSet
  try dsimp only
  repeat' first
    | with_reducible assumption
    | intro _
    | with_reducible apply State.agentWrite_keeps
    | with_reducible apply State.producerPost_keeps
    | with_reducible apply State.producerStart_keeps
    | with_reducible apply State.setReg_keeps
    | with_reducible apply State.tallyAdd_keeps
    | with_reducible refine State.producerPost_of ?_ (by assumption)
    | with_reducible refine State.producerStart_of ?_ (by assumption)
    | split
    | with_reducible apply Keeps.upd

theorem State.releaseOne_keeps (h : Keeps s₀ s)  : Keeps s₀ (State.releaseOne s) := by
  unfold State.releaseOne
  try dsimp only
  repeat' first
    | with_reducible assumption
    | intro _
    | with_reducible apply State.bump_keeps
    | with_reducible apply State.openInstant_keeps
    | with_reducible apply State.writeSet_keeps
    | with_reducible apply Keeps.foldl
    | with_reducible apply Keeps.foldl_fst
    | with_reducible apply Keeps.foldl_snd
    | split
    | with_reducible apply Keeps.upd

theorem State.releaseLoop_keeps (h : Keeps s₀ s) (n : Nat) : Keeps s₀ (State.releaseLoop n s) := by
  induction n generalizing s with
  | zero => exact h
  | succ n ih =>
    unfold State.releaseLoop
    split
    · exact ih (State.releaseOne_keeps h)
    · exact h

theorem State.instantRelease_keeps (h : Keeps s₀ s)  : Keeps s₀ (State.instantRelease s) := by
  unfold State.instantRelease
  try dsimp only
  repeat' first
    | with_reducible assumption
    | intro _
    | with_reducible apply State.releaseLoop_keeps
    | split
    | with_reducible apply Keeps.upd

theorem State.fusionSwap_keeps (h : Keeps s₀ s)  : Keeps s₀ (State.fusionSwap s) := by
  unfold State.fusionSwap
  try dsimp only
  repeat' first
    | with_reducible assumption
    | intro _
    | with_reducible apply State.setFld_keeps
    | split
    | with_reducible apply Keeps.upd

theorem State.fusionStart_keeps (h : Keeps s₀ s)  : Keeps s₀ (State.fusionStart s) := by
  unfold State.fusionStart
  try dsimp only
  repeat' first
    | with_reducible assumption
    | intro _
    | with_reducible apply State.openInstant_keeps
    | with_reducible apply State.setFld_keeps
    | split
    | with_reducible apply Keeps.upd

theorem State.fusionStop_keeps (h : Keeps s₀ s)  : Keeps s₀ (State.fusionStop s) := by
  unfold State.fusionStop
  try dsimp only
  repeat' first
    | with_reducible assumption
    | intro _
    | with_reducible apply State.setFld_keeps
    | split
    | with_reducible apply Keeps.upd

theorem State.fusionCtl_keeps (h : Keeps s₀ s) (v : W32) : Keeps s₀ (State.fusionCtl v s) := by
  unfold State.fusionCtl
  try dsimp only
  repeat' first
    | with_reducible assumption
    | intro _
    | with_reducible apply State.fusionStart_keeps
    | with_reducible apply State.fusionStop_keeps
    | with_reducible apply State.fusionSwap_keeps
    | with_reducible apply State.setFld_keeps
    | split
    | with_reducible apply Keeps.upd

theorem State.trackerEcc_keeps (h : Keeps s₀ s) (slot : Nat) (uncorrectable : Bool) : Keeps s₀ (State.trackerEcc slot uncorrectable s) := by
  unfold State.trackerEcc
  try dsimp only
  repeat' first
    | with_reducible assumption
    | intro _
    | with_reducible apply State.bump_keeps
    | with_reducible apply State.setFld_keeps
    | split
    | with_reducible apply Keeps.upd

/-! ### Commands: each answers a next state -/

theorem execCueActionDispatch_keeps  : Answers s (execCueActionDispatch s) := by
  unfold execCueActionDispatch
  try dsimp only
  repeat' first
    | with_reducible assumption
    | with_reducible exact Keeps.refl _
    | intro _
    | with_reducible apply Answers.mk
    | with_reducible apply State.dispatchNext_keeps
    | split
    | with_reducible apply Keeps.upd

theorem execCaptureEdge_keeps (input : Byte) (rising : Bool) (eighth : Fin 8) : Answers s (execCaptureEdge input rising eighth s) := by
  unfold execCaptureEdge
  try dsimp only
  repeat' first
    | with_reducible assumption
    | with_reducible exact Keeps.refl _
    | intro _
    | with_reducible apply Answers.mk
    | with_reducible apply State.captureEdge_keeps
    | split
    | with_reducible apply Keeps.upd

theorem execCapDataRead_keeps (r : Requester) (m : Fin 32) : Answers s (execCapDataRead r m s) := by
  unfold execCapDataRead
  try dsimp only
  repeat' first
    | with_reducible assumption
    | with_reducible exact Keeps.refl _
    | intro _
    | with_reducible apply Answers.mk
    | with_reducible apply State.capRead_keeps
    | with_reducible apply State.readBy_keeps
    | split
    | with_reducible apply Keeps.upd

theorem execFusionAdmit_keeps (r : Requester) : Answers s (execFusionAdmit r s) := by
  unfold execFusionAdmit
  try dsimp only
  repeat' first
    | with_reducible assumption
    | with_reducible exact Keeps.refl _
    | intro _
    | with_reducible apply Answers.mk
    | with_reducible apply State.fusionAdmit_keeps
    | with_reducible apply State.permit_keeps
    | split
    | with_reducible apply Keeps.upd

theorem execRetire_keeps (r : Requester) (k : Fin 64) : Answers s (execRetire r k s) := by
  unfold execRetire
  try dsimp only
  repeat' first
    | with_reducible assumption
    | with_reducible exact Keeps.refl _
    | intro _
    | with_reducible apply Answers.mk
    | with_reducible apply State.fusionRetire_keeps
    | with_reducible apply State.permit_keeps
    | split
    | with_reducible apply Keeps.upd

theorem execSampleIntake_keeps (k : Fin 64) : Answers s (execSampleIntake k s) := by
  unfold execSampleIntake
  try dsimp only
  repeat' first
    | with_reducible assumption
    | with_reducible exact Keeps.refl _
    | intro _
    | with_reducible apply Answers.mk
    | with_reducible apply State.sampleIntake_keeps
    | split
    | with_reducible apply Keeps.upd

theorem execStreamDeparture_keeps (k : Fin 64) : Answers s (execStreamDeparture k s) := by
  unfold execStreamDeparture
  try dsimp only
  repeat' first
    | with_reducible assumption
    | with_reducible exact Keeps.refl _
    | intro _
    | with_reducible apply Answers.mk
    | with_reducible apply State.departure_keeps
    | split
    | with_reducible apply Keeps.upd

theorem execInstantRelease_keeps  : Answers s (execInstantRelease s) := by
  unfold execInstantRelease
  try dsimp only
  repeat' first
    | with_reducible assumption
    | with_reducible exact Keeps.refl _
    | intro _
    | with_reducible apply Answers.mk
    | with_reducible apply State.instantRelease_keeps
    | split
    | with_reducible apply Keeps.upd

theorem execTransformSwap_keeps (r : Requester) (v : W32) : Answers s (execTransformSwap r v s) := by
  unfold execTransformSwap
  try dsimp only
  repeat' first
    | with_reducible assumption
    | with_reducible exact Keeps.refl _
    | intro _
    | with_reducible apply Answers.mk
    | with_reducible apply State.fusionCtl_keeps
    | with_reducible apply State.permit_keeps
    | split
    | with_reducible apply Keeps.upd

theorem execFusionEnable_keeps (r : Requester) (v : W32) : Answers s (execFusionEnable r v s) := by
  unfold execFusionEnable
  try dsimp only
  repeat' first
    | with_reducible assumption
    | with_reducible exact Keeps.refl _
    | intro _
    | with_reducible apply Answers.mk
    | with_reducible apply State.fusionCtl_keeps
    | with_reducible apply State.permit_keeps
    | split
    | with_reducible apply Keeps.upd

theorem execTrackerEccError_keeps (slot : Fin 1024) (uncorrectable : Bool) : Answers s (execTrackerEccError slot uncorrectable s) := by
  unfold execTrackerEccError
  try dsimp only
  repeat' first
    | with_reducible assumption
    | with_reducible exact Keeps.refl _
    | intro _
    | with_reducible apply Answers.mk
    | with_reducible apply State.trackerEcc_keeps
    | split
    | with_reducible apply Keeps.upd

end Sys2Proof.Machine
end

