-- ==== Sys2Proof/Laws/KeepsBridge.lean ====
section
/-!
SUPPORT. What the operations and commands of Machine/Bridge.lean keep (Laws/Keeps.lean).
-/

namespace Sys2Proof.Machine

open Sys2Proof State

variable {s₀ s : State}

theorem State.setNtab_keeps (h : Keeps s₀ s) (off : Nat) (v : Nat) : Keeps s₀ (State.setNtab s off v) := by
  unfold State.setNtab
  try dsimp only
  repeat' first
    | with_reducible assumption
    | intro _
    | split
    | with_reducible apply Keeps.upd

theorem State.setNbits_keeps (h : Keeps s₀ s) (off : Nat) (lo : Nat) (len : Nat) (v : Nat) : Keeps s₀ (State.setNbits s off lo len v) := by
  unfold State.setNbits
  try dsimp only
  repeat' first
    | with_reducible assumption
    | intro _
    | with_reducible apply State.setNtab_keeps
    | split
    | with_reducible apply Keeps.upd

theorem State.nbump_keeps (h : Keeps s₀ s) (off : Nat) (lo : Nat) : Keeps s₀ (State.nbump s off lo) := by
  unfold State.nbump
  try dsimp only
  repeat' first
    | with_reducible assumption
    | intro _
    | with_reducible apply State.setNbits_keeps
    | split
    | with_reducible apply Keeps.upd

theorem State.gateAdvance_keeps (h : Keeps s₀ s) (p : Nat) : Keeps s₀ (State.gateAdvance s p) := by
  unfold State.gateAdvance
  try dsimp only
  repeat' first
    | with_reducible assumption
    | intro _
    | split
    | with_reducible apply Keeps.upd

theorem State.sgateAdvance_keeps (h : Keeps s₀ s) (g : Nat) : Keeps s₀ (State.sgateAdvance s g) := by
  unfold State.sgateAdvance
  try dsimp only
  repeat' first
    | with_reducible assumption
    | intro _
    | split
    | with_reducible apply Keeps.upd

theorem State.filterFrame_keeps (h : Keeps s₀ s) (p : Nat) (b : List Byte) : Keeps s₀ (State.filterFrame s p b).1 := by
  unfold State.filterFrame
  try dsimp only
  repeat' first
    | with_reducible assumption
    | intro _
    | with_reducible apply State.bump_keeps
    | with_reducible apply State.nbump_keeps
    | with_reducible apply State.setNbits_keeps
    | split
    | with_reducible apply Keeps.upd

theorem State.filterFrame_of (h : Keeps s₀ s) {p : Nat} {b : List Byte} {x1 : Bool} {x2 : Nat} {t : State} (he : State.filterFrame s p b = (t, x1, x2)) : Keeps s₀ t := by
  have g := State.filterFrame_keeps h p b
  rw [he] at g
  exact g

theorem State.setHistory_keeps (h : Keeps s₀ s) (r : Nat) (h : Option Nat) : Keeps s₀ (State.setHistory s r h) := by
  unfold State.setHistory
  try dsimp only
  repeat' first
    | with_reducible assumption
    | intro _
    | split
    | with_reducible apply Keeps.upd

theorem State.recover_keeps (h : Keeps s₀ s) (r : Nat) (seq : Nat) : Keeps s₀ (State.recover s r seq).1 := by
  unfold State.recover
  try dsimp only
  repeat' first
    | with_reducible assumption
    | intro _
    | with_reducible apply State.nbump_keeps
    | with_reducible apply State.setHistory_keeps
    | with_reducible apply State.setNbits_keeps
    | with_reducible apply Keeps.foldl
    | with_reducible apply Keeps.foldl_fst
    | with_reducible apply Keeps.foldl_snd
    | split
    | with_reducible apply Keeps.upd

theorem State.recover_of (h : Keeps s₀ s) {r : Nat} {seq : Nat} {x1 : Bool} {t : State} (he : State.recover s r seq = (t, x1)) : Keeps s₀ t := by
  have g := State.recover_keeps h r seq
  rw [he] at g
  exact g

theorem State.recoverFrame_keeps (h : Keeps s₀ s) (p : Nat) (b : List Byte) : Keeps s₀ (State.recoverFrame s p b).1 := by
  unfold State.recoverFrame
  try dsimp only
  repeat' first
    | with_reducible assumption
    | intro _
    | with_reducible apply State.recover_keeps
    | with_reducible refine State.recover_of ?_ (by assumption)
    | split
    | with_reducible apply Keeps.upd

theorem State.recoverFrame_of (h : Keeps s₀ s) {p : Nat} {b : List Byte} {x1 : Option (List Byte)} {t : State} (he : State.recoverFrame s p b = (t, x1)) : Keeps s₀ t := by
  have g := State.recoverFrame_keeps h p b
  rw [he] at g
  exact g

theorem State.cbReset_keeps (h : Keeps s₀ s) (r : Nat) : Keeps s₀ (State.cbReset r s) := by
  unfold State.cbReset
  try dsimp only
  repeat' first
    | with_reducible assumption
    | intro _
    | with_reducible apply State.nbump_keeps
    | with_reducible apply State.setHistory_keeps
    | split
    | with_reducible apply Keeps.upd

theorem State.stampIn_keeps (h : Keeps s₀ s) (b : List Byte) (tx : Bool) : Keeps s₀ (State.stampIn s b tx) := by
  unfold State.stampIn
  try dsimp only
  repeat' first
    | with_reducible assumption
    | intro _
    | split
    | with_reducible apply Keeps.upd

theorem State.syncSeen_keeps (h : Keeps s₀ s) (p : Nat) (b : List Byte) : Keeps s₀ (State.syncSeen s p b) := by
  unfold State.syncSeen
  try dsimp only
  repeat' first
    | with_reducible assumption
    | intro _
    | with_reducible apply State.setFld_keeps
    | split
    | with_reducible apply Keeps.upd

theorem State.ptpLeave_keeps (h : Keeps s₀ s) (p : Nat) (q : Nat) (b : List Byte) (res : W64) : Keeps s₀ (State.ptpLeave s p q b res).1 := by
  unfold State.ptpLeave
  try dsimp only
  repeat' first
    | with_reducible assumption
    | intro _
    | split
    | with_reducible apply Keeps.upd

theorem State.ptpLeave_of (h : Keeps s₀ s) {p : Nat} {q : Nat} {b : List Byte} {res : W64} {x1 : List Byte} {t : State} (he : State.ptpLeave s p q b res = (t, x1)) : Keeps s₀ t := by
  have g := State.ptpLeave_keeps h p q b res
  rw [he] at g
  exact g

theorem State.fupExpire_keeps (h : Keeps s₀ s) (p : Nat) (seq : Nat) : Keeps s₀ (State.fupExpire p seq s) := by
  unfold State.fupExpire
  try dsimp only
  repeat' first
    | with_reducible assumption
    | intro _
    | with_reducible apply State.bump_keeps
    | split
    | with_reducible apply Keeps.upd

theorem State.peerDelay_keeps (h : Keeps s₀ s) (p : Nat) (delay : W64) : Keeps s₀ (State.peerDelay p delay s) := by
  unfold State.peerDelay
  try dsimp only
  repeat' first
    | with_reducible assumption
    | intro _
    | with_reducible apply State.setReg_keeps
    | split
    | with_reducible apply Keeps.upd

theorem State.tsRead_keeps (h : Keeps s₀ s) (r : Nat) : Keeps s₀ (State.tsRead r s) := by
  unfold State.tsRead
  try dsimp only
  repeat' first
    | with_reducible assumption
    | intro _
    | with_reducible apply State.answer_keeps
    | split
    | with_reducible apply Keeps.upd

theorem State.setQueue_keeps (h : Keeps s₀ s) (p : Nat) (q : List Queued) : Keeps s₀ (State.setQueue s p q) := by
  unfold State.setQueue
  try dsimp only
  repeat' first
    | with_reducible assumption
    | intro _
    | split
    | with_reducible apply Keeps.upd

theorem State.runQueue_keeps (h : Keeps s₀ s) (n : Nat) (due : Bool) (p tc : Nat) :
    Keeps s₀ (State.runQueue n due p tc s) := by
  induction n generalizing s due with
  | zero => exact h
  | succ n ih =>
    unfold State.runQueue
    dsimp only
    repeat' first
      | with_reducible assumption
      | with_reducible apply ih
      | with_reducible apply State.emit_keeps
      | with_reducible apply State.bump_keeps
      | with_reducible apply State.setQueue_keeps
      | split

theorem State.queueHead_keeps (h : Keeps s₀ s) (p : Nat) (tc : Nat) : Keeps s₀ (State.queueHead p tc s) := by
  unfold State.queueHead
  try dsimp only
  repeat' first
    | with_reducible assumption
    | intro _
    | with_reducible apply State.runQueue_keeps
    | split
    | with_reducible apply Keeps.upd

theorem State.launchDue_keeps (h : Keeps s₀ s) (p : Nat) (tc : Nat) : Keeps s₀ (State.launchDue p tc s) := by
  unfold State.launchDue
  try dsimp only
  repeat' first
    | with_reducible assumption
    | intro _
    | with_reducible apply State.runQueue_keeps
    | split
    | with_reducible apply Keeps.upd

theorem State.enqueue_keeps (h : Keeps s₀ s) (p : Nat) (tc : Nat) (launch : Option W64) (b : List Byte) : Keeps s₀ (State.enqueue s p tc launch b) := by
  unfold State.enqueue
  try dsimp only
  repeat' first
    | with_reducible assumption
    | intro _
    | with_reducible apply State.queueHead_keeps
    | with_reducible apply State.setQueue_keeps
    | split
    | with_reducible apply Keeps.upd

theorem State.learnSa_keeps (h : Keeps s₀ s) (p : Nat) (b : List Byte) : Keeps s₀ (State.learnSa s p b) := by
  unfold State.learnSa
  try dsimp only
  repeat' first
    | with_reducible assumption
    | intro _
    | split
    | with_reducible apply Keeps.upd

theorem State.ageOut_keeps (h : Keeps s₀ s) (mac : Nat) (vid : Nat) : Keeps s₀ (State.ageOut mac vid s) := by
  unfold State.ageOut
  try dsimp only
  repeat' first
    | with_reducible assumption
    | intro _
    | split
    | with_reducible apply Keeps.upd

theorem State.rxbTake_keeps (h : Keeps s₀ s) (b : List Byte) (i : Nat) : Keeps s₀ (State.rxbTake b s i) := by
  unfold State.rxbTake
  try dsimp only
  repeat' first
    | with_reducible assumption
    | intro _
    | with_reducible apply State.bumpFree_keeps
    | with_reducible apply State.rise_keeps
    | with_reducible apply Keeps.foldl
    | with_reducible apply Keeps.foldl_fst
    | with_reducible apply Keeps.foldl_snd
    | split
    | with_reducible apply Keeps.upd

theorem State.leavePort_keeps (h : Keeps s₀ s) (p : Nat) (tc : Nat) (launch : Option W64) (res : W64) (b : List Byte) (q : Nat) : Keeps s₀ (State.leavePort p tc launch res b s q) := by
  unfold State.leavePort
  try dsimp only
  repeat' first
    | with_reducible assumption
    | intro _
    | with_reducible apply State.emit_keeps
    | with_reducible apply State.enqueue_keeps
    | with_reducible apply State.ptpLeave_keeps
    | with_reducible apply State.stampIn_keeps
    | with_reducible apply State.syncSeen_keeps
    | with_reducible refine State.ptpLeave_of ?_ (by assumption)
    | split
    | with_reducible apply Keeps.upd

theorem State.replicate_keeps (h : Keeps s₀ s) (pvid : Nat) (z0 : List Byte) (z1 : List Nat) (pair : Nat) : Keeps s₀ (State.replicate pvid (s, z0, z1) pair).1 := by
  unfold State.replicate
  try dsimp only
  repeat' first
    | with_reducible assumption
    | intro _
    | with_reducible apply State.setNbits_keeps
    | split
    | with_reducible apply Keeps.upd

theorem State.replicate_of (h : Keeps s₀ s) {pvid : Nat} {z0 : List Byte} {z1 : List Nat} {pair : Nat} {x1 : List Byte} {x2 : List Nat} {t : State} (he : State.replicate pvid (s, z0, z1) pair = (t, x1, x2)) : Keeps s₀ t := by
  have g := State.replicate_keeps h pvid z0 z1 pair
  rw [he] at g
  exact g

theorem State.forward_keeps (h : Keeps s₀ s) (p : Nat) (tc : Nat) (launch : Option W64) (res : W64) (b : List Byte) : Keeps s₀ (State.forward s p tc launch res b) := by
  unfold State.forward
  try dsimp only
  repeat' first
    | with_reducible assumption
    | intro _
    | with_reducible apply State.learnSa_keeps
    | with_reducible apply State.leavePort_keeps
    | with_reducible apply State.replicate_keeps
    | with_reducible apply State.rxbTake_keeps
    | with_reducible refine State.replicate_of ?_ (by assumption)
    | with_reducible apply Keeps.foldl
    | with_reducible apply Keeps.foldl_fst
    | with_reducible apply Keeps.foldl_snd
    | split
    | with_reducible apply Keeps.upd

theorem State.frameIn_keeps (h : Keeps s₀ s) (p : Nat) (b : List Byte) (launch : Option W64) (res : W64) : Keeps s₀ (State.frameIn p b launch res s) := by
  unfold State.frameIn
  try dsimp only
  repeat' first
    | with_reducible assumption
    | intro _
    | with_reducible apply State.filterFrame_keeps
    | with_reducible apply State.forward_keeps
    | with_reducible apply State.recoverFrame_keeps
    | with_reducible refine State.filterFrame_of ?_ (by assumption)
    | with_reducible refine State.recoverFrame_of ?_ (by assumption)
    | split
    | with_reducible apply Keeps.upd

theorem State.gateStep_keeps (h : Keeps s₀ s) (p : Nat) : Keeps s₀ (State.gateStep p s) := by
  unfold State.gateStep
  try dsimp only
  repeat' first
    | with_reducible assumption
    | intro _
    | with_reducible apply State.gateAdvance_keeps
    | with_reducible apply State.queueHead_keeps
    | with_reducible apply Keeps.foldl
    | with_reducible apply Keeps.foldl_fst
    | with_reducible apply Keeps.foldl_snd
    | split
    | with_reducible apply Keeps.upd

/-! ### Commands: each answers a next state -/

theorem execFupTimeout_keeps (p : Fin 4) (seq : W16) : Answers s (execFupTimeout p seq s) := by
  unfold execFupTimeout
  try dsimp only
  repeat' first
    | with_reducible assumption
    | with_reducible exact Keeps.refl _
    | intro _
    | with_reducible apply Answers.mk
    | with_reducible apply State.fupExpire_keeps
    | split
    | with_reducible apply Keeps.upd

theorem execPeerDelay_keeps (p : Fin 4) (delay : W64) : Answers s (execPeerDelay p delay s) := by
  unfold execPeerDelay
  try dsimp only
  repeat' first
    | with_reducible assumption
    | with_reducible exact Keeps.refl _
    | intro _
    | with_reducible apply Answers.mk
    | with_reducible apply State.peerDelay_keeps
    | split
    | with_reducible apply Keeps.upd

theorem execTsDataRead_keeps (r : Requester) : Answers s (execTsDataRead r s) := by
  unfold execTsDataRead
  try dsimp only
  repeat' first
    | with_reducible assumption
    | with_reducible exact Keeps.refl _
    | intro _
    | with_reducible apply Answers.mk
    | with_reducible apply State.readBy_keeps
    | with_reducible apply State.tsRead_keeps
    | split
    | with_reducible apply Keeps.upd

theorem execLaunchQueueHead_keeps (p : Fin 4) (tc : Fin 8) : Answers s (execLaunchQueueHead p tc s) := by
  unfold execLaunchQueueHead
  try dsimp only
  repeat' first
    | with_reducible assumption
    | with_reducible exact Keeps.refl _
    | intro _
    | with_reducible apply Answers.mk
    | with_reducible apply State.queueHead_keeps
    | split
    | with_reducible apply Keeps.upd

theorem execLaunchTimeReached_keeps (p : Fin 4) (tc : Fin 8) : Answers s (execLaunchTimeReached p tc s) := by
  unfold execLaunchTimeReached
  try dsimp only
  repeat' first
    | with_reducible assumption
    | with_reducible exact Keeps.refl _
    | intro _
    | with_reducible apply Answers.mk
    | with_reducible apply State.launchDue_keeps
    | split
    | with_reducible apply Keeps.upd

theorem execBridgeFrameReceive_keeps (p : Fin 5) (data : List Byte) (launch : Option W64) (res : W64) : Answers s (execBridgeFrameReceive p data launch res s) := by
  unfold execBridgeFrameReceive
  try dsimp only
  repeat' first
    | with_reducible assumption
    | with_reducible exact Keeps.refl _
    | intro _
    | with_reducible apply Answers.mk
    | with_reducible apply State.frameIn_keeps
    | split
    | with_reducible apply Keeps.upd

theorem execLearningAgeOut_keeps (mac : BitVec 48) (vid : BitVec 12) : Answers s (execLearningAgeOut mac vid s) := by
  unfold execLearningAgeOut
  try dsimp only
  repeat' first
    | with_reducible assumption
    | with_reducible exact Keeps.refl _
    | intro _
    | with_reducible apply Answers.mk
    | with_reducible apply State.ageOut_keeps
    | split
    | with_reducible apply Keeps.upd

theorem execGateListAdvance_keeps (p : Fin 4) : Answers s (execGateListAdvance p s) := by
  unfold execGateListAdvance
  try dsimp only
  repeat' first
    | with_reducible assumption
    | with_reducible exact Keeps.refl _
    | intro _
    | with_reducible apply Answers.mk
    | with_reducible apply State.gateStep_keeps
    | split
    | with_reducible apply Keeps.upd

theorem execStreamGateAdvance_keeps (g : Fin 32) : Answers s (execStreamGateAdvance g s) := by
  unfold execStreamGateAdvance
  try dsimp only
  repeat' first
    | with_reducible assumption
    | with_reducible exact Keeps.refl _
    | intro _
    | with_reducible apply Answers.mk
    | with_reducible apply State.sgateAdvance_keeps
    | split
    | with_reducible apply Keeps.upd

theorem execRecoveryReset_keeps (r : Fin 32) : Answers s (execRecoveryReset r s) := by
  unfold execRecoveryReset
  try dsimp only
  repeat' first
    | with_reducible assumption
    | with_reducible exact Keeps.refl _
    | intro _
    | with_reducible apply Answers.mk
    | with_reducible apply State.cbReset_keeps
    | split
    | with_reducible apply Keeps.upd

end Sys2Proof.Machine
end

