-- ==== Sys2Proof/Laws/KeepsTeller.lean ====
section
/-!
SUPPORT. What the operations and commands of Machine/Teller.lean keep (Laws/Keeps.lean).
-/

namespace Sys2Proof.Machine

open Sys2Proof State

variable {s₀ s : State}

theorem State.modMoves_keeps (h : Keeps s₀ s) (f : Move → Bool) (g : Move → Move) : Keeps s₀ (State.modMoves s f g) := by
  unfold State.modMoves
  try dsimp only
  repeat' first
    | with_reducible assumption
    | intro _
    | split
    | with_reducible apply Keeps.upd

theorem State.moveSeq_keeps (h : Keeps s₀ s)  : Keeps s₀ (State.moveSeq s) := by
  unfold State.moveSeq
  try dsimp only
  repeat' first
    | with_reducible assumption
    | intro _
    | with_reducible apply State.rise_keeps
    | split
    | with_reducible apply Keeps.upd

theorem State.endMoves_keeps (h : Keeps s₀ s) (f : Move → Bool) : Keeps s₀ (State.endMoves s f) := by
  unfold State.endMoves
  try dsimp only
  repeat' first
    | with_reducible assumption
    | intro _
    | with_reducible apply State.finishOp_keeps
    | with_reducible apply State.modPage_keeps
    | with_reducible apply State.rise_keeps
    | with_reducible apply State.stampEnd_keeps
    | with_reducible apply Keeps.foldl
    | with_reducible apply Keeps.foldl_fst
    | with_reducible apply Keeps.foldl_snd
    | split
    | with_reducible apply Keeps.upd

theorem State.beginDemote_keeps (h : Keeps s₀ s) (c : Nat) (v : Nat) : Keeps s₀ (State.beginDemote s c v) := by
  unfold State.beginDemote
  try dsimp only
  repeat' first
    | with_reducible assumption
    | intro _
    | with_reducible apply State.modPage_keeps
    | with_reducible apply State.moveSeq_keeps
    | with_reducible apply State.nextStamp_keeps
    | split
    | with_reducible apply Keeps.upd

theorem State.startPage_keeps (h : Keeps s₀ s) (n p : Nat) : Keeps s₀ (State.startPage n s p) := by
  induction n generalizing s with
  | zero => exact h
  | succ n ih =>
    unfold State.startPage
    dsimp only
    repeat' first
      | with_reducible assumption
      | with_reducible apply ih
      | with_reducible apply State.endMoves_keeps
      | with_reducible apply State.bump_keeps
      | with_reducible apply State.beginDemote_keeps
      | with_reducible apply State.modPage_keeps
      | with_reducible apply State.modMoves_keeps
      | split

theorem State.moveAccept_keeps (h : Keeps s₀ s)  : Keeps s₀ (State.moveAccept s) := by
  unfold State.moveAccept
  try dsimp only
  repeat' first
    | with_reducible assumption
    | intro _
    | with_reducible apply State.modMoves_keeps
    | with_reducible apply State.moveSeq_keeps
    | with_reducible apply State.startPage_keeps
    | with_reducible apply State.takeTrans_keeps
    | split
    | with_reducible apply Keeps.upd

theorem State.frameFreed_keeps (h : Keeps s₀ s) (v : Nat) (kept : Bool) : Keeps s₀ (State.frameFreed s v kept) := by
  unfold State.frameFreed
  try dsimp only
  repeat' first
    | with_reducible assumption
    | intro _
    | with_reducible apply State.beginDemote_keeps
    | with_reducible apply State.bump_keeps
    | with_reducible apply State.endMoves_keeps
    | with_reducible apply State.modMoves_keeps
    | with_reducible apply State.modPage_keeps
    | with_reducible apply State.startPage_keeps
    | split
    | with_reducible apply Keeps.upd

theorem State.demoteDone_keeps (h : Keeps s₀ s) (p : Nat) : Keeps s₀ (State.demoteDone s p) := by
  unfold State.demoteDone
  try dsimp only
  repeat' first
    | with_reducible assumption
    | intro _
    | with_reducible apply State.endMoves_keeps
    | with_reducible apply State.frameFreed_keeps
    | with_reducible apply State.modPage_keeps
    | with_reducible apply State.startPage_keeps
    | with_reducible apply State.writeBack_keeps
    | split
    | with_reducible apply Keeps.upd

theorem State.copyDone_keeps (h : Keeps s₀ s) (p : Nat) (m : Move) : Keeps s₀ (State.copyDone s p m) := by
  unfold State.copyDone
  try dsimp only
  repeat' first
    | with_reducible assumption
    | intro _
    | with_reducible apply State.copyPage_keeps
    | with_reducible apply State.endMoves_keeps
    | with_reducible apply State.modPage_keeps
    | with_reducible apply State.opFault_keeps
    | with_reducible apply State.startPage_keeps
    | split
    | with_reducible apply Keeps.upd

theorem State.moveDone_keeps (h : Keeps s₀ s) (p : Nat) : Keeps s₀ (State.moveDone s p) := by
  unfold State.moveDone
  try dsimp only
  repeat' first
    | with_reducible assumption
    | intro _
    | with_reducible apply State.copyDone_keeps
    | with_reducible apply State.demoteDone_keeps
    | with_reducible apply State.endMoves_keeps
    | with_reducible apply State.modPage_keeps
    | with_reducible apply State.opFault_keeps
    | with_reducible apply State.startPage_keeps
    | with_reducible apply Keeps.foldl
    | with_reducible apply Keeps.foldl_fst
    | with_reducible apply Keeps.foldl_snd
    | split
    | with_reducible apply Keeps.upd

theorem State.enterCommit_keeps (h : Keeps s₀ s) (p : Nat) : Keeps s₀ (State.enterCommit s p) := by
  unfold State.enterCommit
  try dsimp only
  repeat' first
    | with_reducible assumption
    | intro _
    | with_reducible apply State.dropResidues_keeps
    | with_reducible apply State.endMoves_keeps
    | with_reducible apply State.modPage_keeps
    | with_reducible apply State.setHome_keeps
    | with_reducible apply State.startPage_keeps
    | with_reducible apply Keeps.foldl
    | with_reducible apply Keeps.foldl_fst
    | with_reducible apply Keeps.foldl_snd
    | split
    | with_reducible apply Keeps.upd

theorem State.poison_keeps (h : Keeps s₀ s) (p : Nat) : Keeps s₀ (State.poison s p) := by
  unfold State.poison
  try dsimp only
  repeat' first
    | with_reducible assumption
    | intro _
    | with_reducible apply State.incident_keeps
    | with_reducible apply State.modPage_keeps
    | with_reducible apply State.setFld_keeps
    | with_reducible apply State.filterOverlay_keeps
    | split
    | with_reducible apply Keeps.upd

theorem State.rewritten_keeps (h : Keeps s₀ s) (n : Nat) : Keeps s₀ (State.rewritten s n) := by
  unfold State.rewritten
  try dsimp only
  repeat' first
    | with_reducible assumption
    | intro _
    | with_reducible apply State.bump_keeps
    | split
    | with_reducible apply Keeps.upd

theorem State.bothFailed_keeps (h : Keeps s₀ s) (p : Nat) : Keeps s₀ (State.bothFailed s p) := by
  unfold State.bothFailed
  try dsimp only
  repeat' first
    | with_reducible assumption
    | intro _
    | with_reducible apply State.poison_keeps
    | with_reducible apply State.setFld_keeps
    | split
    | with_reducible apply Keeps.upd

theorem State.entryRewrite_keeps (h : Keeps s₀ s) (p : Nat) (second : Bool) : Keeps s₀ (State.entryRewrite s p second) := by
  unfold State.entryRewrite
  try dsimp only
  repeat' first
    | with_reducible assumption
    | intro _
    | with_reducible apply State.bothFailed_keeps
    | with_reducible apply State.bump_keeps
    | with_reducible apply State.modPage_keeps
    | with_reducible apply State.rewritten_keeps
    | with_reducible apply State.setFld_keeps
    | split
    | with_reducible apply Keeps.upd

theorem State.partnerFetch_keeps (h : Keeps s₀ s) (p : Nat) (data : Option (List Byte)) : Keeps s₀ (State.partnerFetch s p data) := by
  unfold State.partnerFetch
  try dsimp only
  repeat' first
    | with_reducible assumption
    | intro _
    | with_reducible apply State.bump_keeps
    | with_reducible apply State.modPage_keeps
    | with_reducible apply State.poison_keeps
    | with_reducible apply State.rewritten_keeps
    | with_reducible apply State.setHome_keeps
    | with_reducible apply Keeps.foldl
    | with_reducible apply Keeps.foldl_fst
    | with_reducible apply Keeps.foldl_snd
    | split
    | with_reducible apply Keeps.upd

theorem State.nandScrub_keeps (h : Keeps s₀ s) (p : Nat) (a : NandRead) (b : NandRead) : Keeps s₀ (State.nandScrub s p a b) := by
  unfold State.nandScrub
  try dsimp only
  repeat' first
    | with_reducible assumption
    | intro _
    | with_reducible apply State.bothFailed_keeps
    | with_reducible apply State.rewritten_keeps
    | with_reducible apply State.setFld_keeps
    | split
    | with_reducible apply Keeps.upd

theorem State.contextLost_keeps (h : Keeps s₀ s) (c : Nat) (unit : Nat) : Keeps s₀ (State.contextLost s c unit) := by
  unfold State.contextLost
  try dsimp only
  repeat' first
    | with_reducible assumption
    | intro _
    | with_reducible apply State.faultCtx_keeps
    | split
    | with_reducible apply Keeps.upd

theorem State.memoryUe_keeps (h : Keeps s₀ s) (arg : MemErr) : Keeps s₀ (State.memoryUe s arg) := by
  unfold State.memoryUe
  try dsimp only
  repeat' first
    | with_reducible assumption
    | intro _
    | with_reducible apply State.bump_keeps
    | with_reducible apply State.contextLost_keeps
    | with_reducible apply State.poison_keeps
    | with_reducible apply State.setFld_keeps
    | split
    | with_reducible apply Keeps.upd

theorem State.tellerInval_keeps (h : Keeps s₀ s) (v : W32) : Keeps s₀ (State.tellerInval s v) := by
  unfold State.tellerInval
  try dsimp only
  repeat' first
    | with_reducible assumption
    | intro _
    | with_reducible apply State.setFld_keeps
    | split
    | with_reducible apply Keeps.upd

theorem State.tellerInvalDone_keeps (h : Keeps s₀ s)  : Keeps s₀ (State.tellerInvalDone s) := by
  unfold State.tellerInvalDone
  try dsimp only
  repeat' first
    | with_reducible assumption
    | intro _
    | with_reducible apply State.setFld_keeps
    | split
    | with_reducible apply Keeps.upd

theorem State.pageInfo_keeps (h : Keeps s₀ s) (r : Nat) (p : Nat) (err : Nat) : Keeps s₀ (State.pageInfo s r p err) := by
  unfold State.pageInfo
  try dsimp only
  repeat' first
    | with_reducible assumption
    | intro _
    | with_reducible apply State.setReg_keeps
    | split
    | with_reducible apply Keeps.upd

theorem State.tellerPageRead_keeps (h : Keeps s₀ s) (r : Nat) : Keeps s₀ (State.tellerPageRead r s) := by
  unfold State.tellerPageRead
  try dsimp only
  repeat' first
    | with_reducible assumption
    | intro _
    | with_reducible apply State.pageInfo_keeps
    | split
    | with_reducible apply Keeps.upd

theorem State.clearPoison_keeps (h : Keeps s₀ s) (r : Nat) : Keeps s₀ (State.clearPoison r s) := by
  unfold State.clearPoison
  try dsimp only
  repeat' first
    | with_reducible assumption
    | intro _
    | with_reducible apply State.bumpFree_keeps
    | with_reducible apply State.losePage_keeps
    | with_reducible apply State.modPage_keeps
    | with_reducible apply State.pageInfo_keeps
    | split
    | with_reducible apply Keeps.upd

theorem State.poolEnd_keeps (h : Keeps s₀ s) (n : Nat) : Keeps s₀ (State.poolEnd n s) := by
  unfold State.poolEnd
  try dsimp only
  repeat' first
    | with_reducible assumption
    | intro _
    | with_reducible apply State.setFld_keeps
    | split
    | with_reducible apply Keeps.upd

theorem State.poolCfg_keeps (h : Keeps s₀ s) (n : Nat) (v : W32) : Keeps s₀ (State.poolCfg n v s) := by
  unfold State.poolCfg
  try dsimp only
  repeat' first
    | with_reducible assumption
    | intro _
    | with_reducible apply State.poolEnd_keeps
    | with_reducible apply State.setFld_keeps
    | split
    | with_reducible apply Keeps.upd

/-! ### Commands: each answers a next state -/

theorem execTellerInval_keeps (r : Requester) (v : W32) : Answers s (execTellerInval r v s) := by
  unfold execTellerInval
  try dsimp only
  repeat' first
    | with_reducible assumption
    | with_reducible exact Keeps.refl _
    | intro _
    | with_reducible apply Answers.mk
    | with_reducible apply State.permit_keeps
    | with_reducible apply State.tellerInval_keeps
    | split
    | with_reducible apply Keeps.upd

theorem execTellerInvalComplete_keeps  : Answers s (execTellerInvalComplete s) := by
  unfold execTellerInvalComplete
  try dsimp only
  repeat' first
    | with_reducible assumption
    | with_reducible exact Keeps.refl _
    | intro _
    | with_reducible apply Answers.mk
    | with_reducible apply State.clocked_keeps
    | with_reducible apply State.tellerInvalDone_keeps
    | split
    | with_reducible apply Keeps.upd

theorem execPageMoveAccept_keeps  : Answers s (execPageMoveAccept s) := by
  unfold execPageMoveAccept
  try dsimp only
  repeat' first
    | with_reducible assumption
    | with_reducible exact Keeps.refl _
    | intro _
    | with_reducible apply Answers.mk
    | with_reducible apply State.moveAccept_keeps
    | split
    | with_reducible apply Keeps.upd

theorem execPageMoveComplete_keeps (page : BitVec 28) : Answers s (execPageMoveComplete page s) := by
  unfold execPageMoveComplete
  try dsimp only
  repeat' first
    | with_reducible assumption
    | with_reducible exact Keeps.refl _
    | intro _
    | with_reducible apply Answers.mk
    | with_reducible apply State.clocked_keeps
    | with_reducible apply State.moveDone_keeps
    | split
    | with_reducible apply Keeps.upd

theorem execMenterCommit_keeps (page : BitVec 28) : Answers s (execMenterCommit page s) := by
  unfold execMenterCommit
  try dsimp only
  repeat' first
    | with_reducible assumption
    | with_reducible exact Keeps.refl _
    | intro _
    | with_reducible apply Answers.mk
    | with_reducible apply State.clocked_keeps
    | with_reducible apply State.enterCommit_keeps
    | split
    | with_reducible apply Keeps.upd

theorem execNandEntryRewrite_keeps (page : BitVec 28) (second : Bool) : Answers s (execNandEntryRewrite page second s) := by
  unfold execNandEntryRewrite
  try dsimp only
  repeat' first
    | with_reducible assumption
    | with_reducible exact Keeps.refl _
    | intro _
    | with_reducible apply Answers.mk
    | with_reducible apply State.clocked_keeps
    | with_reducible apply State.entryRewrite_keeps
    | split
    | with_reducible apply Keeps.upd

theorem execPartnerFetchComplete_keeps (page : BitVec 28) (data : Option (List Byte)) : Answers s (execPartnerFetchComplete page data s) := by
  unfold execPartnerFetchComplete
  try dsimp only
  repeat' first
    | with_reducible assumption
    | with_reducible exact Keeps.refl _
    | intro _
    | with_reducible apply Answers.mk
    | with_reducible apply State.partnerFetch_keeps
    | split
    | with_reducible apply Keeps.upd

theorem execNandScrub_keeps (page : BitVec 28) (a : NandRead) (b : NandRead) : Answers s (execNandScrub page a b s) := by
  unfold execNandScrub
  try dsimp only
  repeat' first
    | with_reducible assumption
    | with_reducible exact Keeps.refl _
    | intro _
    | with_reducible apply Answers.mk
    | with_reducible apply State.clocked_keeps
    | with_reducible apply State.nandScrub_keeps
    | split
    | with_reducible apply Keeps.upd

theorem execDramScrub_keeps (page : BitVec 28) (corrected : Bool) : Answers s (execDramScrub page corrected s) := by
  unfold execDramScrub
  try dsimp only
  repeat' first
    | with_reducible assumption
    | with_reducible exact Keeps.refl _
    | intro _
    | with_reducible apply Answers.mk
    | with_reducible apply State.bump_keeps
    | with_reducible apply State.clocked_keeps
    | split
    | with_reducible apply Keeps.upd

theorem execMemoryUe_keeps (e : MemErr) : Answers s (execMemoryUe e s) := by
  unfold execMemoryUe
  try dsimp only
  repeat' first
    | with_reducible assumption
    | with_reducible exact Keeps.refl _
    | intro _
    | with_reducible apply Answers.mk
    | with_reducible apply State.memoryUe_keeps
    | split
    | with_reducible apply Keeps.upd

theorem execTellerPageRead_keeps (r : Requester) : Answers s (execTellerPageRead r s) := by
  unfold execTellerPageRead
  try dsimp only
  repeat' first
    | with_reducible assumption
    | with_reducible exact Keeps.refl _
    | intro _
    | with_reducible apply Answers.mk
    | with_reducible apply State.permit_keeps
    | with_reducible apply State.tellerPageRead_keeps
    | split
    | with_reducible apply Keeps.upd

theorem execClearPoison_keeps (r : Requester) : Answers s (execClearPoison r s) := by
  unfold execClearPoison
  try dsimp only
  repeat' first
    | with_reducible assumption
    | with_reducible exact Keeps.refl _
    | intro _
    | with_reducible apply Answers.mk
    | with_reducible apply State.clearPoison_keeps
    | with_reducible apply State.permit_keeps
    | split
    | with_reducible apply Keeps.upd

theorem execPoolRegister_keeps (r : Requester) (n : Fin 16) (v : W32) : Answers s (execPoolRegister r n v s) := by
  unfold execPoolRegister
  try dsimp only
  repeat' first
    | with_reducible assumption
    | with_reducible exact Keeps.refl _
    | intro _
    | with_reducible apply Answers.mk
    | with_reducible apply State.permit_keeps
    | with_reducible apply State.poolCfg_keeps
    | split
    | with_reducible apply Keeps.upd

end Sys2Proof.Machine
end

