-- ==== Sys2Proof/Laws/KeepsKhurdle.lean ====
section
/-!
SUPPORT. What the operations and commands of Machine/Khurdle.lean keep (Laws/Keeps.lean).
-/

namespace Sys2Proof.Machine

open Sys2Proof State

variable {s₀ s : State}

theorem State.batchEnd_keeps (h : Keeps s₀ s) (a : HAcc) : Keeps s₀ (State.batchEnd s a) := by
  unfold State.batchEnd
  try dsimp only
  repeat' first
    | with_reducible assumption
    | intro _
    | with_reducible apply State.hurdleCount_keeps
    | with_reducible apply State.rise_keeps
    | split
    | with_reducible apply Keeps.upd

theorem State.hQuery_keeps (h : Keeps s₀ s) (c : Nat) (k : KIn) : Keeps s₀ (State.hQuery s c k).st := by
  unfold State.hQuery
  try dsimp only
  repeat' first
    | with_reducible assumption
    | intro _
    | with_reducible apply State.batchEnd_keeps
    | split
    | with_reducible apply Keeps.upd

theorem State.hStride_keeps (h : Keeps s₀ s) (c : Nat) (k : KIn) : Keeps s₀ (State.hStride s c k).st := by
  unfold State.hStride
  try dsimp only
  repeat' first
    | with_reducible assumption
    | intro _
    | with_reducible apply State.batchEnd_keeps
    | split
    | with_reducible apply Keeps.upd

theorem State.hFinish_keeps (h : Keeps s₀ s) (c : Nat) (k : KIn) (start : W64) : Keeps s₀ (State.hFinish s c k start).st := by
  unfold State.hFinish
  try dsimp only
  repeat' first
    | with_reducible assumption
    | intro _
    | with_reducible apply State.batchEnd_keeps
    | with_reducible apply State.bump_keeps
    | with_reducible apply State.setFld_keeps
    | split
    | with_reducible apply Keeps.upd

theorem State.hEdit_keeps (h : Keeps s₀ s) (c : Nat) (k : KIn) (e : Nat) : Keeps s₀ (State.hEdit c k s e) := by
  unfold State.hEdit
  try dsimp only
  repeat' first
    | with_reducible assumption
    | intro _
    | with_reducible apply State.bump_keeps
    | with_reducible apply State.setTree_keeps
    | split
    | with_reducible apply Keeps.upd

theorem State.hMap_keeps (h : Keeps s₀ s) (c : Nat) (k : KIn) : Keeps s₀ (State.hMap s c k).st := by
  unfold State.hMap
  try dsimp only
  repeat' first
    | with_reducible assumption
    | intro _
    | with_reducible apply State.hEdit_keeps
    | with_reducible apply State.rise_keeps
    | with_reducible apply State.setFld_keeps
    | with_reducible apply State.setTree_keeps
    | with_reducible apply State.stopVerify_keeps
    | with_reducible apply Keeps.foldl
    | with_reducible apply Keeps.foldl_fst
    | with_reducible apply Keeps.foldl_snd
    | split
    | with_reducible apply Keeps.upd

theorem State.hurdleOut_keeps (h : Keeps s₀ s) (c : Nat) (k : KIn) (start : W64) : Keeps s₀ (State.hurdleOut s c k start).st := by
  unfold State.hurdleOut
  try dsimp only
  repeat' first
    | with_reducible assumption
    | intro _
    | with_reducible apply State.hFinish_keeps
    | with_reducible apply State.hMap_keeps
    | with_reducible apply State.hQuery_keeps
    | with_reducible apply State.hStride_keeps
    | split
    | with_reducible apply Keeps.upd

theorem State.hurdleEnable_keeps (h : Keeps s₀ s) (src : Bool) : Keeps s₀ (State.hurdleEnable src s) := by
  unfold State.hurdleEnable
  try dsimp only
  repeat' first
    | with_reducible assumption
    | intro _
    | with_reducible apply State.pump_keeps
    | with_reducible apply State.rise_keeps
    | with_reducible apply State.setFld_keeps
    | with_reducible apply State.setTree_keeps
    | split
    | with_reducible apply Keeps.upd

theorem State.mapFlush_keeps (h : Keeps s₀ s)  : Keeps s₀ (State.mapFlush s) := by
  unfold State.mapFlush
  try dsimp only
  repeat' first
    | with_reducible assumption
    | intro _
    | with_reducible apply State.setHome_keeps
    | with_reducible apply Keeps.foldl
    | with_reducible apply Keeps.foldl_fst
    | with_reducible apply Keeps.foldl_snd
    | split
    | with_reducible apply Keeps.upd

theorem State.hurdleDropAll_keeps (h : Keeps s₀ s)  : Keeps s₀ (State.hurdleDropAll s) := by
  unfold State.hurdleDropAll
  try dsimp only
  repeat' first
    | with_reducible assumption
    | intro _
    | with_reducible apply State.dropRuns_keeps
    | with_reducible apply State.endTrans_keeps
    | with_reducible apply State.fenceCheck_keeps
    | with_reducible apply State.modCtx_keeps
    | with_reducible apply State.promote_keeps
    | with_reducible apply State.releaseHolds_keeps
    | with_reducible apply Keeps.foldl
    | with_reducible apply Keeps.foldl_fst
    | with_reducible apply Keeps.foldl_snd
    | split
    | with_reducible apply Keeps.upd

theorem State.hurdleDisable_keeps (h : Keeps s₀ s) (src : Bool) : Keeps s₀ (State.hurdleDisable src s) := by
  unfold State.hurdleDisable
  try dsimp only
  repeat' first
    | with_reducible assumption
    | intro _
    | with_reducible apply State.hurdleDropAll_keeps
    | with_reducible apply State.hurdleSettle_keeps
    | with_reducible apply State.mapFlush_keeps
    | with_reducible apply State.setFld_keeps
    | split
    | with_reducible apply Keeps.upd

theorem State.stopCmd_keeps (h : Keeps s₀ s) (load : Bool) (index : Nat) : Keeps s₀ (State.stopCmd load index s) := by
  unfold State.stopCmd
  try dsimp only
  repeat' first
    | with_reducible assumption
    | intro _
    | with_reducible apply State.hurdleSettle_keeps
    | with_reducible apply State.load_keeps
    | with_reducible refine State.load_of ?_ (by assumption)
    | split
    | with_reducible apply Keeps.upd

theorem State.batchYield_keeps (h : Keeps s₀ s)  : Keeps s₀ (State.batchYield s) := by
  unfold State.batchYield
  try dsimp only
  repeat' first
    | with_reducible assumption
    | intro _
    | with_reducible apply State.pump_keeps
    | split
    | with_reducible apply Keeps.upd

theorem State.hurdleEcc_keeps (h : Keeps s₀ s) (arg : HurdleErr) : Keeps s₀ (State.hurdleEcc s arg) := by
  unfold State.hurdleEcc
  try dsimp only
  repeat' first
    | with_reducible assumption
    | intro _
    | with_reducible apply State.bump_keeps
    | with_reducible apply State.setFld_keeps
    | split
    | with_reducible apply Keeps.upd

/-! ### Commands: each answers a next state -/

theorem execHurdleEnable_keeps (r : Requester) (src : Bool) : Answers s (execHurdleEnable r src s) := by
  unfold execHurdleEnable
  try dsimp only
  repeat' first
    | with_reducible assumption
    | with_reducible exact Keeps.refl _
    | intro _
    | with_reducible apply Answers.mk
    | with_reducible apply State.hurdleEnable_keeps
    | with_reducible apply State.permit_keeps
    | split
    | with_reducible apply Keeps.upd

theorem execHurdleDisable_keeps (r : Requester) (src : Bool) : Answers s (execHurdleDisable r src s) := by
  unfold execHurdleDisable
  try dsimp only
  repeat' first
    | with_reducible assumption
    | with_reducible exact Keeps.refl _
    | intro _
    | with_reducible apply Answers.mk
    | with_reducible apply State.hurdleDisable_keeps
    | with_reducible apply State.permit_keeps
    | split
    | with_reducible apply Keeps.upd

theorem execStopStrideLoad_keeps (r : Requester) (index : BitVec 16) : Answers s (execStopStrideLoad r index s) := by
  unfold execStopStrideLoad
  try dsimp only
  repeat' first
    | with_reducible assumption
    | with_reducible exact Keeps.refl _
    | intro _
    | with_reducible apply Answers.mk
    | with_reducible apply State.permit_keeps
    | with_reducible apply State.stopCmd_keeps
    | split
    | with_reducible apply Keeps.upd

theorem execBatchYield_keeps  : Answers s (execBatchYield s) := by
  unfold execBatchYield
  try dsimp only
  repeat' first
    | with_reducible assumption
    | with_reducible exact Keeps.refl _
    | intro _
    | with_reducible apply Answers.mk
    | with_reducible apply State.batchYield_keeps
    | with_reducible apply State.clocked_keeps
    | split
    | with_reducible apply Keeps.upd

theorem execHurdleEccError_keeps (e : HurdleErr) : Answers s (execHurdleEccError e s) := by
  unfold execHurdleEccError
  try dsimp only
  repeat' first
    | with_reducible assumption
    | with_reducible exact Keeps.refl _
    | intro _
    | with_reducible apply Answers.mk
    | with_reducible apply State.hurdleEcc_keeps
    | split
    | with_reducible apply Keeps.upd

end Sys2Proof.Machine
end

