-- ==== Sys2Proof/Laws/KeepsKfusion.lean ====
section
/-!
SUPPORT. What the operations of Machine/Kfusion.lean keep (Laws/Keeps.lean).
-/

namespace Sys2Proof.Machine

open Sys2Proof State

variable {s₀ s : State}

theorem State.withRun_keeps (h : Keeps s₀ s) (run : FRun) : Keeps s₀ (State.withRun s run) := by
  unfold State.withRun
  try dsimp only
  repeat' first
    | with_reducible assumption
    | intro _
    | split
    | with_reducible apply Keeps.upd

theorem State.putEgo_keeps (h : Keeps s₀ s) (bs : List Nat) : Keeps s₀ (State.putEgo s bs) := by
  unfold State.putEgo
  try dsimp only
  repeat' first
    | with_reducible assumption
    | intro _
    | with_reducible apply State.setFtab_keeps
    | with_reducible apply Keeps.foldl
    | with_reducible apply Keeps.foldl_fst
    | with_reducible apply Keeps.foldl_snd
    | split
    | with_reducible apply Keeps.upd

theorem State.fEgo_keeps (h : Keeps s₀ s) (c : Nat) (k : KIn) : Keeps s₀ (State.fEgo s c k).2.st := by
  unfold State.fEgo
  try dsimp only
  repeat' first
    | with_reducible assumption
    | intro _
    | with_reducible apply State.putEgo_keeps
    | split
    | with_reducible apply Keeps.upd

theorem State.setTrack_keeps (h : Keeps s₀ s) (i : Nat) (t : Option Track) : Keeps s₀ (State.setTrack s i t) := by
  unfold State.setTrack
  try dsimp only
  repeat' first
    | with_reducible assumption
    | intro _
    | split
    | with_reducible apply Keeps.upd

theorem State.setThist_keeps (h : Keeps s₀ s) (i : Nat) (h : List FHist) : Keeps s₀ (State.setThist s i h) := by
  unfold State.setThist
  try dsimp only
  repeat' first
    | with_reducible assumption
    | intro _
    | split
    | with_reducible apply Keeps.upd

theorem State.dropTrack_keeps (h : Keeps s₀ s) (i : Nat) : Keeps s₀ (State.dropTrack s i) := by
  unfold State.dropTrack
  try dsimp only
  repeat' first
    | with_reducible assumption
    | intro _
    | with_reducible apply State.setThist_keeps
    | with_reducible apply State.setTrack_keeps
    | split
    | with_reducible apply Keeps.upd

theorem State.predictAll_keeps (h : Keeps s₀ s) (y : W64) (n : Nat) : Keeps s₀ (State.predictAll s y n) := by
  unfold State.predictAll
  try dsimp only
  repeat' first
    | with_reducible assumption
    | intro _
    | with_reducible apply State.setTrack_keeps
    | with_reducible apply Keeps.foldl
    | with_reducible apply Keeps.foldl_fst
    | with_reducible apply Keeps.foldl_snd
    | split
    | with_reducible apply Keeps.upd

theorem State.takePair_keeps (h : Keeps s₀ s) (str : Nat) (confirm : Nat) (y : W64) (m : Meas) (i : Nat) (n : Nat) : Keeps s₀ (State.takePair s str confirm y m i n) := by
  unfold State.takePair
  try dsimp only
  repeat' first
    | with_reducible assumption
    | intro _
    | with_reducible apply State.setThist_keeps
    | with_reducible apply State.setTrack_keeps
    | split
    | with_reducible apply Keeps.upd

theorem State.birth_of (h : Keeps s₀ s) {str : Nat} {y : W64} {m : Meas} {t : State}
    (e : s.birth str y m = some t) : Keeps s₀ t := by
  unfold State.birth at e
  dsimp only at e
  split at e
  · cases e
  · cases e
    exact State.setTrack_keeps (Keeps.upd h _ _ _ _ _ _ _ _ _ _ _ _ _ _ _ _ _ _ _) _ _

theorem State.entryIn_keeps (h : Keeps s₀ s) (c : Nat) (k : KIn) (z0 : TCnt) (e : Nat) : Keeps s₀ (State.entryIn c k (s, z0) e).1 := by
  unfold State.entryIn
  try dsimp only
  repeat' first
    | with_reducible assumption
    | intro _
    | with_reducible apply State.dropTrack_keeps
    | with_reducible apply State.predictAll_keeps
    | with_reducible apply State.setTrack_keeps
    | with_reducible apply State.takePair_keeps
    | with_reducible refine State.birth_of ?_ (by assumption)
    | with_reducible apply Keeps.foldl
    | with_reducible apply Keeps.foldl_fst
    | with_reducible apply Keeps.foldl_snd
    | split
    | with_reducible apply Keeps.upd

theorem State.entryIn_of (h : Keeps s₀ s) {c : Nat} {k : KIn} {z0 : TCnt} {e : Nat} {x1 : TCnt} {t : State} (he : State.entryIn c k (s, z0) e = (t, x1)) : Keeps s₀ t := by
  have g := State.entryIn_keeps h c k z0 e
  rw [he] at g
  exact g

theorem State.takeLate_keeps (h : Keeps s₀ s) (str : Nat) (confirm : Nat) (y : W64) (m : Meas) (i : Nat) (n : Nat) : Keeps s₀ (State.takeLate s str confirm y m i n) := by
  unfold State.takeLate
  try dsimp only
  repeat' first
    | with_reducible assumption
    | intro _
    | with_reducible apply State.setThist_keeps
    | with_reducible apply State.setTrack_keeps
    | split
    | with_reducible apply Keeps.upd

theorem State.entryLate_keeps (h : Keeps s₀ s) (c : Nat) (k : KIn) (z0 : TCnt) (e : Nat) : Keeps s₀ (State.entryLate c k (s, z0) e).1 := by
  unfold State.entryLate
  try dsimp only
  repeat' first
    | with_reducible assumption
    | intro _
    | with_reducible apply State.takeLate_keeps
    | with_reducible apply Keeps.foldl
    | with_reducible apply Keeps.foldl_fst
    | with_reducible apply Keeps.foldl_snd
    | split
    | with_reducible apply Keeps.upd

theorem State.entryLate_of (h : Keeps s₀ s) {c : Nat} {k : KIn} {z0 : TCnt} {e : Nat} {x1 : TCnt} {t : State} (he : State.entryLate c k (s, z0) e = (t, x1)) : Keeps s₀ t := by
  have g := State.entryLate_keeps h c k z0 e
  rw [he] at g
  exact g

theorem State.dropBad_keeps (h : Keeps s₀ s) (z0 : TCnt) : Keeps s₀ (State.dropBad (s, z0)).1 := by
  unfold State.dropBad
  try dsimp only
  repeat' first
    | with_reducible assumption
    | intro _
    | with_reducible apply State.dropTrack_keeps
    | with_reducible apply Keeps.foldl
    | with_reducible apply Keeps.foldl_fst
    | with_reducible apply Keeps.foldl_snd
    | split
    | with_reducible apply Keeps.upd

theorem State.dropBad_of (h : Keeps s₀ s) {z0 : TCnt} {x1 : TCnt} {t : State} (he : State.dropBad (s, z0) = (t, x1)) : Keeps s₀ t := by
  have g := State.dropBad_keeps h z0
  rw [he] at g
  exact g

theorem State.trackRun_keeps (h : Keeps s₀ s) (c : Nat) (k : KIn) (es : List (Nat × Bool)) : Keeps s₀ (State.trackRun s c k es).1 := by
  unfold State.trackRun
  try dsimp only
  repeat' first
    | with_reducible assumption
    | intro _
    | with_reducible apply State.dropBad_keeps
    | with_reducible apply State.entryIn_keeps
    | with_reducible apply State.entryLate_keeps
    | with_reducible refine State.dropBad_of ?_ (by assumption)
    | with_reducible refine State.entryIn_of ?_ (by assumption)
    | with_reducible refine State.entryLate_of ?_ (by assumption)
    | with_reducible apply Keeps.foldl
    | with_reducible apply Keeps.foldl_fst
    | with_reducible apply Keeps.foldl_snd
    | split
    | with_reducible apply Keeps.upd

theorem State.trackRun_of (h : Keeps s₀ s) {c : Nat} {k : KIn} {es : List (Nat × Bool)} {x1 : TCnt} {t : State} (he : State.trackRun s c k es = (t, x1)) : Keeps s₀ t := by
  have g := State.trackRun_keeps h c k es
  rw [he] at g
  exact g

theorem State.backFrom_keeps (h : Keeps s₀ s) (live : State) : Keeps s₀ (State.backFrom s live) := by
  unfold State.backFrom
  try dsimp only
  repeat' first
    | with_reducible assumption
    | intro _
    | split
    | with_reducible apply Keeps.upd

theorem State.fTrack_keeps (h : Keeps s₀ s) (c : Nat) (k : KIn) (run : FRun) : Keeps s₀ (State.fTrack s c k run).st := by
  unfold State.fTrack
  try dsimp only
  repeat' first
    | with_reducible assumption
    | intro _
    | with_reducible apply State.backFrom_keeps
    | with_reducible apply State.trackRun_keeps
    | with_reducible apply State.withRun_keeps
    | with_reducible refine State.trackRun_of ?_ (by assumption)
    | split
    | with_reducible apply Keeps.upd

theorem State.trackStop_keeps (h : Keeps s₀ s) (c : Nat) (k : KIn) (run : FRun) : Keeps s₀ (State.trackStop s c k run) := by
  unfold State.trackStop
  try dsimp only
  repeat' first
    | with_reducible assumption
    | intro _
    | with_reducible apply State.backFrom_keeps
    | with_reducible apply State.trackRun_keeps
    | with_reducible apply State.withRun_keeps
    | with_reducible refine State.trackRun_of ?_ (by assumption)
    | split
    | with_reducible apply Keeps.upd

end Sys2Proof.Machine
end

