-- ==== Sys2Proof/Laws/KeepsKattn.lean ====
section
/-!
SUPPORT. What the operations and commands of Machine/Kattn.lean keep (Laws/Keeps.lean).
-/

namespace Sys2Proof.Machine

open Sys2Proof State

variable {s₀ s : State}

theorem State.ctxPut_keeps (h : Keeps s₀ s) (c : Nat) (va : Nat) (n : Nat) (v : Nat) : Keeps s₀ (State.ctxPut s c va n v) := by
  unfold State.ctxPut
  try dsimp only
  repeat' first
    | with_reducible assumption
    | intro _
    | with_reducible apply State.ledPut_keeps
    | with_reducible apply Keeps.foldl
    | with_reducible apply Keeps.foldl_fst
    | with_reducible apply Keeps.foldl_snd
    | split
    | with_reducible apply Keeps.upd

theorem State.ptPut_keeps (h : Keeps s₀ s) (c : Nat) (k : KIn) (row : Nat) (col : Nat) (pg : Nat) : Keeps s₀ (State.ptPut s c k row col pg) := by
  unfold State.ptPut
  try dsimp only
  repeat' first
    | with_reducible assumption
    | intro _
    | with_reducible apply State.writeElems_keeps
    | split
    | with_reducible apply Keeps.upd

theorem State.ringPop_keeps (h : Keeps s₀ s) (c : Nat) (k : KIn) : Keeps s₀ (State.ringPop s c k).2 := by
  unfold State.ringPop
  try dsimp only
  repeat' first
    | with_reducible assumption
    | intro _
    | with_reducible apply State.ctxPut_keeps
    | split
    | with_reducible apply Keeps.upd

theorem State.ringPop_of (h : Keeps s₀ s) {c : Nat} {k : KIn} {x0 : Nat} {t : State} (he : State.ringPop s c k = (x0, t)) : Keeps s₀ t := by
  have g := State.ringPop_keeps h c k
  rw [he] at g
  exact g

theorem State.appendCol_keeps (h : Keeps s₀ s) (c : Nat) (k : KIn) (e : LenEnt) (col : Nat) : Keeps s₀ (State.appendCol c k e s col) := by
  unfold State.appendCol
  try dsimp only
  repeat' first
    | with_reducible assumption
    | intro _
    | with_reducible apply State.ctxPut_keeps
    | with_reducible apply State.ledPut_keeps
    | with_reducible apply State.ptPut_keeps
    | with_reducible apply State.ringPop_keeps
    | with_reducible refine State.ringPop_of ?_ (by assumption)
    | with_reducible apply Keeps.foldl
    | with_reducible apply Keeps.foldl_fst
    | with_reducible apply Keeps.foldl_snd
    | split
    | with_reducible apply Keeps.upd

theorem State.appendData_keeps (h : Keeps s₀ s) (src : State) (c : Nat) (k : KIn) (e : LenEnt) : Keeps s₀ (State.appendData src c k e s) := by
  unfold State.appendData
  try dsimp only
  repeat' first
    | with_reducible assumption
    | intro _
    | with_reducible apply State.ctxPut_keeps
    | with_reducible apply Keeps.foldl
    | with_reducible apply Keeps.foldl_fst
    | with_reducible apply Keeps.foldl_snd
    | split
    | with_reducible apply Keeps.upd

theorem State.appendEnt_of (h : Keeps s₀ s) {c : Nat} {k : KIn} {x : LenEnt} {n : Nat} {t : State}
    (e : s.appendEnt c k x = some (n, t)) : Keeps s₀ t := by
  unfold State.appendEnt at e
  dsimp only at e
  repeat' split at e
  all_goals first
    | cases e; exact h
    | cases e; exact State.appendData_keeps (Keeps.foldl h fun _ _ g => State.appendCol_keeps g _ _ _ _) _ _ _ _
    | cases e

theorem State.claimCols_keeps (h : Keeps s₀ s) (c : Nat) (id : Nat) (k : KIn) (e : LenEnt) : Keeps s₀ (State.claimCols c id k e s) := by
  unfold State.claimCols
  try dsimp only
  repeat' first
    | with_reducible assumption
    | intro _
    | with_reducible apply State.takeTrans_keeps
    | with_reducible apply Keeps.foldl
    | with_reducible apply Keeps.foldl_fst
    | with_reducible apply Keeps.foldl_snd
    | split
    | with_reducible apply Keeps.upd

theorem State.kvAppend_keeps (h : Keeps s₀ s) (c : Nat) (id : Nat) : Keeps s₀ (State.kvAppend s c id) := by
  unfold State.kvAppend
  try dsimp only
  repeat' first
    | with_reducible assumption
    | intro _
    | with_reducible apply State.bumpFree_keeps
    | with_reducible apply State.claimCols_keeps
    | with_reducible apply State.modOp_keeps
    | with_reducible apply State.opFault_keeps
    | with_reducible refine State.appendEnt_of ?_ (by assumption)
    | split
    | with_reducible apply Keeps.upd

theorem State.attnMarks_keeps (h : Keeps s₀ s) (c : Nat) (k : KIn) (kv : List Nat) : Keeps s₀ (State.attnMarks s c k kv) := by
  unfold State.attnMarks
  try dsimp only
  repeat' first
    | with_reducible assumption
    | intro _
    | with_reducible apply State.ctxPut_keeps
    | with_reducible apply Keeps.foldl
    | with_reducible apply Keeps.foldl_fst
    | with_reducible apply Keeps.foldl_snd
    | split
    | with_reducible apply Keeps.upd

/-! ### Commands: each answers a next state -/

theorem execKvAppend_keeps (c : CtxId) (id : Nat) : Answers s (execKvAppend c id s) := by
  unfold execKvAppend
  try dsimp only
  repeat' first
    | with_reducible assumption
    | with_reducible exact Keeps.refl _
    | intro _
    | with_reducible apply Answers.mk
    | with_reducible apply State.clocked_keeps
    | with_reducible apply State.kvAppend_keeps
    | split
    | with_reducible apply Keeps.upd

end Sys2Proof.Machine
end

