-- ==== Sys2Proof/Laws/KeepsKstream.lean ====
section
/-!
SUPPORT. What the operations and commands of Machine/Kstream.lean keep (Laws/Keeps.lean).
-/

namespace Sys2Proof.Machine

open Sys2Proof State

variable {s₀ s : State}

theorem State.setStrm_keeps (h : Keeps s₀ s) (n : Nat) (x : Option Strm) : Keeps s₀ (State.setStrm s n x) := by
  unfold State.setStrm
  try dsimp only
  repeat' first
    | with_reducible assumption
    | intro _
    | split
    | with_reducible apply Keeps.upd

theorem State.modStrm_keeps (h : Keeps s₀ s) (n : Nat) (f : Strm → Strm) : Keeps s₀ (State.modStrm s n f) := by
  unfold State.modStrm
  try dsimp only
  repeat' first
    | with_reducible assumption
    | intro _
    | with_reducible apply State.setStrm_keeps
    | split
    | with_reducible apply Keeps.upd

theorem State.escWrite_keeps (h : Keeps s₀ s) (x : Strm) (vs : List W32) : Keeps s₀ (State.escWrite s x vs) := by
  unfold State.escWrite
  try dsimp only
  repeat' first
    | with_reducible assumption
    | intro _
    | with_reducible apply State.putBytes_keeps
    | split
    | with_reducible apply Keeps.upd

theorem State.strmReset_keeps (h : Keeps s₀ s) (n : Nat) (x : Strm) : Keeps s₀ (State.strmReset s n x) := by
  unfold State.strmReset
  try dsimp only
  repeat' first
    | with_reducible assumption
    | intro _
    | with_reducible apply State.escWrite_keeps
    | with_reducible apply State.setStrm_keeps
    | split
    | with_reducible apply Keeps.upd

theorem State.strmInfo_keeps (h : Keeps s₀ s) (r : Nat) (err : Nat) (n : Nat) : Keeps s₀ (State.strmInfo s r err n) := by
  unfold State.strmInfo
  try dsimp only
  repeat' first
    | with_reducible assumption
    | intro _
    | with_reducible apply State.setReg_keeps
    | split
    | with_reducible apply Keeps.upd

theorem State.strmRegister_keeps (h : Keeps s₀ s) (r : Nat) : Keeps s₀ (State.strmRegister r s) := by
  unfold State.strmRegister
  try dsimp only
  repeat' first
    | with_reducible assumption
    | intro _
    | with_reducible apply State.setStrm_keeps
    | with_reducible apply State.strmInfo_keeps
    | with_reducible apply State.strmReset_keeps
    | split
    | with_reducible apply Keeps.upd

theorem State.onStrm_keeps (h : Keeps s₀ s) (r : Nat) (f : Nat → Strm → State → State) (hf : ∀ y0 y1 y2, Keeps s₀ y2 → Keeps s₀ (f y0 y1 y2)) : Keeps s₀ (State.onStrm s r f) := by
  unfold State.onStrm
  try dsimp only
  repeat' first
    | with_reducible assumption
    | intro _
    | with_reducible apply State.strmInfo_keeps
    | with_reducible apply hf
    | split
    | with_reducible apply Keeps.upd

theorem State.strmUnregister_keeps (h : Keeps s₀ s) (r : Nat) : Keeps s₀ (State.strmUnregister r s) := by
  unfold State.strmUnregister
  try dsimp only
  repeat' first
    | with_reducible assumption
    | intro _
    | with_reducible apply State.onStrm_keeps
    | with_reducible apply State.setStrm_keeps
    | split
    | with_reducible apply Keeps.upd

theorem State.strmCmdReset_keeps (h : Keeps s₀ s) (r : Nat) : Keeps s₀ (State.strmCmdReset r s) := by
  unfold State.strmCmdReset
  try dsimp only
  repeat' first
    | with_reducible assumption
    | intro _
    | with_reducible apply State.onStrm_keeps
    | with_reducible apply State.strmReset_keeps
    | split
    | with_reducible apply Keeps.upd

theorem State.strmFlush_keeps (h : Keeps s₀ s) (r : Nat) : Keeps s₀ (State.strmFlush r s) := by
  unfold State.strmFlush
  try dsimp only
  repeat' first
    | with_reducible assumption
    | intro _
    | with_reducible apply State.onStrm_keeps
    | with_reducible apply State.setStrm_keeps
    | split
    | with_reducible apply Keeps.upd

theorem State.strmRead_keeps (h : Keeps s₀ s) (r : Nat) : Keeps s₀ (State.strmRead r s) := by
  unfold State.strmRead
  try dsimp only
  repeat' first
    | with_reducible assumption
    | intro _
    | with_reducible apply State.setFld_keeps
    | with_reducible apply State.strmInfo_keeps
    | split
    | with_reducible apply Keeps.upd

theorem State.makeRoom_keeps (h : Keeps s₀ s) (n : Nat) : Keeps s₀ (State.makeRoom n s) := by
  induction n generalizing s with
  | zero => exact h
  | succ n ih =>
    unfold State.makeRoom
    split
    · exact h
    · split
      · exact ih (State.setStrm_keeps h _ _)
      · exact h

theorem State.chunksGo_keeps (h : Keeps s₀ s)  : Keeps s₀ (State.chunksGo s) := by
  unfold State.chunksGo
  try dsimp only
  repeat' first
    | with_reducible assumption
    | intro _
    | with_reducible apply State.modOp_keeps
    | with_reducible apply Keeps.foldl
    | with_reducible apply Keeps.foldl_fst
    | with_reducible apply Keeps.foldl_snd
    | split
    | with_reducible apply Keeps.upd

theorem State.chunkPoison_keeps (h : Keeps s₀ s) (c : Nat) (id : Nat) : Keeps s₀ (State.chunkPoison s c id) := by
  unfold State.chunkPoison
  try dsimp only
  repeat' first
    | with_reducible assumption
    | intro _
    | with_reducible apply State.opFault_keeps
    | split
    | with_reducible apply Keeps.upd

theorem State.chunkAdmit_keeps (h : Keeps s₀ s)  : Keeps s₀ (State.chunkAdmit s) := by
  unfold State.chunkAdmit
  try dsimp only
  repeat' first
    | with_reducible assumption
    | intro _
    | with_reducible apply State.bumpFree_keeps
    | with_reducible apply State.chunkPoison_keeps
    | with_reducible apply State.chunksGo_keeps
    | with_reducible apply State.makeRoom_keeps
    | with_reducible apply State.modStrm_keeps
    | with_reducible apply State.rise_keeps
    | with_reducible apply Keeps.foldl
    | with_reducible apply Keeps.foldl_fst
    | with_reducible apply Keeps.foldl_snd
    | split
    | with_reducible apply Keeps.upd

theorem State.strmPoison_keeps (h : Keeps s₀ s) (n : Nat) : Keeps s₀ (State.strmPoison s n) := by
  unfold State.strmPoison
  try dsimp only
  repeat' first
    | with_reducible assumption
    | intro _
    | with_reducible apply State.chunkPoison_keeps
    | with_reducible apply State.setFld_keeps
    | with_reducible apply State.setStrm_keeps
    | with_reducible apply Keeps.foldl
    | with_reducible apply Keeps.foldl_fst
    | with_reducible apply Keeps.foldl_snd
    | split
    | with_reducible apply Keeps.upd

theorem State.strmRaised_keeps (h : Keeps s₀ s) (n : Nat) (corrected : Bool) (ue : Bool) : Keeps s₀ (State.strmRaised s n corrected ue) := by
  unfold State.strmRaised
  try dsimp only
  repeat' first
    | with_reducible assumption
    | intro _
    | with_reducible apply State.bump_keeps
    | with_reducible apply State.chunksGo_keeps
    | with_reducible apply State.makeRoom_keeps
    | with_reducible apply State.rise_keeps
    | with_reducible apply State.setStrm_keeps
    | with_reducible apply State.strmPoison_keeps
    | split
    | with_reducible apply Keeps.upd

theorem State.strmLowered_keeps (h : Keeps s₀ s) (n : Nat) : Keeps s₀ (State.strmLowered s n) := by
  unfold State.strmLowered
  try dsimp only
  repeat' first
    | with_reducible assumption
    | intro _
    | with_reducible apply State.escWrite_keeps
    | with_reducible apply State.rise_keeps
    | with_reducible apply State.setStrm_keeps
    | split
    | with_reducible apply Keeps.upd

theorem State.strmEcc_keeps (h : Keeps s₀ s) (arg : Option Nat) : Keeps s₀ (State.strmEcc s arg) := by
  unfold State.strmEcc
  try dsimp only
  repeat' first
    | with_reducible assumption
    | intro _
    | with_reducible apply State.bump_keeps
    | with_reducible apply State.strmPoison_keeps
    | split
    | with_reducible apply Keeps.upd

theorem State.strmTeardown_keeps (h : Keeps s₀ s) (c : Nat) : Keeps s₀ (State.strmTeardown s c) := by
  unfold State.strmTeardown
  try dsimp only
  repeat' first
    | with_reducible assumption
    | intro _
    | split
    | with_reducible apply Keeps.upd

theorem State.strmSwapOut_keeps (h : Keeps s₀ s) (c : Nat) : Keeps s₀ (State.strmSwapOut s c) := by
  unfold State.strmSwapOut
  try dsimp only
  repeat' first
    | with_reducible assumption
    | intro _
    | split
    | with_reducible apply Keeps.upd

theorem State.chunkStore_keeps (h : Keeps s₀ s) (l : List (Nat × List W32)) : Keeps s₀ (State.chunkStore s l) := by
  unfold State.chunkStore
  try dsimp only
  repeat' first
    | with_reducible assumption
    | intro _
    | with_reducible apply State.modStrm_keeps
    | with_reducible apply State.nextStamp_keeps
    | with_reducible apply Keeps.foldl
    | with_reducible apply Keeps.foldl_fst
    | with_reducible apply Keeps.foldl_snd
    | split
    | with_reducible apply Keeps.upd

/-! ### Commands: each answers a next state -/

theorem execStreamRegister_keeps (r : Requester) : Answers s (execStreamRegister r s) := by
  unfold execStreamRegister
  try dsimp only
  repeat' first
    | with_reducible assumption
    | with_reducible exact Keeps.refl _
    | intro _
    | with_reducible apply Answers.mk
    | with_reducible apply State.permit_keeps
    | with_reducible apply State.strmRegister_keeps
    | split
    | with_reducible apply Keeps.upd

theorem execStreamUnregister_keeps (r : Requester) : Answers s (execStreamUnregister r s) := by
  unfold execStreamUnregister
  try dsimp only
  repeat' first
    | with_reducible assumption
    | with_reducible exact Keeps.refl _
    | intro _
    | with_reducible apply Answers.mk
    | with_reducible apply State.permit_keeps
    | with_reducible apply State.strmUnregister_keeps
    | split
    | with_reducible apply Keeps.upd

theorem execStreamReset_keeps (r : Requester) : Answers s (execStreamReset r s) := by
  unfold execStreamReset
  try dsimp only
  repeat' first
    | with_reducible assumption
    | with_reducible exact Keeps.refl _
    | intro _
    | with_reducible apply Answers.mk
    | with_reducible apply State.permit_keeps
    | with_reducible apply State.strmCmdReset_keeps
    | split
    | with_reducible apply Keeps.upd

theorem execStreamFlush_keeps (r : Requester) : Answers s (execStreamFlush r s) := by
  unfold execStreamFlush
  try dsimp only
  repeat' first
    | with_reducible assumption
    | with_reducible exact Keeps.refl _
    | intro _
    | with_reducible apply Answers.mk
    | with_reducible apply State.permit_keeps
    | with_reducible apply State.strmFlush_keeps
    | split
    | with_reducible apply Keeps.upd

theorem execStreamRead_keeps (r : Requester) : Answers s (execStreamRead r s) := by
  unfold execStreamRead
  try dsimp only
  repeat' first
    | with_reducible assumption
    | with_reducible exact Keeps.refl _
    | intro _
    | with_reducible apply Answers.mk
    | with_reducible apply State.permit_keeps
    | with_reducible apply State.strmRead_keeps
    | split
    | with_reducible apply Keeps.upd

theorem execChunkAdmission_keeps  : Answers s (execChunkAdmission s) := by
  unfold execChunkAdmission
  try dsimp only
  repeat' first
    | with_reducible assumption
    | with_reducible exact Keeps.refl _
    | intro _
    | with_reducible apply Answers.mk
    | with_reducible apply State.chunkAdmit_keeps
    | with_reducible apply State.clocked_keeps
    | split
    | with_reducible apply Keeps.upd

theorem execStreamRaiseComplete_keeps (n : BitVec 16) (corrected : Bool) (ue : Bool) : Answers s (execStreamRaiseComplete n corrected ue s) := by
  unfold execStreamRaiseComplete
  try dsimp only
  repeat' first
    | with_reducible assumption
    | with_reducible exact Keeps.refl _
    | intro _
    | with_reducible apply Answers.mk
    | with_reducible apply State.clocked_keeps
    | with_reducible apply State.strmRaised_keeps
    | split
    | with_reducible apply Keeps.upd

theorem execStreamLowerComplete_keeps (n : BitVec 16) : Answers s (execStreamLowerComplete n s) := by
  unfold execStreamLowerComplete
  try dsimp only
  repeat' first
    | with_reducible assumption
    | with_reducible exact Keeps.refl _
    | intro _
    | with_reducible apply Answers.mk
    | with_reducible apply State.clocked_keeps
    | with_reducible apply State.strmLowered_keeps
    | split
    | with_reducible apply Keeps.upd

theorem execStreamStoreEccError_keeps (n : Option (BitVec 16)) : Answers s (execStreamStoreEccError n s) := by
  unfold execStreamStoreEccError
  try dsimp only
  repeat' first
    | with_reducible assumption
    | with_reducible exact Keeps.refl _
    | intro _
    | with_reducible apply Answers.mk
    | with_reducible apply State.strmEcc_keeps
    | split
    | with_reducible apply Keeps.upd

end Sys2Proof.Machine
end

