-- ==== Sys2Proof/Laws/KeepsKsprint.lean ====
section
/-!
SUPPORT. What the operations and commands of Machine/Ksprint.lean keep (Laws/Keeps.lean).
-/

namespace Sys2Proof.Machine

open Sys2Proof State

variable {s₀ s : State}

theorem State.rxFeatures_keeps (h : Keeps s₀ s) (e : Nat) : Keeps s₀ (State.rxFeatures e s) := by
  unfold State.rxFeatures
  try dsimp only
  repeat' first
    | with_reducible assumption
    | intro _
    | with_reducible apply State.bumpFree_keeps
    | with_reducible apply State.setBind_keeps
    | with_reducible apply Keeps.foldl
    | with_reducible apply Keeps.foldl_fst
    | with_reducible apply Keeps.foldl_snd
    | split
    | with_reducible apply Keeps.upd

theorem State.rxAccept_keeps (h : Keeps s₀ s) (pacer : Nat) (q : Nat × List W32) : Keeps s₀ (State.rxAccept pacer s q) := by
  unfold State.rxAccept
  try dsimp only
  repeat' first
    | with_reducible assumption
    | intro _
    | with_reducible apply State.modChan_keeps
    | with_reducible apply Keeps.foldl
    | with_reducible apply Keeps.foldl_fst
    | with_reducible apply Keeps.foldl_snd
    | split
    | with_reducible apply Keeps.upd

theorem State.rxOutputs_keeps (h : Keeps s₀ s) (e : Nat) (cycles : Nat) : Keeps s₀ (State.rxOutputs e cycles s) := by
  unfold State.rxOutputs
  try dsimp only
  repeat' first
    | with_reducible assumption
    | intro _
    | with_reducible apply State.pump_keeps
    | with_reducible apply State.rise_keeps
    | with_reducible apply State.rxAccept_keeps
    | with_reducible apply State.setBind_keeps
    | with_reducible apply State.setFld_keeps
    | with_reducible apply Keeps.foldl
    | with_reducible apply Keeps.foldl_fst
    | with_reducible apply Keeps.foldl_snd
    | split
    | with_reducible apply Keeps.upd

theorem State.rxDeadline_keeps (h : Keeps s₀ s) (e : Nat) : Keeps s₀ (State.rxDeadline e s) := by
  unfold State.rxDeadline
  try dsimp only
  repeat' first
    | with_reducible assumption
    | intro _
    | with_reducible apply State.bump_keeps
    | with_reducible apply State.setBind_keeps
    | with_reducible apply Keeps.foldl
    | with_reducible apply Keeps.foldl_fst
    | with_reducible apply Keeps.foldl_snd
    | split
    | with_reducible apply Keeps.upd

theorem State.rxTeardown_keeps (h : Keeps s₀ s) (c : Nat) : Keeps s₀ (State.rxTeardown s c) := by
  unfold State.rxTeardown
  try dsimp only
  repeat' first
    | with_reducible assumption
    | intro _
    | with_reducible apply State.setBind_keeps
    | with_reducible apply Keeps.foldl
    | with_reducible apply Keeps.foldl_fst
    | with_reducible apply Keeps.foldl_snd
    | split
    | with_reducible apply Keeps.upd

theorem State.sprintEcc_keeps (h : Keeps s₀ s) (e : Nat) (uncorrectable : Bool) : Keeps s₀ (State.sprintEcc e uncorrectable s) := by
  unfold State.sprintEcc
  try dsimp only
  repeat' first
    | with_reducible assumption
    | intro _
    | with_reducible apply State.bump_keeps
    | with_reducible apply State.contextLost_keeps
    | with_reducible apply State.opFault_keeps
    | with_reducible apply State.setBind_keeps
    | with_reducible apply State.setFld_keeps
    | with_reducible apply Keeps.foldl
    | with_reducible apply Keeps.foldl_fst
    | with_reducible apply Keeps.foldl_snd
    | split
    | with_reducible apply Keeps.upd

theorem State.mapOut_keeps (h : Keeps s₀ s) (e : Nat) (v : Bool) : Keeps s₀ (State.mapOut e v s) := by
  unfold State.mapOut
  try dsimp only
  repeat' first
    | with_reducible assumption
    | intro _
    | with_reducible apply State.pump_keeps
    | with_reducible apply State.setFld_keeps
    | split
    | with_reducible apply Keeps.upd

/-! ### Commands: each answers a next state -/

theorem execSprintEccError_keeps (e : Fin 8) (uncorrectable : Bool) : Answers s (execSprintEccError e uncorrectable s) := by
  unfold execSprintEccError
  try dsimp only
  repeat' first
    | with_reducible assumption
    | with_reducible exact Keeps.refl _
    | intro _
    | with_reducible apply Answers.mk
    | with_reducible apply State.sprintEcc_keeps
    | split
    | with_reducible apply Keeps.upd

theorem execMapOut_keeps (r : Requester) (e : Fin 8) (v : Bool) : Answers s (execMapOut r e v s) := by
  unfold execMapOut
  try dsimp only
  repeat' first
    | with_reducible assumption
    | with_reducible exact Keeps.refl _
    | intro _
    | with_reducible apply Answers.mk
    | with_reducible apply State.mapOut_keeps
    | with_reducible apply State.permit_keeps
    | split
    | with_reducible apply Keeps.upd

theorem execReflexFeaturesArrive_keeps (e : Fin 8) : Answers s (execReflexFeaturesArrive e s) := by
  unfold execReflexFeaturesArrive
  try dsimp only
  repeat' first
    | with_reducible assumption
    | with_reducible exact Keeps.refl _
    | intro _
    | with_reducible apply Answers.mk
    | with_reducible apply State.clocked_keeps
    | with_reducible apply State.rxFeatures_keeps
    | split
    | with_reducible apply Keeps.upd

theorem execReflexOutputsArrive_keeps (e : Fin 8) (cycles : Nat) : Answers s (execReflexOutputsArrive e cycles s) := by
  unfold execReflexOutputsArrive
  try dsimp only
  repeat' first
    | with_reducible assumption
    | with_reducible exact Keeps.refl _
    | intro _
    | with_reducible apply Answers.mk
    | with_reducible apply State.clocked_keeps
    | with_reducible apply State.rxOutputs_keeps
    | split
    | with_reducible apply Keeps.upd

theorem execReflexOutputDeadline_keeps (e : Fin 8) : Answers s (execReflexOutputDeadline e s) := by
  unfold execReflexOutputDeadline
  try dsimp only
  repeat' first
    | with_reducible assumption
    | with_reducible exact Keeps.refl _
    | intro _
    | with_reducible apply Answers.mk
    | with_reducible apply State.rxDeadline_keeps
    | split
    | with_reducible apply Keeps.upd

end Sys2Proof.Machine
end

