-- ==== Sys2Proof/Laws/KeepsIssue.lean ====
section
/-!
SUPPORT. What the operations and commands of Machine/Issue.lean keep (Laws/Keeps.lean).
-/

namespace Sys2Proof.Machine

open Sys2Proof State

variable {s₀ s : State}

theorem State.issueRead_keeps (h : Keeps s₀ s) (c : Nat) (va : Nat) (n : Nat) (f : List Byte → State → State) (hf : ∀ y0 y1, Keeps s₀ y1 → Keeps s₀ (f y0 y1)) : Keeps s₀ (State.issueRead s c va n f) := by
  unfold State.issueRead
  try dsimp only
  repeat' first
    | with_reducible assumption
    | intro _
    | with_reducible apply State.noteTlb_keeps
    | with_reducible apply State.precise_keeps
    | with_reducible apply hf
    | split
    | with_reducible apply Keeps.upd

theorem State.withBlock_keeps (h : Keeps s₀ s) (c : Nat) (m : Mn) (o : OpK) (f : List Byte → State → State) (hf : ∀ y0 y1, Keeps s₀ y1 → Keeps s₀ (f y0 y1)) : Keeps s₀ (State.withBlock s c m o f) := by
  unfold State.withBlock
  try dsimp only
  repeat' first
    | with_reducible assumption
    | intro _
    | with_reducible apply State.issueRead_keeps
    | with_reducible apply State.precise_keeps
    | with_reducible apply hf
    | split
    | with_reducible apply Keeps.upd

theorem State.withExtra_keeps (h : Keeps s₀ s) (c : Nat) (k : KIn) (f : List Byte → State → State) (hf : ∀ y0 y1, Keeps s₀ y1 → Keeps s₀ (f y0 y1)) : Keeps s₀ (State.withExtra s c k f) := by
  unfold State.withExtra
  try dsimp only
  repeat' first
    | with_reducible assumption
    | intro _
    | with_reducible apply State.issueRead_keeps
    | with_reducible apply hf
    | split
    | with_reducible apply Keeps.upd

theorem State.withDone_keeps (h : Keeps s₀ s) (c : Nat) (on : Bool) (vt : Nat) (k : Nat) (f : Option Nat → State) (hf : ∀ y0, Keeps s₀ (f y0)) : Keeps s₀ (State.withDone s c on vt k f) := by
  unfold State.withDone
  try dsimp only
  repeat' first
    | with_reducible assumption
    | intro _
    | with_reducible apply State.withTally_keeps
    | with_reducible apply hf
    | split
    | with_reducible apply Keeps.upd

theorem State.checkTensors_keeps (h : Keeps s₀ s) (c : Nat) (k : KIn) (f : State) (hf : Keeps s₀ f) : Keeps s₀ (State.checkTensors s c k f) := by
  unfold State.checkTensors
  try dsimp only
  repeat' first
    | with_reducible assumption
    | intro _
    | with_reducible apply State.precise_keeps
    | with_reducible apply hf
    | split
    | with_reducible apply Keeps.upd

theorem State.withPostAt_keeps (h : Keeps s₀ s) (c : Nat) (on : Bool) (r : Fin 32) (f : Option W64 → State) (hf : ∀ y0, Keeps s₀ (f y0)) : Keeps s₀ (State.withPostAt s c on r f) := by
  unfold State.withPostAt
  try dsimp only
  repeat' first
    | with_reducible assumption
    | intro _
    | with_reducible apply State.precise_keeps
    | with_reducible apply hf
    | split
    | with_reducible apply Keeps.upd

theorem State.withImage_keeps (h : Keeps s₀ s) (c : Nat) (k : KIn) (f : State → State) (hf : ∀ y0, Keeps s₀ y0 → Keeps s₀ (f y0)) : Keeps s₀ (State.withImage s c k f) := by
  unfold State.withImage
  try dsimp only
  repeat' first
    | with_reducible assumption
    | intro _
    | with_reducible apply State.precise_keeps
    | with_reducible apply State.spacePut_keeps
    | with_reducible apply Keeps.foldl
    | with_reducible apply Keeps.foldl_fst
    | with_reducible apply Keeps.foldl_snd
    | with_reducible apply hf
    | split
    | with_reducible apply Keeps.upd

theorem State.runKernel_keeps (h : Keeps s₀ s) (q : Issue) (m : Mn) (o : OpK) : Keeps s₀ (State.runKernel s q m o) := by
  unfold State.runKernel
  try dsimp only
  repeat' first
    | with_reducible assumption
    | intro _
    | with_reducible apply State.checkTensors_keeps
    | with_reducible apply State.handOver_keeps
    | with_reducible apply State.illegalOperand_keeps
    | with_reducible apply State.precise_keeps
    | with_reducible apply State.runN_keeps
    | with_reducible apply State.withBlock_keeps
    | with_reducible apply State.withDone_keeps
    | with_reducible apply State.withExtra_keeps
    | with_reducible apply State.withImage_keeps
    | with_reducible apply State.withPostAt_keeps
    | split
    | with_reducible apply Keeps.upd

theorem State.settleMoves_keeps (h : Keeps s₀ s) (c : Nat) : Keeps s₀ (State.settleMoves s c) := by
  unfold State.settleMoves
  try dsimp only
  repeat' first
    | with_reducible assumption
    | intro _
    | with_reducible apply State.finishOp_keeps
    | with_reducible apply Keeps.foldl
    | with_reducible apply Keeps.foldl_fst
    | with_reducible apply Keeps.foldl_snd
    | split
    | with_reducible apply Keeps.upd

theorem State.moveOut_keeps (h : Keeps s₀ s) (c : Nat) (m : Mn) (o : OpM) (t : Option Nat) (rc : Option W64) (va : W64) : Keeps s₀ (State.moveOut s c m o t rc va) := by
  unfold State.moveOut
  try dsimp only
  repeat' first
    | with_reducible assumption
    | intro _
    | with_reducible apply State.handOver_keeps
    | with_reducible apply State.settleMoves_keeps
    | split
    | with_reducible apply Keeps.upd

theorem State.checkMove_keeps (h : Keeps s₀ s) (c : Nat) (m : Mn) (o : OpM) (f : State) (hf : Keeps s₀ f) : Keeps s₀ (State.checkMove s c m o f) := by
  unfold State.checkMove
  try dsimp only
  repeat' first
    | with_reducible assumption
    | intro _
    | with_reducible apply State.precise_keeps
    | with_reducible apply hf
    | split
    | with_reducible apply Keeps.upd

theorem State.paceStop_keeps (h : Keeps s₀ s) (c : Nat) : Keeps s₀ (State.paceStop s c) := by
  unfold State.paceStop
  try dsimp only
  repeat' first
    | with_reducible assumption
    | intro _
    | split
    | with_reducible apply Keeps.upd

theorem State.pace_keeps (h : Keeps s₀ s) (c : Nat) (o : OpM) (t : Option Nat) : Keeps s₀ (State.pace s c o t) := by
  unfold State.pace
  try dsimp only
  repeat' first
    | with_reducible assumption
    | intro _
    | with_reducible apply State.illegalOperand_keeps
    | with_reducible apply State.issueRead_keeps
    | with_reducible apply State.moveOut_keeps
    | with_reducible apply State.nextStamp_keeps
    | with_reducible apply State.paceDue_keeps
    | with_reducible apply State.paceStop_keeps
    | with_reducible apply State.precise_keeps
    | with_reducible apply State.withPostAt_keeps
    | with_reducible apply State.withTally_keeps
    | split
    | with_reducible apply Keeps.upd

theorem State.runMove_keeps (h : Keeps s₀ s) (q : Issue) (m : Mn) (o : OpM) : Keeps s₀ (State.runMove s q m o) := by
  unfold State.runMove
  try dsimp only
  repeat' first
    | with_reducible assumption
    | intro _
    | with_reducible apply State.checkMove_keeps
    | with_reducible apply State.illegalOperand_keeps
    | with_reducible apply State.moveOut_keeps
    | with_reducible apply State.pace_keeps
    | with_reducible apply State.precise_keeps
    | with_reducible apply State.runN_keeps
    | with_reducible apply State.withDone_keeps
    | with_reducible apply State.withPostAt_keeps
    | split
    | with_reducible apply Keeps.upd

/-! ### Commands: each answers a next state -/

theorem execKmatmul_keeps (q : Issue) (o : OpK) : Answers s (execKmatmul q o s) := by
  unfold execKmatmul
  try dsimp only
  repeat' first
    | with_reducible assumption
    | with_reducible exact Keeps.refl _
    | intro _
    | with_reducible apply Answers.mk
    | with_reducible apply State.runKernel_keeps
    | split
    | with_reducible apply Keeps.upd

theorem execKconv_keeps (q : Issue) (o : OpK) : Answers s (execKconv q o s) := by
  unfold execKconv
  try dsimp only
  repeat' first
    | with_reducible assumption
    | with_reducible exact Keeps.refl _
    | intro _
    | with_reducible apply Answers.mk
    | with_reducible apply State.runKernel_keeps
    | split
    | with_reducible apply Keeps.upd

theorem execKpool_keeps (q : Issue) (o : OpK) : Answers s (execKpool q o s) := by
  unfold execKpool
  try dsimp only
  repeat' first
    | with_reducible assumption
    | with_reducible exact Keeps.refl _
    | intro _
    | with_reducible apply Answers.mk
    | with_reducible apply State.runKernel_keeps
    | split
    | with_reducible apply Keeps.upd

theorem execKattn_keeps (q : Issue) (o : OpK) : Answers s (execKattn q o s) := by
  unfold execKattn
  try dsimp only
  repeat' first
    | with_reducible assumption
    | with_reducible exact Keeps.refl _
    | intro _
    | with_reducible apply Answers.mk
    | with_reducible apply State.runKernel_keeps
    | split
    | with_reducible apply Keeps.upd

theorem execKscan_keeps (q : Issue) (o : OpK) : Answers s (execKscan q o s) := by
  unfold execKscan
  try dsimp only
  repeat' first
    | with_reducible assumption
    | with_reducible exact Keeps.refl _
    | intro _
    | with_reducible apply Answers.mk
    | with_reducible apply State.runKernel_keeps
    | split
    | with_reducible apply Keeps.upd

theorem execKcell_keeps (q : Issue) (o : OpK) : Answers s (execKcell q o s) := by
  unfold execKcell
  try dsimp only
  repeat' first
    | with_reducible assumption
    | with_reducible exact Keeps.refl _
    | intro _
    | with_reducible apply Answers.mk
    | with_reducible apply State.runKernel_keeps
    | split
    | with_reducible apply Keeps.upd

theorem execKreduce_keeps (q : Issue) (o : OpK) : Answers s (execKreduce q o s) := by
  unfold execKreduce
  try dsimp only
  repeat' first
    | with_reducible assumption
    | with_reducible exact Keeps.refl _
    | intro _
    | with_reducible apply Answers.mk
    | with_reducible apply State.runKernel_keeps
    | split
    | with_reducible apply Keeps.upd

theorem execKact_keeps (q : Issue) (o : OpK) : Answers s (execKact q o s) := by
  unfold execKact
  try dsimp only
  repeat' first
    | with_reducible assumption
    | with_reducible exact Keeps.refl _
    | intro _
    | with_reducible apply Answers.mk
    | with_reducible apply State.runKernel_keeps
    | split
    | with_reducible apply Keeps.upd

theorem execKeltw_keeps (q : Issue) (o : OpK) : Answers s (execKeltw q o s) := by
  unfold execKeltw
  try dsimp only
  repeat' first
    | with_reducible assumption
    | with_reducible exact Keeps.refl _
    | intro _
    | with_reducible apply Answers.mk
    | with_reducible apply State.runKernel_keeps
    | split
    | with_reducible apply Keeps.upd

theorem execKnorm_keeps (q : Issue) (o : OpK) : Answers s (execKnorm q o s) := by
  unfold execKnorm
  try dsimp only
  repeat' first
    | with_reducible assumption
    | with_reducible exact Keeps.refl _
    | intro _
    | with_reducible apply Answers.mk
    | with_reducible apply State.runKernel_keeps
    | split
    | with_reducible apply Keeps.upd

theorem execKsoftmax_keeps (q : Issue) (o : OpK) : Answers s (execKsoftmax q o s) := by
  unfold execKsoftmax
  try dsimp only
  repeat' first
    | with_reducible assumption
    | with_reducible exact Keeps.refl _
    | intro _
    | with_reducible apply Answers.mk
    | with_reducible apply State.runKernel_keeps
    | split
    | with_reducible apply Keeps.upd

theorem execKgates_keeps (q : Issue) (o : OpK) : Answers s (execKgates q o s) := by
  unfold execKgates
  try dsimp only
  repeat' first
    | with_reducible assumption
    | with_reducible exact Keeps.refl _
    | intro _
    | with_reducible apply Answers.mk
    | with_reducible apply State.runKernel_keeps
    | split
    | with_reducible apply Keeps.upd

theorem execKargmax_keeps (q : Issue) (o : OpK) : Answers s (execKargmax q o s) := by
  unfold execKargmax
  try dsimp only
  repeat' first
    | with_reducible assumption
    | with_reducible exact Keeps.refl _
    | intro _
    | with_reducible apply Answers.mk
    | with_reducible apply State.runKernel_keeps
    | split
    | with_reducible apply Keeps.upd

theorem execKcvt_keeps (q : Issue) (o : OpK) : Answers s (execKcvt q o s) := by
  unfold execKcvt
  try dsimp only
  repeat' first
    | with_reducible assumption
    | with_reducible exact Keeps.refl _
    | intro _
    | with_reducible apply Answers.mk
    | with_reducible apply State.runKernel_keeps
    | split
    | with_reducible apply Keeps.upd

theorem execKsconv_keeps (q : Issue) (o : OpK) : Answers s (execKsconv q o s) := by
  unfold execKsconv
  try dsimp only
  repeat' first
    | with_reducible assumption
    | with_reducible exact Keeps.refl _
    | intro _
    | with_reducible apply Answers.mk
    | with_reducible apply State.runKernel_keeps
    | split
    | with_reducible apply Keeps.upd

theorem execKsmatmul_keeps (q : Issue) (o : OpK) : Answers s (execKsmatmul q o s) := by
  unfold execKsmatmul
  try dsimp only
  repeat' first
    | with_reducible assumption
    | with_reducible exact Keeps.refl _
    | intro _
    | with_reducible apply Answers.mk
    | with_reducible apply State.runKernel_keeps
    | split
    | with_reducible apply Keeps.upd

theorem execKsargmax_keeps (q : Issue) (o : OpK) : Answers s (execKsargmax q o s) := by
  unfold execKsargmax
  try dsimp only
  repeat' first
    | with_reducible assumption
    | with_reducible exact Keeps.refl _
    | intro _
    | with_reducible apply Answers.mk
    | with_reducible apply State.runKernel_keeps
    | split
    | with_reducible apply Keeps.upd

theorem execKsreflex_keeps (q : Issue) (o : OpK) : Answers s (execKsreflex q o s) := by
  unfold execKsreflex
  try dsimp only
  repeat' first
    | with_reducible assumption
    | with_reducible exact Keeps.refl _
    | intro _
    | with_reducible apply Answers.mk
    | with_reducible apply State.runKernel_keeps
    | split
    | with_reducible apply Keeps.upd

theorem execKhquery_keeps (q : Issue) (o : OpK) : Answers s (execKhquery q o s) := by
  unfold execKhquery
  try dsimp only
  repeat' first
    | with_reducible assumption
    | with_reducible exact Keeps.refl _
    | intro _
    | with_reducible apply Answers.mk
    | with_reducible apply State.runKernel_keeps
    | split
    | with_reducible apply Keeps.upd

theorem execKhstride_keeps (q : Issue) (o : OpK) : Answers s (execKhstride q o s) := by
  unfold execKhstride
  try dsimp only
  repeat' first
    | with_reducible assumption
    | with_reducible exact Keeps.refl _
    | intro _
    | with_reducible apply Answers.mk
    | with_reducible apply State.runKernel_keeps
    | split
    | with_reducible apply Keeps.upd

theorem execKhfinish_keeps (q : Issue) (o : OpK) : Answers s (execKhfinish q o s) := by
  unfold execKhfinish
  try dsimp only
  repeat' first
    | with_reducible assumption
    | with_reducible exact Keeps.refl _
    | intro _
    | with_reducible apply Answers.mk
    | with_reducible apply State.runKernel_keeps
    | split
    | with_reducible apply Keeps.upd

theorem execKhmap_keeps (q : Issue) (o : OpK) : Answers s (execKhmap q o s) := by
  unfold execKhmap
  try dsimp only
  repeat' first
    | with_reducible assumption
    | with_reducible exact Keeps.refl _
    | intro _
    | with_reducible apply Answers.mk
    | with_reducible apply State.runKernel_keeps
    | split
    | with_reducible apply Keeps.upd

theorem execKfxform_keeps (q : Issue) (o : OpK) : Answers s (execKfxform q o s) := by
  unfold execKfxform
  try dsimp only
  repeat' first
    | with_reducible assumption
    | with_reducible exact Keeps.refl _
    | intro _
    | with_reducible apply Answers.mk
    | with_reducible apply State.runKernel_keeps
    | split
    | with_reducible apply Keeps.upd

theorem execKfego_keeps (q : Issue) (o : OpK) : Answers s (execKfego q o s) := by
  unfold execKfego
  try dsimp only
  repeat' first
    | with_reducible assumption
    | with_reducible exact Keeps.refl _
    | intro _
    | with_reducible apply Answers.mk
    | with_reducible apply State.runKernel_keeps
    | split
    | with_reducible apply Keeps.upd

theorem execKftrack_keeps (q : Issue) (o : OpK) : Answers s (execKftrack q o s) := by
  unfold execKftrack
  try dsimp only
  repeat' first
    | with_reducible assumption
    | with_reducible exact Keeps.refl _
    | intro _
    | with_reducible apply Answers.mk
    | with_reducible apply State.runKernel_keeps
    | split
    | with_reducible apply Keeps.upd

theorem execMcopy_keeps (q : Issue) (o : OpM) : Answers s (execMcopy q o s) := by
  unfold execMcopy
  try dsimp only
  repeat' first
    | with_reducible assumption
    | with_reducible exact Keeps.refl _
    | intro _
    | with_reducible apply Answers.mk
    | with_reducible apply State.runMove_keeps
    | split
    | with_reducible apply Keeps.upd

theorem execMfill_keeps (q : Issue) (o : OpM) : Answers s (execMfill q o s) := by
  unfold execMfill
  try dsimp only
  repeat' first
    | with_reducible assumption
    | with_reducible exact Keeps.refl _
    | intro _
    | with_reducible apply Answers.mk
    | with_reducible apply State.runMove_keeps
    | split
    | with_reducible apply Keeps.upd

theorem execMraise_keeps (q : Issue) (o : OpM) : Answers s (execMraise q o s) := by
  unfold execMraise
  try dsimp only
  repeat' first
    | with_reducible assumption
    | with_reducible exact Keeps.refl _
    | intro _
    | with_reducible apply Answers.mk
    | with_reducible apply State.runMove_keeps
    | split
    | with_reducible apply Keeps.upd

theorem execMdrop_keeps (q : Issue) (o : OpM) : Answers s (execMdrop q o s) := by
  unfold execMdrop
  try dsimp only
  repeat' first
    | with_reducible assumption
    | with_reducible exact Keeps.refl _
    | intro _
    | with_reducible apply Answers.mk
    | with_reducible apply State.runMove_keeps
    | split
    | with_reducible apply Keeps.upd

theorem execMpace_keeps (q : Issue) (o : OpM) : Answers s (execMpace q o s) := by
  unfold execMpace
  try dsimp only
  repeat' first
    | with_reducible assumption
    | with_reducible exact Keeps.refl _
    | intro _
    | with_reducible apply Answers.mk
    | with_reducible apply State.runMove_keeps
    | split
    | with_reducible apply Keeps.upd

theorem execMenter_keeps (q : Issue) (o : OpM) : Answers s (execMenter q o s) := by
  unfold execMenter
  try dsimp only
  repeat' first
    | with_reducible assumption
    | with_reducible exact Keeps.refl _
    | intro _
    | with_reducible apply Answers.mk
    | with_reducible apply State.runMove_keeps
    | split
    | with_reducible apply Keeps.upd

end Sys2Proof.Machine
end

