-- ==== Sys2Proof/Laws/KeepsKComplete.lean ====
section
/-!
SUPPORT. What the operations and commands of Machine/KComplete.lean keep (Laws/Keeps.lean).
-/

namespace Sys2Proof.Machine

open Sys2Proof State

variable {s₀ s : State}

theorem State.settleTiles_keeps (h : Keeps s₀ s)  : Keeps s₀ (State.settleTiles s) := by
  unfold State.settleTiles
  try dsimp only
  repeat' first
    | with_reducible assumption
    | intro _
    | with_reducible apply State.setFld_keeps
    | with_reducible apply Keeps.foldl
    | with_reducible apply Keeps.foldl_fst
    | with_reducible apply Keeps.foldl_snd
    | split
    | with_reducible apply Keeps.upd

theorem State.withdrawTile_keeps (h : Keeps s₀ s) (t : Nat) : Keeps s₀ (State.withdrawTile s t) := by
  unfold State.withdrawTile
  try dsimp only
  repeat' first
    | with_reducible assumption
    | intro _
    | with_reducible apply State.setFld_keeps
    | split
    | with_reducible apply Keeps.upd

theorem State.chargeBucket_keeps (h : Keeps s₀ s) (on : Bool) (k : Nat) (burst : Nat) (n : Nat) : Keeps s₀ (State.chargeBucket s on k burst n) := by
  unfold State.chargeBucket
  try dsimp only
  repeat' first
    | with_reducible assumption
    | intro _
    | split
    | with_reducible apply Keeps.upd

theorem State.passEnd_keeps (h : Keeps s₀ s) (p : Nat) (cycles : Nat) (stall : Nat) (vault : Nat) (ext : Nat) : Keeps s₀ (State.passEnd s p cycles stall vault ext) := by
  unfold State.passEnd
  try dsimp only
  repeat' first
    | with_reducible assumption
    | intro _
    | with_reducible apply State.chargeBucket_keeps
    | with_reducible apply State.rise_keeps
    | split
    | with_reducible apply Keeps.upd

theorem State.putOut_keeps (h : Keeps s₀ s) (t : State) (c : Nat) (k : KIn) (kv : List Nat) (out : KOut) (ht : Keeps s₀ t) : Keeps s₀ (State.putOut s t c k kv out) := by
  unfold State.putOut
  try dsimp only
  repeat' first
    | with_reducible assumption
    | intro _
    | with_reducible apply State.writeElems_keeps
    | with_reducible apply ht
    | split
    | with_reducible apply Keeps.upd

theorem State.leaveOpen_keeps (h : Keeps s₀ s) (c : Nat) (o : AsyncOp) : Keeps s₀ (State.leaveOpen s c o) := by
  unfold State.leaveOpen
  try dsimp only
  repeat' first
    | with_reducible assumption
    | intro _
    | with_reducible apply State.bumpFree_keeps
    | with_reducible apply State.writeElems_keeps
    | split
    | with_reducible apply Keeps.upd

theorem State.runFault_keeps (h : Keeps s₀ s) (c : Nat) (o : AsyncOp) (code : Nat) (unit : Nat) (detail : W64) (va : W64) (tag : Nat) : Keeps s₀ (State.runFault s c o code unit detail va tag) := by
  unfold State.runFault
  try dsimp only
  repeat' first
    | with_reducible assumption
    | intro _
    | with_reducible apply State.leaveOpen_keeps
    | with_reducible apply State.opFault_keeps
    | split
    | with_reducible apply Keeps.upd

theorem State.poisonHeat_keeps (h : Keeps s₀ s) (t : Nat) : Keeps s₀ (State.poisonHeat s t) := by
  unfold State.poisonHeat
  try dsimp only
  repeat' first
    | with_reducible assumption
    | intro _
    | with_reducible apply State.runFault_keeps
    | with_reducible apply Keeps.foldl
    | with_reducible apply Keeps.foldl_fst
    | with_reducible apply Keeps.foldl_snd
    | split
    | with_reducible apply Keeps.upd

theorem State.purseEcc_keeps (h : Keeps s₀ s) (t : Nat) (uncorrectable : Bool) : Keeps s₀ (State.purseEcc s t uncorrectable) := by
  unfold State.purseEcc
  try dsimp only
  repeat' first
    | with_reducible assumption
    | intro _
    | with_reducible apply State.bump_keeps
    | with_reducible apply State.modCtx_keeps
    | with_reducible apply State.poisonHeat_keeps
    | with_reducible apply State.setFld_keeps
    | with_reducible apply State.settleTiles_keeps
    | with_reducible apply State.withdrawTile_keeps
    | with_reducible apply Keeps.foldl
    | with_reducible apply Keeps.foldl_fst
    | with_reducible apply Keeps.foldl_snd
    | split
    | with_reducible apply Keeps.upd

theorem State.afterAcc_keeps (h : Keeps s₀ s) (c : Nat) (o : AsyncOp) (a : TAcc) (f : State) (hf : Keeps s₀ f) : Keeps s₀ (State.afterAcc s c o a f) := by
  unfold State.afterAcc
  try dsimp only
  repeat' first
    | with_reducible assumption
    | intro _
    | with_reducible apply State.runFault_keeps
    | with_reducible apply hf
    | split
    | with_reducible apply Keeps.upd

theorem State.closeOp_keeps (h : Keeps s₀ s) (c : Nat) (id : Nat) : Keeps s₀ (State.closeOp s c id) := by
  unfold State.closeOp
  try dsimp only
  repeat' first
    | with_reducible assumption
    | intro _
    | with_reducible apply State.bumpFree_keeps
    | with_reducible apply State.finishOp_keeps
    | with_reducible apply State.pump_keeps
    | with_reducible apply State.settleTiles_keeps
    | split
    | with_reducible apply Keeps.upd

theorem State.sprintBusy_keeps (h : Keeps s₀ s) (o : AsyncOp) : Keeps s₀ (State.sprintBusy s o) := by
  unfold State.sprintBusy
  try dsimp only
  repeat' first
    | with_reducible assumption
    | intro _
    | with_reducible apply State.rise_keeps
    | split
    | with_reducible apply Keeps.upd

theorem State.calcDone_keeps (h : Keeps s₀ s) (c : Nat) (o : AsyncOp) : Keeps s₀ (State.calcDone s c o) := by
  unfold State.calcDone
  try dsimp only
  repeat' first
    | with_reducible assumption
    | intro _
    | with_reducible apply State.afterAcc_keeps
    | with_reducible apply State.closeOp_keeps
    | with_reducible apply State.modOp_keeps
    | with_reducible apply State.putOut_keeps
    | with_reducible apply State.sprintBusy_keeps
    | split
    | with_reducible apply Keeps.upd

theorem State.attnDone_keeps (h : Keeps s₀ s) (c : Nat) (o : AsyncOp) : Keeps s₀ (State.attnDone s c o) := by
  unfold State.attnDone
  try dsimp only
  repeat' first
    | with_reducible assumption
    | intro _
    | with_reducible apply State.afterAcc_keeps
    | with_reducible apply State.attnMarks_keeps
    | with_reducible apply State.closeOp_keeps
    | with_reducible apply State.putOut_keeps
    | split
    | with_reducible apply Keeps.upd

theorem State.chunkDone_keeps (h : Keeps s₀ s) (c : Nat) (o : AsyncOp) : Keeps s₀ (State.chunkDone s c o) := by
  unfold State.chunkDone
  try dsimp only
  repeat' first
    | with_reducible assumption
    | intro _
    | with_reducible apply State.afterAcc_keeps
    | with_reducible apply State.chunkStore_keeps
    | with_reducible apply State.closeOp_keeps
    | with_reducible apply State.putOut_keeps
    | split
    | with_reducible apply Keeps.upd

theorem State.hurdleDone_keeps (h : Keeps s₀ s) (c : Nat) (o : AsyncOp) : Keeps s₀ (State.hurdleDone s c o) := by
  unfold State.hurdleDone
  try dsimp only
  repeat' first
    | with_reducible assumption
    | intro _
    | with_reducible apply State.afterAcc_keeps
    | with_reducible apply State.closeOp_keeps
    | with_reducible apply State.hurdleOut_keeps
    | with_reducible apply State.writeElems_keeps
    | split
    | with_reducible apply Keeps.upd

theorem State.sendTracks_keeps (h : Keeps s₀ s)  : Keeps s₀ (State.sendTracks s) := by
  unfold State.sendTracks
  try dsimp only
  repeat' first
    | with_reducible assumption
    | intro _
    | with_reducible apply State.mirrorOut_keeps
    | split
    | with_reducible apply Keeps.upd

theorem State.fusionDone_keeps (h : Keeps s₀ s) (c : Nat) (o : AsyncOp) : Keeps s₀ (State.fusionDone s c o) := by
  unfold State.fusionDone
  try dsimp only
  repeat' first
    | with_reducible assumption
    | intro _
    | with_reducible apply State.afterAcc_keeps
    | with_reducible apply State.closeOp_keeps
    | with_reducible apply State.fEgo_keeps
    | with_reducible apply State.fTrack_keeps
    | with_reducible apply State.opFault_keeps
    | with_reducible apply State.putOut_keeps
    | with_reducible apply State.writeElems_keeps
    | split
    | with_reducible apply Keeps.upd

theorem State.moveEnd_keeps (h : Keeps s₀ s) (c : Nat) (o : AsyncOp) : Keeps s₀ (State.moveEnd s c o) := by
  unfold State.moveEnd
  try dsimp only
  repeat' first
    | with_reducible assumption
    | intro _
    | with_reducible apply State.closeOp_keeps
    | with_reducible apply State.copyPage_keeps
    | with_reducible apply State.finishOp_keeps
    | with_reducible apply State.opFault_keeps
    | split
    | with_reducible apply Keeps.upd

theorem State.kernelComplete_keeps (h : Keeps s₀ s) (c : Nat) (id : Nat) : Keeps s₀ (State.kernelComplete s c id) := by
  unfold State.kernelComplete
  try dsimp only
  repeat' first
    | with_reducible assumption
    | intro _
    | with_reducible apply State.attnDone_keeps
    | with_reducible apply State.calcDone_keeps
    | with_reducible apply State.chunkDone_keeps
    | with_reducible apply State.finishOp_keeps
    | with_reducible apply State.fusionDone_keeps
    | with_reducible apply State.hurdleDone_keeps
    | with_reducible apply State.moveEnd_keeps
    | with_reducible apply State.pump_keeps
    | split
    | with_reducible apply Keeps.upd

/-! ### Commands: each answers a next state -/

theorem execKernelComplete_keeps (c : CtxId) (id : Nat) : Answers s (execKernelComplete c id s) := by
  unfold execKernelComplete
  try dsimp only
  repeat' first
    | with_reducible assumption
    | with_reducible exact Keeps.refl _
    | intro _
    | with_reducible apply Answers.mk
    | with_reducible apply State.clocked_keeps
    | with_reducible apply State.kernelComplete_keeps
    | split
    | with_reducible apply Keeps.upd

theorem execKernelFault_keeps (c : CtxId) (id : Nat) (va : W64) (write : Bool) : Answers s (execKernelFault c id va write s) := by
  unfold execKernelFault
  try dsimp only
  repeat' first
    | with_reducible assumption
    | with_reducible exact Keeps.refl _
    | intro _
    | with_reducible apply Answers.mk
    | with_reducible apply State.clocked_keeps
    | with_reducible apply State.kernelFault_keeps
    | with_reducible apply State.leaveOpen_keeps
    | with_reducible apply State.settleTiles_keeps
    | split
    | with_reducible apply Keeps.upd

theorem execPurseEccError_keeps (t : Fin 2112) (uncorrectable : Bool) : Answers s (execPurseEccError t uncorrectable s) := by
  unfold execPurseEccError
  try dsimp only
  repeat' first
    | with_reducible assumption
    | with_reducible exact Keeps.refl _
    | intro _
    | with_reducible apply Answers.mk
    | with_reducible apply State.purseEcc_keeps
    | split
    | with_reducible apply Keeps.upd

theorem execTilePassEnd_keeps (p : Fin 7) (cycles : BitVec 32) (stall : BitVec 32) (vault : BitVec 32) (ext : BitVec 32) : Answers s (execTilePassEnd p cycles stall vault ext s) := by
  unfold execTilePassEnd
  try dsimp only
  repeat' first
    | with_reducible assumption
    | with_reducible exact Keeps.refl _
    | intro _
    | with_reducible apply Answers.mk
    | with_reducible apply State.clocked_keeps
    | with_reducible apply State.passEnd_keeps
    | split
    | with_reducible apply Keeps.upd

end Sys2Proof.Machine
end

