-- ==== Sys2Proof/Laws/KeepsStarter.lean ====
section
/-!
SUPPORT. What the operations and commands of Machine/Starter.lean keep (Laws/Keeps.lean).
-/

namespace Sys2Proof.Machine

open Sys2Proof State

variable {s₀ s : State}

theorem State.ctxInfo_keeps (h : Keeps s₀ s) (r : Nat) (c : Nat) (err : Nat) : Keeps s₀ (State.ctxInfo s r c err) := by
  unfold State.ctxInfo
  try dsimp only
  repeat' first
    | with_reducible assumption
    | intro _
    | with_reducible apply State.setReg_keeps
    | split
    | with_reducible apply Keeps.upd

theorem State.defineCtx_keeps (h : Keeps s₀ s) (r : Nat) : Keeps s₀ (State.defineCtx r s) := by
  unfold State.defineCtx
  try dsimp only
  repeat' first
    | with_reducible assumption
    | intro _
    | with_reducible apply State.ctxInfo_keeps
    | with_reducible apply State.nextStamp_keeps
    | with_reducible apply State.setCtx_keeps
    | split
    | with_reducible apply Keeps.upd

theorem State.killCtx_keeps (h : Keeps s₀ s) (r : Nat) : Keeps s₀ (State.killCtx r s) := by
  unfold State.killCtx
  try dsimp only
  repeat' first
    | with_reducible assumption
    | intro _
    | with_reducible apply State.ctxInfo_keeps
    | with_reducible apply State.faultCtx_keeps
    | split
    | with_reducible apply Keeps.upd

theorem State.readCtx_keeps (h : Keeps s₀ s) (r : Nat) : Keeps s₀ (State.readCtx r s) := by
  unfold State.readCtx
  try dsimp only
  repeat' first
    | with_reducible assumption
    | intro _
    | with_reducible apply State.ctxInfo_keeps
    | with_reducible apply State.setFld_keeps
    | split
    | with_reducible apply Keeps.upd

theorem State.startCtl_keeps (h : Keeps s₀ s) (v : W32) : Keeps s₀ (State.startCtl v s) := by
  unfold State.startCtl
  try dsimp only
  repeat' first
    | with_reducible assumption
    | intro _
    | with_reducible apply State.setFld_keeps
    | split
    | with_reducible apply Keeps.upd

theorem State.engPut_keeps (h : Keeps s₀ s) (e : Nat) (off : Nat) (bs : List (Option Byte)) : Keeps s₀ (State.engPut s e off bs) := by
  unfold State.engPut
  try dsimp only
  repeat' first
    | with_reducible assumption
    | intro _
    | with_reducible apply Keeps.foldl
    | with_reducible apply Keeps.foldl_fst
    | with_reducible apply Keeps.foldl_snd
    | split
    | with_reducible apply Keeps.upd

theorem State.admitCtx_of (h : Keeps s₀ s) {c : Nat} {t : State} (e : s.admitCtx c = some t) : Keeps s₀ t := by
  unfold State.admitCtx at e
  dsimp only at e
  split at e
  · cases e
    split
    · exact State.engPut_keeps (State.setCtx_keeps h _ _) _ _ _
    · exact State.setCtx_keeps h _ _
  · cases e

theorem State.admitCtx_getD (h : Keeps s₀ s) {c : Nat} {d : State} (hd : Keeps s₀ d) :
    Keeps s₀ ((s.admitCtx c).getD d) := by
  cases e : s.admitCtx c with
  | none => exact hd
  | some t => exact State.admitCtx_of h e

theorem State.ctxResident_keeps (h : Keeps s₀ s) (c : Nat) : Keeps s₀ (State.ctxResident s c) := by
  unfold State.ctxResident
  try dsimp only
  repeat' first
    | with_reducible assumption
    | intro _
    | with_reducible refine State.admitCtx_of ?_ (by assumption)
    | with_reducible apply State.admitCtx_getD
    | split
    | with_reducible apply Keeps.upd

theorem State.claimOp_keeps (h : Keeps s₀ s) (c : Nat) (o : AsyncOp) : Keeps s₀ (State.claimOp s c o) := by
  unfold State.claimOp
  try dsimp only
  repeat' first
    | with_reducible assumption
    | intro _
    | with_reducible apply State.takeTrans_keeps
    | with_reducible apply Keeps.foldl
    | with_reducible apply Keeps.foldl_fst
    | with_reducible apply Keeps.foldl_snd
    | split
    | with_reducible apply Keeps.upd

theorem State.stageOp_keeps (h : Keeps s₀ s) (c : Nat) (o : AsyncOp) (p : Nat) : Keeps s₀ (State.stageOp s c o p) := by
  unfold State.stageOp
  try dsimp only
  repeat' first
    | with_reducible assumption
    | intro _
    | split
    | with_reducible apply Keeps.upd

theorem State.noteSafety_keeps (h : Keeps s₀ s) (c : Nat) (us : List Nat) : Keeps s₀ (State.noteSafety s c us) := by
  unfold State.noteSafety
  try dsimp only
  repeat' first
    | with_reducible assumption
    | intro _
    | split
    | with_reducible apply Keeps.upd

theorem State.startOn_keeps (h : Keeps s₀ s) (c : Nat) (o : AsyncOp) (p : Nat) : Keeps s₀ (State.startOn s c o p) := by
  unfold State.startOn
  try dsimp only
  repeat' first
    | with_reducible assumption
    | intro _
    | with_reducible apply State.claimOp_keeps
    | with_reducible apply State.modOp_keeps
    | with_reducible apply State.noteSafety_keeps
    | with_reducible apply State.stageOp_keeps
    | split
    | with_reducible apply Keeps.upd

theorem State.incomingOn_keeps (h : Keeps s₀ s) (c : Nat) (o : AsyncOp) (p : Nat) (layout : Nat) (vs : List Claimant) : Keeps s₀ (State.incomingOn s c o p layout vs) := by
  unfold State.incomingOn
  try dsimp only
  repeat' first
    | with_reducible assumption
    | intro _
    | with_reducible apply State.modOp_keeps
    | split
    | with_reducible apply Keeps.upd

theorem State.setLayout_keeps (h : Keeps s₀ s) (l : Nat) : Keeps s₀ (State.setLayout s l) := by
  unfold State.setLayout
  try dsimp only
  repeat' first
    | with_reducible assumption
    | intro _
    | split
    | with_reducible apply Keeps.upd

theorem State.placeField_keeps (h : Keeps s₀ s) (c : Nat) (o : AsyncOp) : Keeps s₀ (State.placeField s c o) := by
  unfold State.placeField
  try dsimp only
  repeat' first
    | with_reducible assumption
    | intro _
    | with_reducible apply State.incomingOn_keeps
    | with_reducible apply State.setLayout_keeps
    | with_reducible apply State.startOn_keeps
    | split
    | with_reducible apply Keeps.upd

theorem State.startEng_keeps (h : Keeps s₀ s) (c : Nat) (o : AsyncOp) (e : Nat) : Keeps s₀ (State.startEng s c o e) := by
  unfold State.startEng
  try dsimp only
  repeat' first
    | with_reducible assumption
    | intro _
    | with_reducible apply State.claimOp_keeps
    | with_reducible apply State.modOp_keeps
    | with_reducible apply State.noteSafety_keeps
    | split
    | with_reducible apply Keeps.upd

theorem State.placeSprint_keeps (h : Keeps s₀ s) (c : Nat) (o : AsyncOp) : Keeps s₀ (State.placeSprint s c o) := by
  unfold State.placeSprint
  try dsimp only
  repeat' first
    | with_reducible assumption
    | intro _
    | with_reducible apply State.modOp_keeps
    | with_reducible apply State.startEng_keeps
    | split
    | with_reducible apply Keeps.upd

theorem State.placeAll_keeps (h : Keeps s₀ s)  : Keeps s₀ (State.placeAll s) := by
  unfold State.placeAll
  try dsimp only
  repeat' first
    | with_reducible assumption
    | intro _
    | with_reducible apply State.placeField_keeps
    | with_reducible apply State.placeSprint_keeps
    | with_reducible apply Keeps.foldl
    | with_reducible apply Keeps.foldl_fst
    | with_reducible apply Keeps.foldl_snd
    | split
    | with_reducible apply Keeps.upd

theorem State.swapBegin_keeps (h : Keeps s₀ s)  : Keeps s₀ (State.swapBegin s) := by
  unfold State.swapBegin
  try dsimp only
  repeat' first
    | with_reducible assumption
    | intro _
    | with_reducible apply State.incident_keeps
    | with_reducible apply State.modCtx_keeps
    | split
    | with_reducible apply Keeps.upd

theorem State.decide__keeps (h : Keeps s₀ s)  : Keeps s₀ (State.decide_ s) := by
  unfold State.decide_
  try dsimp only
  repeat' first
    | with_reducible assumption
    | intro _
    | with_reducible apply State.placeAll_keeps
    | with_reducible apply State.settleTiles_keeps
    | with_reducible apply State.swapBegin_keeps
    | with_reducible refine State.admitCtx_of ?_ (by assumption)
    | with_reducible apply State.admitCtx_getD
    | split
    | with_reducible apply Keeps.upd

theorem State.preemptDone_keeps (h : Keeps s₀ s) (p : Nat) (ns : Nat) : Keeps s₀ (State.preemptDone s p ns) := by
  unfold State.preemptDone
  try dsimp only
  repeat' first
    | with_reducible assumption
    | intro _
    | with_reducible apply State.modOp_keeps
    | with_reducible apply State.rise_keeps
    | with_reducible apply State.setFld_keeps
    | with_reducible apply State.setLayout_keeps
    | with_reducible apply State.settleTiles_keeps
    | with_reducible apply State.startOn_keeps
    | with_reducible apply Keeps.foldl
    | with_reducible apply Keeps.foldl_fst
    | with_reducible apply Keeps.foldl_snd
    | split
    | with_reducible apply Keeps.upd

theorem State.swapOutCtx_keeps (h : Keeps s₀ s) (v : Nat) : Keeps s₀ (State.swapOutCtx s v) := by
  unfold State.swapOutCtx
  try dsimp only
  repeat' first
    | with_reducible assumption
    | intro _
    | with_reducible apply State.bumpFree_keeps
    | with_reducible apply State.endTrans_keeps
    | with_reducible apply State.losePage_keeps
    | with_reducible apply State.modCtx_keeps
    | with_reducible apply State.strmSwapOut_keeps
    | with_reducible apply Keeps.foldl
    | with_reducible apply Keeps.foldl_fst
    | with_reducible apply Keeps.foldl_snd
    | split
    | with_reducible apply Keeps.upd

theorem State.imageLost_keeps (h : Keeps s₀ s) (c : Nat) : Keeps s₀ (State.imageLost s c) := by
  unfold State.imageLost
  try dsimp only
  repeat' first
    | with_reducible assumption
    | intro _
    | with_reducible apply State.faultCtx_keeps
    | split
    | with_reducible apply Keeps.upd

theorem State.swapDone_keeps (h : Keeps s₀ s) (lost : Bool) (ns : Nat) : Keeps s₀ (State.swapDone s lost ns) := by
  unfold State.swapDone
  try dsimp only
  repeat' first
    | with_reducible assumption
    | intro _
    | with_reducible apply State.imageLost_keeps
    | with_reducible apply State.modCtx_keeps
    | with_reducible apply State.rise_keeps
    | with_reducible apply State.setFld_keeps
    | with_reducible apply State.settleTiles_keeps
    | with_reducible apply State.swapOutCtx_keeps
    | with_reducible refine State.admitCtx_of ?_ (by assumption)
    | with_reducible apply State.admitCtx_getD
    | split
    | with_reducible apply Keeps.upd

theorem State.refill_keeps (h : Keeps s₀ s)  : Keeps s₀ (State.refill s) := by
  unfold State.refill
  try dsimp only
  repeat' first
    | with_reducible assumption
    | intro _
    | with_reducible apply State.rise_keeps
    | with_reducible apply Keeps.foldl
    | with_reducible apply Keeps.foldl_fst
    | with_reducible apply Keeps.foldl_snd
    | split
    | with_reducible apply Keeps.upd

theorem State.budgetOver_keeps (h : Keeps s₀ s) (b : Nat) : Keeps s₀ (State.budgetOver s b) := by
  unfold State.budgetOver
  try dsimp only
  repeat' first
    | with_reducible assumption
    | intro _
    | with_reducible apply State.bump_keeps
    | with_reducible apply State.faultCtx_keeps
    | with_reducible apply State.incident_keeps
    | with_reducible apply State.modCtx_keeps
    | with_reducible apply State.setFld_keeps
    | split
    | with_reducible apply Keeps.upd

/-! ### Commands: each answers a next state -/

theorem execDefine_keeps (r : Requester) : Answers s (execDefine r s) := by
  unfold execDefine
  try dsimp only
  repeat' first
    | with_reducible assumption
    | with_reducible exact Keeps.refl _
    | intro _
    | with_reducible apply Answers.mk
    | with_reducible apply State.defineCtx_keeps
    | with_reducible apply State.permit_keeps
    | split
    | with_reducible apply Keeps.upd

theorem execKill_keeps (r : Requester) : Answers s (execKill r s) := by
  unfold execKill
  try dsimp only
  repeat' first
    | with_reducible assumption
    | with_reducible exact Keeps.refl _
    | intro _
    | with_reducible apply Answers.mk
    | with_reducible apply State.killCtx_keeps
    | with_reducible apply State.permit_keeps
    | split
    | with_reducible apply Keeps.upd

theorem execStartCtxRead_keeps (r : Requester) : Answers s (execStartCtxRead r s) := by
  unfold execStartCtxRead
  try dsimp only
  repeat' first
    | with_reducible assumption
    | with_reducible exact Keeps.refl _
    | intro _
    | with_reducible apply Answers.mk
    | with_reducible apply State.permit_keeps
    | with_reducible apply State.readCtx_keeps
    | split
    | with_reducible apply Keeps.upd

theorem execStartCtlWrite_keeps (r : Requester) (v : W32) : Answers s (execStartCtlWrite r v s) := by
  unfold execStartCtlWrite
  try dsimp only
  repeat' first
    | with_reducible assumption
    | with_reducible exact Keeps.refl _
    | intro _
    | with_reducible apply Answers.mk
    | with_reducible apply State.permit_keeps
    | with_reducible apply State.startCtl_keeps
    | split
    | with_reducible apply Keeps.upd

theorem execContextResident_keeps (c : CtxId) : Answers s (execContextResident c s) := by
  unfold execContextResident
  try dsimp only
  repeat' first
    | with_reducible assumption
    | with_reducible exact Keeps.refl _
    | intro _
    | with_reducible apply Answers.mk
    | with_reducible apply State.clocked_keeps
    | with_reducible apply State.ctxResident_keeps
    | split
    | with_reducible apply Keeps.upd

theorem execStarterDecision_keeps  : Answers s (execStarterDecision s) := by
  unfold execStarterDecision
  try dsimp only
  repeat' first
    | with_reducible assumption
    | with_reducible exact Keeps.refl _
    | intro _
    | with_reducible apply Answers.mk
    | with_reducible apply State.clocked_keeps
    | with_reducible apply State.decide__keeps
    | split
    | with_reducible apply Keeps.upd

theorem execPreemptSaveComplete_keeps (p : Fin 7) (ns : BitVec 32) : Answers s (execPreemptSaveComplete p ns s) := by
  unfold execPreemptSaveComplete
  try dsimp only
  repeat' first
    | with_reducible assumption
    | with_reducible exact Keeps.refl _
    | intro _
    | with_reducible apply Answers.mk
    | with_reducible apply State.clocked_keeps
    | with_reducible apply State.preemptDone_keeps
    | split
    | with_reducible apply Keeps.upd

theorem execSwapComplete_keeps (lost : Bool) (ns : BitVec 32) : Answers s (execSwapComplete lost ns s) := by
  unfold execSwapComplete
  try dsimp only
  repeat' first
    | with_reducible assumption
    | with_reducible exact Keeps.refl _
    | intro _
    | with_reducible apply Answers.mk
    | with_reducible apply State.clocked_keeps
    | with_reducible apply State.swapDone_keeps
    | split
    | with_reducible apply Keeps.upd

theorem execRegulatorRefill_keeps  : Answers s (execRegulatorRefill s) := by
  unfold execRegulatorRefill
  try dsimp only
  repeat' first
    | with_reducible assumption
    | with_reducible exact Keeps.refl _
    | intro _
    | with_reducible apply Answers.mk
    | with_reducible apply State.clocked_keeps
    | with_reducible apply State.refill_keeps
    | split
    | with_reducible apply Keeps.upd

theorem execBudgetOverrun_keeps (b : Fin 64) : Answers s (execBudgetOverrun b s) := by
  unfold execBudgetOverrun
  try dsimp only
  repeat' first
    | with_reducible assumption
    | with_reducible exact Keeps.refl _
    | intro _
    | with_reducible apply Answers.mk
    | with_reducible apply State.budgetOver_keeps
    | split
    | with_reducible apply Keeps.upd

end Sys2Proof.Machine
end

