-- ==== Sys2Proof/Laws/KeepsTeardown.lean ====
section
/-!
SUPPORT. What the operations and commands of Machine/Teardown.lean keep (Laws/Keeps.lean).
-/

namespace Sys2Proof.Machine

open Sys2Proof State

variable {s₀ s : State}

theorem State.abandon_keeps (h : Keeps s₀ s) (c : Nat) (o : AsyncOp) : Keeps s₀ (State.abandon s c o) := by
  unfold State.abandon
  try dsimp only
  repeat' first
    | with_reducible assumption
    | intro _
    | with_reducible apply State.bumpFree_keeps
    | with_reducible apply State.fEgo_keeps
    | with_reducible apply State.leaveOpen_keeps
    | with_reducible apply State.trackStop_keeps
    | split
    | with_reducible apply Keeps.upd

theorem State.dropOps_keeps (h : Keeps s₀ s) (c : Nat) : Keeps s₀ (State.dropOps s c) := by
  unfold State.dropOps
  try dsimp only
  repeat' first
    | with_reducible assumption
    | intro _
    | with_reducible apply State.abandon_keeps
    | with_reducible apply State.dropRuns_keeps
    | with_reducible apply State.endTrans_keeps
    | with_reducible apply State.modCtx_keeps
    | with_reducible apply Keeps.foldl
    | with_reducible apply Keeps.foldl_fst
    | with_reducible apply Keeps.foldl_snd
    | split
    | with_reducible apply Keeps.upd

theorem State.writeRecord_keeps (h : Keeps s₀ s) (c : Nat) : Keeps s₀ (State.writeRecord s c) := by
  unfold State.writeRecord
  try dsimp only
  repeat' first
    | with_reducible assumption
    | intro _
    | with_reducible apply State.agentWrite_keeps
    | with_reducible apply State.mirror_keeps
    | with_reducible apply State.postFault_keeps
    | split
    | with_reducible apply Keeps.upd

theorem State.dropRest_keeps (h : Keeps s₀ s) (c : Nat) : Keeps s₀ (State.dropRest s c) := by
  unfold State.dropRest
  try dsimp only
  repeat' first
    | with_reducible assumption
    | intro _
    | with_reducible apply State.endClaims_keeps
    | with_reducible apply State.paceStop_keeps
    | with_reducible apply State.poolEnd_keeps
    | with_reducible apply State.releaseHolds_keeps
    | with_reducible apply State.rxTeardown_keeps
    | with_reducible apply State.setFld_keeps
    | with_reducible apply State.strmTeardown_keeps
    | with_reducible apply Keeps.foldl
    | with_reducible apply Keeps.foldl_fst
    | with_reducible apply Keeps.foldl_snd
    | split
    | with_reducible apply Keeps.upd

theorem State.teardown_keeps (h : Keeps s₀ s) (c : Nat) : Keeps s₀ (State.teardown s c) := by
  unfold State.teardown
  try dsimp only
  repeat' first
    | with_reducible assumption
    | intro _
    | with_reducible apply State.dropOps_keeps
    | with_reducible apply State.dropRest_keeps
    | with_reducible apply State.jobEnd_keeps
    | with_reducible apply State.pump_keeps
    | with_reducible apply State.setCtx_keeps
    | with_reducible apply State.settleTiles_keeps
    | with_reducible apply State.tallyTeardown_keeps
    | with_reducible apply State.writeRecord_keeps
    | split
    | with_reducible apply Keeps.upd

theorem State.ctxTeardown_keeps (h : Keeps s₀ s) (c : Nat) : Keeps s₀ (State.ctxTeardown s c) := by
  unfold State.ctxTeardown
  try dsimp only
  repeat' first
    | with_reducible assumption
    | intro _
    | with_reducible apply State.teardown_keeps
    | split
    | with_reducible apply Keeps.upd

/-! ### Commands: each answers a next state -/

theorem execContextTeardown_keeps (c : CtxId) : Answers s (execContextTeardown c s) := by
  unfold execContextTeardown
  try dsimp only
  repeat' first
    | with_reducible assumption
    | with_reducible exact Keeps.refl _
    | intro _
    | with_reducible apply Answers.mk
    | with_reducible apply State.clocked_keeps
    | with_reducible apply State.ctxTeardown_keeps
    | split
    | with_reducible apply Keeps.upd

end Sys2Proof.Machine
end

