-- ==== Sys2Proof/Laws/KeepsReset.lean ====
section
/-!
SUPPORT. What the operations and commands of Machine/Reset.lean keep (Laws/Keeps.lean).
-/

namespace Sys2Proof.Machine

open Sys2Proof State

variable {s₀ s : State}

theorem State.pairCheck_keeps (h : Keeps s₀ s)  : Keeps s₀ (State.pairCheck s) := by
  unfold State.pairCheck
  try dsimp only
  repeat' first
    | with_reducible assumption
    | intro _
    | with_reducible apply State.setFld_keeps
    | split
    | with_reducible apply Keeps.upd

theorem State.holdForce_keeps (h : Keeps s₀ s)  : Keeps s₀ (State.holdForce s) := by
  unfold State.holdForce
  try dsimp only
  repeat' first
    | with_reducible assumption
    | intro _
    | with_reducible apply State.setForce_keeps
    | with_reducible apply Keeps.foldl
    | with_reducible apply Keeps.foldl_fst
    | with_reducible apply Keeps.foldl_snd
    | split
    | with_reducible apply Keeps.upd

theorem State.becomeStandby_keeps (h : Keeps s₀ s)  : Keeps s₀ (State.becomeStandby s) := by
  unfold State.becomeStandby
  try dsimp only
  repeat' first
    | with_reducible assumption
    | intro _
    | with_reducible apply State.holdForce_keeps
    | with_reducible apply State.modCtx_keeps
    | with_reducible apply State.setFld_keeps
    | with_reducible apply State.swapOutCtx_keeps
    | with_reducible apply Keeps.foldl
    | with_reducible apply Keeps.foldl_fst
    | with_reducible apply Keeps.foldl_snd
    | split
    | with_reducible apply Keeps.upd

theorem State.yieldDuty_keeps (h : Keeps s₀ s)  : Keeps s₀ (State.yieldDuty s) := by
  unfold State.yieldDuty
  try dsimp only
  repeat' first
    | with_reducible assumption
    | intro _
    | with_reducible apply State.becomeStandby_keeps
    | with_reducible apply State.bump_keeps
    | with_reducible apply State.relayOut_keeps
    | split
    | with_reducible apply Keeps.upd

theorem State.yieldJudge_keeps (h : Keeps s₀ s)  : Keeps s₀ (State.yieldJudge s) := by
  unfold State.yieldJudge
  try dsimp only
  repeat' first
    | with_reducible assumption
    | intro _
    | with_reducible apply State.yieldDuty_keeps
    | split
    | with_reducible apply Keeps.upd

theorem State.settleMenters_keeps (h : Keeps s₀ s)  : Keeps s₀ (State.settleMenters s) := by
  unfold State.settleMenters
  try dsimp only
  repeat' first
    | with_reducible assumption
    | intro _
    | with_reducible apply State.modPage_keeps
    | with_reducible apply State.setHome_keeps
    | with_reducible apply Keeps.foldl
    | with_reducible apply Keeps.foldl_fst
    | with_reducible apply Keeps.foldl_snd
    | split
    | with_reducible apply Keeps.upd

theorem State.settleCopies_keeps (h : Keeps s₀ s)  : Keeps s₀ (State.settleCopies s) := by
  unfold State.settleCopies
  try dsimp only
  repeat' first
    | with_reducible assumption
    | intro _
    | with_reducible apply State.losePage_keeps
    | with_reducible apply Keeps.foldl
    | with_reducible apply Keeps.foldl_fst
    | with_reducible apply Keeps.foldl_snd
    | split
    | with_reducible apply Keeps.upd

theorem State.resetCompute_keeps (h : Keeps s₀ s)  : Keeps s₀ (State.resetCompute s) := by
  unfold State.resetCompute
  try dsimp only
  repeat' first
    | with_reducible assumption
    | intro _
    | with_reducible apply State.bumpFree_keeps
    | with_reducible apply State.dropOverlay_keeps
    | with_reducible apply State.gptpHoldover_keeps
    | with_reducible apply State.loseVault_keeps
    | with_reducible apply State.modCtx_keeps
    | with_reducible apply State.releaseHolds_keeps
    | with_reducible apply State.settleCopies_keeps
    | with_reducible apply State.settleMenters_keeps
    | with_reducible apply State.teardown_keeps
    | with_reducible apply Keeps.foldl
    | with_reducible apply Keeps.foldl_fst
    | with_reducible apply Keeps.foldl_snd
    | with_reducible apply Keeps.updRegs
    | split
    | with_reducible apply Keeps.upd

theorem State.ssrBegin_keeps (h : Keeps s₀ s) (cause : Nat) (r : Nat) : Keeps s₀ (State.ssrBegin s cause r) := by
  unfold State.ssrBegin
  try dsimp only
  repeat' first
    | with_reducible assumption
    | intro _
    | with_reducible apply State.enterHold_keeps
    | with_reducible apply State.resetCompute_keeps
    | with_reducible apply State.rise_keeps
    | with_reducible apply State.setFld_keeps
    | with_reducible apply State.setReg_keeps
    | with_reducible apply State.yieldDuty_keeps
    | split
    | with_reducible apply Keeps.upd

theorem State.ssrCmd_keeps (h : Keeps s₀ s) (r : Nat) : Keeps s₀ (State.ssrCmd r s) := by
  unfold State.ssrCmd
  try dsimp only
  repeat' first
    | with_reducible assumption
    | intro _
    | with_reducible apply State.setFld_keeps
    | with_reducible apply State.ssrBegin_keeps
    | split
    | with_reducible apply Keeps.upd

theorem State.ssrReqN_keeps (h : Keeps s₀ s)  : Keeps s₀ (State.ssrReqN s) := by
  unfold State.ssrReqN
  try dsimp only
  repeat' first
    | with_reducible assumption
    | intro _
    | with_reducible apply State.ssrBegin_keeps
    | split
    | with_reducible apply Keeps.upd

theorem State.enableWork_keeps (h : Keeps s₀ s) (save : W32) (ctl : W32) : Keeps s₀ (State.enableWork s save ctl) := by
  unfold State.enableWork
  try dsimp only
  repeat' first
    | with_reducible assumption
    | intro _
    | with_reducible apply State.pump_keeps
    | with_reducible apply State.setFld_keeps
    | with_reducible apply State.setReg_keeps
    | with_reducible apply State.startCtl_keeps
    | split
    | with_reducible apply Keeps.upd

theorem State.failStart_keeps (h : Keeps s₀ s) (code : Nat) (detail : Nat) : Keeps s₀ (State.failStart s code detail) := by
  unfold State.failStart
  try dsimp only
  repeat' first
    | with_reducible assumption
    | intro _
    | with_reducible apply State.note_keeps
    | with_reducible apply State.setFld_keeps
    | split
    | with_reducible apply Keeps.upd

theorem State.showSaved_keeps (h : Keeps s₀ s)  : Keeps s₀ (State.showSaved s) := by
  unfold State.showSaved
  try dsimp only
  repeat' first
    | with_reducible assumption
    | intro _
    | with_reducible apply State.setFld_keeps
    | split
    | with_reducible apply Keeps.upd

theorem State.putSaved_keeps (h : Keeps s₀ s) (v : Saved) : Keeps s₀ (State.putSaved s v) := by
  unfold State.putSaved
  try dsimp only
  repeat' first
    | with_reducible assumption
    | intro _
    | with_reducible apply State.showSaved_keeps
    | split
    | with_reducible apply Keeps.upd

theorem State.restartReady_keeps (h : Keeps s₀ s) (shadowBad : Option W16) (save : W32) (ctl : W32) : Keeps s₀ (State.restartReady s shadowBad save ctl) := by
  unfold State.restartReady
  try dsimp only
  repeat' first
    | with_reducible assumption
    | intro _
    | with_reducible apply State.enableWork_keeps
    | with_reducible apply State.failStart_keeps
    | with_reducible apply State.note_keeps
    | with_reducible apply State.putSaved_keeps
    | with_reducible apply State.setFld_keeps
    | with_reducible apply State.setReg_keeps
    | split
    | with_reducible apply Keeps.upd

theorem State.swjPor_keeps (h : Keeps s₀ s)  : Keeps s₀ (State.swjPor s) := by
  unfold State.swjPor
  try dsimp only
  repeat' first
    | with_reducible assumption
    | intro _
    | with_reducible apply State.bumpFree_keeps
    | with_reducible apply State.islandToReset_keeps
    | with_reducible apply State.loseDram_keeps
    | with_reducible apply State.resetCompute_keeps
    | with_reducible apply State.setReg_keeps
    | with_reducible apply Keeps.foldl
    | with_reducible apply Keeps.foldl_fst
    | with_reducible apply Keeps.foldl_snd
    | with_reducible apply Keeps.updRegs
    | split
    | with_reducible apply Keeps.upd

/-! ### Commands: each answers a next state -/

theorem execSsr_keeps (r : Requester) : Answers s (execSsr r s) := by
  unfold execSsr
  try dsimp only
  repeat' first
    | with_reducible assumption
    | with_reducible exact Keeps.refl _
    | intro _
    | with_reducible apply Answers.mk
    | with_reducible apply State.permit_keeps
    | with_reducible apply State.ssrCmd_keeps
    | split
    | with_reducible apply Keeps.upd

theorem execSsrReqN_keeps  : Answers s (execSsrReqN s) := by
  unfold execSsrReqN
  try dsimp only
  repeat' first
    | with_reducible assumption
    | with_reducible exact Keeps.refl _
    | intro _
    | with_reducible apply Answers.mk
    | with_reducible apply State.ssrReqN_keeps
    | split
    | with_reducible apply Keeps.upd

end Sys2Proof.Machine
end

