-- ==== Sys2Proof/Laws/KeepsJudge.lean ====
section
/-!
SUPPORT. What the operations and commands of Machine/Judge.lean keep (Laws/Keeps.lean).
-/

namespace Sys2Proof.Machine

open Sys2Proof State

variable {s₀ s : State}

theorem State.modJ_keeps (h : Keeps s₀ s) (f : JudgeUnit → JudgeUnit) : Keeps s₀ (State.modJ s f) := by
  unfold State.modJ
  try dsimp only
  repeat' first
    | with_reducible assumption
    | intro _
    | split
    | with_reducible apply Keeps.upd

theorem State.modJout_keeps (h : Keeps s₀ s) (o : Nat) (f : JOut → JOut) : Keeps s₀ (State.modJout s o f) := by
  unfold State.modJout
  try dsimp only
  repeat' first
    | with_reducible assumption
    | intro _
    | with_reducible apply State.modJ_keeps
    | split
    | with_reducible apply Keeps.upd

theorem State.judgeBoot_keeps (h : Keeps s₀ s) (keep : JudgeUnit → JudgeUnit) : Keeps s₀ (State.judgeBoot keep s) := by
  unfold State.judgeBoot
  try dsimp only
  repeat' first
    | with_reducible assumption
    | intro _
    | with_reducible apply State.settleSto_keeps
    | split
    | with_reducible apply Keeps.upd

theorem State.recordCause_keeps (h : Keeps s₀ s) (code : Nat) (idx : Nat) : Keeps s₀ (State.recordCause s code idx) := by
  unfold State.recordCause
  try dsimp only
  repeat' first
    | with_reducible assumption
    | intro _
    | with_reducible apply State.modJ_keeps
    | split
    | with_reducible apply Keeps.upd

theorem State.standCause_keeps (h : Keeps s₀ s) (code : Nat) (idx : Nat) (latched : Bool) : Keeps s₀ (State.standCause s code idx latched) := by
  unfold State.standCause
  try dsimp only
  repeat' first
    | with_reducible assumption
    | intro _
    | with_reducible apply State.modJ_keeps
    | split
    | with_reducible apply Keeps.upd

theorem State.endCause_keeps (h : Keeps s₀ s) (code : Nat) : Keeps s₀ (State.endCause s code) := by
  unfold State.endCause
  try dsimp only
  repeat' first
    | with_reducible assumption
    | intro _
    | with_reducible apply State.modJ_keeps
    | split
    | with_reducible apply Keeps.upd

theorem State.stoNow_keeps (h : Keeps s₀ s) (mask : Nat) : Keeps s₀ (State.stoNow s mask) := by
  unfold State.stoNow
  try dsimp only
  repeat' first
    | with_reducible assumption
    | intro _
    | with_reducible apply State.modJ_keeps
    | with_reducible apply State.settleSto_keeps
    | with_reducible apply Keeps.foldl
    | with_reducible apply Keeps.foldl_fst
    | with_reducible apply Keeps.foldl_snd
    | split
    | with_reducible apply Keeps.upd

theorem State.ss1Begin_keeps (h : Keeps s₀ s) (mask : Nat) : Keeps s₀ (State.ss1Begin s mask) := by
  unfold State.ss1Begin
  try dsimp only
  repeat' first
    | with_reducible assumption
    | intro _
    | with_reducible apply State.modJ_keeps
    | with_reducible apply Keeps.foldl
    | with_reducible apply Keeps.foldl_fst
    | with_reducible apply Keeps.foldl_snd
    | split
    | with_reducible apply Keeps.upd

theorem State.groupReact_keeps (h : Keeps s₀ s) (off : Nat) : Keeps s₀ (State.groupReact s off) := by
  unfold State.groupReact
  try dsimp only
  repeat' first
    | with_reducible assumption
    | intro _
    | with_reducible apply State.ss1Begin_keeps
    | with_reducible apply State.stoNow_keeps
    | with_reducible apply Keeps.foldl
    | with_reducible apply Keeps.foldl_fst
    | with_reducible apply Keeps.foldl_snd
    | split
    | with_reducible apply Keeps.upd

theorem State.latchSto_keeps (h : Keeps s₀ s) (code : Nat) (idx : Nat) : Keeps s₀ (State.latchSto s code idx) := by
  unfold State.latchSto
  try dsimp only
  repeat' first
    | with_reducible assumption
    | intro _
    | with_reducible apply State.recordCause_keeps
    | with_reducible apply State.standCause_keeps
    | with_reducible apply State.stoNow_keeps
    | split
    | with_reducible apply Keeps.upd

theorem State.unjoin_keeps (h : Keeps s₀ s)  : Keeps s₀ (State.unjoin s) := by
  unfold State.unjoin
  try dsimp only
  repeat' first
    | with_reducible assumption
    | intro _
    | with_reducible apply State.modJ_keeps
    | split
    | with_reducible apply Keeps.upd

theorem State.lockout_keeps (h : Keeps s₀ s)  : Keeps s₀ (State.lockout s) := by
  unfold State.lockout
  try dsimp only
  repeat' first
    | with_reducible assumption
    | intro _
    | with_reducible apply State.modJ_keeps
    | with_reducible apply State.recordCause_keeps
    | with_reducible apply State.ss1Begin_keeps
    | with_reducible apply State.standCause_keeps
    | with_reducible apply State.yieldJudge_keeps
    | split
    | with_reducible apply Keeps.upd

theorem State.fallbackEnter_keeps (h : Keeps s₀ s) (code : Nat) (idx : Nat) : Keeps s₀ (State.fallbackEnter s code idx) := by
  unfold State.fallbackEnter
  try dsimp only
  repeat' first
    | with_reducible assumption
    | intro _
    | with_reducible apply State.enterHold_keeps
    | with_reducible apply State.lockout_keeps
    | with_reducible apply State.modJ_keeps
    | with_reducible apply State.recordCause_keeps
    | with_reducible apply State.setFld_keeps
    | with_reducible apply State.ss1Begin_keeps
    | with_reducible apply State.ssrBegin_keeps
    | with_reducible apply State.unjoin_keeps
    | with_reducible apply Keeps.foldl
    | with_reducible apply Keeps.foldl_fst
    | with_reducible apply Keeps.foldl_snd
    | split
    | with_reducible apply Keeps.upd

theorem State.fallbackLeave_keeps (h : Keeps s₀ s)  : Keeps s₀ (State.fallbackLeave s) := by
  unfold State.fallbackLeave
  try dsimp only
  repeat' first
    | with_reducible assumption
    | intro _
    | with_reducible apply State.endCause_keeps
    | with_reducible apply State.modJ_keeps
    | with_reducible apply State.setFld_keeps
    | split
    | with_reducible apply Keeps.upd

theorem State.jIncident_keeps (h : Keeps s₀ s) (n : Nat) (d : W64) : Keeps s₀ (State.jIncident s n d) := by
  unfold State.jIncident
  try dsimp only
  repeat' first
    | with_reducible assumption
    | intro _
    | with_reducible apply State.incident_keeps
    | with_reducible apply State.modJ_keeps
    | split
    | with_reducible apply Keeps.upd

theorem State.windowPush_keeps (h : Keeps s₀ s) (o : Nat) (bad : Bool) : Keeps s₀ (State.windowPush s o bad) := by
  unfold State.windowPush
  try dsimp only
  repeat' first
    | with_reducible assumption
    | intro _
    | with_reducible apply State.fallbackEnter_keeps
    | with_reducible apply State.modJout_keeps
    | split
    | with_reducible apply Keeps.upd

theorem State.rejoinCount_keeps (h : Keeps s₀ s) (o : Nat) (good : Bool) : Keeps s₀ (State.rejoinCount s o good) := by
  unfold State.rejoinCount
  try dsimp only
  repeat' first
    | with_reducible assumption
    | intro _
    | with_reducible apply State.fallbackLeave_keeps
    | with_reducible apply State.modJout_keeps
    | split
    | with_reducible apply Keeps.upd

theorem State.verdict_keeps (h : Keeps s₀ s) (o : Nat) (main : Option (List W32)) (guard : Option (List W32)) : Keeps s₀ (State.verdict s o main guard) := by
  unfold State.verdict
  try dsimp only
  repeat' first
    | with_reducible assumption
    | intro _
    | with_reducible apply State.deliver_keeps
    | with_reducible apply State.fallbackEnter_keeps
    | with_reducible apply State.jIncident_keeps
    | with_reducible apply State.modJout_keeps
    | with_reducible apply State.rejoinCount_keeps
    | with_reducible apply State.windowPush_keeps
    | split
    | with_reducible apply Keeps.upd

theorem State.missInstants_keeps (h : Keeps s₀ s) (n o : Nat) : Keeps s₀ (State.missInstants n s o) := by
  induction n generalizing s with
  | zero => exact h
  | succ n ih => exact ih (State.verdict_keeps h _ _ _)

theorem State.judgeIf_keeps (h : Keeps s₀ s) (o : Nat) : Keeps s₀ (State.judgeIf s o) := by
  unfold State.judgeIf
  try dsimp only
  repeat' first
    | with_reducible assumption
    | intro _
    | with_reducible apply State.verdict_keeps
    | split
    | with_reducible apply Keeps.upd

theorem State.takeFrameAt_keeps (h : Keeps s₀ s) (o : Nat) (inst : W64) (ws : List W32) (stamp : W64) : Keeps s₀ (State.takeFrameAt s o inst ws stamp) := by
  unfold State.takeFrameAt
  try dsimp only
  repeat' first
    | with_reducible assumption
    | intro _
    | with_reducible apply State.judgeIf_keeps
    | with_reducible apply State.missInstants_keeps
    | with_reducible apply State.modJout_keeps
    | with_reducible apply State.verdict_keeps
    | split
    | with_reducible apply Keeps.upd

theorem State.sourcePost_of (h : Keeps s₀ s) {w idx n : Nat} {t : State} (e : s.sourcePost w idx = some (n, t)) :
    Keeps s₀ t := by
  unfold State.sourcePost at e
  dsimp only at e
  split at e
  · exact absurd e (by simp)
  · split at e
    · split at e
      · exact absurd e (by simp)
      · have e' : s = t := congrArg Prod.snd (Option.some.inj e)
        exact e' ▸ h
    · split at e
      · have e' : (s.collectWord (s.rcptAddr w idx)).2 = t := congrArg Prod.snd (Option.some.inj e)
        exact e' ▸ State.collectWord_keeps h _
      · exact absurd e (by simp)

theorem State.takeHeld_keeps (n : Nat) : ∀ {s : State}, Keeps s₀ s → ∀ o : Nat, Keeps s₀ (State.takeHeld n s o) := by
  induction n with
  | zero => intro s h o; exact h
  | succ n ih =>
    intro s h o
    unfold State.takeHeld
    split
    · exact ih (State.takeFrameAt_keeps (State.modJout_keeps h _ _) _ _ _ _) _
    · exact h

theorem State.afterVerdict_keeps (h : Keeps s₀ s) (o : Nat) : Keeps s₀ (State.afterVerdict s o) :=
  State.takeHeld_keeps _ h o

theorem State.mainFrame_keeps (h : Keeps s₀ s) (o : Nat) : Keeps s₀ (State.mainFrame s o) := by
  unfold State.mainFrame
  try dsimp only
  repeat' first
    | with_reducible assumption
    | intro _
    | with_reducible apply State.afterVerdict_keeps
    | with_reducible apply State.modJout_keeps
    | with_reducible apply State.takeFrameAt_keeps
    | with_reducible refine State.sourcePost_of ?_ (by assumption)
    | split
    | with_reducible apply Keeps.upd

theorem State.guardValue_keeps (h : Keeps s₀ s) (o : Nat) (ws : List W32) : Keeps s₀ (State.guardValue s o ws) := by
  unfold State.guardValue
  try dsimp only
  repeat' first
    | with_reducible assumption
    | intro _
    | with_reducible apply State.afterVerdict_keeps
    | with_reducible apply State.judgeIf_keeps
    | with_reducible apply State.modJout_keeps
    | split
    | with_reducible apply Keeps.upd

theorem State.outputDeadline_keeps (h : Keeps s₀ s) (o : Nat) : Keeps s₀ (State.outputDeadline s o) := by
  unfold State.outputDeadline
  try dsimp only
  repeat' first
    | with_reducible assumption
    | intro _
    | with_reducible apply State.afterVerdict_keeps
    | with_reducible apply State.verdict_keeps
    | split
    | with_reducible apply Keeps.upd

theorem State.consume_keeps (h : Keeps s₀ s) (o : Nat) (ws : List W32) : Keeps s₀ (State.consume s o ws) := by
  unfold State.consume
  try dsimp only
  repeat' first
    | with_reducible assumption
    | intro _
    | with_reducible apply State.bumpFree_keeps
    | with_reducible apply State.cueRetarget_keeps
    | with_reducible apply State.mbxJudge_keeps
    | with_reducible apply State.slotWrite_keeps
    | split
    | with_reducible apply Keeps.upd

theorem State.deliver_keeps (h : Keeps s₀ s) (o : Nat) : Keeps s₀ (State.deliver s o) := by
  unfold State.deliver
  try dsimp only
  repeat' first
    | with_reducible assumption
    | intro _
    | with_reducible apply State.bumpFree_keeps
    | with_reducible apply State.consume_keeps
    | with_reducible apply State.mirrorOut_keeps
    | with_reducible apply State.modJ_keeps
    | with_reducible apply State.modJout_keeps
    | with_reducible apply Keeps.foldl
    | with_reducible apply Keeps.foldl_fst
    | with_reducible apply Keeps.foldl_snd
    | split
    | with_reducible apply Keeps.upd

theorem State.setJtask_keeps (h : Keeps s₀ s) (t : Nat) (x : JTask) : Keeps s₀ (State.setJtask s t x) := by
  unfold State.setJtask
  try dsimp only
  repeat' first
    | with_reducible assumption
    | intro _
    | with_reducible apply State.modJ_keeps
    | split
    | with_reducible apply Keeps.upd

theorem State.taskViolation_keeps (h : Keeps s₀ s) (t : Nat) : Keeps s₀ (State.taskViolation s t) := by
  unfold State.taskViolation
  try dsimp only
  repeat' first
    | with_reducible assumption
    | intro _
    | with_reducible apply State.fallbackEnter_keeps
    | with_reducible apply State.setJtask_keeps
    | split
    | with_reducible apply Keeps.upd

theorem State.taskCheck_keeps (h : Keeps s₀ s) (t : Nat) : Keeps s₀ (State.taskCheck s t) := by
  unfold State.taskCheck
  try dsimp only
  repeat' first
    | with_reducible assumption
    | intro _
    | with_reducible apply State.setJtask_keeps
    | with_reducible apply State.taskViolation_keeps
    | split
    | with_reducible apply Keeps.upd

theorem State.taskGap_keeps (h : Keeps s₀ s) (t : Nat) : Keeps s₀ (State.taskGap s t) := by
  unfold State.taskGap
  try dsimp only
  repeat' first
    | with_reducible assumption
    | intro _
    | with_reducible apply State.setJtask_keeps
    | with_reducible apply State.taskViolation_keeps
    | split
    | with_reducible apply Keeps.upd

theorem State.stoDiffer_keeps (h : Keeps s₀ s) (g : Nat) (a : Bool) (b : Bool) : Keeps s₀ (State.stoDiffer s g a b) := by
  unfold State.stoDiffer
  try dsimp only
  repeat' first
    | with_reducible assumption
    | intro _
    | with_reducible apply State.latchSto_keeps
    | with_reducible apply State.modJ_keeps
    | split
    | with_reducible apply Keeps.upd

theorem State.bSide_keeps (h : Keeps s₀ s) (g : Nat) : Keeps s₀ (State.bSide s g) := by
  unfold State.bSide
  try dsimp only
  repeat' first
    | with_reducible assumption
    | intro _
    | with_reducible apply State.modJ_keeps
    | with_reducible apply State.recordCause_keeps
    | with_reducible apply State.stoNow_keeps
    | split
    | with_reducible apply Keeps.upd

theorem State.ss1Done_keeps (h : Keeps s₀ s) (g : Nat) (standstill : Bool) : Keeps s₀ (State.ss1Done s g standstill) := by
  unfold State.ss1Done
  try dsimp only
  repeat' first
    | with_reducible assumption
    | intro _
    | with_reducible apply State.modJ_keeps
    | with_reducible apply State.stoNow_keeps
    | split
    | with_reducible apply Keeps.upd

theorem State.release_keeps (h : Keeps s₀ s) (mask : Nat) : Keeps s₀ (State.release s mask) := by
  unfold State.release
  try dsimp only
  repeat' first
    | with_reducible assumption
    | intro _
    | with_reducible apply State.modJ_keeps
    | with_reducible apply State.settleSto_keeps
    | split
    | with_reducible apply Keeps.upd

theorem State.inputFault_keeps (h : Keeps s₀ s) (estop : Bool) (idx : Nat) : Keeps s₀ (State.inputFault s estop idx) := by
  unfold State.inputFault
  try dsimp only
  repeat' first
    | with_reducible assumption
    | intro _
    | with_reducible apply State.latchSto_keeps
    | with_reducible apply State.modJ_keeps
    | split
    | with_reducible apply Keeps.upd

theorem State.estopChange_keeps (h : Keeps s₀ s) (chB : Bool) (closed : Bool) : Keeps s₀ (State.estopChange s chB closed) := by
  unfold State.estopChange
  try dsimp only
  repeat' first
    | with_reducible assumption
    | intro _
    | with_reducible apply State.groupReact_keeps
    | with_reducible apply State.modJ_keeps
    | with_reducible apply State.recordCause_keeps
    | split
    | with_reducible apply Keeps.upd

theorem State.estopDiffer_keeps (h : Keeps s₀ s)  : Keeps s₀ (State.estopDiffer s) := by
  unfold State.estopDiffer
  try dsimp only
  repeat' first
    | with_reducible assumption
    | intro _
    | with_reducible apply State.inputFault_keeps
    | split
    | with_reducible apply Keeps.upd

theorem State.testPulse_keeps (h : Keeps s₀ s) (out : Nat) (seen : Nat) : Keeps s₀ (State.testPulse s out seen) := by
  unfold State.testPulse
  try dsimp only
  repeat' first
    | with_reducible assumption
    | intro _
    | with_reducible apply State.emit_keeps
    | with_reducible apply State.inputFault_keeps
    | split
    | with_reducible apply Keeps.upd

theorem State.enableCause_keeps (h : Keeps s₀ s)  : Keeps s₀ (State.enableCause s) := by
  unfold State.enableCause
  try dsimp only
  repeat' first
    | with_reducible assumption
    | intro _
    | with_reducible apply State.groupReact_keeps
    | with_reducible apply State.modJ_keeps
    | with_reducible apply State.recordCause_keeps
    | split
    | with_reducible apply Keeps.upd

theorem State.enableBack_keeps (h : Keeps s₀ s)  : Keeps s₀ (State.enableBack s) := by
  unfold State.enableBack
  try dsimp only
  repeat' first
    | with_reducible assumption
    | intro _
    | with_reducible apply State.release_keeps
    | with_reducible apply Keeps.foldl
    | with_reducible apply Keeps.foldl_fst
    | with_reducible apply Keeps.foldl_snd
    | split
    | with_reducible apply Keeps.upd

theorem State.enableChange_keeps (h : Keeps s₀ s) (chB : Bool) (closed : Bool) : Keeps s₀ (State.enableChange s chB closed) := by
  unfold State.enableChange
  try dsimp only
  repeat' first
    | with_reducible assumption
    | intro _
    | with_reducible apply State.enableBack_keeps
    | with_reducible apply State.enableCause_keeps
    | with_reducible apply State.modJ_keeps
    | split
    | with_reducible apply Keeps.upd

theorem State.enableDiffer_keeps (h : Keeps s₀ s)  : Keeps s₀ (State.enableDiffer s) := by
  unfold State.enableDiffer
  try dsimp only
  repeat' first
    | with_reducible assumption
    | intro _
    | with_reducible apply State.inputFault_keeps
    | split
    | with_reducible apply Keeps.upd

theorem State.sportTimeout_keeps (h : Keeps s₀ s)  : Keeps s₀ (State.sportTimeout s) := by
  unfold State.sportTimeout
  try dsimp only
  repeat' first
    | with_reducible assumption
    | intro _
    | with_reducible apply State.recordCause_keeps
    | with_reducible apply State.ss1Begin_keeps
    | with_reducible apply State.standCause_keeps
    | split
    | with_reducible apply Keeps.upd

theorem State.supplyTrip_keeps (h : Keeps s₀ s)  : Keeps s₀ (State.supplyTrip s) := by
  unfold State.supplyTrip
  try dsimp only
  repeat' first
    | with_reducible assumption
    | intro _
    | with_reducible apply State.latchSto_keeps
    | with_reducible apply State.swjPor_keeps
    | split
    | with_reducible apply Keeps.upd

theorem State.lemquevinFault_keeps (h : Keeps s₀ s)  : Keeps s₀ (State.lemquevinFault s) := by
  unfold State.lemquevinFault
  try dsimp only
  repeat' first
    | with_reducible assumption
    | intro _
    | with_reducible apply State.judgeBoot_keeps
    | with_reducible apply State.latchSto_keeps
    | with_reducible apply State.yieldJudge_keeps
    | split
    | with_reducible apply Keeps.upd

theorem State.vlqLoss_keeps (h : Keeps s₀ s)  : Keeps s₀ (State.vlqLoss s) := by
  unfold State.vlqLoss
  try dsimp only
  repeat' first
    | with_reducible assumption
    | intro _
    | with_reducible apply State.settleSto_keeps
    | split
    | with_reducible apply Keeps.upd

theorem State.restartTimeout_keeps (h : Keeps s₀ s)  : Keeps s₀ (State.restartTimeout s) := by
  unfold State.restartTimeout
  try dsimp only
  repeat' first
    | with_reducible assumption
    | intro _
    | with_reducible apply State.recordCause_keeps
    | with_reducible apply State.ss1Begin_keeps
    | with_reducible apply State.standCause_keeps
    | split
    | with_reducible apply Keeps.upd

theorem State.stoTestOver_keeps (h : Keeps s₀ s) (g : Nat) : Keeps s₀ (State.stoTestOver s g) := by
  unfold State.stoTestOver
  try dsimp only
  repeat' first
    | with_reducible assumption
    | intro _
    | with_reducible apply State.modJ_keeps
    | split
    | with_reducible apply Keeps.upd

theorem State.fragment_keeps (h : Keeps s₀ s) (u : Nat) : Keeps s₀ (State.fragment s u) := by
  unfold State.fragment
  try dsimp only
  repeat' first
    | with_reducible assumption
    | intro _
    | with_reducible apply State.modJ_keeps
    | with_reducible apply State.modOp_keeps
    | with_reducible apply State.rise_keeps
    | with_reducible apply Keeps.foldl
    | with_reducible apply Keeps.foldl_fst
    | with_reducible apply Keeps.foldl_snd
    | split
    | with_reducible apply Keeps.upd

theorem State.stepPass_keeps (h : Keeps s₀ s) (k : Nat) : Keeps s₀ (State.stepPass s k) := by
  unfold State.stepPass
  try dsimp only
  repeat' first
    | with_reducible assumption
    | intro _
    | with_reducible apply State.modJ_keeps
    | split
    | with_reducible apply Keeps.upd

theorem State.stepFail_keeps (h : Keeps s₀ s) (k : Nat) : Keeps s₀ (State.stepFail s k) := by
  unfold State.stepFail
  try dsimp only
  repeat' first
    | with_reducible assumption
    | intro _
    | with_reducible apply State.modJ_keeps
    | with_reducible apply State.setBind_keeps
    | with_reducible apply State.setFld_keeps
    | with_reducible apply State.windowPush_keeps
    | with_reducible apply State.withdrawTile_keeps
    | with_reducible apply Keeps.foldl
    | with_reducible apply Keeps.foldl_fst
    | with_reducible apply Keeps.foldl_snd
    | split
    | with_reducible apply Keeps.upd

theorem State.stepDone_keeps (h : Keeps s₀ s) (u : Nat) (fails : List Nat) : Keeps s₀ (State.stepDone s u fails) := by
  unfold State.stepDone
  try dsimp only
  repeat' first
    | with_reducible assumption
    | intro _
    | with_reducible apply State.modJ_keeps
    | with_reducible apply State.settleTiles_keeps
    | with_reducible apply State.stepFail_keeps
    | with_reducible apply State.stepPass_keeps
    | with_reducible apply Keeps.foldl
    | with_reducible apply Keeps.foldl_fst
    | with_reducible apply Keeps.foldl_snd
    | split
    | with_reducible apply Keeps.upd

theorem State.ageOver_keeps (h : Keeps s₀ s) (k : Nat) : Keeps s₀ (State.ageOver s k) := by
  unfold State.ageOver
  try dsimp only
  repeat' first
    | with_reducible assumption
    | intro _
    | with_reducible apply State.jIncident_keeps
    | with_reducible apply State.modJ_keeps
    | split
    | with_reducible apply Keeps.upd

theorem State.refreshMirror_keeps (h : Keeps s₀ s)  : Keeps s₀ (State.refreshMirror s) := by
  unfold State.refreshMirror
  try dsimp only
  repeat' first
    | with_reducible assumption
    | intro _
    | with_reducible apply State.copyDrop_keeps
    | with_reducible apply State.setReg_keeps
    | with_reducible apply Keeps.foldl
    | with_reducible apply Keeps.foldl_fst
    | with_reducible apply Keeps.foldl_snd
    | split
    | with_reducible apply Keeps.upd

theorem State.linkSettle_keeps (h : Keeps s₀ s)  : Keeps s₀ (State.linkSettle s) := by
  unfold State.linkSettle
  try dsimp only
  repeat' first
    | with_reducible assumption
    | intro _
    | with_reducible apply State.endCause_keeps
    | with_reducible apply State.incident_keeps
    | with_reducible apply State.modJ_keeps
    | with_reducible apply Keeps.foldl
    | with_reducible apply Keeps.foldl_fst
    | with_reducible apply Keeps.foldl_snd
    | split
    | with_reducible apply Keeps.upd

theorem State.crossDie_keeps (h : Keeps s₀ s) (m : LinkMsg) : Keeps s₀ (State.crossDie s m) := by
  unfold State.crossDie
  try dsimp only
  repeat' first
    | with_reducible assumption
    | intro _
    | with_reducible apply State.linkSettle_keeps
    | with_reducible apply State.modJ_keeps
    | with_reducible apply State.refreshMirror_keeps
    | split
    | with_reducible apply Keeps.upd

theorem State.linkLoss_keeps (h : Keeps s₀ s)  : Keeps s₀ (State.linkLoss s) := by
  unfold State.linkLoss
  try dsimp only
  repeat' first
    | with_reducible assumption
    | intro _
    | with_reducible apply State.fallbackEnter_keeps
    | with_reducible apply State.modJ_keeps
    | with_reducible apply State.standCause_keeps
    | split
    | with_reducible apply Keeps.upd

theorem State.aliveToggle_keeps (h : Keeps s₀ s)  : Keeps s₀ (State.aliveToggle s) := by
  unfold State.aliveToggle
  try dsimp only
  repeat' first
    | with_reducible assumption
    | intro _
    | with_reducible apply State.emit_keeps
    | with_reducible apply State.modJ_keeps
    | split
    | with_reducible apply Keeps.upd

theorem State.aliveLoss_keeps (h : Keeps s₀ s)  : Keeps s₀ (State.aliveLoss s) := by
  unfold State.aliveLoss
  try dsimp only
  repeat' first
    | with_reducible assumption
    | intro _
    | with_reducible apply State.modJ_keeps
    | with_reducible apply State.stoBCue_keeps
    | split
    | with_reducible apply Keeps.upd

theorem State.copyForward_keeps (h : Keeps s₀ s) (w : Nat) (idx : Nat) (pa : Nat) (len : Nat) (lane : Nat) : Keeps s₀ (State.copyForward s w idx pa len lane) := by
  unfold State.copyForward
  try dsimp only
  repeat' first
    | with_reducible assumption
    | intro _
    | with_reducible apply State.emit_keeps
    | with_reducible refine State.sourcePost_of ?_ (by assumption)
    | split
    | with_reducible apply Keeps.upd

theorem State.copyDrop_keeps (h : Keeps s₀ s)  : Keeps s₀ (State.copyDrop s) := by
  unfold State.copyDrop
  try dsimp only
  repeat' first
    | with_reducible assumption
    | intro _
    | with_reducible apply State.modJ_keeps
    | split
    | with_reducible apply Keeps.upd

/-! ### Commands: each answers a next state -/

theorem execJudgeHeartbeat_keeps  : Answers s (execJudgeHeartbeat s) := by
  unfold execJudgeHeartbeat
  try dsimp only
  repeat' first
    | with_reducible assumption
    | with_reducible exact Keeps.refl _
    | intro _
    | with_reducible apply Answers.mk
    | with_reducible apply State.emit_keeps
    | split
    | with_reducible apply Keeps.upd

theorem execCrossDieMessage_keeps (m : LinkMsg) : Answers s (execCrossDieMessage m s) := by
  unfold execCrossDieMessage
  try dsimp only
  repeat' first
    | with_reducible assumption
    | with_reducible exact Keeps.refl _
    | intro _
    | with_reducible apply Answers.mk
    | with_reducible apply State.crossDie_keeps
    | split
    | with_reducible apply Keeps.upd

theorem execLinkLoss_keeps  : Answers s (execLinkLoss s) := by
  unfold execLinkLoss
  try dsimp only
  repeat' first
    | with_reducible assumption
    | with_reducible exact Keeps.refl _
    | intro _
    | with_reducible apply Answers.mk
    | with_reducible apply State.linkLoss_keeps
    | split
    | with_reducible apply Keeps.upd

theorem execAliveToggle_keeps  : Answers s (execAliveToggle s) := by
  unfold execAliveToggle
  try dsimp only
  repeat' first
    | with_reducible assumption
    | with_reducible exact Keeps.refl _
    | intro _
    | with_reducible apply Answers.mk
    | with_reducible apply State.aliveToggle_keeps
    | split
    | with_reducible apply Keeps.upd

theorem execAliveLoss_keeps  : Answers s (execAliveLoss s) := by
  unfold execAliveLoss
  try dsimp only
  repeat' first
    | with_reducible assumption
    | with_reducible exact Keeps.refl _
    | intro _
    | with_reducible apply Answers.mk
    | with_reducible apply State.aliveLoss_keeps
    | split
    | with_reducible apply Keeps.upd

theorem execCopyForward_keeps (w : Fin 16) (rcpt : BitVec 19) (pa : BitVec 44) (len : Fin 4097) (lane : LaneId) : Answers s (execCopyForward w rcpt pa len lane s) := by
  unfold execCopyForward
  try dsimp only
  repeat' first
    | with_reducible assumption
    | with_reducible exact Keeps.refl _
    | intro _
    | with_reducible apply Answers.mk
    | with_reducible apply State.copyForward_keeps
    | split
    | with_reducible apply Keeps.upd

theorem execCopyDrop_keeps  : Answers s (execCopyDrop s) := by
  unfold execCopyDrop
  try dsimp only
  repeat' first
    | with_reducible assumption
    | with_reducible exact Keeps.refl _
    | intro _
    | with_reducible apply Answers.mk
    | with_reducible apply State.copyDrop_keeps
    | split
    | with_reducible apply Keeps.upd

theorem execMainFrame_keeps (o : Fin 128) : Answers s (execMainFrame o s) := by
  unfold execMainFrame
  try dsimp only
  repeat' first
    | with_reducible assumption
    | with_reducible exact Keeps.refl _
    | intro _
    | with_reducible apply Answers.mk
    | with_reducible apply State.mainFrame_keeps
    | split
    | with_reducible apply Keeps.upd

theorem execGuardValue_keeps (o : Fin 128) (words : List (BitVec 32)) : Answers s (execGuardValue o words s) := by
  unfold execGuardValue
  try dsimp only
  repeat' first
    | with_reducible assumption
    | with_reducible exact Keeps.refl _
    | intro _
    | with_reducible apply Answers.mk
    | with_reducible apply State.guardValue_keeps
    | split
    | with_reducible apply Keeps.upd

theorem execOutputDeadline_keeps (o : Fin 128) : Answers s (execOutputDeadline o s) := by
  unfold execOutputDeadline
  try dsimp only
  repeat' first
    | with_reducible assumption
    | with_reducible exact Keeps.refl _
    | intro _
    | with_reducible apply Answers.mk
    | with_reducible apply State.outputDeadline_keeps
    | split
    | with_reducible apply Keeps.upd

theorem execVerdictDelivery_keeps (o : Fin 128) : Answers s (execVerdictDelivery o s) := by
  unfold execVerdictDelivery
  try dsimp only
  repeat' first
    | with_reducible assumption
    | with_reducible exact Keeps.refl _
    | intro _
    | with_reducible apply Answers.mk
    | with_reducible apply State.deliver_keeps
    | split
    | with_reducible apply Keeps.upd

theorem execFallbackRestartTimeout_keeps  : Answers s (execFallbackRestartTimeout s) := by
  unfold execFallbackRestartTimeout
  try dsimp only
  repeat' first
    | with_reducible assumption
    | with_reducible exact Keeps.refl _
    | intro _
    | with_reducible apply Answers.mk
    | with_reducible apply State.restartTimeout_keeps
    | split
    | with_reducible apply Keeps.upd

theorem execTaskCheckpoint_keeps (t : Fin 32) : Answers s (execTaskCheckpoint t s) := by
  unfold execTaskCheckpoint
  try dsimp only
  repeat' first
    | with_reducible assumption
    | with_reducible exact Keeps.refl _
    | intro _
    | with_reducible apply Answers.mk
    | with_reducible apply State.taskCheck_keeps
    | split
    | with_reducible apply Keeps.upd

theorem execTaskGapTimeout_keeps (t : Fin 32) : Answers s (execTaskGapTimeout t s) := by
  unfold execTaskGapTimeout
  try dsimp only
  repeat' first
    | with_reducible assumption
    | with_reducible exact Keeps.refl _
    | intro _
    | with_reducible apply Answers.mk
    | with_reducible apply State.taskGap_keeps
    | split
    | with_reducible apply Keeps.upd

theorem execStoDiscrepancy_keeps (g : Fin 4) (a : Bool) (b : Bool) : Answers s (execStoDiscrepancy g a b s) := by
  unfold execStoDiscrepancy
  try dsimp only
  repeat' first
    | with_reducible assumption
    | with_reducible exact Keeps.refl _
    | intro _
    | with_reducible apply Answers.mk
    | with_reducible apply State.stoDiffer_keeps
    | split
    | with_reducible apply Keeps.upd

theorem execBSide_keeps (g : Fin 4) : Answers s (execBSide g s) := by
  unfold execBSide
  try dsimp only
  repeat' first
    | with_reducible assumption
    | with_reducible exact Keeps.refl _
    | intro _
    | with_reducible apply Answers.mk
    | with_reducible apply State.bSide_keeps
    | split
    | with_reducible apply Keeps.upd

theorem execSs1Complete_keeps (g : Fin 4) (standstill : Bool) : Answers s (execSs1Complete g standstill s) := by
  unfold execSs1Complete
  try dsimp only
  repeat' first
    | with_reducible assumption
    | with_reducible exact Keeps.refl _
    | intro _
    | with_reducible apply Answers.mk
    | with_reducible apply State.ss1Done_keeps
    | split
    | with_reducible apply Keeps.upd

theorem execEstopInputChange_keeps (chB : Bool) (closed : Bool) : Answers s (execEstopInputChange chB closed s) := by
  unfold execEstopInputChange
  try dsimp only
  repeat' first
    | with_reducible assumption
    | with_reducible exact Keeps.refl _
    | intro _
    | with_reducible apply Answers.mk
    | with_reducible apply State.estopChange_keeps
    | split
    | with_reducible apply Keeps.upd

theorem execEstopDiscrepancy_keeps  : Answers s (execEstopDiscrepancy s) := by
  unfold execEstopDiscrepancy
  try dsimp only
  repeat' first
    | with_reducible assumption
    | with_reducible exact Keeps.refl _
    | intro _
    | with_reducible apply Answers.mk
    | with_reducible apply State.estopDiffer_keeps
    | split
    | with_reducible apply Keeps.upd

theorem execTestPulse_keeps (out : Fin 4) (seen : BitVec 4) : Answers s (execTestPulse out seen s) := by
  unfold execTestPulse
  try dsimp only
  repeat' first
    | with_reducible assumption
    | with_reducible exact Keeps.refl _
    | intro _
    | with_reducible apply Answers.mk
    | with_reducible apply State.testPulse_keeps
    | split
    | with_reducible apply Keeps.upd

theorem execEnableInputChange_keeps (chB : Bool) (closed : Bool) : Answers s (execEnableInputChange chB closed s) := by
  unfold execEnableInputChange
  try dsimp only
  repeat' first
    | with_reducible assumption
    | with_reducible exact Keeps.refl _
    | intro _
    | with_reducible apply Answers.mk
    | with_reducible apply State.enableChange_keeps
    | split
    | with_reducible apply Keeps.upd

theorem execEnableDiscrepancy_keeps  : Answers s (execEnableDiscrepancy s) := by
  unfold execEnableDiscrepancy
  try dsimp only
  repeat' first
    | with_reducible assumption
    | with_reducible exact Keeps.refl _
    | intro _
    | with_reducible apply Answers.mk
    | with_reducible apply State.enableDiffer_keeps
    | split
    | with_reducible apply Keeps.upd

theorem execSportTimeout_keeps  : Answers s (execSportTimeout s) := by
  unfold execSportTimeout
  try dsimp only
  repeat' first
    | with_reducible assumption
    | with_reducible exact Keeps.refl _
    | intro _
    | with_reducible apply Answers.mk
    | with_reducible apply State.sportTimeout_keeps
    | split
    | with_reducible apply Keeps.upd

theorem execVinWindowTrip_keeps  : Answers s (execVinWindowTrip s) := by
  unfold execVinWindowTrip
  try dsimp only
  repeat' first
    | with_reducible assumption
    | with_reducible exact Keeps.refl _
    | intro _
    | with_reducible apply Answers.mk
    | with_reducible apply State.supplyTrip_keeps
    | split
    | with_reducible apply Keeps.upd

theorem execLemquevinFault_keeps  : Answers s (execLemquevinFault s) := by
  unfold execLemquevinFault
  try dsimp only
  repeat' first
    | with_reducible assumption
    | with_reducible exact Keeps.refl _
    | intro _
    | with_reducible apply Answers.mk
    | with_reducible apply State.lemquevinFault_keeps
    | split
    | with_reducible apply Keeps.upd

theorem execVlqLoss_keeps  : Answers s (execVlqLoss s) := by
  unfold execVlqLoss
  try dsimp only
  repeat' first
    | with_reducible assumption
    | with_reducible exact Keeps.refl _
    | intro _
    | with_reducible apply Answers.mk
    | with_reducible apply State.vlqLoss_keeps
    | split
    | with_reducible apply Keeps.upd

theorem execStoTestOverdue_keeps (g : Fin 4) : Answers s (execStoTestOverdue g s) := by
  unfold execStoTestOverdue
  try dsimp only
  repeat' first
    | with_reducible assumption
    | with_reducible exact Keeps.refl _
    | intro _
    | with_reducible apply Answers.mk
    | with_reducible apply State.stoTestOver_keeps
    | split
    | with_reducible apply Keeps.upd

theorem execAuditFragment_keeps (u : Fin 16) : Answers s (execAuditFragment u s) := by
  unfold execAuditFragment
  try dsimp only
  repeat' first
    | with_reducible assumption
    | with_reducible exact Keeps.refl _
    | intro _
    | with_reducible apply Answers.mk
    | with_reducible apply State.clocked_keeps
    | with_reducible apply State.fragment_keeps
    | split
    | with_reducible apply Keeps.upd

theorem execAuditStepComplete_keeps (u : Fin 16) (fails : List Nat) : Answers s (execAuditStepComplete u fails s) := by
  unfold execAuditStepComplete
  try dsimp only
  repeat' first
    | with_reducible assumption
    | with_reducible exact Keeps.refl _
    | intro _
    | with_reducible apply Answers.mk
    | with_reducible apply State.clocked_keeps
    | with_reducible apply State.stepDone_keeps
    | split
    | with_reducible apply Keeps.upd

theorem execAuditAgeExceeded_keeps (k : Nat) : Answers s (execAuditAgeExceeded k s) := by
  unfold execAuditAgeExceeded
  try dsimp only
  repeat' first
    | with_reducible assumption
    | with_reducible exact Keeps.refl _
    | intro _
    | with_reducible apply Answers.mk
    | with_reducible apply State.ageOver_keeps
    | split
    | with_reducible apply Keeps.upd

end Sys2Proof.Machine
end

