-- ==== Sys2Proof/Laws/KeepsSPort.lean ====
section
/-!
SUPPORT. What the operations and commands of Machine/SPort.lean keep (Laws/Keeps.lean).
-/

namespace Sys2Proof.Machine

open Sys2Proof State

variable {s₀ s : State}

theorem State.spStop_keeps (h : Keeps s₀ s) (p : List Byte) : Keeps s₀ (State.spStop s p).2 := by
  unfold State.spStop
  try dsimp only
  repeat' first
    | with_reducible assumption
    | intro _
    | with_reducible apply State.modJ_keeps
    | with_reducible apply State.recordCause_keeps
    | with_reducible apply State.ss1Begin_keeps
    | with_reducible apply State.stoNow_keeps
    | split
    | with_reducible apply Keeps.upd

theorem State.spStop_of (h : Keeps s₀ s) {p : List Byte} {x0 : List Byte} {t : State} (he : State.spStop s p = (x0, t)) : Keeps s₀ t := by
  have g := State.spStop_keeps h p
  rw [he] at g
  exact g

theorem State.spReset_keeps (h : Keeps s₀ s) (svc : Bool) (p : List Byte) : Keeps s₀ (State.spReset s svc p).2 := by
  unfold State.spReset
  try dsimp only
  repeat' first
    | with_reducible assumption
    | intro _
    | with_reducible apply State.lockout_keeps
    | with_reducible apply State.modJ_keeps
    | with_reducible apply State.release_keeps
    | split
    | with_reducible apply Keeps.upd

theorem State.spReset_of (h : Keeps s₀ s) {svc : Bool} {p : List Byte} {x0 : List Byte} {t : State} (he : State.spReset s svc p = (x0, t)) : Keeps s₀ t := by
  have g := State.spReset_keeps h svc p
  rw [he] at g
  exact g

theorem State.spMode_keeps (h : Keeps s₀ s) (p : List Byte) : Keeps s₀ (State.spMode s p).2 := by
  unfold State.spMode
  try dsimp only
  repeat' first
    | with_reducible assumption
    | intro _
    | with_reducible apply State.enableCause_keeps
    | with_reducible apply State.modJ_keeps
    | split
    | with_reducible apply Keeps.upd

theorem State.spMode_of (h : Keeps s₀ s) {p : List Byte} {x0 : List Byte} {t : State} (he : State.spMode s p = (x0, t)) : Keeps s₀ t := by
  have g := State.spMode_keeps h p
  rw [he] at g
  exact g

theorem State.spCfgWrite_keeps (h : Keeps s₀ s) (p : List Byte) : Keeps s₀ (State.spCfgWrite s p).2 := by
  unfold State.spCfgWrite
  try dsimp only
  repeat' first
    | with_reducible assumption
    | intro _
    | with_reducible apply State.modJ_keeps
    | with_reducible apply Keeps.foldl
    | with_reducible apply Keeps.foldl_fst
    | with_reducible apply Keeps.foldl_snd
    | split
    | with_reducible apply Keeps.upd

theorem State.spCfgWrite_of (h : Keeps s₀ s) {p : List Byte} {x0 : List Byte} {t : State} (he : State.spCfgWrite s p = (x0, t)) : Keeps s₀ t := by
  have g := State.spCfgWrite_keeps h p
  rw [he] at g
  exact g

theorem State.spCfgCommit_keeps (h : Keeps s₀ s) (p : List Byte) : Keeps s₀ (State.spCfgCommit s p).2 := by
  unfold State.spCfgCommit
  try dsimp only
  repeat' first
    | with_reducible assumption
    | intro _
    | with_reducible apply State.modJ_keeps
    | with_reducible apply State.settleSto_keeps
    | split
    | with_reducible apply Keeps.upd

theorem State.spCfgCommit_of (h : Keeps s₀ s) {p : List Byte} {x0 : List Byte} {t : State} (he : State.spCfgCommit s p = (x0, t)) : Keeps s₀ t := by
  have g := State.spCfgCommit_keeps h p
  rw [he] at g
  exact g

theorem State.spClear_keeps (h : Keeps s₀ s)  : Keeps s₀ (State.spClear s) := by
  unfold State.spClear
  try dsimp only
  repeat' first
    | with_reducible assumption
    | intro _
    | with_reducible apply State.copyDrop_keeps
    | with_reducible apply State.modJ_keeps
    | split
    | with_reducible apply Keeps.upd

theorem State.spCommand_keeps (h : Keeps s₀ s) (svc : Bool) (cmd : Nat) (p : List Byte) : Keeps s₀ (State.spCommand s svc cmd p).2 := by
  unfold State.spCommand
  try dsimp only
  repeat' first
    | with_reducible assumption
    | intro _
    | with_reducible apply State.spCfgCommit_keeps
    | with_reducible apply State.spCfgWrite_keeps
    | with_reducible apply State.spClear_keeps
    | with_reducible apply State.spMode_keeps
    | with_reducible apply State.spReset_keeps
    | with_reducible apply State.spStop_keeps
    | with_reducible refine State.spCfgCommit_of ?_ (by assumption)
    | with_reducible refine State.spCfgWrite_of ?_ (by assumption)
    | with_reducible refine State.spMode_of ?_ (by assumption)
    | with_reducible refine State.spReset_of ?_ (by assumption)
    | with_reducible refine State.spStop_of ?_ (by assumption)
    | split
    | with_reducible apply Keeps.upd

theorem State.spCommand_of (h : Keeps s₀ s) {svc : Bool} {cmd : Nat} {p : List Byte} {x0 : List Byte} {t : State} (he : State.spCommand s svc cmd p = (x0, t)) : Keeps s₀ t := by
  have g := State.spCommand_keeps h svc cmd p
  rw [he] at g
  exact g

theorem State.spTake_keeps (h : Keeps s₀ s) (svc : Bool) (seq : W16) (cmd : Nat) (p : List Byte) : Keeps s₀ (State.spTake s svc seq cmd p).2 := by
  unfold State.spTake
  try dsimp only
  repeat' first
    | with_reducible assumption
    | intro _
    | with_reducible apply State.endCause_keeps
    | with_reducible apply State.modJ_keeps
    | with_reducible apply State.spCommand_keeps
    | with_reducible refine State.spCommand_of ?_ (by assumption)
    | split
    | with_reducible apply Keeps.upd

theorem State.spTake_of (h : Keeps s₀ s) {svc : Bool} {seq : W16} {cmd : Nat} {p : List Byte} {x0 : List Byte} {t : State} (he : State.spTake s svc seq cmd p = (x0, t)) : Keeps s₀ t := by
  have g := State.spTake_keeps h svc seq cmd p
  rw [he] at g
  exact g

theorem State.spReceive_keeps (h : Keeps s₀ s) (svc : Bool) (b : List Byte) : Keeps s₀ (State.spReceive s svc b).2 := by
  unfold State.spReceive
  try dsimp only
  repeat' first
    | with_reducible assumption
    | intro _
    | with_reducible apply State.modJ_keeps
    | with_reducible apply State.spTake_keeps
    | with_reducible refine State.spTake_of ?_ (by assumption)
    | split
    | with_reducible apply Keeps.upd

theorem State.spReceive_of (h : Keeps s₀ s) {svc : Bool} {b : List Byte} {x0 : Option (List Byte)} {t : State} (he : State.spReceive s svc b = (x0, t)) : Keeps s₀ t := by
  have g := State.spReceive_keeps h svc b
  rw [he] at g
  exact g

theorem State.spTransact_keeps (h : Keeps s₀ s) (f : State → Option (List Byte) × State)
    (hf : ∀ y, Keeps s₀ y → Keeps s₀ (f y).2) : Keeps s₀ (State.spTransact s f) := by
  unfold State.spTransact
  dsimp only
  repeat' first
    | with_reducible assumption
    | with_reducible apply State.deny_keeps
    | with_reducible apply State.emit_keeps
    | with_reducible apply State.modJ_keeps
    | with_reducible apply hf
    | split

theorem State.spRun_keeps (h : Keeps s₀ s) (svc : Bool) (cmd : Nat) (p : List Byte) : Keeps s₀ (State.spRun s svc cmd p) := by
  unfold State.spRun
  try dsimp only
  repeat' first
    | with_reducible assumption
    | intro _
    | with_reducible apply State.answer_keeps
    | with_reducible apply State.deny_keeps
    | with_reducible apply State.spTake_keeps
    | with_reducible apply State.spTransact_keeps
    | with_reducible refine State.spTake_of ?_ (by assumption)
    | split
    | with_reducible apply Keeps.upd

/-! ### Commands: each answers a next state -/

theorem execSportFrame_keeps (b : List Byte) : Answers s (execSportFrame b s) := by
  unfold execSportFrame
  try dsimp only
  repeat' first
    | with_reducible assumption
    | with_reducible exact Keeps.refl _
    | intro _
    | with_reducible apply Answers.mk
    | with_reducible apply State.spReceive_keeps
    | with_reducible apply State.spTransact_keeps
    | with_reducible refine State.spReceive_of ?_ (by assumption)
    | split
    | with_reducible apply Keeps.upd

theorem execSportNop_keeps (svc : Bool) : Answers s (execSportNop svc s) := by
  unfold execSportNop
  try dsimp only
  repeat' first
    | with_reducible assumption
    | with_reducible exact Keeps.refl _
    | intro _
    | with_reducible apply Answers.mk
    | with_reducible apply State.spRun_keeps
    | split
    | with_reducible apply Keeps.upd

theorem execStatus_keeps (svc : Bool) (page : Byte) : Answers s (execStatus svc page s) := by
  unfold execStatus
  try dsimp only
  repeat' first
    | with_reducible assumption
    | with_reducible exact Keeps.refl _
    | intro _
    | with_reducible apply Answers.mk
    | with_reducible apply State.spRun_keeps
    | split
    | with_reducible apply Keeps.upd

theorem execStop_keeps (svc : Bool) (mask : Byte) (kind : Byte) : Answers s (execStop svc mask kind s) := by
  unfold execStop
  try dsimp only
  repeat' first
    | with_reducible assumption
    | with_reducible exact Keeps.refl _
    | intro _
    | with_reducible apply Answers.mk
    | with_reducible apply State.spRun_keeps
    | split
    | with_reducible apply Keeps.upd

theorem execReset_keeps (svc : Bool) (mask : Byte) : Answers s (execReset svc mask s) := by
  unfold execReset
  try dsimp only
  repeat' first
    | with_reducible assumption
    | with_reducible exact Keeps.refl _
    | intro _
    | with_reducible apply Answers.mk
    | with_reducible apply State.spRun_keeps
    | split
    | with_reducible apply Keeps.upd

theorem execMode_keeps (svc : Bool) (v : Byte) : Answers s (execMode svc v s) := by
  unfold execMode
  try dsimp only
  repeat' first
    | with_reducible assumption
    | with_reducible exact Keeps.refl _
    | intro _
    | with_reducible apply Answers.mk
    | with_reducible apply State.spRun_keeps
    | split
    | with_reducible apply Keeps.upd

theorem execCfgWrite_keeps (svc : Bool) (off : W32) (data : List Byte) : Answers s (execCfgWrite svc off data s) := by
  unfold execCfgWrite
  try dsimp only
  repeat' first
    | with_reducible assumption
    | with_reducible exact Keeps.refl _
    | intro _
    | with_reducible apply Answers.mk
    | with_reducible apply State.spRun_keeps
    | split
    | with_reducible apply Keeps.upd

theorem execCfgCommit_keeps (svc : Bool) (crc : W32) : Answers s (execCfgCommit svc crc s) := by
  unfold execCfgCommit
  try dsimp only
  repeat' first
    | with_reducible assumption
    | with_reducible exact Keeps.refl _
    | intro _
    | with_reducible apply Answers.mk
    | with_reducible apply State.spRun_keeps
    | split
    | with_reducible apply Keeps.upd

theorem execClearCounts_keeps (svc : Bool) : Answers s (execClearCounts svc s) := by
  unfold execClearCounts
  try dsimp only
  repeat' first
    | with_reducible assumption
    | with_reducible exact Keeps.refl _
    | intro _
    | with_reducible apply Answers.mk
    | with_reducible apply State.spRun_keeps
    | split
    | with_reducible apply Keeps.upd

end Sys2Proof.Machine
end

