-- ==== Sys2Proof/Laws/KeepsBoot.lean ====
section
/-!
SUPPORT. What the operations and commands of Machine/Boot.lean keep (Laws/Keeps.lean).
-/

namespace Sys2Proof.Machine

open Sys2Proof State

variable {s₀ s : State}

theorem State.linkDegraded_keeps (h : Keeps s₀ s) (lanes : Nat) (inst : Nat) (cls : Nat) : Keeps s₀ (State.linkDegraded s lanes inst cls) := by
  unfold State.linkDegraded
  try dsimp only
  repeat' first
    | with_reducible assumption
    | intro _
    | with_reducible apply State.incident_keeps
    | split
    | with_reducible apply Keeps.upd

theorem State.guardBoot_keeps (h : Keeps s₀ s)  : Keeps s₀ (State.guardBoot s) := by
  unfold State.guardBoot
  try dsimp only
  repeat' first
    | with_reducible assumption
    | intro _
    | with_reducible apply State.judgeBoot_keeps
    | split
    | with_reducible apply Keeps.upd

theorem State.rails_keeps (h : Keeps s₀ s) (svc : Bool) (ep : Bool) : Keeps s₀ (State.rails s svc ep) := by
  unfold State.rails
  try dsimp only
  repeat' first
    | with_reducible assumption
    | intro _
    | with_reducible apply State.setFld_keeps
    | split
    | with_reducible apply Keeps.upd

theorem State.applyMint_keeps (h : Keeps s₀ s) (copy1 : Bool) : Keeps s₀ (State.applyMint s copy1) := by
  unfold State.applyMint
  try dsimp only
  repeat' first
    | with_reducible assumption
    | intro _
    | with_reducible apply State.note_keeps
    | with_reducible apply State.setFld_keeps
    | with_reducible apply State.setReg_keeps
    | split
    | with_reducible apply Keeps.upd

theorem State.mintStage_keeps (h : Keeps s₀ s)  : Keeps s₀ (State.mintStage s) := by
  unfold State.mintStage
  try dsimp only
  repeat' first
    | with_reducible assumption
    | intro _
    | with_reducible apply State.applyMint_keeps
    | with_reducible apply State.failStart_keeps
    | with_reducible apply State.islandRelease_keeps
    | with_reducible apply State.setFld_keeps
    | with_reducible apply State.showSaved_keeps
    | with_reducible apply Keeps.foldl
    | with_reducible apply Keeps.foldl_fst
    | with_reducible apply Keeps.foldl_snd
    | split
    | with_reducible apply Keeps.upd

theorem State.unitFails_keeps (h : Keeps s₀ s) (fails : Bool) (unit : Nat) (kind : Nat) : Keeps s₀ (State.unitFails s fails unit kind) := by
  unfold State.unitFails
  try dsimp only
  repeat' first
    | with_reducible assumption
    | intro _
    | with_reducible apply State.incident_keeps
    | split
    | with_reducible apply Keeps.upd

theorem State.selfTest_keeps (h : Keeps s₀ s) (t : SelfTest) : Keeps s₀ (State.selfTest s t) := by
  unfold State.selfTest
  try dsimp only
  repeat' first
    | with_reducible assumption
    | intro _
    | with_reducible apply State.failStart_keeps
    | with_reducible apply State.unitFails_keeps
    | split
    | with_reducible apply Keeps.upd

theorem State.dropChannels_keeps (h : Keeps s₀ s) (mask : Nat) : Keeps s₀ (State.dropChannels s mask) := by
  unfold State.dropChannels
  try dsimp only
  repeat' first
    | with_reducible assumption
    | intro _
    | with_reducible apply State.failStart_keeps
    | with_reducible apply State.linkDegraded_keeps
    | with_reducible apply Keeps.foldl
    | with_reducible apply Keeps.foldl_fst
    | with_reducible apply Keeps.foldl_snd
    | split
    | with_reducible apply Keeps.upd

theorem State.dramTrain_keeps (h : Keeps s₀ s) (failed : Nat) (full : Nat) : Keeps s₀ (State.dramTrain s failed full) := by
  unfold State.dramTrain
  try dsimp only
  repeat' first
    | with_reducible assumption
    | intro _
    | with_reducible apply State.dropChannels_keeps
    | with_reducible apply State.setFld_keeps
    | split
    | with_reducible apply Keeps.upd

theorem State.dramWords_keeps (h : Keeps s₀ s) (failed : Nat) (sbe : List (Fin 16 × W32)) : Keeps s₀ (State.dramWords s failed sbe) := by
  unfold State.dramWords
  try dsimp only
  repeat' first
    | with_reducible assumption
    | intro _
    | with_reducible apply State.bumpFree_keeps
    | with_reducible apply State.dropChannels_keeps
    | with_reducible apply State.loseDram_keeps
    | with_reducible apply State.note_keeps
    | with_reducible apply Keeps.foldl
    | with_reducible apply Keeps.foldl_fst
    | with_reducible apply Keeps.foldl_snd
    | split
    | with_reducible apply Keeps.upd

theorem State.dramTest_keeps (h : Keeps s₀ s) (failed : Nat) (sbe : List (Fin 16 × W32)) : Keeps s₀ (State.dramTest s failed sbe) := by
  unfold State.dramTest
  try dsimp only
  repeat' first
    | with_reducible assumption
    | intro _
    | with_reducible apply State.dramWords_keeps
    | with_reducible apply State.setFld_keeps
    | split
    | with_reducible apply Keeps.upd

theorem State.retention_keeps (h : Keeps s₀ s) (failed : Nat) (sbe : List (Fin 16 × W32)) (bad : List (Nat × Bool)) : Keeps s₀ (State.retention s failed sbe bad) := by
  unfold State.retention
  try dsimp only
  repeat' first
    | with_reducible assumption
    | intro _
    | with_reducible apply State.dramWords_keeps
    | with_reducible apply State.setFld_keeps
    | split
    | with_reducible apply Keeps.upd

theorem State.nandTrain_keeps (h : Keeps s₀ s) (ch : Nat) (rate : NandRate) : Keeps s₀ (State.nandTrain s ch rate) := by
  unfold State.nandTrain
  try dsimp only
  repeat' first
    | with_reducible assumption
    | intro _
    | with_reducible apply State.bumpFree_keeps
    | with_reducible apply State.linkDegraded_keeps
    | with_reducible apply State.note_keeps
    | with_reducible apply State.setFld_keeps
    | split
    | with_reducible apply Keeps.upd

theorem State.reconcileOne_keeps (h : Keeps s₀ s) (kind : Nat) (z0 : List W16) (idx : Nat) : Keeps s₀ (State.reconcileOne kind (s, z0) idx).1 := by
  unfold State.reconcileOne
  try dsimp only
  repeat' first
    | with_reducible assumption
    | intro _
    | with_reducible apply State.incident_keeps
    | with_reducible apply State.note_keeps
    | split
    | with_reducible apply Keeps.upd

theorem State.reconcileOne_of (h : Keeps s₀ s) {kind : Nat} {z0 : List W16} {idx : Nat} {x1 : List W16} {t : State} (he : State.reconcileOne kind (s, z0) idx = (t, x1)) : Keeps s₀ t := by
  have g := State.reconcileOne_keeps h kind z0 idx
  rw [he] at g
  exact g

theorem State.bindUnits_keeps (h : Keeps s₀ s)  : Keeps s₀ (State.bindUnits s) := by
  unfold State.bindUnits
  try dsimp only
  repeat' first
    | with_reducible assumption
    | intro _
    | with_reducible apply State.setFld_keeps
    | split
    | with_reducible apply Keeps.upd

theorem State.placeRegions_keeps (h : Keeps s₀ s) (rsv : Nat) (esc : Nat) (pool : Nat) : Keeps s₀ (State.placeRegions s rsv esc pool) := by
  unfold State.placeRegions
  try dsimp only
  repeat' first
    | with_reducible assumption
    | intro _
    | with_reducible apply State.setFld_keeps
    | split
    | with_reducible apply Keeps.upd

theorem State.settleSaved_keeps (h : Keeps s₀ s) (learned : List W16) : Keeps s₀ (State.settleSaved s learned) := by
  unfold State.settleSaved
  try dsimp only
  repeat' first
    | with_reducible assumption
    | intro _
    | with_reducible apply State.putSaved_keeps
    | with_reducible apply State.trained_keeps
    | split
    | with_reducible apply Keeps.upd

theorem State.reconcileFold_keeps (k : Nat) (l : List Nat) (t : State) (b : List W16) (h : Keeps s₀ t) :
    Keeps s₀ (l.foldl (State.reconcileOne k) (t, b)).1 :=
  Keeps.foldl_fst h fun _ b x ht => State.reconcileOne_keeps ht k b x

theorem State.reconcileAll_keeps (h : Keeps s₀ s) : Keeps s₀ (State.reconcileAll s).1 := by
  unfold State.reconcileAll
  generalize List.range 8 = l
  generalize List.range 2112 = m
  have g := State.reconcileFold_keeps 0 m s s.boot.learned0 h
  generalize m.foldl (State.reconcileOne 0) (s, s.boot.learned0) = p at g
  obtain ⟨t, b⟩ := p
  exact State.reconcileFold_keeps 1 l t b g

theorem State.settle_keeps (h : Keeps s₀ s) (rt : Option Nat) : Keeps s₀ (State.settle s rt) := by
  unfold State.settle
  try dsimp only
  repeat' first
    | with_reducible assumption
    | intro _
    | with_reducible apply State.bindUnits_keeps
    | with_reducible apply State.failStart_keeps
    | with_reducible apply State.placeRegions_keeps
    | with_reducible apply State.reconcileAll_keeps
    | with_reducible apply State.setFld_keeps
    | with_reducible apply State.setReg_keeps
    | with_reducible apply State.settleSaved_keeps
    | with_reducible refine State.reconcileAll_of ?_ (by assumption)
    | split
    | with_reducible apply Keeps.upd

theorem State.rewriteBad_keeps (h : Keeps s₀ s)  : Keeps s₀ (State.rewriteBad s) := by
  unfold State.rewriteBad
  try dsimp only
  repeat' first
    | with_reducible assumption
    | intro _
    | with_reducible apply State.rewritten_keeps
    | with_reducible apply Keeps.foldl
    | with_reducible apply Keeps.foldl_fst
    | with_reducible apply Keeps.foldl_snd
    | split
    | with_reducible apply Keeps.upd

theorem State.readyStage_keeps (h : Keeps s₀ s) (save : W32) (ctl : W32) : Keeps s₀ (State.readyStage s save ctl) := by
  unfold State.readyStage
  try dsimp only
  repeat' first
    | with_reducible assumption
    | intro _
    | with_reducible apply State.enableWork_keeps
    | with_reducible apply State.fallbackLeave_keeps
    | with_reducible apply State.note_keeps
    | with_reducible apply State.rewriteBad_keeps
    | with_reducible apply State.setFld_keeps
    | split
    | with_reducible apply Keeps.upd

theorem State.swjPgFall_keeps (h : Keeps s₀ s)  : Keeps s₀ (State.swjPgFall s) := by
  unfold State.swjPgFall
  try dsimp only
  repeat' first
    | with_reducible assumption
    | intro _
    | with_reducible apply State.supplyTrip_keeps
    | split
    | with_reducible apply Keeps.upd

theorem State.imageRecovery_keeps (h : Keeps s₀ s) (partner : Bool) (ver : W32) (data : List Byte) : Keeps s₀ (State.imageRecovery s partner ver data) := by
  unfold State.imageRecovery
  try dsimp only
  repeat' first
    | with_reducible assumption
    | intro _
    | with_reducible apply State.emit_keeps
    | with_reducible apply State.swjPor_keeps
    | split
    | with_reducible apply Keeps.upd

theorem State.alwaysOn_keeps (h : Keeps s₀ s) : Keeps s₀ s.alwaysOn :=
  have g := State.loseDram_keeps (State.loseVault_keeps h)
  ⟨g.pending, g.out, Nat.le_succ_of_le g.free, g.stamp, fun c =>
    let d := g.canon c
    ⟨d.mem, rfl, rfl, d.lostPages⟩⟩

theorem State.mintCommand_keeps (h : Keeps s₀ s) (op : Nat) : Keeps s₀ (State.mintCommand s op) := by
  unfold State.mintCommand
  try dsimp only
  repeat' first
    | with_reducible assumption
    | intro _
    | with_reducible apply State.setFld_keeps
    | split
    | with_reducible apply Keeps.upd

theorem State.mintWrite_keeps (h : Keeps s₀ s) (r : Nat) (op : Nat) : Keeps s₀ (State.mintWrite s r op) := by
  unfold State.mintWrite
  try dsimp only
  repeat' first
    | with_reducible assumption
    | intro _
    | with_reducible apply State.mintCommand_keeps
    | with_reducible apply State.permit_keeps
    | split
    | with_reducible apply Keeps.upd

theorem State.loseOldCopy_keeps (h : Keeps s₀ s)  : Keeps s₀ (State.loseOldCopy s) := by
  unfold State.loseOldCopy
  try dsimp only
  repeat' first
    | with_reducible assumption
    | intro _
    | split
    | with_reducible apply Keeps.upd

theorem State.fuse_keeps (h : Keeps s₀ s) (l : List W16) : Keeps s₀ (State.fuse s l) := by
  unfold State.fuse
  try dsimp only
  repeat' first
    | with_reducible assumption
    | intro _
    | with_reducible apply State.setFld_keeps
    | split
    | with_reducible apply Keeps.upd

theorem State.mintDone_keeps (h : Keeps s₀ s) (fail : Bool) : Keeps s₀ (State.mintDone s fail) := by
  unfold State.mintDone
  try dsimp only
  repeat' first
    | with_reducible assumption
    | intro _
    | with_reducible apply State.bumpFree_keeps
    | with_reducible apply State.fuse_keeps
    | with_reducible apply State.loseOldCopy_keeps
    | with_reducible apply State.putSaved_keeps
    | with_reducible apply State.setFld_keeps
    | with_reducible apply State.showSaved_keeps
    | split
    | with_reducible apply Keeps.upd

/-! ### Commands: each answers a next state -/

theorem execGuardBoot_keeps  : Answers s (execGuardBoot s) := by
  unfold execGuardBoot
  try dsimp only
  repeat' first
    | with_reducible assumption
    | with_reducible exact Keeps.refl _
    | intro _
    | with_reducible apply Answers.mk
    | with_reducible apply State.guardBoot_keeps
    | split
    | with_reducible apply Keeps.upd

theorem execRails_keeps (svc : Bool) (ep : Bool) : Answers s (execRails svc ep s) := by
  unfold execRails
  try dsimp only
  repeat' first
    | with_reducible assumption
    | with_reducible exact Keeps.refl _
    | intro _
    | with_reducible apply Answers.mk
    | with_reducible apply State.rails_keeps
    | split
    | with_reducible apply Keeps.upd

theorem execMint_keeps  : Answers s (execMint s) := by
  unfold execMint
  try dsimp only
  repeat' first
    | with_reducible assumption
    | with_reducible exact Keeps.refl _
    | intro _
    | with_reducible apply Answers.mk
    | with_reducible apply State.mintStage_keeps
    | split
    | with_reducible apply Keeps.upd

theorem execSelfTest_keeps (t : SelfTest) : Answers s (execSelfTest t s) := by
  unfold execSelfTest
  try dsimp only
  repeat' first
    | with_reducible assumption
    | with_reducible exact Keeps.refl _
    | intro _
    | with_reducible apply Answers.mk
    | with_reducible apply State.selfTest_keeps
    | split
    | with_reducible apply Keeps.upd

theorem execDramTrain_keeps (failed : W16) (full : W16) : Answers s (execDramTrain failed full s) := by
  unfold execDramTrain
  try dsimp only
  repeat' first
    | with_reducible assumption
    | with_reducible exact Keeps.refl _
    | intro _
    | with_reducible apply Answers.mk
    | with_reducible apply State.dramTrain_keeps
    | split
    | with_reducible apply Keeps.upd

theorem execDramTest_keeps (failed : W16) (sbe : List (Fin 16 × W32)) : Answers s (execDramTest failed sbe s) := by
  unfold execDramTest
  try dsimp only
  repeat' first
    | with_reducible assumption
    | with_reducible exact Keeps.refl _
    | intro _
    | with_reducible apply Answers.mk
    | with_reducible apply State.dramTest_keeps
    | split
    | with_reducible apply Keeps.upd

theorem execRetention_keeps (failed : W16) (sbe : List (Fin 16 × W32)) (bad : List (BitVec 28 × Bool)) : Answers s (execRetention failed sbe bad s) := by
  unfold execRetention
  try dsimp only
  repeat' first
    | with_reducible assumption
    | with_reducible exact Keeps.refl _
    | intro _
    | with_reducible apply Answers.mk
    | with_reducible apply State.retention_keeps
    | split
    | with_reducible apply Keeps.upd

theorem execSettle_keeps (rt : Option (Fin 4)) : Answers s (execSettle rt s) := by
  unfold execSettle
  try dsimp only
  repeat' first
    | with_reducible assumption
    | with_reducible exact Keeps.refl _
    | intro _
    | with_reducible apply Answers.mk
    | with_reducible apply State.settle_keeps
    | split
    | with_reducible apply Keeps.upd

theorem execReady_keeps (save : W32) (ctl : W32) : Answers s (execReady save ctl s) := by
  unfold execReady
  try dsimp only
  repeat' first
    | with_reducible assumption
    | with_reducible exact Keeps.refl _
    | intro _
    | with_reducible apply Answers.mk
    | with_reducible apply State.readyStage_keeps
    | split
    | with_reducible apply Keeps.upd

theorem execRestartReady_keeps (shadowBad : Option W16) (save : W32) (ctl : W32) : Answers s (execRestartReady shadowBad save ctl s) := by
  unfold execRestartReady
  try dsimp only
  repeat' first
    | with_reducible assumption
    | with_reducible exact Keeps.refl _
    | intro _
    | with_reducible apply Answers.mk
    | with_reducible apply State.fallbackLeave_keeps
    | with_reducible apply State.restartReady_keeps
    | split
    | with_reducible apply Keeps.upd

theorem execNandTrain_keeps (ch : Fin 16) (rate : NandRate) : Answers s (execNandTrain ch rate s) := by
  unfold execNandTrain
  try dsimp only
  repeat' first
    | with_reducible assumption
    | with_reducible exact Keeps.refl _
    | intro _
    | with_reducible apply Answers.mk
    | with_reducible apply State.nandTrain_keeps
    | split
    | with_reducible apply Keeps.upd

theorem execSwjPgFall_keeps  : Answers s (execSwjPgFall s) := by
  unfold execSwjPgFall
  try dsimp only
  repeat' first
    | with_reducible assumption
    | with_reducible exact Keeps.refl _
    | intro _
    | with_reducible apply Answers.mk
    | with_reducible apply State.swjPgFall_keeps
    | split
    | with_reducible apply Keeps.upd

theorem execImageRecovery_keeps (partner : Bool) (ver : W32) (data : List Byte) : Answers s (execImageRecovery partner ver data s) := by
  unfold execImageRecovery
  try dsimp only
  repeat' first
    | with_reducible assumption
    | with_reducible exact Keeps.refl _
    | intro _
    | with_reducible apply Answers.mk
    | with_reducible apply State.imageRecovery_keeps
    | split
    | with_reducible apply Keeps.upd

theorem execAlwaysOnPowerOn_keeps  : Answers s (execAlwaysOnPowerOn s) := by
  unfold execAlwaysOnPowerOn
  try dsimp only
  repeat' first
    | with_reducible assumption
    | with_reducible exact Keeps.refl _
    | intro _
    | with_reducible apply Answers.mk
    | with_reducible apply State.alwaysOn_keeps
    | split
    | with_reducible apply Keeps.upd

theorem execSetColdNext_keeps (r : Requester) : Answers s (execSetColdNext r s) := by
  unfold execSetColdNext
  try dsimp only
  repeat' first
    | with_reducible assumption
    | with_reducible exact Keeps.refl _
    | intro _
    | with_reducible apply Answers.mk
    | with_reducible apply State.mintWrite_keeps
    | split
    | with_reducible apply Keeps.upd

theorem execClearLearned_keeps (r : Requester) : Answers s (execClearLearned r s) := by
  unfold execClearLearned
  try dsimp only
  repeat' first
    | with_reducible assumption
    | with_reducible exact Keeps.refl _
    | intro _
    | with_reducible apply Answers.mk
    | with_reducible apply State.mintWrite_keeps
    | split
    | with_reducible apply Keeps.upd

theorem execFuseLearned_keeps (r : Requester) : Answers s (execFuseLearned r s) := by
  unfold execFuseLearned
  try dsimp only
  repeat' first
    | with_reducible assumption
    | with_reducible exact Keeps.refl _
    | intro _
    | with_reducible apply Answers.mk
    | with_reducible apply State.mintWrite_keeps
    | split
    | with_reducible apply Keeps.upd

theorem execMintCommandComplete_keeps (fail : Bool) : Answers s (execMintCommandComplete fail s) := by
  unfold execMintCommandComplete
  try dsimp only
  repeat' first
    | with_reducible assumption
    | with_reducible exact Keeps.refl _
    | intro _
    | with_reducible apply Answers.mk
    | with_reducible apply State.mintDone_keeps
    | split
    | with_reducible apply Keeps.upd

end Sys2Proof.Machine
end

