-- ==== Sys2Proof/Laws/KeepsRelay.lean ====
section
/-!
SUPPORT. What the operations and commands of Machine/Relay.lean keep (Laws/Keeps.lean).
-/

namespace Sys2Proof.Machine

open Sys2Proof State

variable {s₀ s : State}

theorem State.sendImage_keeps (h : Keeps s₀ s) (c : Nat) : Keeps s₀ (State.sendImage s c) := by
  unfold State.sendImage
  try dsimp only
  repeat' first
    | with_reducible assumption
    | intro _
    | with_reducible apply State.checkpoint_keeps
    | with_reducible apply State.mirrorOut_keeps
    | split
    | with_reducible apply Keeps.upd

theorem State.syncCopy_keeps (h : Keeps s₀ s)  : Keeps s₀ (State.syncCopy s) := by
  unfold State.syncCopy
  try dsimp only
  repeat' first
    | with_reducible assumption
    | intro _
    | with_reducible apply State.mirrorOut_keeps
    | with_reducible apply State.sendImage_keeps
    | with_reducible apply State.sendTracks_keeps
    | with_reducible apply Keeps.foldl
    | with_reducible apply Keeps.foldl_fst
    | with_reducible apply Keeps.foldl_snd
    | split
    | with_reducible apply Keeps.upd

theorem State.pairForm_keeps (h : Keeps s₀ s) (ready : Bool) (serial : W64) (pref : Bool) (duty : Bool) : Keeps s₀ (State.pairForm s ready serial pref duty) := by
  unfold State.pairForm
  try dsimp only
  repeat' first
    | with_reducible assumption
    | intro _
    | with_reducible apply State.becomeStandby_keeps
    | with_reducible apply State.setFld_keeps
    | with_reducible apply State.setReg_keeps
    | with_reducible apply State.syncCopy_keeps
    | split
    | with_reducible apply Keeps.upd

theorem State.pairSynced_keeps (h : Keeps s₀ s)  : Keeps s₀ (State.pairSynced s) := by
  unfold State.pairSynced
  try dsimp only
  repeat' first
    | with_reducible assumption
    | intro _
    | with_reducible apply State.pairCheck_keeps
    | with_reducible apply State.setFld_keeps
    | split
    | with_reducible apply Keeps.upd

theorem State.steer_keeps (h : Keeps s₀ s) (n : Nat) (v : W64) : Keeps s₀ (State.steer s n v) := by
  unfold State.steer
  try dsimp only
  repeat' first
    | with_reducible assumption
    | intro _
    | with_reducible apply State.bumpFree_keeps
    | with_reducible apply State.laneStepNow_keeps
    | with_reducible apply State.setFld_keeps
    | split
    | with_reducible apply Keeps.upd

theorem State.dutyInLow_keeps (h : Keeps s₀ s)  : Keeps s₀ (State.dutyInLow s) := by
  unfold State.dutyInLow
  try dsimp only
  repeat' first
    | with_reducible assumption
    | intro _
    | with_reducible apply State.setFld_keeps
    | split
    | with_reducible apply Keeps.upd

theorem State.hbTake_keeps (h : Keeps s₀ s) (alt : Bool) (h : Heartbeat) : Keeps s₀ (State.hbTake s alt h) := by
  unfold State.hbTake
  try dsimp only
  repeat' first
    | with_reducible assumption
    | intro _
    | with_reducible apply State.dutyInLow_keeps
    | with_reducible apply State.setFld_keeps
    | with_reducible apply State.steer_keeps
    | with_reducible apply Keeps.foldl
    | with_reducible apply Keeps.foldl_fst
    | with_reducible apply Keeps.foldl_snd
    | split
    | with_reducible apply Keeps.upd

theorem State.heartbeat_keeps (h : Keeps s₀ s) (alt : Bool) (rx : Option Heartbeat) : Keeps s₀ (State.heartbeat s alt rx) := by
  unfold State.heartbeat
  try dsimp only
  repeat' first
    | with_reducible assumption
    | intro _
    | with_reducible apply State.emit_keeps
    | with_reducible apply State.hbTake_keeps
    | split
    | with_reducible apply Keeps.upd

theorem State.heartbeatLoss_keeps (h : Keeps s₀ s) (alt : Bool) : Keeps s₀ (State.heartbeatLoss s alt) := by
  unfold State.heartbeatLoss
  try dsimp only
  repeat' first
    | with_reducible assumption
    | intro _
    | with_reducible apply State.linkDegraded_keeps
    | with_reducible apply State.setFld_keeps
    | split
    | with_reducible apply Keeps.upd

theorem State.applyImage_keeps (h : Keeps s₀ s) (c : Nat) (img : CtxImage) : Keeps s₀ (State.applyImage s c img) := by
  unfold State.applyImage
  try dsimp only
  repeat' first
    | with_reducible assumption
    | intro _
    | with_reducible apply State.modCtx_keeps
    | with_reducible apply State.setFld_keeps
    | with_reducible apply Keeps.foldl
    | with_reducible apply Keeps.foldl_fst
    | with_reducible apply Keeps.foldl_snd
    | with_reducible apply Keeps.updRegs
    | split
    | with_reducible apply Keeps.upd

theorem State.applyRecord_keeps (h : Keeps s₀ s) (r : MirrorRec) : Keeps s₀ (State.applyRecord s r) := by
  unfold State.applyRecord
  try dsimp only
  repeat' first
    | with_reducible assumption
    | intro _
    | with_reducible apply State.agentWrite_keeps
    | with_reducible apply State.applyImage_keeps
    | with_reducible apply State.consume_keeps
    | with_reducible apply State.rise_keeps
    | with_reducible apply Keeps.foldl
    | with_reducible apply Keeps.foldl_fst
    | with_reducible apply Keeps.foldl_snd
    | split
    | with_reducible apply Keeps.upd

theorem State.tryHandover_keeps (h : Keeps s₀ s)  : Keeps s₀ (State.tryHandover s) := by
  unfold State.tryHandover
  try dsimp only
  repeat' first
    | with_reducible assumption
    | intro _
    | with_reducible apply State.yieldDuty_keeps
    | split
    | with_reducible apply Keeps.upd

theorem State.checkpoint_keeps (h : Keeps s₀ s) (c : Nat) : Keeps s₀ (State.checkpoint s c) := by
  unfold State.checkpoint
  try dsimp only
  repeat' first
    | with_reducible assumption
    | intro _
    | with_reducible apply State.sendImage_keeps
    | with_reducible apply State.tryHandover_keeps
    | split
    | with_reducible apply Keeps.upd

theorem State.takeover_keeps (h : Keeps s₀ s) (yielded : Bool) : Keeps s₀ (State.takeover s yielded) := by
  unfold State.takeover
  try dsimp only
  repeat' first
    | with_reducible assumption
    | intro _
    | with_reducible apply State.bump_keeps
    | with_reducible apply State.modCtx_keeps
    | with_reducible apply State.modJ_keeps
    | with_reducible apply State.setFld_keeps
    | with_reducible apply State.setForce_keeps
    | with_reducible apply State.syncCopy_keeps
    | with_reducible apply State.unjoin_keeps
    | with_reducible refine State.admitCtx_of ?_ (by assumption)
    | with_reducible apply State.admitCtx_getD
    | with_reducible apply Keeps.foldl
    | with_reducible apply Keeps.foldl_fst
    | with_reducible apply Keeps.foldl_snd
    | split
    | with_reducible apply Keeps.upd

theorem State.handoverCmd_keeps (h : Keeps s₀ s)  : Keeps s₀ (State.handoverCmd s) := by
  unfold State.handoverCmd
  try dsimp only
  repeat' first
    | with_reducible assumption
    | intro _
    | with_reducible apply State.setFld_keeps
    | with_reducible apply State.tryHandover_keeps
    | split
    | with_reducible apply Keeps.upd

theorem State.takeCmd_keeps (h : Keeps s₀ s) (r : Nat) : Keeps s₀ (State.takeCmd s r) := by
  unfold State.takeCmd
  try dsimp only
  repeat' first
    | with_reducible assumption
    | intro _
    | with_reducible apply State.setFld_keeps
    | split
    | with_reducible apply Keeps.upd

theorem State.leaveCmd_keeps (h : Keeps s₀ s)  : Keeps s₀ (State.leaveCmd s) := by
  unfold State.leaveCmd
  try dsimp only
  repeat' first
    | with_reducible assumption
    | intro _
    | with_reducible apply State.setFld_keeps
    | split
    | with_reducible apply Keeps.upd

theorem State.sendHeld_keeps (h : Keeps s₀ s) (l : Nat) : Keeps s₀ (State.sendHeld s l) := by
  unfold State.sendHeld
  try dsimp only
  repeat' first
    | with_reducible assumption
    | intro _
    | with_reducible apply State.emit_keeps
    | with_reducible apply Keeps.foldl
    | with_reducible apply Keeps.foldl_fst
    | with_reducible apply Keeps.foldl_snd
    | split
    | with_reducible apply Keeps.upd

theorem State.trained_keeps (h : Keeps s₀ s) (l : Nat) (mask : Nat) (reach : Nat) : Keeps s₀ (State.trained s l mask reach) := by
  unfold State.trained
  try dsimp only
  repeat' first
    | with_reducible assumption
    | intro _
    | with_reducible apply State.linkDegraded_keeps
    | with_reducible apply State.sendHeld_keeps
    | with_reducible apply State.setFld_keeps
    | with_reducible apply Keeps.foldl
    | with_reducible apply Keeps.foldl_fst
    | with_reducible apply Keeps.foldl_snd
    | split
    | with_reducible apply Keeps.upd

theorem State.linkTrain_keeps (h : Keeps s₀ s) (l : Nat) (mask : Nat) (reach : Nat) : Keeps s₀ (State.linkTrain s l mask reach) := by
  unfold State.linkTrain
  try dsimp only
  repeat' first
    | with_reducible assumption
    | intro _
    | with_reducible apply State.trained_keeps
    | split
    | with_reducible apply Keeps.upd

theorem State.retrainLink_keeps (h : Keeps s₀ s) (l : Nat) : Keeps s₀ (State.retrainLink s l) := by
  unfold State.retrainLink
  try dsimp only
  repeat' first
    | with_reducible assumption
    | intro _
    | with_reducible apply State.bump_keeps
    | with_reducible apply State.setFld_keeps
    | split
    | with_reducible apply Keeps.upd

theorem State.crcBurst_keeps (h : Keeps s₀ s) (l : Nat) (n : Nat) : Keeps s₀ (State.crcBurst s l n) := by
  unfold State.crcBurst
  try dsimp only
  repeat' first
    | with_reducible assumption
    | intro _
    | with_reducible apply State.bump_keeps
    | with_reducible apply State.retrainLink_keeps
    | split
    | with_reducible apply Keeps.upd

theorem State.retrainDone_keeps (h : Keeps s₀ s) (l : Nat) (mask : Nat) (reach : Nat) : Keeps s₀ (State.retrainDone s l mask reach) := by
  unfold State.retrainDone
  try dsimp only
  repeat' first
    | with_reducible assumption
    | intro _
    | with_reducible apply State.trained_keeps
    | split
    | with_reducible apply Keeps.upd

theorem State.groupSend_keeps (h : Keeps s₀ s) (c : Nat) : Keeps s₀ (State.groupSend s c) := by
  unfold State.groupSend
  try dsimp only
  repeat' first
    | with_reducible assumption
    | intro _
    | with_reducible apply State.bump_keeps
    | with_reducible apply State.relayOut_keeps
    | with_reducible refine State.sourcePost_of ?_ (by assumption)
    | split
    | with_reducible apply Keeps.upd

theorem State.groupTake_keeps (h : Keeps s₀ s) (l : Nat) (c : Nat) (data : List Byte) : Keeps s₀ (State.groupTake s l c data) := by
  unfold State.groupTake
  try dsimp only
  repeat' first
    | with_reducible assumption
    | intro _
    | with_reducible apply State.agentWrite_keeps
    | with_reducible apply State.bump_keeps
    | with_reducible apply State.producerPost_keeps
    | with_reducible apply State.producerStart_keeps
    | with_reducible apply State.tallyAdd_keeps
    | with_reducible apply State.tallyPort_keeps
    | with_reducible refine State.producerPost_of ?_ (by assumption)
    | with_reducible refine State.producerStart_of ?_ (by assumption)
    | split
    | with_reducible apply Keeps.upd

theorem State.groupRecv_keeps (h : Keeps s₀ s) (l : Nat) (dest : Nat) (c : Nat) (data : List Byte) : Keeps s₀ (State.groupRecv s l dest c data) := by
  unfold State.groupRecv
  try dsimp only
  repeat' first
    | with_reducible assumption
    | intro _
    | with_reducible apply State.groupTake_keeps
    | with_reducible apply State.relayOut_keeps
    | split
    | with_reducible apply Keeps.upd

theorem State.imgBegin_keeps (h : Keeps s₀ s) (fetch : Bool) : Keeps s₀ (State.imgBegin s fetch) := by
  unfold State.imgBegin
  try dsimp only
  repeat' first
    | with_reducible assumption
    | intro _
    | with_reducible apply State.bumpFree_keeps
    | with_reducible apply State.setFld_keeps
    | split
    | with_reducible apply Keeps.upd

theorem State.imgDone_keeps (h : Keeps s₀ s) (e : ImageEnd) : Keeps s₀ (State.imgDone s e) := by
  unfold State.imgDone
  try dsimp only
  repeat' first
    | with_reducible assumption
    | intro _
    | with_reducible apply State.setFld_keeps
    | split
    | with_reducible apply Keeps.upd

theorem State.imgActivate_keeps (h : Keeps s₀ s) (r : Nat) : Keeps s₀ (State.imgActivate s r) := by
  unfold State.imgActivate
  try dsimp only
  repeat' first
    | with_reducible assumption
    | intro _
    | with_reducible apply State.setFld_keeps
    | with_reducible apply State.ssrBegin_keeps
    | split
    | with_reducible apply Keeps.upd

theorem State.pairCmd_keeps (h : Keeps s₀ s) (r : Nat) (f : State → State) (hf : ∀ y0, Keeps s₀ y0 → Keeps s₀ (f y0)) : Keeps s₀ (State.pairCmd s r f) := by
  unfold State.pairCmd
  try dsimp only
  repeat' first
    | with_reducible assumption
    | intro _
    | with_reducible apply State.permit_keeps
    | with_reducible apply hf
    | split
    | with_reducible apply Keeps.upd

theorem State.imgCmd_keeps (h : Keeps s₀ s) (r : Nat) (f : State → State) (hf : ∀ y0, Keeps s₀ y0 → Keeps s₀ (f y0)) : Keeps s₀ (State.imgCmd s r f) := by
  unfold State.imgCmd
  try dsimp only
  repeat' first
    | with_reducible assumption
    | intro _
    | with_reducible apply State.permit_keeps
    | with_reducible apply hf
    | split
    | with_reducible apply Keeps.upd

/-! ### Commands: each answers a next state -/

theorem execPairForm_keeps (ready : Bool) (serial : W64) (pref : Bool) (duty : Bool) : Answers s (execPairForm ready serial pref duty s) := by
  unfold execPairForm
  try dsimp only
  repeat' first
    | with_reducible assumption
    | with_reducible exact Keeps.refl _
    | intro _
    | with_reducible apply Answers.mk
    | with_reducible apply State.pairForm_keeps
    | split
    | with_reducible apply Keeps.upd

theorem execPairSynced_keeps  : Answers s (execPairSynced s) := by
  unfold execPairSynced
  try dsimp only
  repeat' first
    | with_reducible assumption
    | with_reducible exact Keeps.refl _
    | intro _
    | with_reducible apply Answers.mk
    | with_reducible apply State.pairSynced_keeps
    | split
    | with_reducible apply Keeps.upd

theorem execPairHeartbeat_keeps (alt : Bool) (rx : Option Heartbeat) : Answers s (execPairHeartbeat alt rx s) := by
  unfold execPairHeartbeat
  try dsimp only
  repeat' first
    | with_reducible assumption
    | with_reducible exact Keeps.refl _
    | intro _
    | with_reducible apply Answers.mk
    | with_reducible apply State.heartbeat_keeps
    | split
    | with_reducible apply Keeps.upd

theorem execHeartbeatLoss_keeps (alt : Bool) : Answers s (execHeartbeatLoss alt s) := by
  unfold execHeartbeatLoss
  try dsimp only
  repeat' first
    | with_reducible assumption
    | with_reducible exact Keeps.refl _
    | intro _
    | with_reducible apply Answers.mk
    | with_reducible apply State.heartbeatLoss_keeps
    | split
    | with_reducible apply Keeps.upd

theorem execMirrorRecordApply_keeps (rec_ : MirrorRec) : Answers s (execMirrorRecordApply rec_ s) := by
  unfold execMirrorRecordApply
  try dsimp only
  repeat' first
    | with_reducible assumption
    | with_reducible exact Keeps.refl _
    | intro _
    | with_reducible apply Answers.mk
    | with_reducible apply State.applyRecord_keeps
    | split
    | with_reducible apply Keeps.upd

theorem execContextCheckpoint_keeps (c : CtxId) : Answers s (execContextCheckpoint c s) := by
  unfold execContextCheckpoint
  try dsimp only
  repeat' first
    | with_reducible assumption
    | with_reducible exact Keeps.refl _
    | intro _
    | with_reducible apply Answers.mk
    | with_reducible apply State.checkpoint_keeps
    | split
    | with_reducible apply Keeps.upd

theorem execDutyTakeover_keeps (yielded : Bool) : Answers s (execDutyTakeover yielded s) := by
  unfold execDutyTakeover
  try dsimp only
  repeat' first
    | with_reducible assumption
    | with_reducible exact Keeps.refl _
    | intro _
    | with_reducible apply Answers.mk
    | with_reducible apply State.takeover_keeps
    | split
    | with_reducible apply Keeps.upd

theorem execDutyInFall_keeps  : Answers s (execDutyInFall s) := by
  unfold execDutyInFall
  try dsimp only
  repeat' first
    | with_reducible assumption
    | with_reducible exact Keeps.refl _
    | intro _
    | with_reducible apply Answers.mk
    | with_reducible apply State.dutyInLow_keeps
    | split
    | with_reducible apply Keeps.upd

theorem execHandover_keeps (r : Requester) : Answers s (execHandover r s) := by
  unfold execHandover
  try dsimp only
  repeat' first
    | with_reducible assumption
    | with_reducible exact Keeps.refl _
    | intro _
    | with_reducible apply Answers.mk
    | with_reducible apply State.handoverCmd_keeps
    | with_reducible apply State.pairCmd_keeps
    | split
    | with_reducible apply Keeps.upd

theorem execTake_keeps (r : Requester) : Answers s (execTake r s) := by
  unfold execTake
  try dsimp only
  repeat' first
    | with_reducible assumption
    | with_reducible exact Keeps.refl _
    | intro _
    | with_reducible apply Answers.mk
    | with_reducible apply State.pairCmd_keeps
    | with_reducible apply State.permit_keeps
    | with_reducible apply State.takeCmd_keeps
    | split
    | with_reducible apply Keeps.upd

theorem execLeave_keeps (r : Requester) : Answers s (execLeave r s) := by
  unfold execLeave
  try dsimp only
  repeat' first
    | with_reducible assumption
    | with_reducible exact Keeps.refl _
    | intro _
    | with_reducible apply Answers.mk
    | with_reducible apply State.leaveCmd_keeps
    | with_reducible apply State.pairCmd_keeps
    | split
    | with_reducible apply Keeps.upd

theorem execRelayLinkTrain_keeps (l : Fin 4) (mask : Byte) (reach : Byte) : Answers s (execRelayLinkTrain l mask reach s) := by
  unfold execRelayLinkTrain
  try dsimp only
  repeat' first
    | with_reducible assumption
    | with_reducible exact Keeps.refl _
    | intro _
    | with_reducible apply Answers.mk
    | with_reducible apply State.linkTrain_keeps
    | split
    | with_reducible apply Keeps.upd

theorem execRetrain_keeps (r : Requester) (l : Fin 4) : Answers s (execRetrain r l s) := by
  unfold execRetrain
  try dsimp only
  repeat' first
    | with_reducible assumption
    | with_reducible exact Keeps.refl _
    | intro _
    | with_reducible apply Answers.mk
    | with_reducible apply State.permit_keeps
    | with_reducible apply State.retrainLink_keeps
    | split
    | with_reducible apply Keeps.upd

theorem execLinkCrcBurst_keeps (l : Fin 4) (n : W16) : Answers s (execLinkCrcBurst l n s) := by
  unfold execLinkCrcBurst
  try dsimp only
  repeat' first
    | with_reducible assumption
    | with_reducible exact Keeps.refl _
    | intro _
    | with_reducible apply Answers.mk
    | with_reducible apply State.crcBurst_keeps
    | split
    | with_reducible apply Keeps.upd

theorem execLinkRetrainComplete_keeps (l : Fin 4) (mask : Byte) (reach : Byte) : Answers s (execLinkRetrainComplete l mask reach s) := by
  unfold execLinkRetrainComplete
  try dsimp only
  repeat' first
    | with_reducible assumption
    | with_reducible exact Keeps.refl _
    | intro _
    | with_reducible apply Answers.mk
    | with_reducible apply State.retrainDone_keeps
    | split
    | with_reducible apply Keeps.upd

theorem execGroupSend_keeps (c : Fin 16) : Answers s (execGroupSend c s) := by
  unfold execGroupSend
  try dsimp only
  repeat' first
    | with_reducible assumption
    | with_reducible exact Keeps.refl _
    | intro _
    | with_reducible apply Answers.mk
    | with_reducible apply State.groupSend_keeps
    | split
    | with_reducible apply Keeps.upd

theorem execGroupRecv_keeps (l : Fin 4) (dest : Fin 8) (c : Fin 16) (data : List Byte) : Answers s (execGroupRecv l dest c data s) := by
  unfold execGroupRecv
  try dsimp only
  repeat' first
    | with_reducible assumption
    | with_reducible exact Keeps.refl _
    | intro _
    | with_reducible apply Answers.mk
    | with_reducible apply State.groupRecv_keeps
    | split
    | with_reducible apply Keeps.upd

theorem execImgWrite_keeps (r : Requester) : Answers s (execImgWrite r s) := by
  unfold execImgWrite
  try dsimp only
  repeat' first
    | with_reducible assumption
    | with_reducible exact Keeps.refl _
    | intro _
    | with_reducible apply Answers.mk
    | with_reducible apply State.imgBegin_keeps
    | with_reducible apply State.imgCmd_keeps
    | split
    | with_reducible apply Keeps.upd

theorem execImgFetch_keeps (r : Requester) : Answers s (execImgFetch r s) := by
  unfold execImgFetch
  try dsimp only
  repeat' first
    | with_reducible assumption
    | with_reducible exact Keeps.refl _
    | intro _
    | with_reducible apply Answers.mk
    | with_reducible apply State.imgBegin_keeps
    | with_reducible apply State.imgCmd_keeps
    | split
    | with_reducible apply Keeps.upd

theorem execImageWriteComplete_keeps (e : ImageEnd) : Answers s (execImageWriteComplete e s) := by
  unfold execImageWriteComplete
  try dsimp only
  repeat' first
    | with_reducible assumption
    | with_reducible exact Keeps.refl _
    | intro _
    | with_reducible apply Answers.mk
    | with_reducible apply State.imgDone_keeps
    | split
    | with_reducible apply Keeps.upd

theorem execActivate_keeps (r : Requester) : Answers s (execActivate r s) := by
  unfold execActivate
  try dsimp only
  repeat' first
    | with_reducible assumption
    | with_reducible exact Keeps.refl _
    | intro _
    | with_reducible apply Answers.mk
    | with_reducible apply State.imgActivate_keeps
    | with_reducible apply State.imgCmd_keeps
    | split
    | with_reducible apply Keeps.upd

end Sys2Proof.Machine
end

