-- ==== Sys2Proof/Laws/KeepsPorts.lean ====
section
/-!
SUPPORT. What the operations and commands of Machine/Ports.lean keep (Laws/Keeps.lean).
-/

namespace Sys2Proof.Machine

open Sys2Proof State

variable {s₀ s : State}

theorem State.modCam_keeps (h : Keeps s₀ s) (k : Nat) (f : CamUnit → CamUnit) : Keeps s₀ (State.modCam s k f) := by
  unfold State.modCam
  try dsimp only
  repeat' first
    | with_reducible assumption
    | intro _
    | split
    | with_reducible apply Keeps.upd

theorem State.frameEnd_keeps (h : Keeps s₀ s) (k : Nat) (c : CamFrame) : Keeps s₀ (State.frameEnd s k c) := by
  unfold State.frameEnd
  try dsimp only
  repeat' first
    | with_reducible assumption
    | intro _
    | with_reducible apply State.modCam_keeps
    | split
    | with_reducible apply Keeps.upd

theorem State.csiPacket_keeps (h : Keeps s₀ s) (k : Nat) (p : CsiPacket) : Keeps s₀ (State.csiPacket s k p) := by
  unfold State.csiPacket
  try dsimp only
  repeat' first
    | with_reducible assumption
    | intro _
    | with_reducible apply State.bump_keeps
    | with_reducible apply State.frameEnd_keeps
    | with_reducible apply State.modCam_keeps
    | split
    | with_reducible apply Keeps.upd

theorem State.writeHomes_keeps (h : Keeps s₀ s) (a : Nat) (bs : List Byte) : Keeps s₀ (State.writeHomes s a bs) := by
  unfold State.writeHomes
  try dsimp only
  repeat' first
    | with_reducible assumption
    | intro _
    | with_reducible apply State.agentWrite_keeps
    | split
    | with_reducible apply Keeps.upd

theorem State.framePost_keeps (h : Keeps s₀ s) (k : Nat) : Keeps s₀ (State.framePost s k) := by
  unfold State.framePost
  try dsimp only
  repeat' first
    | with_reducible assumption
    | intro _
    | with_reducible apply State.bump_keeps
    | with_reducible apply State.bumpFree_keeps
    | with_reducible apply State.modCam_keeps
    | with_reducible apply State.producerPost_keeps
    | with_reducible apply State.producerStart_keeps
    | with_reducible apply State.tallyAdd_keeps
    | with_reducible apply State.writeHomes_keeps
    | with_reducible refine State.producerPost_of ?_ (by assumption)
    | with_reducible refine State.producerStart_of ?_ (by assumption)
    | split
    | with_reducible apply Keeps.upd

theorem State.hpdEdge_keeps (h : Keeps s₀ s) (n : Nat) (up : Bool) : Keeps s₀ (State.hpdEdge s n up) := by
  unfold State.hpdEdge
  try dsimp only
  repeat' first
    | with_reducible assumption
    | intro _
    | with_reducible apply State.laneLost_keeps
    | with_reducible apply State.modCam_keeps
    | with_reducible apply State.setFld_keeps
    | with_reducible apply State.tallyAdd_keeps
    | with_reducible apply Keeps.foldl
    | with_reducible apply Keeps.foldl_fst
    | with_reducible apply Keeps.foldl_snd
    | split
    | with_reducible apply Keeps.upd

theorem State.modBus_keeps (h : Keeps s₀ s) (b : Nat) (f : BusUnit → BusUnit) : Keeps s₀ (State.modBus s b f) := by
  unfold State.modBus
  try dsimp only
  repeat' first
    | with_reducible assumption
    | intro _
    | split
    | with_reducible apply Keeps.upd

theorem State.rxPush_keeps (h : Keeps s₀ s) (b : Nat) (ws : List W32) : Keeps s₀ (State.rxPush s b ws) := by
  unfold State.rxPush
  try dsimp only
  repeat' first
    | with_reducible assumption
    | intro _
    | with_reducible apply State.modBus_keeps
    | split
    | with_reducible apply Keeps.upd

theorem State.busRun_keeps (h : Keeps s₀ s) (b : Nat) (op : Nat) (f : State → Nat → Nat → List Byte → State) (hf : ∀ y0 y1 y2 y3, Keeps s₀ y0 → Keeps s₀ (f y0 y1 y2 y3)) : Keeps s₀ (State.busRun s b op f) := by
  unfold State.busRun
  try dsimp only
  repeat' first
    | with_reducible assumption
    | intro _
    | with_reducible apply State.modBus_keeps
    | with_reducible apply State.rxPush_keeps
    | with_reducible apply hf
    | split
    | with_reducible apply Keeps.upd

theorem State.busWrite_keeps (h : Keeps s₀ s) (b : Nat) (ok : Bool) : Keeps s₀ (State.busWrite s b ok) := by
  unfold State.busWrite
  try dsimp only
  repeat' first
    | with_reducible assumption
    | intro _
    | with_reducible apply State.busRun_keeps
    | with_reducible apply State.emit_keeps
    | with_reducible apply State.modBus_keeps
    | with_reducible apply State.rxPush_keeps
    | split
    | with_reducible apply Keeps.upd

theorem State.busRead_keeps (h : Keeps s₀ s) (b : Nat) (res : Option (List Byte)) : Keeps s₀ (State.busRead s b res) := by
  unfold State.busRead
  try dsimp only
  repeat' first
    | with_reducible assumption
    | intro _
    | with_reducible apply State.busRun_keeps
    | with_reducible apply State.emit_keeps
    | with_reducible apply State.rxPush_keeps
    | split
    | with_reducible apply Keeps.upd

theorem State.busAssign_keeps (h : Keeps s₀ s) (b : Nat) (addrs : List Nat) : Keeps s₀ (State.busAssign s b addrs) := by
  unfold State.busAssign
  try dsimp only
  repeat' first
    | with_reducible assumption
    | intro _
    | with_reducible apply State.modBus_keeps
    | split
    | with_reducible apply Keeps.upd

theorem State.busEntdaa_keeps (h : Keeps s₀ s) (b : Nat) (addrs : List Nat) : Keeps s₀ (State.busEntdaa s b addrs) := by
  unfold State.busEntdaa
  try dsimp only
  repeat' first
    | with_reducible assumption
    | intro _
    | with_reducible apply State.busAssign_keeps
    | with_reducible apply State.busRun_keeps
    | with_reducible apply State.emit_keeps
    | split
    | with_reducible apply Keeps.upd

theorem State.busStop_keeps (h : Keeps s₀ s) (b : Nat) : Keeps s₀ (State.busStop s b) := by
  unfold State.busStop
  try dsimp only
  repeat' first
    | with_reducible assumption
    | intro _
    | with_reducible apply State.busRun_keeps
    | with_reducible apply State.emit_keeps
    | split
    | with_reducible apply Keeps.upd

theorem State.busPop_keeps (h : Keeps s₀ s) (b : Nat) : Keeps s₀ (State.busPop s b).2 := by
  unfold State.busPop
  try dsimp only
  repeat' first
    | with_reducible assumption
    | intro _
    | with_reducible apply State.modBus_keeps
    | split
    | with_reducible apply Keeps.upd

theorem State.busPop_of (h : Keeps s₀ s) {b : Nat} {x0 : W32} {t : State} (he : State.busPop s b = (x0, t)) : Keeps s₀ t := by
  have g := State.busPop_keeps h b
  rw [he] at g
  exact g

theorem State.busIbi_keeps (h : Keeps s₀ s) (b : Nat) (addr : Nat) (data : List Byte) : Keeps s₀ (State.busIbi s b addr data) := by
  unfold State.busIbi
  try dsimp only
  repeat' first
    | with_reducible assumption
    | intro _
    | with_reducible apply State.rxPush_keeps
    | split
    | with_reducible apply Keeps.upd

theorem State.hotJoin_keeps (h : Keeps s₀ s) (b : Nat) (addr : Nat) : Keeps s₀ (State.hotJoin s b addr) := by
  unfold State.hotJoin
  try dsimp only
  repeat' first
    | with_reducible assumption
    | intro _
    | with_reducible apply State.bump_keeps
    | with_reducible apply State.busAssign_keeps
    | with_reducible apply State.emit_keeps
    | with_reducible apply State.rxPush_keeps
    | split
    | with_reducible apply Keeps.upd

theorem State.portDown_keeps (h : Keeps s₀ s) (cls : Nat) (inst : Nat) (partner : Bool) : Keeps s₀ (State.portDown s cls inst partner) := by
  unfold State.portDown
  try dsimp only
  repeat' first
    | with_reducible assumption
    | intro _
    | with_reducible apply State.note_keeps
    | split
    | with_reducible apply Keeps.upd

theorem State.pcieLink_keeps (h : Keeps s₀ s) (width : Nat) (rate : Nat) (partner : Bool) : Keeps s₀ (State.pcieLink s width rate partner) := by
  unfold State.pcieLink
  try dsimp only
  repeat' first
    | with_reducible assumption
    | intro _
    | with_reducible apply State.linkDegraded_keeps
    | with_reducible apply State.portDown_keeps
    | with_reducible apply State.setFld_keeps
    | split
    | with_reducible apply Keeps.upd

theorem State.ethLink_keeps (h : Keeps s₀ s) (p : Nat) (up : Bool) (partner : Bool) : Keeps s₀ (State.ethLink s p up partner) := by
  unfold State.ethLink
  try dsimp only
  repeat' first
    | with_reducible assumption
    | intro _
    | with_reducible apply State.portDown_keeps
    | with_reducible apply State.setFld_keeps
    | split
    | with_reducible apply Keeps.upd

/-! ### Commands: each answers a next state -/

theorem execCsiPacket_keeps (k : Fin 8) (p : CsiPacket) : Answers s (execCsiPacket k p s) := by
  unfold execCsiPacket
  try dsimp only
  repeat' first
    | with_reducible assumption
    | with_reducible exact Keeps.refl _
    | intro _
    | with_reducible apply Answers.mk
    | with_reducible apply State.csiPacket_keeps
    | split
    | with_reducible apply Keeps.upd

theorem execFrameReceiptPost_keeps (k : Fin 8) : Answers s (execFrameReceiptPost k s) := by
  unfold execFrameReceiptPost
  try dsimp only
  repeat' first
    | with_reducible assumption
    | with_reducible exact Keeps.refl _
    | intro _
    | with_reducible apply Answers.mk
    | with_reducible apply State.framePost_keeps
    | split
    | with_reducible apply Keeps.upd

theorem execHpdQualified_keeps (n : Fin 16) (up : Bool) : Answers s (execHpdQualified n up s) := by
  unfold execHpdQualified
  try dsimp only
  repeat' first
    | with_reducible assumption
    | with_reducible exact Keeps.refl _
    | intro _
    | with_reducible apply Answers.mk
    | with_reducible apply State.hpdEdge_keeps
    | split
    | with_reducible apply Keeps.upd

theorem execBusWrite_keeps (b : Fin 6) (ok : Bool) : Answers s (execBusWrite b ok s) := by
  unfold execBusWrite
  try dsimp only
  repeat' first
    | with_reducible assumption
    | with_reducible exact Keeps.refl _
    | intro _
    | with_reducible apply Answers.mk
    | with_reducible apply State.busWrite_keeps
    | split
    | with_reducible apply Keeps.upd

theorem execBusRead_keeps (b : Fin 6) (res : Option (List Byte)) : Answers s (execBusRead b res s) := by
  unfold execBusRead
  try dsimp only
  repeat' first
    | with_reducible assumption
    | with_reducible exact Keeps.refl _
    | intro _
    | with_reducible apply Answers.mk
    | with_reducible apply State.busRead_keeps
    | split
    | with_reducible apply Keeps.upd

theorem execEntdaa_keeps (b : Fin 6) (addrs : List (Fin 128)) : Answers s (execEntdaa b addrs s) := by
  unfold execEntdaa
  try dsimp only
  repeat' first
    | with_reducible assumption
    | with_reducible exact Keeps.refl _
    | intro _
    | with_reducible apply Answers.mk
    | with_reducible apply State.busEntdaa_keeps
    | split
    | with_reducible apply Keeps.upd

theorem execBusStop_keeps (b : Fin 6) : Answers s (execBusStop b s) := by
  unfold execBusStop
  try dsimp only
  repeat' first
    | with_reducible assumption
    | with_reducible exact Keeps.refl _
    | intro _
    | with_reducible apply Answers.mk
    | with_reducible apply State.busStop_keeps
    | split
    | with_reducible apply Keeps.upd

theorem execBusRxRead_keeps (r : Requester) (b : Fin 6) : Answers s (execBusRxRead r b s) := by
  unfold execBusRxRead
  try dsimp only
  repeat' first
    | with_reducible assumption
    | with_reducible exact Keeps.refl _
    | intro _
    | with_reducible apply Answers.mk
    | with_reducible apply State.answer_keeps
    | with_reducible apply State.busPop_keeps
    | with_reducible apply State.deny_keeps
    | with_reducible refine State.busPop_of ?_ (by assumption)
    | split
    | with_reducible apply Keeps.upd

theorem execInBandInterrupt_keeps (b : Fin 4) (addr : Fin 128) (data : List Byte) : Answers s (execInBandInterrupt b addr data s) := by
  unfold execInBandInterrupt
  try dsimp only
  repeat' first
    | with_reducible assumption
    | with_reducible exact Keeps.refl _
    | intro _
    | with_reducible apply Answers.mk
    | with_reducible apply State.busIbi_keeps
    | split
    | with_reducible apply Keeps.upd

theorem execHotJoin_keeps (b : Fin 4) (addr : Fin 128) : Answers s (execHotJoin b addr s) := by
  unfold execHotJoin
  try dsimp only
  repeat' first
    | with_reducible assumption
    | with_reducible exact Keeps.refl _
    | intro _
    | with_reducible apply Answers.mk
    | with_reducible apply State.hotJoin_keeps
    | split
    | with_reducible apply Keeps.upd

theorem execPcieLinkChange_keeps (width : Fin 9) (rate : Fin 6) (partner : Bool) : Answers s (execPcieLinkChange width rate partner s) := by
  unfold execPcieLinkChange
  try dsimp only
  repeat' first
    | with_reducible assumption
    | with_reducible exact Keeps.refl _
    | intro _
    | with_reducible apply Answers.mk
    | with_reducible apply State.pcieLink_keeps
    | split
    | with_reducible apply Keeps.upd

theorem execEthLinkChange_keeps (p : Fin 4) (up : Bool) (partner : Bool) : Answers s (execEthLinkChange p up partner s) := by
  unfold execEthLinkChange
  try dsimp only
  repeat' first
    | with_reducible assumption
    | with_reducible exact Keeps.refl _
    | intro _
    | with_reducible apply Answers.mk
    | with_reducible apply State.ethLink_keeps
    | split
    | with_reducible apply Keeps.upd

end Sys2Proof.Machine
end

