-- ==== Sys2Proof/Laws/KeepsPower.lean ====
section
/-!
SUPPORT. What the operations and commands of Machine/Power.lean keep (Laws/Keeps.lean).
-/

namespace Sys2Proof.Machine

open Sys2Proof State

variable {s₀ s : State}

theorem State.modPwr_keeps (h : Keeps s₀ s) (f : PowerUnit → PowerUnit) : Keeps s₀ (State.modPwr s f) := by
  unfold State.modPwr
  try dsimp only
  repeat' first
    | with_reducible assumption
    | intro _
    | split
    | with_reducible apply Keeps.upd

theorem State.effCap_keeps (h : Keeps s₀ s)  : Keeps s₀ (State.effCap s) := by
  unfold State.effCap
  try dsimp only
  repeat' first
    | with_reducible assumption
    | intro _
    | with_reducible apply State.setFld_keeps
    | split
    | with_reducible apply Keeps.upd

theorem State.powerSample_keeps (h : Keeps s₀ s) (w : Nat) (gap : Nat) : Keeps s₀ (State.powerSample s w gap) := by
  unfold State.powerSample
  try dsimp only
  repeat' first
    | with_reducible assumption
    | intro _
    | with_reducible apply State.effCap_keeps
    | with_reducible apply State.modPwr_keeps
    | with_reducible apply State.rise_keeps
    | with_reducible apply State.setFld_keeps
    | with_reducible apply Keeps.foldl
    | with_reducible apply Keeps.foldl_fst
    | with_reducible apply Keeps.foldl_snd
    | split
    | with_reducible apply Keeps.upd

theorem State.capUnmet_keeps (h : Keeps s₀ s) (unreducible : Bool) : Keeps s₀ (State.capUnmet s unreducible) := by
  unfold State.capUnmet
  try dsimp only
  repeat' first
    | with_reducible assumption
    | intro _
    | with_reducible apply State.setFld_keeps
    | split
    | with_reducible apply Keeps.upd

theorem State.tempSample_keeps (h : Keeps s₀ s) (raw : List (BitVec 10)) : Keeps s₀ (State.tempSample s raw) := by
  unfold State.tempSample
  try dsimp only
  repeat' first
    | with_reducible assumption
    | intro _
    | with_reducible apply State.bumpFree_keeps
    | with_reducible apply State.modPwr_keeps
    | with_reducible apply State.setFld_keeps
    | split
    | with_reducible apply Keeps.upd

theorem State.limitStep_keeps (h : Keeps s₀ s)  : Keeps s₀ (State.limitStep s) := by
  unfold State.limitStep
  try dsimp only
  repeat' first
    | with_reducible assumption
    | intro _
    | with_reducible apply State.effCap_keeps
    | with_reducible apply State.modPwr_keeps
    | split
    | with_reducible apply Keeps.upd

theorem State.droopTrip_keeps (h : Keeps s₀ s) (n : Nat) : Keeps s₀ (State.droopTrip s n) := by
  unfold State.droopTrip
  try dsimp only
  repeat' first
    | with_reducible assumption
    | intro _
    | with_reducible apply State.modPwr_keeps
    | with_reducible apply State.setFld_keeps
    | split
    | with_reducible apply Keeps.upd

theorem State.droopRecover_keeps (h : Keeps s₀ s) (n : Nat) (cycles : Nat) (worst : Nat) : Keeps s₀ (State.droopRecover s n cycles worst) := by
  unfold State.droopRecover
  try dsimp only
  repeat' first
    | with_reducible assumption
    | intro _
    | with_reducible apply State.modPwr_keeps
    | with_reducible apply State.rise_keeps
    | with_reducible apply State.setFld_keeps
    | split
    | with_reducible apply Keeps.upd

theorem State.pllUnlock_keeps (h : Keeps s₀ s) (k : Nat) : Keeps s₀ (State.pllUnlock s k) := by
  unfold State.pllUnlock
  try dsimp only
  repeat' first
    | with_reducible assumption
    | intro _
    | with_reducible apply State.enterHold_keeps
    | with_reducible apply State.islandToReset_keeps
    | with_reducible apply State.modPwr_keeps
    | with_reducible apply State.resetCompute_keeps
    | with_reducible apply State.setFld_keeps
    | split
    | with_reducible apply Keeps.upd

theorem State.pllRelock_keeps (h : Keeps s₀ s) (k : Nat) : Keeps s₀ (State.pllRelock s k) := by
  unfold State.pllRelock
  try dsimp only
  repeat' first
    | with_reducible assumption
    | intro _
    | with_reducible apply State.islandRelease_keeps
    | with_reducible apply State.modPwr_keeps
    | split
    | with_reducible apply Keeps.upd

/-! ### Commands: each answers a next state -/

theorem execPowerSample_keeps (w : W16) (gap : W32) : Answers s (execPowerSample w gap s) := by
  unfold execPowerSample
  try dsimp only
  repeat' first
    | with_reducible assumption
    | with_reducible exact Keeps.refl _
    | intro _
    | with_reducible apply Answers.mk
    | with_reducible apply State.powerSample_keeps
    | split
    | with_reducible apply Keeps.upd

theorem execCapUnmet_keeps (unreducible : Bool) : Answers s (execCapUnmet unreducible s) := by
  unfold execCapUnmet
  try dsimp only
  repeat' first
    | with_reducible assumption
    | with_reducible exact Keeps.refl _
    | intro _
    | with_reducible apply Answers.mk
    | with_reducible apply State.capUnmet_keeps
    | split
    | with_reducible apply Keeps.upd

theorem execTempSample_keeps (raw : List (BitVec 10)) : Answers s (execTempSample raw s) := by
  unfold execTempSample
  try dsimp only
  repeat' first
    | with_reducible assumption
    | with_reducible exact Keeps.refl _
    | intro _
    | with_reducible apply Answers.mk
    | with_reducible apply State.tempSample_keeps
    | split
    | with_reducible apply Keeps.upd

theorem execThermalLimitStep_keeps  : Answers s (execThermalLimitStep s) := by
  unfold execThermalLimitStep
  try dsimp only
  repeat' first
    | with_reducible assumption
    | with_reducible exact Keeps.refl _
    | intro _
    | with_reducible apply Answers.mk
    | with_reducible apply State.limitStep_keeps
    | split
    | with_reducible apply Keeps.upd

theorem execDroopTrip_keeps (n : Fin 64) : Answers s (execDroopTrip n s) := by
  unfold execDroopTrip
  try dsimp only
  repeat' first
    | with_reducible assumption
    | with_reducible exact Keeps.refl _
    | intro _
    | with_reducible apply Answers.mk
    | with_reducible apply State.droopTrip_keeps
    | split
    | with_reducible apply Keeps.upd

theorem execDroopRecover_keeps (n : Fin 64) (cycles : W64) (worst : Fin 1025) : Answers s (execDroopRecover n cycles worst s) := by
  unfold execDroopRecover
  try dsimp only
  repeat' first
    | with_reducible assumption
    | with_reducible exact Keeps.refl _
    | intro _
    | with_reducible apply Answers.mk
    | with_reducible apply State.droopRecover_keeps
    | split
    | with_reducible apply Keeps.upd

theorem execPllUnlock_keeps (k : Fin 12) : Answers s (execPllUnlock k s) := by
  unfold execPllUnlock
  try dsimp only
  repeat' first
    | with_reducible assumption
    | with_reducible exact Keeps.refl _
    | intro _
    | with_reducible apply Answers.mk
    | with_reducible apply State.pllUnlock_keeps
    | split
    | with_reducible apply Keeps.upd

theorem execPllRelock_keeps (k : Fin 12) : Answers s (execPllRelock k s) := by
  unfold execPllRelock
  try dsimp only
  repeat' first
    | with_reducible assumption
    | with_reducible exact Keeps.refl _
    | intro _
    | with_reducible apply Answers.mk
    | with_reducible apply State.pllRelock_keeps
    | split
    | with_reducible apply Keeps.upd

end Sys2Proof.Machine
end

