-- ==== Sys2Proof/Laws/KeepsLedger.lean ====
section
/-!
SUPPORT. What the operations and commands of Machine/Ledger.lean keep (Laws/Keeps.lean).
-/

namespace Sys2Proof.Machine

open Sys2Proof State

variable {s₀ s : State}

theorem State.clearCounter_keeps (h : Keeps s₀ s) (n : Nat) : Keeps s₀ (State.clearCounter s n) := by
  unfold State.clearCounter
  try dsimp only
  repeat' first
    | with_reducible assumption
    | intro _
    | with_reducible apply State.setFld_keeps
    | with_reducible apply State.setReg_keeps
    | with_reducible apply Keeps.foldl
    | with_reducible apply Keeps.foldl_fst
    | with_reducible apply Keeps.foldl_snd
    | split
    | with_reducible apply Keeps.upd

theorem State.clearAll_keeps (h : Keeps s₀ s)  : Keeps s₀ (State.clearAll s) := by
  unfold State.clearAll
  try dsimp only
  repeat' first
    | with_reducible assumption
    | intro _
    | with_reducible apply State.clearCounter_keeps
    | with_reducible apply Keeps.foldl
    | with_reducible apply Keeps.foldl_fst
    | with_reducible apply Keeps.foldl_snd
    | split
    | with_reducible apply Keeps.upd

theorem State.clearOne_keeps (h : Keeps s₀ s) (n : Nat) : Keeps s₀ (State.clearOne s n) := by
  unfold State.clearOne
  try dsimp only
  repeat' first
    | with_reducible assumption
    | intro _
    | with_reducible apply State.clearCounter_keeps
    | split
    | with_reducible apply Keeps.upd

theorem State.clearNotes_keeps (h : Keeps s₀ s)  : Keeps s₀ (State.clearNotes s) := by
  unfold State.clearNotes
  try dsimp only
  repeat' first
    | with_reducible assumption
    | intro _
    | with_reducible apply State.setReg_keeps
    | with_reducible apply Keeps.foldl
    | with_reducible apply Keeps.foldl_fst
    | with_reducible apply Keeps.foldl_snd
    | split
    | with_reducible apply Keeps.upd

theorem State.incCommand_keeps (h : Keeps s₀ s) (op : Nat) (index : Nat) : Keeps s₀ (State.incCommand s op index) := by
  unfold State.incCommand
  try dsimp only
  repeat' first
    | with_reducible assumption
    | intro _
    | with_reducible apply State.clearAll_keeps
    | with_reducible apply State.clearNotes_keeps
    | with_reducible apply State.clearOne_keeps
    | split
    | with_reducible apply Keeps.upd

theorem State.recLatchAt_keeps (h : Keeps s₀ s) (r : Nat) (base : Nat) : Keeps s₀ (State.recLatchAt s r base) := by
  unfold State.recLatchAt
  try dsimp only
  repeat' first
    | with_reducible assumption
    | intro _
    | split
    | with_reducible apply Keeps.upd

/-! ### Commands: each answers a next state -/

theorem execClearAll_keeps (r : Requester) : Answers s (execClearAll r s) := by
  unfold execClearAll
  try dsimp only
  repeat' first
    | with_reducible assumption
    | with_reducible exact Keeps.refl _
    | intro _
    | with_reducible apply Answers.mk
    | with_reducible apply State.incCommand_keeps
    | with_reducible apply State.permit_keeps
    | split
    | with_reducible apply Keeps.upd

theorem execClearOne_keeps (r : Requester) (n : Fin 16) : Answers s (execClearOne r n s) := by
  unfold execClearOne
  try dsimp only
  repeat' first
    | with_reducible assumption
    | with_reducible exact Keeps.refl _
    | intro _
    | with_reducible apply Answers.mk
    | with_reducible apply State.incCommand_keeps
    | with_reducible apply State.permit_keeps
    | split
    | with_reducible apply Keeps.upd

theorem execClearNotes_keeps (r : Requester) : Answers s (execClearNotes r s) := by
  unfold execClearNotes
  try dsimp only
  repeat' first
    | with_reducible assumption
    | with_reducible exact Keeps.refl _
    | intro _
    | with_reducible apply Answers.mk
    | with_reducible apply State.incCommand_keeps
    | with_reducible apply State.permit_keeps
    | split
    | with_reducible apply Keeps.upd

theorem execIncidentRecordRead_keeps (r : Requester) (rec_ : Fin 90) : Answers s (execIncidentRecordRead r rec_ s) := by
  unfold execIncidentRecordRead
  try dsimp only
  repeat' first
    | with_reducible assumption
    | with_reducible exact Keeps.refl _
    | intro _
    | with_reducible apply Answers.mk
    | with_reducible apply State.answer_keeps
    | with_reducible apply State.readBy_keeps
    | with_reducible apply State.recLatchAt_keeps
    | split
    | with_reducible apply Keeps.upd

end Sys2Proof.Machine
end

