-- ==== Sys2Proof/Laws/KeepsControl.lean ====
section
/-!
SUPPORT. What the operations and commands of Machine/Control.lean keep (Laws/Keeps.lean).
-/

namespace Sys2Proof.Machine

open Sys2Proof State

variable {s₀ s : State}

theorem State.ntabWrite_keeps (h : Keeps s₀ s) (o : Nat) (v : W32) : Keeps s₀ (State.ntabWrite s o v) := by
  unfold State.ntabWrite
  try dsimp only
  repeat' first
    | with_reducible assumption
    | intro _
    | with_reducible apply State.setNtab_keeps
    | with_reducible apply Keeps.foldl
    | with_reducible apply Keeps.foldl_fst
    | with_reducible apply Keeps.foldl_snd
    | split
    | with_reducible apply Keeps.upd

theorem State.ftabWrite_keeps (h : Keeps s₀ s) (o : Nat) (b : Byte) : Keeps s₀ (State.ftabWrite s o b) := by
  unfold State.ftabWrite
  try dsimp only
  repeat' first
    | with_reducible assumption
    | intro _
    | with_reducible apply State.setFtab_keeps
    | split
    | with_reducible apply Keeps.upd

theorem State.windowWrite_keeps (h : Keeps s₀ s) (r : Nat) (off : Nat) (v : W32) : Keeps s₀ (State.windowWrite s r off v) := by
  unfold State.windowWrite
  try dsimp only
  repeat' first
    | with_reducible assumption
    | intro _
    | with_reducible apply State.ftabWrite_keeps
    | with_reducible apply State.ntabWrite_keeps
    | with_reducible apply State.setFld_keeps
    | with_reducible apply State.slotWrite_keeps
    | with_reducible apply State.winWrite_keeps
    | with_reducible apply Keeps.foldl
    | with_reducible apply Keeps.foldl_fst
    | with_reducible apply Keeps.foldl_snd
    | split
    | with_reducible apply Keeps.upd

theorem State.wordRead_keeps (h : Keeps s₀ s) (r : Nat) (off : Nat) : Keeps s₀ (State.wordRead s r off).2 := by
  unfold State.wordRead
  try dsimp only
  repeat' first
    | with_reducible assumption
    | intro _
    | with_reducible apply State.busPop_keeps
    | with_reducible apply State.modPwr_keeps
    | with_reducible apply State.setReg_keeps
    | with_reducible refine State.busPop_of ?_ (by assumption)
    | split
    | with_reducible apply Keeps.upd

theorem State.wordRead_of (h : Keeps s₀ s) {r : Nat} {off : Nat} {x0 : W32} {t : State} (he : State.wordRead s r off = (x0, t)) : Keeps s₀ t := by
  have g := State.wordRead_keeps h r off
  rw [he] at g
  exact g

theorem State.wideEffect_keeps (h : Keeps s₀ s) (r : Nat) (k : Nat) : Keeps s₀ (State.wideEffect s r k) := by
  unfold State.wideEffect
  try dsimp only
  repeat' first
    | with_reducible assumption
    | intro _
    | with_reducible apply State.capRead_keeps
    | with_reducible apply State.laneEpochRead_keeps
    | with_reducible apply State.laneValueRead_keeps
    | with_reducible apply State.recLatchAt_keeps
    | with_reducible apply State.tsRead_keeps
    | split
    | with_reducible apply Keeps.upd

theorem State.ctlRead_keeps (h : Keeps s₀ s) (r : Nat) (off : Nat) (w : Width) : Keeps s₀ (State.ctlRead s r off w).2 := by
  unfold State.ctlRead
  try dsimp only
  repeat' first
    | with_reducible assumption
    | intro _
    | with_reducible apply State.wideEffect_keeps
    | with_reducible apply State.wordRead_keeps
    | with_reducible refine State.wordRead_of ?_ (by assumption)
    | split
    | with_reducible apply Keeps.upd

theorem State.ctlRead_of (h : Keeps s₀ s) {r : Nat} {off : Nat} {w : Width} {x0 : W64} {t : State} (he : State.ctlRead s r off w = (x0, t)) : Keeps s₀ t := by
  have g := State.ctlRead_keeps h r off w
  rw [he] at g
  exact g

theorem State.wrSys_keeps (h : Keeps s₀ s) (r : Nat) (k : Nat) (v : W64) (d : State) (hd : Keeps s₀ d) : Keeps s₀ (State.wrSys r k v s d) := by
  unfold State.wrSys
  try dsimp only
  repeat' first
    | with_reducible assumption
    | intro _
    | with_reducible apply State.incCommand_keeps
    | with_reducible apply State.mintCommand_keeps
    | with_reducible apply State.permit_keeps
    | with_reducible apply State.ssrCmd_keeps
    | with_reducible apply hd
    | split
    | with_reducible apply Keeps.upd

theorem State.wrLane_keeps (h : Keeps s₀ s) (r : Nat) (k : Nat) (v : W64) (d : State) (hd : Keeps s₀ d) : Keeps s₀ (State.wrLane r k v s d) := by
  unfold State.wrLane
  try dsimp only
  repeat' first
    | with_reducible assumption
    | intro _
    | with_reducible apply State.cueArm_keeps
    | with_reducible apply State.cueDisarm_keeps
    | with_reducible apply State.cueRead_keeps
    | with_reducible apply State.laneCfg_keeps
    | with_reducible apply State.laneForce_keeps
    | with_reducible apply State.laneStep_keeps
    | with_reducible apply State.laneValueWrite_keeps
    | with_reducible apply hd
    | split
    | with_reducible apply Keeps.upd

theorem State.wrStart_keeps (h : Keeps s₀ s) (r : Nat) (k : Nat) (v : W64) (d : State) (hd : Keeps s₀ d) : Keeps s₀ (State.wrStart r k v s d) := by
  unfold State.wrStart
  try dsimp only
  repeat' first
    | with_reducible assumption
    | intro _
    | with_reducible apply State.defineCtx_keeps
    | with_reducible apply State.killCtx_keeps
    | with_reducible apply State.readCtx_keeps
    | with_reducible apply State.startCtl_keeps
    | with_reducible apply hd
    | split
    | with_reducible apply Keeps.upd

theorem State.wrTally_keeps (h : Keeps s₀ s) (r : Nat) (k : Nat) (v : W64) (d : State) (hd : Keeps s₀ d) : Keeps s₀ (State.wrTally r k v s d) := by
  unfold State.wrTally
  try dsimp only
  repeat' first
    | with_reducible assumption
    | intro _
    | with_reducible apply State.barCmdArrive_keeps
    | with_reducible apply State.barDefine_keeps
    | with_reducible apply State.barRead_keeps
    | with_reducible apply State.barRearm_keeps
    | with_reducible apply State.barSetMembers_keeps
    | with_reducible apply State.barUndefine_keeps
    | with_reducible apply State.rwinCfg_keeps
    | with_reducible apply State.tallyRead_keeps
    | with_reducible apply State.tallyReclaim_keeps
    | with_reducible apply State.tmapClear_keeps
    | with_reducible apply State.tmapRead_keeps
    | with_reducible apply State.tmapSet_keeps
    | with_reducible apply State.watchCfg_keeps
    | with_reducible apply hd
    | split
    | with_reducible apply Keeps.upd

theorem State.wrTeller_keeps (h : Keeps s₀ s) (r : Nat) (k : Nat) (v : W64) (d : State) (hd : Keeps s₀ d) : Keeps s₀ (State.wrTeller r k v s d) := by
  unfold State.wrTeller
  try dsimp only
  repeat' first
    | with_reducible assumption
    | intro _
    | with_reducible apply State.clearPoison_keeps
    | with_reducible apply State.poolCfg_keeps
    | with_reducible apply State.pump_keeps
    | with_reducible apply State.settleMoves_keeps
    | with_reducible apply State.tellerInval_keeps
    | with_reducible apply State.tellerPageRead_keeps
    | with_reducible apply Keeps.foldl
    | with_reducible apply Keeps.foldl_fst
    | with_reducible apply Keeps.foldl_snd
    | with_reducible apply hd
    | split
    | with_reducible apply Keeps.upd

theorem State.wrStream_keeps (h : Keeps s₀ s) (r : Nat) (k : Nat) (v : W64) (d : State) (hd : Keeps s₀ d) : Keeps s₀ (State.wrStream r k v s d) := by
  unfold State.wrStream
  try dsimp only
  repeat' first
    | with_reducible assumption
    | intro _
    | with_reducible apply State.strmCmdReset_keeps
    | with_reducible apply State.strmFlush_keeps
    | with_reducible apply State.strmRead_keeps
    | with_reducible apply State.strmRegister_keeps
    | with_reducible apply State.strmUnregister_keeps
    | with_reducible apply hd
    | split
    | with_reducible apply Keeps.upd

theorem State.wrPacer_keeps (h : Keeps s₀ s) (r : Nat) (k : Nat) (v : W64) (d : State) (hd : Keeps s₀ d) : Keeps s₀ (State.wrPacer r k v s d) := by
  unfold State.wrPacer
  try dsimp only
  repeat' first
    | with_reducible assumption
    | intro _
    | with_reducible apply State.enterHold_keeps
    | with_reducible apply State.islandRun_keeps
    | with_reducible apply State.mbxCommit_keeps
    | with_reducible apply State.pacerCtl_keeps
    | with_reducible apply State.recmd_keeps
    | with_reducible apply State.setForce_keeps
    | with_reducible apply State.settleBridge_keeps
    | with_reducible apply hd
    | split
    | with_reducible apply Keeps.upd

theorem State.wrFusion_keeps (h : Keeps s₀ s) (r : Nat) (k : Nat) (v : W64) (d : State) (hd : Keeps s₀ d) : Keeps s₀ (State.wrFusion r k v s d) := by
  unfold State.wrFusion
  try dsimp only
  repeat' first
    | with_reducible assumption
    | intro _
    | with_reducible apply State.fusionAdmit_keeps
    | with_reducible apply State.fusionCtl_keeps
    | with_reducible apply State.fusionRetire_keeps
    | with_reducible apply hd
    | split
    | with_reducible apply Keeps.upd

theorem State.wrHurdle_keeps (h : Keeps s₀ s) (k : Nat) (v : W64) (d : State) (hd : Keeps s₀ d) : Keeps s₀ (State.wrHurdle k v s d) := by
  unfold State.wrHurdle
  try dsimp only
  repeat' first
    | with_reducible assumption
    | intro _
    | with_reducible apply State.hurdleDisable_keeps
    | with_reducible apply State.hurdleEnable_keeps
    | with_reducible apply State.setFld_keeps
    | with_reducible apply State.stopCmd_keeps
    | with_reducible apply hd
    | split
    | with_reducible apply Keeps.upd

theorem State.wrNet_keeps (h : Keeps s₀ s) (k : Nat) (v : W64) (d : State) (hd : Keeps s₀ d) : Keeps s₀ (State.wrNet k v s d) := by
  unfold State.wrNet
  try dsimp only
  repeat' first
    | with_reducible assumption
    | intro _
    | with_reducible apply State.ptpDomCfg_keeps
    | with_reducible apply hd
    | split
    | with_reducible apply Keeps.upd

theorem State.wrRelay_keeps (h : Keeps s₀ s) (r : Nat) (k : Nat) (v : W64) (d : State) (hd : Keeps s₀ d) : Keeps s₀ (State.wrRelay r k v s d) := by
  unfold State.wrRelay
  try dsimp only
  repeat' first
    | with_reducible assumption
    | intro _
    | with_reducible apply State.handoverCmd_keeps
    | with_reducible apply State.holdForce_keeps
    | with_reducible apply State.imgActivate_keeps
    | with_reducible apply State.imgBegin_keeps
    | with_reducible apply State.leaveCmd_keeps
    | with_reducible apply State.pairCheck_keeps
    | with_reducible apply State.permit_keeps
    | with_reducible apply State.retrainLink_keeps
    | with_reducible apply State.takeCmd_keeps
    | with_reducible apply hd
    | split
    | with_reducible apply Keeps.upd

theorem State.wrPort_keeps (h : Keeps s₀ s) (k : Nat) (v : W64) (d : State) (hd : Keeps s₀ d) : Keeps s₀ (State.wrPort k v s d) := by
  unfold State.wrPort
  try dsimp only
  repeat' first
    | with_reducible assumption
    | intro _
    | with_reducible apply State.modBus_keeps
    | with_reducible apply State.setReg_keeps
    | with_reducible apply hd
    | split
    | with_reducible apply Keeps.upd

theorem State.regWrite_keeps (h : Keeps s₀ s) (r : Nat) (k : Nat) (i : RegInfo) (m : W64) (v : W64) : Keeps s₀ (State.regWrite s r k i m v) := by
  unfold State.regWrite
  try dsimp only
  repeat' first
    | with_reducible assumption
    | intro _
    | with_reducible apply State.effCap_keeps
    | with_reducible apply State.mapOut_keeps
    | with_reducible apply State.setReg_keeps
    | with_reducible apply State.wrFusion_keeps
    | with_reducible apply State.wrHurdle_keeps
    | with_reducible apply State.wrLane_keeps
    | with_reducible apply State.wrNet_keeps
    | with_reducible apply State.wrPacer_keeps
    | with_reducible apply State.wrPort_keeps
    | with_reducible apply State.wrRelay_keeps
    | with_reducible apply State.wrStart_keeps
    | with_reducible apply State.wrStream_keeps
    | with_reducible apply State.wrSys_keeps
    | with_reducible apply State.wrTally_keeps
    | with_reducible apply State.wrTeller_keeps
    | split
    | with_reducible apply Keeps.upd

theorem State.wordWrite_keeps (h : Keeps s₀ s) (r : Nat) (off : Nat) (v : W32) : Keeps s₀ (State.wordWrite s r off v) := by
  unfold State.wordWrite
  try dsimp only
  repeat' first
    | with_reducible assumption
    | intro _
    | with_reducible apply State.regWrite_keeps
    | with_reducible apply State.windowWrite_keeps
    | split
    | with_reducible apply Keeps.upd

theorem State.wordStore_keeps (h : Keeps s₀ s) (r : Nat) (off : Nat) (v : W32) : Keeps s₀ (State.wordStore s r off v).2 := by
  unfold State.wordStore
  try dsimp only
  repeat' first
    | with_reducible assumption
    | intro _
    | with_reducible apply State.deny_keeps
    | with_reducible apply State.wordWrite_keeps
    | split
    | with_reducible apply Keeps.upd

theorem State.wordStore_of (h : Keeps s₀ s) {r : Nat} {off : Nat} {v : W32} {x0 : Status} {t : State} (he : State.wordStore s r off v = (x0, t)) : Keeps s₀ t := by
  have g := State.wordStore_keeps h r off v
  rw [he] at g
  exact g

theorem State.ctlWrite_keeps (h : Keeps s₀ s) (r : Nat) (off : Nat) (w : Width) (v : W64) : Keeps s₀ (State.ctlWrite s r off w v).2 := by
  unfold State.ctlWrite
  try dsimp only
  repeat' first
    | with_reducible assumption
    | intro _
    | with_reducible apply State.deny_keeps
    | with_reducible apply State.regWrite_keeps
    | with_reducible apply State.wordStore_keeps
    | with_reducible apply State.wordWrite_keeps
    | with_reducible refine State.wordStore_of ?_ (by assumption)
    | split
    | with_reducible apply Keeps.upd

theorem State.ctlWrite_of (h : Keeps s₀ s) {r : Nat} {off : Nat} {w : Width} {v : W64} {x0 : Status} {t : State} (he : State.ctlWrite s r off w v = (x0, t)) : Keeps s₀ t := by
  have g := State.ctlWrite_keeps h r off w v
  rw [he] at g
  exact g

theorem State.ctlLoad_keeps (h : Keeps s₀ s) (r : Nat) (off : Nat) (w : Width) : Keeps s₀ (State.ctlLoad s r off w).2.2 := by
  unfold State.ctlLoad
  try dsimp only
  repeat' first
    | with_reducible assumption
    | intro _
    | with_reducible apply State.ctlRead_keeps
    | with_reducible apply State.deny_keeps
    | with_reducible refine State.ctlRead_of ?_ (by assumption)
    | split
    | with_reducible apply Keeps.upd

theorem State.ctlLoad_of (h : Keeps s₀ s) {r : Nat} {off : Nat} {w : Width} {x0 : Status} {x1 : W64} {t : State} (he : State.ctlLoad s r off w = (x0, x1, t)) : Keeps s₀ t := by
  have g := State.ctlLoad_keeps h r off w
  rw [he] at g
  exact g

/-! ### Commands: each answers a next state -/

theorem execRegisterWrite_keeps (r : Requester) (off : BitVec 24) (w : Width) (data : W64) : Answers s (execRegisterWrite r off w data s) := by
  unfold execRegisterWrite
  try dsimp only
  repeat' first
    | with_reducible assumption
    | with_reducible exact Keeps.refl _
    | intro _
    | with_reducible apply Answers.mk
    | with_reducible apply State.answer_keeps
    | with_reducible apply State.ctlWrite_keeps
    | with_reducible refine State.ctlWrite_of ?_ (by assumption)
    | split
    | with_reducible apply Keeps.upd

theorem execReadClear_keeps (r : Requester) (off : BitVec 24) (w : Width) : Answers s (execReadClear r off w s) := by
  unfold execReadClear
  try dsimp only
  repeat' first
    | with_reducible assumption
    | with_reducible exact Keeps.refl _
    | intro _
    | with_reducible apply Answers.mk
    | with_reducible apply State.answer_keeps
    | with_reducible apply State.ctlLoad_keeps
    | with_reducible refine State.ctlLoad_of ?_ (by assumption)
    | split
    | with_reducible apply Keeps.upd

end Sys2Proof.Machine
end

