-- ==== Sys2Proof/Laws/KeepsAccess.lean ====
section
/-!
SUPPORT. What the operations and commands of Machine/Access.lean keep (Laws/Keeps.lean).
-/

namespace Sys2Proof.Machine

open Sys2Proof State

variable {s₀ s : State}

theorem State.unmapped_keeps (h : Keeps s₀ s) (r : Nat) (a : Nat) : Keeps s₀ (State.unmapped s r a) := by
  unfold State.unmapped
  try dsimp only
  repeat' first
    | with_reducible assumption
    | intro _
    | with_reducible apply State.deny_keeps
    | split
    | with_reducible apply Keeps.upd

theorem State.openBytes_keeps (h : Keeps s₀ s) (n : Nat) : Keeps s₀ (State.openBytes s n).2 := by
  unfold State.openBytes
  try dsimp only
  repeat' first
    | with_reducible assumption
    | intro _
    | with_reducible apply State.bumpFree_keeps
    | split
    | with_reducible apply Keeps.upd

theorem State.openBytes_of (h : Keeps s₀ s) {n : Nat} {x0 : List Byte} {t : State} (he : State.openBytes s n = (x0, t)) : Keeps s₀ t := by
  have g := State.openBytes_keeps h n
  rw [he] at g
  exact g

theorem State.ledgerBytes_keeps (h : Keeps s₀ s) (a : Nat) (n : Nat) : Keeps s₀ (State.ledgerBytes s a n).2 := by
  unfold State.ledgerBytes
  try dsimp only
  repeat' first
    | with_reducible assumption
    | intro _
    | with_reducible apply State.agentRead_keeps
    | with_reducible apply State.openBytes_keeps
    | with_reducible refine State.agentRead_of ?_ (by assumption)
    | with_reducible refine State.openBytes_of ?_ (by assumption)
    | split
    | with_reducible apply Keeps.upd

theorem State.ledgerBytes_of (h : Keeps s₀ s) {a : Nat} {n : Nat} {x0 : List Byte} {t : State} (he : State.ledgerBytes s a n = (x0, t)) : Keeps s₀ t := by
  have g := State.ledgerBytes_keeps h a n
  rw [he] at g
  exact g

theorem State.load_keeps (h : Keeps s₀ s) (r : Nat) (a : Nat) (n : Nat) : Keeps s₀ (State.load s r a n).2.2 := by
  unfold State.load
  try dsimp only
  repeat' first
    | with_reducible assumption
    | intro _
    | with_reducible apply State.ctlLoad_keeps
    | with_reducible apply State.deny_keeps
    | with_reducible apply State.ledgerBytes_keeps
    | with_reducible apply State.openBytes_keeps
    | with_reducible apply State.replicate_keeps
    | with_reducible apply State.unmapped_keeps
    | with_reducible refine State.ctlLoad_of ?_ (by assumption)
    | with_reducible refine State.ledgerBytes_of ?_ (by assumption)
    | with_reducible refine State.openBytes_of ?_ (by assumption)
    | with_reducible refine State.replicate_of ?_ (by assumption)
    | split
    | with_reducible apply Keeps.upd

theorem State.load_of (h : Keeps s₀ s) {r : Nat} {a : Nat} {n : Nat} {x0 : Status} {x1 : List Byte} {t : State} (he : State.load s r a n = (x0, x1, t)) : Keeps s₀ t := by
  have g := State.load_keeps h r a n
  rw [he] at g
  exact g

theorem State.store_keeps (h : Keeps s₀ s) (r : Nat) (a : Nat) (bs : List Byte) : Keeps s₀ (State.store s r a bs).2 := by
  unfold State.store
  try dsimp only
  repeat' first
    | with_reducible assumption
    | intro _
    | with_reducible apply State.agentWrite_keeps
    | with_reducible apply State.ctlWrite_keeps
    | with_reducible apply State.deny_keeps
    | with_reducible apply State.tallyAdd_keeps
    | with_reducible apply State.tallySub_keeps
    | with_reducible apply State.unmapped_keeps
    | with_reducible refine State.ctlWrite_of ?_ (by assumption)
    | split
    | with_reducible apply Keeps.upd

theorem State.store_of (h : Keeps s₀ s) {r : Nat} {a : Nat} {bs : List Byte} {x0 : Status} {t : State} (he : State.store s r a bs = (x0, t)) : Keeps s₀ t := by
  have g := State.store_keeps h r a bs
  rw [he] at g
  exact g

theorem State.coreAccess_keeps (h : Keeps s₀ s) (r : Nat) (a : Nat) (w : Width) (op : MemOp) : Keeps s₀ (State.coreAccess s r a w op) := by
  unfold State.coreAccess
  try dsimp only
  repeat' first
    | with_reducible assumption
    | intro _
    | with_reducible apply State.answer_keeps
    | with_reducible apply State.load_keeps
    | with_reducible apply State.store_keeps
    | with_reducible refine State.load_of ?_ (by assumption)
    | with_reducible refine State.store_of ?_ (by assumption)
    | split
    | with_reducible apply Keeps.upd

theorem State.pcieRequest_keeps (h : Keeps s₀ s) (f : Nat) (bar2 : Bool) (off : Nat) (q : BusReq) : Keeps s₀ (State.pcieRequest s f bar2 off q) := by
  unfold State.pcieRequest
  try dsimp only
  repeat' first
    | with_reducible assumption
    | intro _
    | with_reducible apply State.answer_keeps
    | with_reducible apply State.deny_keeps
    | with_reducible apply State.load_keeps
    | with_reducible apply State.store_keeps
    | with_reducible refine State.load_of ?_ (by assumption)
    | with_reducible refine State.store_of ?_ (by assumption)
    | split
    | with_reducible apply Keeps.upd

theorem State.replyFrame_keeps (h : Keeps s₀ s) (r : Nat) (tag : W16) (st : Status) (b : List Byte) : Keeps s₀ (State.replyFrame s r tag st b) := by
  unfold State.replyFrame
  try dsimp only
  repeat' first
    | with_reducible assumption
    | intro _
    | split
    | with_reducible apply Keeps.upd

theorem State.frameRead_keeps (h : Keeps s₀ s) (r : Nat) (tag : W16) (a : Nat) (n : Nat) : Keeps s₀ (State.frameRead s r tag a n) := by
  unfold State.frameRead
  try dsimp only
  repeat' first
    | with_reducible assumption
    | intro _
    | with_reducible apply State.load_keeps
    | with_reducible apply State.replyFrame_keeps
    | with_reducible refine State.load_of ?_ (by assumption)
    | split
    | with_reducible apply Keeps.upd

theorem State.frameWrite_keeps (h : Keeps s₀ s) (r : Nat) (tag : W16) (a : Nat) (bs : List Byte) : Keeps s₀ (State.frameWrite s r tag a bs) := by
  unfold State.frameWrite
  try dsimp only
  repeat' first
    | with_reducible assumption
    | intro _
    | with_reducible apply State.replyFrame_keeps
    | with_reducible apply State.store_keeps
    | with_reducible refine State.store_of ?_ (by assumption)
    | split
    | with_reducible apply Keeps.upd

theorem State.serviceFrame_keeps (h : Keeps s₀ s) (r : Nat) (right : Nat) (tag : W16) (f : State → State) (hf : ∀ y0, Keeps s₀ y0 → Keeps s₀ (f y0)) : Keeps s₀ (State.serviceFrame s r right tag f) := by
  unfold State.serviceFrame
  try dsimp only
  repeat' first
    | with_reducible assumption
    | intro _
    | with_reducible apply State.deny_keeps
    | with_reducible apply State.replyFrame_keeps
    | with_reducible apply hf
    | split
    | with_reducible apply Keeps.upd

theorem State.frameFuse_keeps (h : Keeps s₀ s) (r : Nat) (tag : W16) (l : List W16) : Keeps s₀ (State.frameFuse s r tag l) := by
  unfold State.frameFuse
  try dsimp only
  repeat' first
    | with_reducible assumption
    | intro _
    | with_reducible apply State.fuse_keeps
    | with_reducible apply State.replyFrame_keeps
    | with_reducible apply State.serviceFrame_keeps
    | split
    | with_reducible apply Keeps.upd

theorem State.frameImage_keeps (h : Keeps s₀ s) (r : Nat) (tag : W16) (data : List Byte) : Keeps s₀ (State.frameImage s r tag data) := by
  unfold State.frameImage
  try dsimp only
  repeat' first
    | with_reducible assumption
    | intro _
    | with_reducible apply State.replyFrame_keeps
    | with_reducible apply State.serviceFrame_keeps
    | with_reducible apply State.setFld_keeps
    | split
    | with_reducible apply Keeps.upd

theorem State.frameIncident_keeps (h : Keeps s₀ s) (r : Nat) (tag : W16) (a : Nat) (n : Nat) : Keeps s₀ (State.frameIncident s r tag a n) := by
  unfold State.frameIncident
  try dsimp only
  repeat' first
    | with_reducible assumption
    | intro _
    | with_reducible apply State.deny_keeps
    | with_reducible apply State.replyFrame_keeps
    | split
    | with_reducible apply Keeps.upd

theorem State.frameJudge_keeps (h : Keeps s₀ s) (r : Nat) (tag : W16) (b : List Byte) : Keeps s₀ (State.frameJudge s r tag b) := by
  unfold State.frameJudge
  try dsimp only
  repeat' first
    | with_reducible assumption
    | intro _
    | with_reducible apply State.replyFrame_keeps
    | with_reducible apply State.serviceFrame_keeps
    | with_reducible apply State.spReceive_keeps
    | with_reducible refine State.spReceive_of ?_ (by assumption)
    | split
    | with_reducible apply Keeps.upd

/-! ### Commands: each answers a next state -/

theorem execCoreAccess_keeps (r : Fin 18) (pa : BitVec 44) (w : Width) (op : MemOp) : Answers s (execCoreAccess r pa w op s) := by
  unfold execCoreAccess
  try dsimp only
  repeat' first
    | with_reducible assumption
    | with_reducible exact Keeps.refl _
    | intro _
    | with_reducible apply Answers.mk
    | with_reducible apply State.coreAccess_keeps
    | split
    | with_reducible apply Keeps.upd

theorem execPcieRequest_keeps (f : Fin 8) (bar2 : Bool) (off : W64) (q : BusReq) : Answers s (execPcieRequest f bar2 off q s) := by
  unfold execPcieRequest
  try dsimp only
  repeat' first
    | with_reducible assumption
    | with_reducible exact Keeps.refl _
    | intro _
    | with_reducible apply Answers.mk
    | with_reducible apply State.pcieRequest_keeps
    | split
    | with_reducible apply Keeps.upd

theorem execCommandRead_keeps (path : Fin 9) (tag : W16) (addr : W64) (len : W32) : Answers s (execCommandRead path tag addr len s) := by
  unfold execCommandRead
  try dsimp only
  repeat' first
    | with_reducible assumption
    | with_reducible exact Keeps.refl _
    | intro _
    | with_reducible apply Answers.mk
    | with_reducible apply State.frameRead_keeps
    | split
    | with_reducible apply Keeps.upd

theorem execCommandWrite_keeps (path : Fin 9) (tag : W16) (addr : W64) (data : List Byte) : Answers s (execCommandWrite path tag addr data s) := by
  unfold execCommandWrite
  try dsimp only
  repeat' first
    | with_reducible assumption
    | with_reducible exact Keeps.refl _
    | intro _
    | with_reducible apply Answers.mk
    | with_reducible apply State.frameWrite_keeps
    | split
    | with_reducible apply Keeps.upd

theorem execFuse_keeps (path : Fin 9) (tag : W16) (entries : List W16) : Answers s (execFuse path tag entries s) := by
  unfold execFuse
  try dsimp only
  repeat' first
    | with_reducible assumption
    | with_reducible exact Keeps.refl _
    | intro _
    | with_reducible apply Answers.mk
    | with_reducible apply State.frameFuse_keeps
    | split
    | with_reducible apply Keeps.upd

theorem execImage_keeps (path : Fin 9) (tag : W16) (data : List Byte) : Answers s (execImage path tag data s) := by
  unfold execImage
  try dsimp only
  repeat' first
    | with_reducible assumption
    | with_reducible exact Keeps.refl _
    | intro _
    | with_reducible apply Answers.mk
    | with_reducible apply State.frameImage_keeps
    | split
    | with_reducible apply Keeps.upd

theorem execIncident_keeps (path : Fin 9) (tag : W16) (addr : W64) (len : W32) : Answers s (execIncident path tag addr len s) := by
  unfold execIncident
  try dsimp only
  repeat' first
    | with_reducible assumption
    | with_reducible exact Keeps.refl _
    | intro _
    | with_reducible apply Answers.mk
    | with_reducible apply State.frameIncident_keeps
    | split
    | with_reducible apply Keeps.upd

theorem execJudge_keeps (path : Fin 9) (tag : W16) (data : List Byte) : Answers s (execJudge path tag data s) := by
  unfold execJudge
  try dsimp only
  repeat' first
    | with_reducible assumption
    | with_reducible exact Keeps.refl _
    | intro _
    | with_reducible apply Answers.mk
    | with_reducible apply State.frameJudge_keeps
    | split
    | with_reducible apply Keeps.upd

end Sys2Proof.Machine
end

