-- ==== Sys2Proof/WellFormed.lean ====
section
/-!
DEFINITION. Which commands are well formed: what their operand types do not say of lengths, counts and ranges.
-/

namespace Sys2Proof

/-- The length of a command frame's data (R436): a multiple of 4 from 4 to 4,096. -/
def frameLen (n : Nat) : Bool := n % 4 == 0 && decide (4 ≤ n) && decide (n ≤ 4096)

/-- The lengths, counts and ranges of a command's operands lie within what the spec gives them. -/
def WellFormed (c : Instr) : Bool :=
  match c with
  | .registerWrite _ _ _ _ => true
  | .coreAccess _ _ _ _ => true
  | .pcieRequest _ _ _ q => (match q with | .read n => decide (1 ≤ n) && decide (n ≤ 4096) | .write d => decide (1 ≤ d.length) && decide (d.length ≤ 4096))
  | .crossDieMessage _ => true
  | .ssrReqN => true
  | .ssr _ => true
  | .restartReady _ _ _ => true
  | .laneTick => true
  | .laneSourceEvent _ e => (match e with | .position n w => decide (w.toNat < 2 ^ n.val) | .carrierPhase a b => decide (a < b) | _ => true)
  | .laneCfgWrite _ _ _ => true
  | .laneValueRead _ _ => true
  | .laneEpochRead _ _ => true
  | .laneStep _ _ _ => true
  | .laneStepForce _ _ _ => true
  | .gptpHoldover _ => true
  | .laneSourceLost _ => true
  | .cueActionDispatch => true
  | .camTriggerPulseEnd _ => true
  | .cueArm _ => true
  | .cueDisarm _ => true
  | .cueRead _ => true
  | .captureEdge _ _ _ => true
  | .capDataRead _ _ => true
  | .ptpDomCfgWrite _ _ _ => true
  | .fupTimeout _ _ => true
  | .peerDelay _ _ => true
  | .tsDataRead _ => true
  | .launchQueueHead _ _ => true
  | .launchTimeReached _ _ => true
  | .add _ _ => true
  | .sub _ _ => true
  | .and _ _ => true
  | .or _ _ => true
  | .xor _ _ => true
  | .shl _ _ => true
  | .shr _ _ => true
  | .sra _ _ => true
  | .mul _ _ => true
  | .mulhs _ _ => true
  | .mulhu _ _ => true
  | .div _ _ => true
  | .divu _ _ => true
  | .rem _ _ => true
  | .remu _ _ => true
  | .min _ _ => true
  | .max _ _ => true
  | .minu _ _ => true
  | .maxu _ _ => true
  | .mov _ _ => true
  | .cmpEq _ _ => true
  | .cmpNe _ _ => true
  | .cmpLt _ _ => true
  | .cmpLtu _ _ => true
  | .cmpGe _ _ => true
  | .cmpGeu _ _ => true
  | .cmpLat _ _ => true
  | .pset _ _ => true
  | .pget _ _ => true
  | .ldu8 _ _ => true
  | .ldu16 _ _ => true
  | .ldu32 _ _ => true
  | .ld64 _ _ => true
  | .lds8 _ _ => true
  | .lds16 _ _ => true
  | .lds32 _ _ => true
  | .st8 _ _ => true
  | .st16 _ _ => true
  | .st32 _ _ => true
  | .st64 _ _ => true
  | .nop _ _ => true
  | .qry _ _ => true
  | .fence _ _ => true
  | .trap _ _ => true
  | .br _ _ => true
  | .call _ _ => true
  | .jmp _ _ => true
  | .loop _ _ => true
  | .exit _ _ => true
  | .dld _ _ => true
  | .dst _ _ => true
  | .dcpy _ _ => true
  | .dset _ _ => true
  | .dget _ _ => true
  | .dadd _ _ => true
  | .kmatmul _ _ => true
  | .kconv _ _ => true
  | .kpool _ _ => true
  | .kattn _ _ => true
  | .kscan _ _ => true
  | .kcell _ _ => true
  | .kreduce _ _ => true
  | .kact _ _ => true
  | .keltw _ _ => true
  | .knorm _ _ => true
  | .ksoftmax _ _ => true
  | .kgates _ _ => true
  | .kargmax _ _ => true
  | .kcvt _ _ => true
  | .ksconv _ _ => true
  | .ksmatmul _ _ => true
  | .ksargmax _ _ => true
  | .ksreflex _ _ => true
  | .khquery _ _ => true
  | .khstride _ _ => true
  | .khfinish _ _ => true
  | .khmap _ _ => true
  | .kfxform _ _ => true
  | .kfego _ _ => true
  | .kftrack _ _ => true
  | .mcopy _ _ => true
  | .mfill _ _ => true
  | .mraise _ _ => true
  | .mdrop _ _ => true
  | .mpace _ _ => true
  | .menter _ _ => true
  | .tadd _ _ => true
  | .tsub _ _ => true
  | .twait _ _ => true
  | .tread _ _ => true
  | .tarrive _ _ => true
  | .tbarwait _ _ => true
  | .lread _ _ => true
  | .lwait _ _ => true
  | .lwrel _ _ => true
  | .larm _ _ => true
  | .ldisarm _ _ => true
  | .rread _ _ => true
  | .rcoll _ _ => true
  | .rpost _ _ => true
  | .rwait _ _ => true
  | .waitDeadline _ => true
  | .kernelComplete _ _ => true
  | .receiptTake _ => true
  | .kernelFault _ _ _ _ => true
  | .contextTeardown _ => true
  | .tilePassEnd _ _ _ _ _ => true
  | .purseEccError _ _ => true
  | .sprintEccError _ _ => true
  | .mapOut _ _ _ => true
  | .reflexFeaturesArrive _ => true
  | .reflexOutputsArrive _ _ => true
  | .reflexOutputDeadline _ => true
  | .kvAppend _ _ => true
  | .streamRegister _ => true
  | .streamUnregister _ => true
  | .streamReset _ => true
  | .streamFlush _ => true
  | .streamRead _ => true
  | .chunkAdmission => true
  | .streamRaiseComplete _ _ _ => true
  | .streamLowerComplete _ => true
  | .streamStoreEccError _ => true
  | .tellerInval _ _ => true
  | .tellerInvalComplete => true
  | .pageMoveAccept => true
  | .pageMoveComplete _ => true
  | .menterCommit _ => true
  | .nandEntryRewrite _ _ => true
  | .partnerFetchComplete _ _ => true
  | .nandScrub _ _ _ => true
  | .dramScrub _ _ => true
  | .memoryUe _ => true
  | .tellerPageRead _ => true
  | .clearPoison _ => true
  | .poolRegister _ _ _ => true
  | .define _ => true
  | .kill _ => true
  | .startCtxRead _ => true
  | .contextResident _ => true
  | .starterDecision => true
  | .preemptSaveComplete _ _ => true
  | .swapComplete _ _ => true
  | .regulatorRefill => true
  | .budgetOverrun _ => true
  | .startCtlWrite _ _ => true
  | .tallyPortAdd _ _ _ => true
  | .tallyPortSubtract _ _ _ => true
  | .tallyRead _ => true
  | .reclaim _ => true
  | .tmapSet _ => true
  | .tmapClear _ => true
  | .tmapRead _ => true
  | .barDefine _ => true
  | .barUndefine _ => true
  | .rearm _ => true
  | .setMembers _ => true
  | .arrive _ _ => true
  | .barRead _ => true
  | .rwinRegister _ _ _ => true
  | .rwinRegisterComplete _ => true
  | .rwinUnregister _ _ _ => true
  | .collect _ _ => true
  | .watchEnable _ _ _ => true
  | .pacerSampleInstant _ _ => true
  | .pacerExecutionStart _ => true
  | .pacerArm _ _ _ => true
  | .pacerStop _ _ _ => true
  | .pacerSwitch _ _ _ => true
  | .pacerEccError _ _ => true
  | .sdTrip _ _ => true
  | .sdNoClock _ => true
  | .encoderCount _ _ => true
  | .ssiTransferStart _ => true
  | .ssiWordComplete _ _ => true
  | .carrierZero _ _ => true
  | .mailboxCommit _ _ _ _ => true
  | .mailboxFeed _ _ => true
  | .islandHold _ => true
  | .islandRun _ => true
  | .islandResetRelease => true
  | .islandInitComplete => true
  | .pacerHalt _ => true
  | .pacerNop _ => true
  | .pacerLd _ => true
  | .pacerSt _ => true
  | .pacerLdi _ => true
  | .pacerLdk _ => true
  | .pacerMov _ => true
  | .pacerAdd _ => true
  | .pacerSub _ => true
  | .pacerWsub _ => true
  | .pacerNeg _ => true
  | .pacerAbs _ => true
  | .pacerMin _ => true
  | .pacerMax _ => true
  | .pacerMul _ => true
  | .pacerShift _ => true
  | .pacerClamp _ => true
  | .pacerAclr _ => true
  | .pacerAld _ => true
  | .pacerMac _ => true
  | .pacerMsu _ => true
  | .pacerMacx _ => true
  | .pacerAst _ => true
  | .pacerDiv _ => true
  | .pacerSqrt _ => true
  | .pacerSincos _ => true
  | .pacerHyst _ => true
  | .pacerBr _ => true
  | .pacerSetf _ => true
  | .pacerEvt _ => true
  | .fusionAdmit _ => true
  | .retire _ _ => true
  | .sampleIntake _ => true
  | .streamDeparture _ => true
  | .instantRelease => true
  | .transformSwap _ _ => true
  | .fusionEnable _ _ => true
  | .trackerEccError _ _ => true
  | .hurdleEnable _ _ => true
  | .hurdleDisable _ _ => true
  | .stopStrideLoad _ _ => true
  | .batchYield => true
  | .hurdleEccError _ => true
  | .judgeHeartbeat => true
  | .linkLoss => true
  | .aliveToggle => true
  | .aliveLoss => true
  | .copyForward _ _ _ _ _ => true
  | .copyDrop => true
  | .mainFrame _ => true
  | .guardValue _ _ => true
  | .outputDeadline _ => true
  | .verdictDelivery _ => true
  | .fallbackRestartTimeout => true
  | .taskCheckpoint _ => true
  | .taskGapTimeout _ => true
  | .stoDiscrepancy _ _ _ => true
  | .bSide _ => true
  | .ss1Complete _ _ => true
  | .estopInputChange _ _ => true
  | .estopDiscrepancy => true
  | .testPulse _ _ => true
  | .enableInputChange _ _ => true
  | .enableDiscrepancy => true
  | .sportTimeout => true
  | .vinWindowTrip => true
  | .lemquevinFault => true
  | .auditFragment _ => true
  | .auditStepComplete _ l => l.all fun k => decide (k < 2112) || (decide (4096 ≤ k) && decide (k < 4104))
  | .auditAgeExceeded k => decide (k < 2112) || (decide (4096 ≤ k) && decide (k < 4104))
  | .sportFrame b => b.length == 128
  | .sportNop _ => true
  | .status _ _ => true
  | .stop _ _ _ => true
  | .reset _ _ => true
  | .mode _ _ => true
  | .cfgWrite _ _ d => decide (d.length ≤ 112)
  | .cfgCommit _ _ => true
  | .clearCounts _ => true
  | .guardBoot => true
  | .rails _ _ => true
  | .mint => true
  | .selfTest t => decide t.tiles.Nodup
  | .dramTrain _ _ => true
  | .dramTest _ l => decide (l.length ≤ 16)
  | .retention _ l _ => decide (l.length ≤ 16)
  | .settle _ => true
  | .ready _ _ => true
  | .nandTrain _ _ => true
  | .relayLinkTrain _ _ _ => true
  | .swjPgFall => true
  | .imageRecovery _ _ _ => true
  | .pllUnlock _ => true
  | .pairForm _ _ _ _ => true
  | .pairSynced => true
  | .pairHeartbeat _ _ => true
  | .heartbeatLoss _ => true
  | .mirrorRecordApply _ => true
  | .contextCheckpoint _ => true
  | .dutyTakeover _ => true
  | .handover _ => true
  | .take _ => true
  | .leave _ => true
  | .retrain _ _ => true
  | .linkCrcBurst _ _ => true
  | .linkRetrainComplete _ _ _ => true
  | .groupSend _ => true
  | .groupRecv _ _ _ _ => true
  | .imgWrite _ => true
  | .imgFetch _ => true
  | .activate _ => true
  | .imageWriteComplete _ => true
  | .csiPacket _ _ => true
  | .frameReceiptPost _ => true
  | .bridgeFrameReceive _ d _ _ => decide (14 ≤ d.length) && decide (d.length ≤ 9216)
  | .learningAgeOut _ _ => true
  | .gateListAdvance _ => true
  | .streamGateAdvance _ => true
  | .recoveryReset _ => true
  | .busWrite _ _ => true
  | .busRead _ _ => true
  | .entdaa _ l => decide (l.length ≤ 11)
  | .busStop _ => true
  | .busRxRead _ _ => true
  | .inBandInterrupt _ _ _ => true
  | .hotJoin _ _ => true
  | .commandRead _ _ _ n => n.toNat % 4 == 0 && decide (4 ≤ n.toNat) && decide (n.toNat ≤ 4096)
  | .commandWrite _ _ _ d => frameLen d.length
  | .fuse _ _ l => frameLen (2 * l.length) && l.all fun e => decide (e.toNat / 4096 ≤ 3)
  | .image _ _ d => frameLen d.length
  | .incident _ _ a n => n.toNat % 64 == 0 && decide (64 ≤ n.toNat) && decide (n.toNat ≤ 4096) && a.toNat % 64 == 0
  | .judge _ _ d => d.length == 128
  | .hpdQualified _ _ => true
  | .powerSample _ _ => true
  | .capUnmet _ => true
  | .tempSample l => l.length == 8
  | .thermalLimitStep => true
  | .droopTrip _ => true
  | .setColdNext _ => true
  | .clearLearned _ => true
  | .fuseLearned _ => true
  | .mintCommandComplete _ => true
  | .clearAll _ => true
  | .clearOne _ _ => true
  | .clearNotes _ => true
  | .incidentRecordRead _ _ => true
  | .readClear _ _ _ => true
  | .reservedEncoding _ w => Machine.reservedWord w
  | .alwaysOnPowerOn => true
  | .vlqLoss => true
  | .vioDriveChange _ => true
  | .pwmCompareMatch _ _ => true
  | .droopRecover _ _ _ => true
  | .pllRelock _ => true
  | .pcieLinkChange _ _ _ => true
  | .ethLinkChange _ _ _ => true
  | .dutyInFall => true
  | .stoTestOverdue _ => true

end Sys2Proof
end

