-- ==== Sys2Proof/Tests/Slice0.lean ====
section
/-!
SUPPORT. Small tests: ill-formed commands are refused, words of Table 4-23, and for the statements a state and operands
that meet their hypotheses, with what the command leaves there. Expected values are worked out from the rules of the spec.
-/

namespace Sys2Proof.Machine.Tests

open Sys2Proof Sys2Proof.Machine

set_option maxRecDepth 20000
set_option exponentiation.threshold 1024
set_option Elab.async false

/-- The state a command leaves. -/
def after (c : Instr) (s : State) : State := match exec c s with
  | .next t => t
  | _ => s

/-- The state after several register fields have been set. -/
def withFields (s : State) (l : List (Fld × Nat)) : State := l.foldl (fun s e => s.setFld e.1 e.2) s

/-- A piece of the state is as before, as data. -/
def sameB (s t : State) : Part → Bool
  | .mem => t.mem == s.mem && t.overlay == s.overlay && t.lostPages == s.lostPages && t.vaultGen == s.vaultGen && t.dramGen == s.dramGen
  | .reply => t.reply == s.reply
  | .out => t.out == s.out
  | .latch => t.recLatch == s.recLatch
  | .lanes => t.lanes == s.lanes
  | .tally => t.tally == s.tally
  | .ctxs => t.ctxs == s.ctxs
  | .teller => t.teller == s.teller
  | .field => t.field == s.field
  | .starter => t.starter == s.starter
  | .boot => t.boot == s.boot
  | .island => t.island == s.island
  | .net => t.net == s.net
  | .judge => t.judge == s.judge
  | .fusion => t.fusion == s.fusion
  | .hurdle => t.hurdle == s.hurdle
  | .stream => t.stream == s.stream
  | .sprint => t.sprint == s.sprint
  | .relay => t.relay == s.relay
  | .port => t.port == s.port
  | .power => t.power == s.power

/-- The pieces of the state. -/
def allParts : List Part := [.mem, .reply, .out, .latch, .lanes, .tally, .ctxs, .teller, .field, .starter, .boot, .island, .net, .judge,
  .fusion, .hurdle, .stream, .sprint, .relay, .port, .power]

/-- A command answers a next state of which a test holds, and only these registers and pieces of the state differ there. -/
def dz (ks : List Nat) (ps : List Part) (c : Instr) (s : State) (p : State → Bool) : Bool := match exec c s with
  | .next t => p t && (s.regs.filter fun e => !ks.contains e.1) == (t.regs.filter fun e => !ks.contains e.1)
      && (allParts.filter fun x => !ps.contains x).all (sameB s t)
  | _ => false

/-- The Starter runs, context 0 is resident at address 0, and its page 0 is the Vault page 4, readable, writable and executable. -/
def run0 : State := { State.reset.setFld Reg.START_CTL_EN 1 with
  mem := [(0x10000, 1), (0x10002, 2), (0x20000, 1), (0x20002, 3), (0x30000, 7), (0x30002, 4), (0x40108, 0xF0), (0x40109, 0xFF)]
  ctxs := [(0, { stage := .resident, cls := 1, root := 1, sregs := [(1, 7), (2, -3), (4, 0x100)] })] }

/-- An instruction of context 0, selected by P0. -/
def q0 : Issue := ⟨0, false, 0⟩

/-- Operands of FMT_S, FMT_B, FMT_D, FMT_Y with nothing set. -/
def oS : OpS := { sd := 0, sa := 0, sb := 0, pd := 0, immSel := false, imm := 0 }
def oB : OpB := { sd := 0, sa := 0, off := 0 }
def oD : OpD := { dd := 0, da := 0, sd := 0, sa := 0, fsel := 0, immSel := false, imm := 0 }
def oY : OpY := { vt := 0, pd := 0, sd := 0, sa := 0, sb := 0, sc := 0, lane := 0, immSel := false, rl := false
                  deadline := false, imm := 0 }
def oM : OpM := { dd := 0, ds := 0, vt := 0, sr := 0, sa := 0, tally := false, rcpt := false, tier := false, imm := 0 }
def oK : OpK := { dO := 0, dA := 0, dB := 0, dC := 0, vt := 0, sr := 0, sp := 0, rnd := 0, tally := false, rcpt := false
                  accum := false, cplx := false, imm := 0 }

/-- The hypotheses of an issue, from decidable parts. -/
theorem issues_of {s : State} {q : Issue} {m : Mn} {o : NOps} (pa : Nat) (a : s.issuable q.ctx = true)
    (b : s.check q.ctx (s.ctx q.ctx).pc false true false = .ok pa ∧ s.movingAt pa = false)
    (c : s.selected q.ctx q.neg q.sel = true) (d : reservedUse ⟨q.neg, q.sel, m, o⟩ = false) : Issues s q m o :=
  ⟨a, ⟨pa, b.1, b.2⟩, c, d⟩

/-- An instruction of context 0 issues in `run0` when its encoding is no reserved use. -/
theorem issues_run0 {m : Mn} {o : NOps} (d : reservedUse ⟨false, 0, m, o⟩ = false) : Issues run0 q0 m o :=
  issues_of 0x40000 (by decide) (by decide) (by decide) d


theorem quiet_of (s : State) (i : Nat) (x : s.ctxs = []) (p : s.teller.paces = []) (w : ∀ k, k < 16 → s.watches k i = false) : QuietTally s i :=
  ⟨fun c _ _ _ _ _ h => absurd h (by simp [State.ctx, x, mget]), w, fun _ h => by rw [p] at h; nomatch h⟩

theorem alone_of (s : State) (x : ∀ e ∈ s.ctxs, e.2.ops = []) (h : s.hurdle.runs = [] ∧ s.hurdle.load = none)
    (f : s.fusion.xform = none ∧ s.fusion.tracker = none) : Alone s := ⟨x, h.1, h.2, f.1, f.2⟩

/-- A dense tensor of the virtual range (space 0) or an engine's memory (space 2). -/
def dsc (base fmt sp : Nat) (exts : List Nat) : Desc :=
  BitVec.ofNat 512 (base + 2 ^ 48 * fmt + 2 ^ 54 * exts.length + 2 ^ 57 * sp
    + ((exts.foldl (fun (a : Nat × Nat × Nat) e => (a.1 + 2 ^ (128 + 64 * a.2.1) * (e + 2 ^ 32 * a.2.2), a.2.1 + 1, a.2.2 * e)) (0, 0, 1)).1))

/-- Context 0 with one operation outstanding and a wait; window 1 and its Receipts as in `runRcpt`. -/
def runOp (ops : List AsyncOp) (w : Option Wait) : State := { withFields run0 [(Reg.RWIN_BASE_PAGE 1, 8), (Reg.RWIN_CFG_PAGES 1, 1), (Reg.RWIN_CFG_EN 1, 1)] with
  mem := [(0x10000, 1), (0x10002, 2), (0x20000, 1), (0x20002, 3), (0x30000, 7), (0x30002, 4), (0x30008, 7), (0x3000A, 8),
    (0x40400, 3), (0x40401, 0xFE), (0x40408, 5), (0x40409, 7)]
  ctxs := [(0, { stage := .resident, cls := 1, root := 1, ops := ops, wait := w, pwinBase := 0, pwinSize := 4, pwinPos := some 0 })] }
/-- The Lemquevin die runs; these registers and bytes of memory are set. -/
def runJ (l : List (Fld × Nat)) (j : JudgeUnit) (m : Map Byte := []) : State := { withFields State.reset ([(Reg.RWIN_BASE_PAGE 1, 8), (Reg.RWIN_CFG_PAGES 1, 1), (Reg.RWIN_CFG_EN 1, 1), (Reg.RWIN_CFG_MODE 1, 1), (Reg.LANE_CFG_EN 0, 1)] ++ l) with
  boot := { computeReset := false, guardBooted := true, porHigh := true }, island := { reset := false }, judge := j, mem := m }
def up (v : Nat) : Fld × Nat := (⟨Reg.SYS_UPTIME, 0, 64⟩, v)
/-- A kmatmul of two by two INT8 elements that runs, with the Tally 9. -/
def opMul : AsyncOp := { id := 7, unit := .field, mn := .kmatmul, pc := 0x40, dO := dsc 0x500 0x0F 0 [1, 1], dA := dsc 0x400 3 0 [2, 1], dB := dsc 0x408 3 0 [2, 1]
                         k := { oK with dO := 1, dA := 2, dB := 3 }, params := defaultBlock .kmatmul, tally := some 9, state := .running, begun := true, pos := some 0 }

/-! ### Ill-formed commands are refused -/

theorem test_wf_pcie : WellFormed (.pcieRequest 0 false 0 (.read 0)) = false ∧ WellFormed (.pcieRequest 0 false 0 (.read 4097)) = false
    ∧ WellFormed (.pcieRequest 0 false 0 (.write [])) = false ∧ WellFormed (.pcieRequest 0 false 0 (.read 4096)) = true := by decide
theorem test_wf_lane_event : WellFormed (.laneSourceEvent 0 (.position 4 16)) = false ∧
    WellFormed (.laneSourceEvent 0 (.carrierPhase 3 3)) = false ∧ WellFormed (.laneSourceEvent 0 (.position 4 15)) = true := by decide
theorem test_wf_audit : WellFormed (.auditStepComplete 0 [2112]) = false ∧ WellFormed (.auditStepComplete 8 [4104]) = false ∧
    WellFormed (.auditAgeExceeded 2112) = false ∧ WellFormed (.auditStepComplete 0 [2111]) = true := by decide
theorem test_wf_sport : WellFormed (.sportFrame [0]) = false ∧ WellFormed (.cfgWrite false 0 (List.replicate 113 0)) = false := by decide
theorem test_wf_self_test : WellFormed (.selfTest 
    { tiles := [3, 3], engines := 0, vault := none, stream := true, tally := true, voxel := true, tracker := true }) = false := by decide
theorem test_wf_dram : WellFormed (.dramTest 0 (List.replicate 17 (0, 0))) = false ∧
    WellFormed (.retention 0 (List.replicate 17 (0, 0)) []) = false := by decide
theorem test_wf_frame : WellFormed (.bridgeFrameReceive 0 (List.replicate 13 0) none 0) = false ∧
    WellFormed (.bridgeFrameReceive 0 (List.replicate 14 0) none 0) = true ∧
    WellFormed (.entdaa 0 (List.replicate 12 0)) = false := by decide
theorem test_wf_command : WellFormed (.commandRead 0 0 0 6) = false ∧ WellFormed (.commandRead 0 0 0 4100) = false ∧
    WellFormed (.commandWrite 0 0 0 [0]) = false ∧ WellFormed (.image 8 0 []) = false ∧ WellFormed (.commandRead 0 0 0 4096) = true := by decide
theorem test_wf_fuse : WellFormed (.fuse 8 0 [0x0001]) = false ∧ WellFormed (.fuse 8 0 [0x4000, 0]) = false ∧
    WellFormed (.fuse 8 0 [0x3000, 0]) = true := by decide
theorem test_wf_incident : WellFormed (.incident 8 0 0xF0001000 32) = false ∧ WellFormed (.incident 8 0 0xF0001020 64) = false ∧
    WellFormed (.judge 8 0 [0]) = false ∧ WellFormed (.tempSample [0]) = false := by decide
theorem test_wf_reserved : WellFormed (.reservedEncoding 0 0x03010000800000000000000000000015) = false ∧
    WellFormed (.reservedEncoding 0 0x1C020090052200000000000000000001) = true := by decide

/-! ### Worked encodings (Table 4-23) -/

theorem test_word_qry : decodeN 0x03010000800000000000000000000015 = some ⟨false, 0, .qry, .s { oS with sd := 1, imm := 0x15 }⟩ := by
  decide
theorem test_word_twait : decodeN 0x1C020010052200000000000000000001 =
    some ⟨false, 0, .twait, .y { oY with immSel := true, vt := 5, pd := 1, sd := 2, imm := 1 }⟩ := by decide
theorem test_word_br : decodeN 0x08009000000000000000000000000080 = some ⟨true, 1, .br, .b { oB with off := 128 }⟩ ∧
    decodeN 0x0800000000000000FFFFFFFFFFFFFF80 = some ⟨false, 0, .br, .b { oB with off := -128 }⟩ := by decide
theorem test_word_kconv : decodeN 0x100100110314600C0000000000000000 =
    some ⟨false, 0, .kconv, .k { oK with tally := true, dO := 4, dA := 3, dB := 5, dC := 6, vt := 12 }⟩ := by decide
theorem test_word_kact : decodeN 0x11000001040000000000000000000001 =
    some ⟨false, 0, .kact, .k { oK with dO := 4, dA := 4, imm := 1 }⟩ := by decide
theorem test_word_tadd : decodeN 0x1C000030090000000000000000000001 =
    some ⟨false, 0, .tadd, .y { oY with immSel := true, rl := true, vt := 9, imm := 1 }⟩ := by decide
theorem test_encode_kconv : encodeN ⟨false, 0, .kconv, .k { oK with tally := true, dO := 4, dA := 3, dB := 5, dC := 6, vt := 12 }⟩ =
    0x100100110314600C0000000000000000 := by decide


/-! ### Instructions of a context (04) -/

/-- S3 after an ALU instruction of S1 = 7 and S2 = -3. -/
def alu (f : Issue → OpS → Instr) : W64 := (after (f q0 { oS with sd := 3, sa := 1, sb := 2 }) run0).sget 0 3

theorem witness_alu : ∀ m ∈ [Mn.add, .sub, .and, .or, .xor, .shl, .shr, .sra, .mul, .mulhs, .mulhu, .div, .divu, .rem, .remu, .min,
    .max, .minu, .maxu], Issues run0 q0 m (.s { oS with sd := 3, sa := 1, sb := 2 }) :=
  fun m h => issues_run0 ((by decide : ∀ m ∈ [Mn.add, .sub, .and, .or, .xor, .shl, .shr, .sra, .mul, .mulhs, .mulhu, .div, .divu,
    .rem, .remu, .min, .max, .minu, .maxu], reservedUse ⟨false, 0, m, .s { oS with sd := 3, sa := 1, sb := 2 }⟩ = false) m h)
theorem witness_compare : ∀ m ∈ [Mn.cmpEq, .cmpNe, .cmpLt, .cmpLtu, .cmpGe, .cmpGeu, .cmpLat],
    Issues run0 q0 m (.s { oS with pd := 2, sa := 1, sb := 2 }) :=
  fun m h => issues_run0 ((by decide : ∀ m ∈ [Mn.cmpEq, .cmpNe, .cmpLt, .cmpLtu, .cmpGe, .cmpGeu, .cmpLat],
    reservedUse ⟨false, 0, m, .s { oS with pd := 2, sa := 1, sb := 2 }⟩ = false) m h)
theorem witness_mov : Issues run0 q0 .mov (.s { oS with sd := 3, immSel := true, imm := -1 }) ∧
    Issues run0 q0 .pset (.s { oS with pd := 1, sb := 1 }) ∧ Issues run0 q0 .pget (.s { oS with sd := 3 }) :=
  ⟨issues_run0 (by decide), issues_run0 (by decide), issues_run0 (by decide)⟩
theorem witness_reserved_alu : (⟨0, 0, 1, 0, true, 0⟩ : OpS).sb.val ≠ 0 ∧ (⟨1, 0, 0, 0, false, 0⟩ : OpS).sd.val ≠ 0 := by decide

theorem test_add_sub : alu .add = 4 ∧ alu .sub = 10 := by decide
theorem test_logic : alu .and = 5 ∧ alu .or = -1 ∧ alu .xor = -6 := by decide
theorem test_shifts : alu .shl = 7 * 2 ^ 61 ∧ (after (.shr q0 { oS with sd := 3, sa := 2, immSel := true, imm := 65 }) run0).sget 0 3 =
    0x7FFFFFFFFFFFFFFE ∧ (after (.sra q0 { oS with sd := 3, sa := 2, immSel := true, imm := 1 }) run0).sget 0 3 = -2 := by decide
theorem test_products : alu .mul = -21 ∧ alu .mulhs = -1 ∧ alu .mulhu = 6 := by decide
theorem test_divisions : alu .div = -2 ∧ alu .divu = 0 ∧ alu .rem = 1 ∧ alu .remu = 7 := by decide
theorem test_divide_by_zero : (after (.div q0 { oS with sd := 3, sa := 1 }) run0).sget 0 3 = -1 ∧
    (after (.divu q0 { oS with sd := 3, sa := 1 }) run0).sget 0 3 = -1 ∧
    (after (.rem q0 { oS with sd := 3, sa := 1 }) run0).sget 0 3 = 7 ∧
    (after (.remu q0 { oS with sd := 3, sa := 2 }) run0).sget 0 3 = -3 := by decide
theorem test_extremes : alu .min = -3 ∧ alu .max = 7 ∧ alu .minu = 7 ∧ alu .maxu = -3 := by decide
theorem test_mov : (after (.mov q0 { oS with sd := 3, immSel := true, imm := -1 }) run0).sget 0 3 = -1 ∧
    (after (.mov q0 { oS with sd := 0, immSel := true, imm := -1 }) run0).sget 0 0 = 0 := by decide
/-- P2 after a compare of S1 = 7 with S2 = -3. -/
def cmp (f : Issue → OpS → Instr) : Bool := (after (f q0 { oS with pd := 2, sa := 1, sb := 2 }) run0).pget 0 2
theorem test_compares : cmp .cmpEq = false ∧ cmp .cmpNe = true ∧ cmp .cmpLt = false ∧ cmp .cmpLtu = true ∧ cmp .cmpGe = true ∧
    cmp .cmpGeu = false ∧ cmp .cmpLat = true := by decide
theorem test_predicates : (after (.pset q0 { oS with pd := 1, sb := 1 }) run0).pget 0 1 = true ∧
    (after (.pset q0 { oS with pd := 0, sb := 4 }) run0).pget 0 0 = true ∧
    (after (.pget q0 { oS with sd := 3 }) (after (.pset q0 { oS with pd := 1, sb := 1 }) run0)).sget 0 3 = 3 := by decide
theorem test_selected_false : after (.add ⟨0, true, 0⟩ { oS with sd := 3, sa := 1, sb := 2 }) run0 =
    { run0.noteTlb 0 0 with ctxs := (run0.modCtx 0 fun x => { x with pc := 16 }).ctxs } := by decide

theorem witness_load : ∀ m ∈ [Mn.ldu8, .ldu16, .ldu32, .ld64, .lds8, .lds16, .lds32], Issues run0 q0 m (.s { oS with sd := 3, sa := 4, imm := 8 }) :=
  fun m h => issues_run0 ((by decide : ∀ m ∈ [Mn.ldu8, .ldu16, .ldu32, .ld64, .lds8, .lds16, .lds32],
    reservedUse ⟨false, 0, m, .s { oS with sd := 3, sa := 4, imm := 8 }⟩ = false) m h)
theorem witness_store : ∀ m ∈ [Mn.st8, .st16, .st32, .st64], Issues run0 q0 m (.s { oS with sa := 4, sb := 1, imm := 8 }) :=
  fun m h => issues_run0 ((by decide : ∀ m ∈ [Mn.st8, .st16, .st32, .st64],
    reservedUse ⟨false, 0, m, .s { oS with sa := 4, sb := 1, imm := 8 }⟩ = false) m h)
theorem witness_address : run0.check 0 (run0.sget 0 4 + 8) false false false = .ok 0x40108 ∧
    run0.check 0 (run0.sget 0 4 + 8) true false false = .ok 0x40108 ∧ run0.movingAt 0x40108 = false ∧ run0.winAt 0x40108 = none ∧
    (∀ k, k < 64 → run0.winAt (0x40100 + k) = none) ∧ (run0.sget 0 4).toNat % 64 = 0 := by decide
theorem witness_dld : Issues run0 q0 .dld (.d { oD with dd := 5, sa := 4 }) ∧ Issues run0 q0 .dst (.d { oD with da := 5, sa := 4 }) :=
  ⟨issues_run0 (by decide), issues_run0 (by decide)⟩
/-- S3 after a load from the address in S4, plus 8, where F0 FF stand. -/
def ld (f : Issue → OpS → Instr) : W64 := (after (f q0 { oS with sd := 3, sa := 4, imm := 8 }) run0).sget 0 3
theorem test_loads : ld .ldu8 = 0xF0 ∧ ld .lds8 = -16 ∧ ld .ldu16 = 0xFFF0 ∧ ld .lds16 = -16 ∧ ld .ldu32 = 0xFFF0 ∧ ld .lds32 = 0xFFF0 ∧
    ld .ld64 = 0xFFF0 := by decide
/-- The 8 bytes from 0x40108 after a store of S1 = 7. -/
def st (f : Issue → OpS → Instr) : Nat := (after (f q0 { oS with sa := 4, sb := 2, imm := 8 }) run0).natAt 0x40108 8
theorem test_stores : st .st8 = 0xFFFD ∧ st .st16 = 0xFFFD ∧ st .st32 = 0xFFFFFFFD ∧ st .st64 = 0xFFFFFFFFFFFFFFFD := by decide
theorem test_dld : dBase ((after (.dld q0 { oD with dd := 5, sa := 4 }) run0).slot 0 5) = 0 ∧
    ((after (.dld q0 { oD with dd := 5, sa := 4 }) run0).slot 0 5).extractLsb' 64 16 = 0xFFF0 := by decide
theorem test_dst : (after (.dst q0 { oD with da := 5, sa := 4 }) run0).natAt 0x40100 64 = 0 := by decide

theorem witness_branches : Issues run0 q0 .br (.b { oB with off := -16 }) ∧ Issues run0 q0 .call (.b { oB with sd := 3, off := 32 }) ∧
    Issues run0 q0 .jmp (.b { oB with sa := 4 }) ∧ Issues run0 q0 .loop (.b { oB with sa := 1, off := 64 }) ∧
    Issues run0 q0 .nop (.s oS) ∧ Issues run0 q0 .qry (.s { oS with sd := 3, imm := 0xFF }) :=
  ⟨issues_run0 (by decide), issues_run0 (by decide), issues_run0 (by decide), issues_run0 (by decide), issues_run0 (by decide),
    issues_run0 (by decide)⟩
theorem test_br : ((after (.br q0 { oB with off := -16 }) run0).ctx 0).pc = -16 ∧
    ((after (.call q0 { oB with sd := 3, off := 32 }) run0).ctx 0).pc = 32 ∧
    (after (.call q0 { oB with sd := 3, off := 32 }) run0).sget 0 3 = 16 ∧
    ((after (.jmp q0 { oB with sa := 4, off := 16 }) run0).ctx 0).pc = 0x110 := by decide
theorem test_loop : ((after (.loop q0 { oB with sa := 1, off := 64 }) run0).ctx 0).pc = 64 ∧
    (after (.loop q0 { oB with sa := 1, off := 64 }) run0).sget 0 1 = 6 := by decide
theorem test_nop_qry : ((after (.nop q0 oS) run0).ctx 0).pc = 16 ∧
    (after (.qry q0 { oS with sd := 3, imm := 0x15 }) run0).sget 0 3 = 131072 ∧
    (after (.qry q0 { oS with sd := 3, imm := 0xFF }) run0).sget 0 3 = 0 := by decide
theorem witness_descriptors : Issues run0 q0 .dcpy (.d { oD with dd := 5, da := 6 }) ∧
    Issues run0 q0 .dset (.d { oD with dd := 5, fsel := 0, sa := 2 }) ∧ Issues run0 q0 .dget (.d { oD with da := 5, sd := 3, fsel := 0 }) ∧
    Issues run0 q0 .dadd (.d { oD with dd := 5, immSel := true, imm := -1 }) ∧ (fselOf 0).isSome = true :=
  ⟨issues_run0 (by decide), issues_run0 (by decide), issues_run0 (by decide), issues_run0 (by decide), by decide⟩
theorem test_descriptors : dBase ((after (.dadd q0 { oD with dd := 5, immSel := true, imm := -1 }) run0).slot 0 5) = 2 ^ 48 - 1 ∧
    dBase ((after (.dset q0 { oD with dd := 5, fsel := 0, sa := 2 }) run0).slot 0 5) = 2 ^ 48 - 3 ∧
    (after (.dget q0 { oD with da := 5, sd := 3, fsel := 0 }) (after (.dset q0 { oD with dd := 5, fsel := 0, sa := 4 }) run0)).sget 0 3 =
      0x100 ∧ (after (.dcpy q0 { oD with dd := 6, da := 5 }) run0).slot 0 6 = 0 := by decide


/-! ### Fences, Tallies, Lanes and Receipts of a context (03, 04) -/

/-- `run0` with a Teller move outstanding. -/
def runMove : State := run0.modCtx 0 fun x => { x with ops := [{ id := 0, unit := .teller, mn := .mraise, pc := 0 }] }

theorem no_waits (s : State) (h : s.ctxs = run0.ctxs) (d : Nat) : (s.ctx d).wait = none := by
  unfold State.ctx
  rw [h]
  simp only [run0, mget]
  split <;> rfl

theorem witness_fence : Issues runMove q0 .fence (.s { oS with imm := 0x1F }) ∧ Issues run0 q0 .fence (.s oS) ∧ (run0.ctx 0).ops = [] ∧
    ∃ p ∈ (runMove.ctx 0).ops, (0x1F : W64).getLsbD (State.fenceBit p.unit) = true :=
  ⟨issues_of 0x40000 (by decide) (by decide) (by decide) (by decide), issues_run0 (by decide), by decide,
    ⟨_, List.mem_singleton.2 rfl, by decide⟩⟩
theorem test_fence : ((after (.fence q0 { oS with imm := 0x1B }) runMove).ctx 0).pc = 16 ∧
    ((after (.fence q0 { oS with imm := 0x04 }) runMove).ctx 0).wait = some (.fence 4 .nothing) ∧
    ((after (.fence q0 oS) runMove).ctx 0).pc = 0 := by decide

theorem witness_faults : Issues run0 q0 .trap (.s { oS with imm := 0xFFFF }) ∧ Issues run0 q0 .ld64 (.s { oS with sd := 3, sa := 4, imm := 4 }) ∧
    Issues run0 q0 .ldu32 (.s { oS with sd := 3, sa := 4, imm := 2 }) ∧ Issues run0 q0 .st64 (.s { oS with sa := 4, sb := 1, imm := 1 }) ∧
    Issues run0 q0 .st16 (.s { oS with sa := 4, sb := 1, imm := 1 }) ∧ Issues run0 q0 .br (.b { oB with off := 8 }) ∧
    Issues run0 q0 .exit (.b oB) ∧ (run0.sget 0 4).toNat % 8 = 0 :=
  ⟨issues_run0 (by decide), issues_run0 (by decide), issues_run0 (by decide), issues_run0 (by decide), issues_run0 (by decide),
    issues_run0 (by decide), issues_run0 (by decide), by decide⟩
theorem witness_reserved_word : run0.issuable 0 = true ∧ (run0.check 0 0 false true false = .ok 0x40000 ∧ run0.movingAt 0x40000 = false) ∧
    run0.selected 0 false 0 = true ∧ reservedWord 0x1C020090052200000000000000000001 = true := by decide
theorem test_faults : ((after (.trap q0 { oS with imm := 0xFFFF }) run0).ctx 0).fault.map (fun f => (f.code, f.detail, f.imprecise)) =
      some (0x0D, 0xFFFF, false) ∧
    ((after (.reservedEncoding 0 0x1C020090052200000000000000000001) run0).ctx 0).fault.map (fun f => (f.code, f.detail)) =
      some (1, 0x1C02009005220000) ∧
    ((after (.ld64 q0 { oS with sd := 3, sa := 4, imm := 4 }) run0).ctx 0).fault.map (fun f => (f.code, f.vaddr)) = some (3, 0x104) ∧
    ((after (.br q0 { oB with off := 8 }) run0).ctx 0).fault.map (fun f => (f.code, f.vaddr, f.pc)) = some (3, 8, 0) := by decide
theorem test_exit : ((after (.exit q0 oB) run0).ctx 0).td = some .exit ∧ ((after (.exit q0 oB) run0).ctx 0).job = false := by decide

/-- Identifier 5 names Tally 9, which counts 4, and identifier 6 slot 63 of the mask barrier 2. -/
def runTally : State := ((((run0.setTally 9 { state := .owned, owner := some 0, count := 4, events := 4 }).setMapEnt 0 5 (some (.tally 9 true))).setMapEnt
  0 6 (some (.barrier 2 63))).setBar 2 { kind := some .mask, members := 0x8000000000000001 })

theorem issues_tally {m : Mn} {o : NOps} (d : reservedUse ⟨false, 0, m, o⟩ = false) : Issues runTally q0 m o :=
  issues_of 0x40000 (by decide) (by decide) (by decide) d
theorem quiet_tally : QuietTally runTally 9 :=
  ⟨fun c _ _ _ _ _ h => absurd ((no_waits runTally rfl c).symm.trans h) (by simp), by decide, fun _ hp => nomatch hp⟩
/-- Operands that name a number in IMM. -/
def oN (vt : Fin 4096) (n : W32) : OpY := { oY with vt := vt, immSel := true, imm := n }
theorem witness_tally : Issues runTally q0 .tread (.y { oY with vt := 7, sd := 3 }) ∧ runTally.mapEnt 0 7 = none ∧
    Issues runTally q0 .tread (.y { oY with vt := 5, sd := 3 }) ∧ Issues runTally q0 .tadd (.y (oN 5 0xFFFFFFFF)) ∧
    Issues runTally q0 .tsub (.y (oN 5 5)) ∧ Issues runTally q0 .twait (.y { oN 5 4 with pd := 1, sd := 3 }) ∧
    Issues runTally q0 .twait (.y { oN 5 5 with pd := 1, sd := 3, deadline := true, lane := 15 }) ∧
    runTally.mapEnt 0 5 = some (.tally 9 true) ∧ QuietTally runTally 9 ∧ (runTally.tallyOf 9).state ≠ .forfeit :=
  ⟨issues_tally (by decide), by decide, issues_tally (by decide), issues_tally (by decide), issues_tally (by decide),
    issues_tally (by decide), issues_tally (by decide), by decide, quiet_tally, by decide⟩
theorem witness_forfeit : ((runTally.setTally 9 { state := .forfeit }).tallyOf 9).state = .forfeit ∧
    (runTally.setTally 9 { state := .forfeit }).issuable 0 = true := by decide
theorem witness_barrier : runTally.mapEnt 0 6 = some (.barrier 2 63) ∧ (∀ d, (runTally.ctx d).wait = none) ∧
    (runTally.barOf 2).members.getLsbD 63 = true ∧ Issues runTally q0 .tarrive (.y { oY with vt := 6 }) ∧
    Issues runTally q0 .tbarwait (.y { oY with vt := 6, pd := 1, sd := 3 }) :=
  ⟨by decide, no_waits runTally rfl, by decide, issues_tally (by decide), issues_tally (by decide)⟩
theorem test_tally_instructions : (after (.tread q0 { oY with vt := 5, sd := 3 }) runTally).sget 0 3 = 4 ∧
    ((after (.tread q0 { oY with vt := 7, sd := 3 }) runTally).ctx 0).fault.map (fun f => (f.code, f.detail)) = some (0x0B, 7) ∧
    (after (.tadd q0 (oN 5 0xFFFFFFFF)) runTally).tallyOf 9 = { state := .owned, owner := some 0, count := -1, events := 0x100000003 } ∧
    (after (.tsub q0 (oN 5 5)) runTally).tallyOf 9 = { state := .owned, owner := some 0, count := 0, events := 4 } := by decide
theorem test_twait : (after (.twait q0 { oN 5 4 with pd := 1, sd := 3 }) runTally).pget 0 1 = true ∧
    ((after (.twait q0 { oN 5 5 with pd := 1, sd := 3 }) runTally).ctx 0).wait = some (.tally 9 5 1 3 none) ∧
    (after (.twait q0 { oN 5 5 with pd := 1, sd := 3, deadline := true, lane := 15 }) runTally).sget 0 3 = 3 ∧
    (after (.twait q0 { oN 5 0 with pd := 1, sd := 3 }) (runTally.setTally 9 { state := .forfeit })).sget 0 3 = 1 := by decide
theorem test_barriers : ((after (.tarrive q0 { oY with vt := 6 }) runTally).barOf 2).arrived = 0x8000000000000000 ∧
    ((after (.tbarwait q0 { oY with vt := 6, pd := 1, sd := 3 }) runTally).ctx 0).wait = some (.bar 2 0 1 3 none) ∧
    ((after (.tbarwait q0 { oY with vt := 6, pd := 1, sd := 3 })
      (runTally.setBar 2 { kind := some .mask, members := 1 <<< 63 })).barOf 2).phase = 1 ∧
    (after (.tbarwait q0 { oY with vt := 6, pd := 1, sd := 3 }) (runTally.setBar 2 { kind := some .mask, broken := true })).sget 0 3 = 2 := by
  decide

/-- At 0x40200 stands the block of a larm of Lane 15: target 2^62, arg 0x15, action 3, one fire; S5 points to it, S6 names Cue 4095. -/
def runLane : State := { run0 with
  mem := run0.mem ++ [(0x40207, 0x40), (0x40210, 0x15), (0x40216, 1), (0x40218, 3)]
  ctxs := [(0, { stage := .resident, cls := 1, root := 1, relPend := true, sregs := [(5, 0x200), (6, 4095), (7, 1)] })] }
theorem issues_lane {m : Mn} {o : NOps} (d : reservedUse ⟨false, 0, m, o⟩ = false) : Issues runLane q0 m o :=
  issues_of 0x40000 (by decide) (by decide) (by decide) d
theorem witness_lane : Issues runLane q0 .lread (.y { oY with sd := 3, lane := 15 }) ∧
    Issues runLane q0 .lwait (.y { oY with pd := 1, sd := 3, lane := 15 }) ∧ 0 ≤ (runLane.laneVal 15 - runLane.sget 0 0).toInt ∧
    Issues runLane q0 .lwait (.y { oY with sa := 7, pd := 1, sd := 3, lane := 15 }) ∧ (runLane.laneVal 15 - runLane.sget 0 7).toInt < 0 ∧
    Issues runLane q0 .lwrel (.y { oY with pd := 1, sd := 3 }) ∧ Issues run0 q0 .lwrel (.y { oY with pd := 1, sd := 3 }) :=
  ⟨issues_lane (by decide), issues_lane (by decide), by decide, issues_lane (by decide), by decide, issues_lane (by decide),
    issues_run0 (by decide)⟩
theorem witness_larm : Issues runLane q0 .larm (.y { oY with sd := 3, sa := 5, sc := 6, lane := 15 }) ∧
    Reaches runLane 0 (runLane.sget 0 5) 32 false 0x40200 ∧ runLane.winAt 0x40200 = none ∧ runLane.natAt 0x40200 32 / 2 ^ 192 % 16 = 3 ∧
    runLane.natAt 0x40200 32 / 2 ^ 197 = 0 ∧ runLane.natAt 0x40200 32 / 2 ^ 176 % 2 ^ 16 = 1 ∧
    (runLane.laneVal 15 - BitVec.ofNat 64 (runLane.natAt 0x40200 32 % 2 ^ 64)).toInt < 0 ∧
    Issues runLane q0 .ldisarm (.y { oY with sd := 3, sc := 6 }) ∧ (runLane.cue 4095).armed = false :=
  ⟨issues_lane (by decide), ⟨by decide, by decide, by decide, by decide⟩, by decide, by decide, by decide, by decide, by decide,
    issues_lane (by decide), by decide⟩
theorem test_lane_instructions : (after (.lread q0 { oY with sd := 3, lane := 15 }) (runLane.setReg (Reg.LANE_VALUE 15) 77)).sget 0 3 = 77 ∧
    (after (.lwait q0 { oY with pd := 1, sd := 3, lane := 15 }) runLane).pget 0 1 = true ∧
    ((after (.lwait q0 { oY with sa := 7, pd := 1, sd := 3, lane := 15 }) runLane).ctx 0).wait = some (.lane 15 1 1 3) ∧
    ((after (.lwrel q0 { oY with pd := 1, sd := 3 }) runLane).ctx 0).job = true ∧
    ((after (.lwrel q0 { oY with pd := 1, sd := 3 }) run0).ctx 0).wait = some (.lwrel 1 3 none) := by decide
theorem test_larm : (after (.larm q0 { oY with sd := 3, sa := 5, sc := 6, lane := 15 }) runLane).cue 4095 =
      { armed := true, lane := 15, target := 1 <<< 62, action := 3, arg := 0x15, rep := 1, owner := some 0 } ∧
    ((after (.ldisarm q0 { oY with sd := 3, sc := 6 }) (runLane.setCue 4095 { armed := true, owner := some 0 })).cue 4095).armed = false ∧
    (after (.ldisarm q0 { oY with sd := 3, sc := 6 }) (runLane.setCue 4095 { armed := true, owner := some 1 })).sget 0 3 = 3 := by decide

/-- Window 1 is registered with one page from the Vault page 8; identifier of the context's page 1. Receipt 1 is POSTED at 5. -/
def runRcpt : State := { withFields run0 [(Reg.RWIN_BASE_PAGE 1, 8), (Reg.RWIN_CFG_PAGES 1, 1), (Reg.RWIN_CFG_EN 1, 1)] with
  mem := [(0x10000, 1), (0x10002, 2), (0x20000, 1), (0x20002, 3), (0x30000, 7), (0x30002, 4), (0x30008, 7), (0x3000A, 8),
    (0x80000, 2), (0x80008, 5), (0x8000F, 0x40)]
  ctxs := [(0, { stage := .resident, cls := 1, root := 1, sregs := [(5, 0x10000), (6, 0x10008), (7, 4)] })] }
theorem issues_rcpt {m : Mn} {o : NOps} (d : reservedUse ⟨false, 0, m, o⟩ = false) : Issues runRcpt q0 m o :=
  issues_of 0x40000 (by decide) (by decide) (by decide) d
theorem witness_receipts : runRcpt.check 0 (runRcpt.sget 0 6) false false false = .ok 0x80008 ∧ runRcpt.rcptWin 0x80008 = some 1 ∧
    runRcpt.rcptWin 0x80000 = some 1 ∧ runRcpt.overMode 1 = false ∧ runRcpt.natAt 0x80000 8 / 2 ^ 62 = 0 ∧
    runRcpt.natAt 0x80008 8 / 2 ^ 62 = 1 ∧ later62 (runRcpt.natAt 0x80008 8) 4 = true ∧ runRcpt.holder 0x80000 = none := by decide
theorem witness_receipt_issues : Issues runRcpt q0 .rread (.y { oY with sd := 3, sa := 6 }) ∧
    Issues runRcpt q0 .rcoll (.y { oY with sd := 3, sa := 6 }) ∧ Issues runRcpt q0 .rpost (.y { oY with sa := 5 }) ∧
    Issues runRcpt q0 .rwait (.y { oY with pd := 1, sd := 3, sa := 6, sc := 7 }) ∧
    Issues runRcpt q0 .rwait (.y { oY with pd := 1, sd := 3, sa := 5, sc := 7 }) :=
  ⟨issues_rcpt (by decide), issues_rcpt (by decide), issues_rcpt (by decide), issues_rcpt (by decide), issues_rcpt (by decide)⟩
theorem test_receipts : (after (.rread q0 { oY with sd := 3, sa := 6 }) runRcpt).sget 0 3 = 0x4000000000000005 ∧
    (after (.rcoll q0 { oY with sd := 3, sa := 6 }) runRcpt).natAt 0x80008 8 = 0x8000000000000005 ∧
    (after (.rpost q0 { oY with sa := 5 }) runRcpt).natAt 0x80000 8 = 0x4000000000000003 ∧
    (after (.rpost q0 { oY with sa := 5 }) runRcpt).natAt 0x90000 8 = 0 := by decide
theorem test_rwait : (after (.rwait q0 { oY with pd := 1, sd := 3, sa := 6, sc := 7 }) runRcpt).pget 0 1 = true ∧
    ((after (.rwait q0 { oY with pd := 1, sd := 3, sa := 5, sc := 7 }) runRcpt).ctx 0).wait = some (.rcpt 0x80000 4 1 3 none) := by decide


/-! ### Lanes, Cues, captures and network time (02) -/

theorem calm_of (s : State) (c : s.lanes.cues = []) (x : s.ctxs = []) : Calm s :=
  ⟨fun i => by simp [State.cue, c, mget], fun d n v pd sd => by simp [State.ctx, x, mget]⟩

/-- Lane 0 is enabled, a SOC Lane whose value is one step below its wrap. -/
def laneOn (n src idx : Nat) (v : W64) : State :=
  (withFields State.reset [(Reg.LANE_CFG_EN n, 1), (Reg.LANE_CFG_SRC n, src), (Reg.LANE_CFG_SRC_IDX n, idx)]).setReg (Reg.LANE_VALUE n) v
theorem witness_calm : Calm State.reset ∧ Calm (laneOn 0 0 0 0xFFFFFFFFFFFFFFFF) ∧ Calm (laneOn 15 5 3 0) :=
  ⟨calm_of _ rfl rfl, calm_of _ rfl rfl, calm_of _ rfl rfl⟩
theorem test_lane_tick : dz (Reg.SYS_UPTIME :: (List.range 16).flatMap laneRegs) [.lanes, .starter] .laneTick
    ((laneOn 0 0 0 0xFFFFFFFFFFFFFFFF).setReg (Reg.LANE_INCR 0) (2 ^ 34))
    (fun t => t.uptime == 5 && t.laneVal 0 == 0x3FFFFFFFF && t.reg (Reg.LANE_EPOCH 0) == 1 && t.laneVal 1 == 0) = true := by decide
theorem test_lane_events :
    dz (laneRegs 15) [.lanes] (.laneSourceEvent 15 .pulseEdge) (laneOn 15 5 3 7) (fun t => t.laneVal 15 == 0x100000000 &&
      t.fld (Reg.LANE_STAT_RUN 15) == 1) = true ∧
    dz (laneRegs 3) [.lanes] (.laneSourceEvent 3 .frameStart) (laneOn 3 4 7 0xFFFFFFFFFFFFFFFF) (fun t => t.laneVal 3 == 0) = true ∧
    dz (laneRegs 3) [.lanes] (.laneSourceEvent 3 (.carrierPhase 1 3)) (laneOn 3 3 11 0x155555555) (fun t => t.laneVal 3 == 0x155555555) = true ∧
    dz (laneRegs 3) [.lanes] (.laneSourceEvent 3 .carrierPeriod) (laneOn 3 3 11 0x155555555) (fun t => t.laneVal 3 == 0x200000000) = true := by
  decide
theorem test_lane_encoder :
    dz (laneRegs 3) [.lanes] (.laneSourceEvent 3 (.count true)) (((laneOn 3 2 1 5).setFld (Reg.ENC_CFG_MODE 1) 1).setReg (Reg.LANE_INCR 3) 2)
      (fun t => t.laneVal 3 == 3) = true ∧
    dz (laneRegs 3) [.lanes] (.laneSourceEvent 3 (.position 12 0x801)) ((laneOn 3 2 1 5).setFld (Reg.ENC_CFG_MODE 1) 3)
      (fun t => t.laneVal 3 == 0x80100000) = true := by decide

theorem witness_lane_registers : State.reset.canRead 0 = true ∧ State.reset.holds 0 5 = true ∧ State.reset.holds 34 6 = true ∧
    State.hwPath 34 = true ∧ State.hwPath 0 = true ∧ State.reset.holds 0 6 = true ∧ State.hwPath 18 = false ∧
    (laneOn 3 1 2 0).flag (Reg.LANE_CFG_EN 3) = true ∧ (laneOn 3 1 2 0).fld (Reg.LANE_CFG_SRC 3) = 1 := by decide
theorem test_lane_reads : dz [] [.lanes, .reply] (.laneValueRead 0 3) ((laneOn 3 0 0 9).setReg (Reg.LANE_EPOCH 3) 4)
      (fun t => t.reply == { req := 0, value := 9 } && t.epochSeen 0 3 == 4) = true ∧
    dz [] [.lanes, .reply] (.laneEpochRead 0 3) ((laneOn 3 0 0 9).setReg (Reg.LANE_EPOCH 3) 4)
      (fun t => t.reply == { req := 0, value := 4 }) = true := by decide
theorem test_lane_steps :
    dz (laneRegs 3) [] (.laneStep 0 3 0xFFFFFFFF00000000) ((laneOn 3 0 0 9).setFld (Reg.LANE_STEP_LIM_LIMIT 3) 1)
      (fun t => t.laneVal 3 == 0xFFFFFFFF00000009) = true ∧
    dz ([Reg.LANE_STAT 3, Reg.INC_CNT 7] ++ (List.range 8).map (Reg.INC_REC 7)) [] (.laneStep 0 3 0x100000001)
      ((laneOn 3 0 0 9).setFld (Reg.LANE_STEP_LIM_LIMIT 3) 1)
      (fun t => t.fld (Reg.LANE_STAT_JUMP_REFUSED 3) == 1 && t.fld (Reg.INC_CNT_COUNT 7) == 1) = true ∧
    dz (laneRegs 3) [] (.laneStepForce 0 3 5) (laneOn 3 0 0 9) (fun t => t.laneVal 3 == 14) = true ∧
    dz (denyRegs 18) [] (.laneStepForce 18 3 5) (laneOn 3 0 0 9) (fun t => t.fld (Reg.PORT_DENY_CNT_COUNT 18) == 1) = true := by decide
theorem test_lane_loss :
    dz (Reg.LANE_STAT 3 :: (List.range 64).map Reg.FSTR_STAT) [] (.laneSourceLost 3) (laneOn 3 2 0 9)
      (fun t => t.fld (Reg.LANE_STAT_SRC_LOST 3) == 1 && t.fld (Reg.LANE_STAT_RUN 3) == 0) = true ∧
    dz [Reg.LANE_STAT 3, Reg.PTP_DOM_STAT 2] [] (.gptpHoldover 3) (laneOn 3 1 2 9) (fun t => t.fld (Reg.LANE_STAT_HOLDOVER 3) == 1) = true := by
  decide
theorem test_lane_cfg : dz (Reg.LANE_CFG 3 :: laneRegs 3) [.lanes] (.laneCfgWrite 0 3 0x80FF0000) State.reset
      (fun t => t.flag (Reg.LANE_CFG_EN 3) && t.fld (Reg.LANE_CFG_DEBOUNCE 3) == 255 && t.laneVal 3 == 0) = true ∧
    dz [Reg.LANE_STAT 3] [] (.laneCfgWrite 0 3 6) State.reset (fun t => t.fld (Reg.LANE_STAT_CFG_ERR 3) == 1) = true := by decide

/-- Requester 0 has staged, for Cue 4095, an action on Lane 3 with one fire and a target. -/
def staged (act past : Nat) (target : W64) : State := ((withFields (laneOn 3 0 0 9)
  [(Fld.of Reg.CUE_SEL_INDEX 0, 4095), (Fld.of Reg.CUE_CFG_LANE 0, 3), (Fld.of Reg.CUE_CFG_ACTION 0, act),
   (Fld.of Reg.CUE_CFG_REPEAT 0, 1), (Fld.of Reg.CUE_CFG_PAST_DROP 0, past)]).setReg (stg 0 Reg.CUE_TARGET) target)
theorem witness_cues : (staged 3 0 10).holds 0 5 = true ∧ ((staged 3 0 10).stagedCue 0).action = 3 ∧ ((staged 3 0 10).stagedCue 0).rep = 1 ∧
    mget (fun _ => none) (staged 3 0 10).lanes.armLast 4095 = none ∧ ((staged 3 0 10).cue 4095).armed = false ∧
    ((staged 8 0 10).stagedCue 0).action = 8 ∧
    (((staged 3 0 10).setCue 4095 { armed := true, owner := some 1 }).cue 4095).owner ≠ none := by decide
theorem test_cue_arm : dz [stg 0 Reg.CUE_STAT] [.lanes] (.cueArm 0) (staged 3 0 10) (fun t => (t.cue 4095).armed && (t.cue 4095).target == 10 &&
      t.lanes.fired == [] && t.fld (Fld.of Reg.CUE_STAT_ERR 0) == 0) = true ∧
    dz [stg 0 Reg.CUE_STAT] [.lanes] (.cueArm 0) (staged 3 0 9) (fun t => !(t.cue 4095).armed && (t.cue 4095).late &&
      t.lanes.fired == [⟨4095, 3, 0⟩]) = true ∧
    dz [stg 0 Reg.CUE_STAT] [.lanes] (.cueArm 0) (staged 0 1 9) (fun t => !(t.cue 4095).armed && t.lanes.fired == [] &&
      t.fld (Fld.of Reg.CUE_STAT_ERR 0) == 4) = true ∧
    dz [stg 0 Reg.CUE_STAT] [] (.cueArm 0) (staged 8 0 9) (fun t => t.fld (Fld.of Reg.CUE_STAT_ERR 0) == 1) = true := by decide
theorem test_cue_disarm : dz [stg 0 Reg.CUE_STAT] [.lanes] (.cueDisarm 0) ((staged 3 0 10).setCue 4095 { armed := true, target := 77, arg := 5 })
      (fun t => t.cue 4095 == { armed := false, target := 77, arg := 5 }) = true ∧
    dz [stg 0 Reg.CUE_STAT] [] (.cueDisarm 0) ((staged 3 0 10).setCue 4095 { armed := true, owner := some 1 })
      (fun t => t.fld (Fld.of Reg.CUE_STAT_ERR 0) == 3) = true ∧
    dz ([Reg.CUE_CFG, Reg.CUE_TARGET, Reg.CUE_STEP, Reg.CUE_ARG, Reg.CUE_DIV, Reg.CUE_STAT].map (stg 0)) [] (.cueRead 0)
      ((staged 3 0 10).setCue 4095 { armed := true, target := 77, arg := 5 })
      (fun t => t.reg (stg 0 Reg.CUE_TARGET) == 77 && t.reg (stg 0 Reg.CUE_ARG) == 5 && t.fld (Fld.of Reg.CUE_STAT_ARMED 0) == 1) = true := by decide

/-- A state in which an action has fired. -/
def fired1 (a : Nat) (arg : W32) : State := { State.reset with lanes := { fired := [⟨9, a, arg⟩, ⟨8, 0, 0⟩] }, boot := { computeReset := false } }
theorem witness_dispatch : NoStreams (fired1 1 0xFFFF3FFF) ∧ ((fired1 1 0xFFFF3FFF).tallyOf 16383).state ≠ .forfeit ∧
    QuietTally (fired1 1 0xFFFF3FFF) 16383 ∧ ((fired1 2 5).ctx 5).stage = .undefined ∧ (fired1 2 5).boot.computeReset = false :=
  ⟨by unfold NoStreams; decide, by decide, quiet_of _ _ rfl rfl (by decide), by decide, by decide⟩
theorem test_dispatch : dz [] [.lanes] .cueActionDispatch (fired1 0 0) (fun t => t.lanes.fired == [⟨8, 0, 0⟩]) = true ∧
    dz [] [.lanes, .tally] .cueActionDispatch (fired1 1 0xFFFF3FFF) (fun t => t.tallyOf 16383 == { count := 65535, events := 65535 }) = true ∧
    dz [] [.lanes] .cueActionDispatch (fired1 2 5) (fun t => (t.cue 9).missed == 1) = true ∧
    dz [Reg.CAP_STAT 31] [.lanes] .cueActionDispatch ((fired1 3 0x1F03).setFld (Reg.CAP_CFG_EN 31) 1) (fun t => t.fifo 31 == [0]) = true := by
  decide

/-- Capture unit 31 follows the rising edges of input 16 on Lane 3. -/
def capOn (l : List W64) : State :=
  (withFields (laneOn 3 2 0 9) [(Reg.CAP_CFG_EN 31, 1), (Reg.CAP_CFG_INPUT 31, 16), (Reg.CAP_CFG_EDGE 31, 1), (Reg.CAP_CFG_LANE 31, 3)]).setFifo 31 l
theorem witness_capture : NoStreams (capOn []) ∧ (capOn []).flag (Reg.CAP_CFG_EN 31) = true ∧ (capOn []).fld (Reg.CAP_CFG_INPUT 31) = 16 ∧
    (capOn []).canRead 0 = true ∧ (capOn [5, 6]).fifo 31 = [5, 6] ∧ 8 ≤ ((capOn (List.replicate 8 1)).fifo 31).length := by
  unfold NoStreams; decide
theorem test_capture : dz ((List.range 32).map Reg.CAP_STAT) [.lanes] (.captureEdge 16 true 3) (capOn [5]) (fun t => t.fifo 31 == [5, 9]) = true ∧
    dz ((List.range 32).map Reg.CAP_STAT) [.lanes] (.captureEdge 16 true 0) (capOn (List.replicate 8 1))
      (fun t => t.fifo 31 == List.replicate 8 1 && t.fld (Reg.CAP_STAT_OVF 31) == 1) = true ∧
    dz ((List.range 32).map Reg.CAP_STAT) [.lanes] (.captureEdge 16 false 0) (capOn [5]) (fun t => t.fifo 31 == [5]) = true ∧
    dz [Reg.CAP_STAT 31] [.lanes, .reply] (.capDataRead 0 31) (capOn [5, 6])
      (fun t => t.reply == { req := 0, value := 5 } && t.fifo 31 == [6]) = true := by decide

/-- Port 3's only frame waits with a launch value while Lane 15 is at 9. -/
def queued1 (l : Option W64) (h : Bool) : State := (withFields (laneOn 15 0 0 9)
  [(Reg.LAUNCH_CFG_EN 3, 1), (Reg.LAUNCH_CFG_LANE 3, 15),
  (Reg.LAUNCH_CFG_MAX_AHEAD 3, 0)]).setQueue 3 [⟨7, l, h, List.replicate 60 1⟩]
theorem witness_network : (laneOn 3 1 2 0).holds 0 5 = true ∧ (laneOn 3 1 2 0).flag (Reg.LANE_CFG_EN 3) = true ∧
    (laneOn 3 1 2 0).fld (Reg.LANE_CFG_SRC_IDX 3) = 2 ∧
    ((State.reset.setFld Reg.TC_CFG_PDELAY_EN 8).fld Reg.TC_CFG_PDELAY_EN).testBit 3 = true ∧
    (queued1 none false).queueOf 3 = [⟨7, none, false, List.replicate 60 1⟩] ∧
    (queued1 none false).flag (Reg.NET_PORT_CFG_GATE_EN 3) = false ∧ (queued1 (some 9) false).flag (Reg.LAUNCH_CFG_EN 3) = true := by decide
theorem test_network : dz [Reg.PTP_DOM_CFG 2, Reg.PTP_DOM_STAT 2] [] (.ptpDomCfgWrite 0 2 0x83000090) (laneOn 3 1 2 0)
      (fun t => t.flag (Reg.PTP_DOM_CFG_EN 2) && t.fld (Reg.PTP_DOM_CFG_LANE 2) == 3 && t.fld (Reg.PTP_DOM_CFG_PORT_MASK 2) == 9) = true ∧
    dz [Reg.PTP_DOM_STAT 1] [] (.ptpDomCfgWrite 0 1 0x83000090) (laneOn 3 1 2 0) (fun t => t.fld (Reg.PTP_DOM_STAT_CFG_ERR 1) == 1) = true ∧
    dz [Reg.TC_STAT] [.net] (.fupTimeout 3 65535) { State.reset with net := { held := [⟨3, 65535, 0, 0, 5⟩] } }
      (fun t => t.net.held == [] && t.fld Reg.TC_STAT_FUP_EXPIRED == 1) = true ∧
    dz [Reg.PTP_PDELAY 3] [] (.peerDelay 3 77) (State.reset.setFld Reg.TC_CFG_PDELAY_EN 8) (fun t => t.reg (Reg.PTP_PDELAY 3) == 77) = true ∧
    dz [] [.net, .reply] (.tsDataRead 0) { State.reset with net := { ts := [(1, 2), (3, 4)] } }
      (fun t => t.reply == { req := 0, value := 2 } && t.net.ts == [(3, 4)]) = true := by decide
theorem test_launch :
    dz [] [.net, .out] (.launchQueueHead 3 7) (queued1 (some 9) false) (fun t => t.queueOf 3 == [] && t.out.length == 1) = true ∧
    dz [] [.net, .out] (.launchTimeReached 3 7) (queued1 (some 0) true) (fun t => t.queueOf 3 == [] && t.out.length == 1) = true ∧
    dz [] [.net] (.launchQueueHead 3 7) (queued1 (some 10) false) (fun t => (t.queueOf 3).map (·.held) == [true]) = true ∧
    dz [Reg.LAUNCH_STAT 3] [.net] (.launchQueueHead 3 7) (queued1 (some (9 + 2 ^ 32 * 10000000)) false)
      (fun t => t.queueOf 3 == [] && t.fld (Reg.LAUNCH_STAT_DROP_AHEAD 3) == 1) = true ∧
    dz [Reg.LAUNCH_STAT 3] [.net] (.launchQueueHead 3 7) (queued1 (some 8) false)
      (fun t => t.queueOf 3 == [] && t.fld (Reg.LAUNCH_STAT_DROP_LATE 3) == 1) = true := by decide

/-! ### Asynchronous instructions (03, 04) -/

theorem reread_tlb (s : State) (c : Nat) (va : W64) : Reread s (s.noteTlb c va) := by
  unfold State.noteTlb
  split <;> exact ⟨⟨fun _ _ => rfl, fun p _ => by cases p <;> first | rfl | (intro; rfl) | simp_all⟩, rfl, rfl, rfl, rfl⟩
theorem same_trans {s t u : State} {p : Part} (a : p.same s t) (b : p.same t u) : p.same s u := by
  cases p <;> first | exact fun x => (b x).trans (a x) | exact Eq.trans b a
theorem reread_trans {s t u : State} (a : Reread s t) (b : Reread t u) : Reread s u :=
  ⟨⟨fun k h => (b.only.regs k h).trans (a.only.regs k h), fun p h => same_trans (a.only.parts p h) (b.only.parts p h)⟩,
    by rw [b.teller, a.teller], b.counters.1.trans a.counters.1, b.counters.2.1.trans a.counters.2.1, b.counters.2.2.trans a.counters.2.2⟩

/-- The accesses of a read at issue. -/
def accs (s : State) (c va n : Nat) : State.TAcc :=
  State.accAll ((State.onePerPage ((List.range n).map fun k => ((va + k : Nat) : Int))).map (s.ledAcc c false false))
theorem read_ok {s : State} {c va n : Nat} (h : accs s c va n = State.TAcc.ok) (f : List Byte → State → State) :
    s.issueRead c va n f = f (s.ctxBytes c va n) (s.noteTlb c (BitVec.ofNat 64 va)) := by
  unfold State.issueRead; unfold accs at h; rw [h]

/-- What a kernel without a Tally and a Receipt must pass, as a test; `u` is the state after its reads. -/
def acceptB (s u : State) (c : Nat) (m : Mn) (o : OpK) (blk ext : List Byte) : Bool :=
  let k := kernelIn s c m o blk ext
  (needs m).all s.present && !decide (spUse m = .required ∧ o.sp.val = 0) && !badBlock (kernelIn s c m o blk [])
    && (u.badState c k).isNone && decide (o.rnd.val ≤ 4) && (!intOnly k || o.rnd.val == 0) && !badImm m o.imm.toNat
    && !o.tally && !o.rcpt && ((kDescs k).find? fun e => !descOk e.2).isNone && (firstMisfit k (shapesOk k)).isNone
    && !decide ((k.mn = .kscan ∨ k.mn = .kcell) ∧ (!u.chunkFits k) = true) && (firstFmt k).isNone
    && (u.lostUnit c k).isNone && decide ((s.ctx c).ops.length < 16)
theorem accepted {s u v : State} {q : Issue} {m : Mn} {o : OpK} {blk ext : List Byte} (i : Issues s q m (.k o))
    (r : Reread s v) (b : ∀ f, (s.fetched q).withBlock q.ctx m o f = f blk v)
    (e : ∀ f, v.withExtra q.ctx (kernelIn s q.ctx m o blk []) f = f ext u) (ru : Reread s u)
    (a : acceptB s u q.ctx m o blk ext = true) : Accepted s q m o blk ext none none u := by
  simp only [acceptB, Bool.and_eq_true, List.all_eq_true, Bool.not_eq_true', Bool.or_eq_true, decide_eq_true_eq, decide_eq_false_iff_not,
    Option.isNone_iff_eq_none, beq_iff_eq] at a
  obtain ⟨⟨⟨⟨⟨⟨⟨⟨⟨⟨⟨⟨⟨⟨h1, h2⟩, h3⟩, h4⟩, h5⟩, h6⟩, h7⟩, h8⟩, h9⟩, h10⟩, h11⟩, h12⟩, h13⟩, h14⟩, h15⟩ := a
  refine ⟨i, h1, ⟨v, r, b, e⟩, ru, ⟨h2, h3⟩, h4, ⟨h5, ?_⟩, h7, ⟨by simp [h8], by simp [h9]⟩, fun f => ?_, h14, h15⟩
  · intro t; rcases h6 with h | h
    · rw [h] at t; contradiction
    · exact h
  · unfold State.checkTensors
    simp only [h10, h11, h13]
    rw [if_neg (by simpa using h12)]

/-- A kernel that reads nothing at issue. -/
theorem accepted_plain {s : State} {q : Issue} {m : Mn} {o : OpK} (i : Issues s q m (.k o)) (n : spUse m = .none ∨ o.sp.val = 0)
    (e : m ≠ .kattn ∧ m ≠ .kscan ∧ m ≠ .kcell) (a : acceptB s (s.fetched q) q.ctx m o (defaultBlock m) [] = true) :
    Accepted s q m o (defaultBlock m) [] none none (s.fetched q) :=
  accepted (v := s.fetched q) i (reread_tlb _ _ _) (fun f => by unfold State.withBlock; rw [if_pos n])
    (fun f => by
      unfold State.withExtra kernelIn
      obtain ⟨a, b, c⟩ := e
      cases m <;> first | rfl | contradiction) (reread_tlb _ _ _) a

/-- A kernel that reads only its parameter block. -/
theorem accepted_block {s : State} {q : Issue} {m : Mn} {o : OpK} {va : Nat} {blk : List Byte} (i : Issues s q m (.k o))
    (n : ¬ (spUse m = .none ∨ o.sp.val = 0)) (hv : (s.fetched q).sget q.ctx o.sp = BitVec.ofNat 64 va) (hs : va < 2 ^ 64) (h64 : va % 64 = 0)
    (ha : accs (s.fetched q) q.ctx va (blockLen m) = State.TAcc.ok) (hb : (s.fetched q).ctxBytes q.ctx va (blockLen m) = blk)
    (hf : ((blockVas m { mn := m, o := o, dO := 0, dA := 0, dB := 0, dC := 0, blk := blk }).find? fun v => v % 64 != 0) = none)
    (e : (m = .kattn → isPaged (kernelIn s q.ctx m o blk []) = false) ∧ (m = .kscan ∨ m = .kcell → pf (kernelIn s q.ctx m o blk []) 64 48 = 0))
    (a : acceptB s ((s.fetched q).noteTlb q.ctx (BitVec.ofNat 64 va)) q.ctx m o blk [] = true) :
    Accepted s q m o blk [] none none ((s.fetched q).noteTlb q.ctx (BitVec.ofNat 64 va)) := by
  have r := reread_trans (reread_tlb s q.ctx (s.ctx q.ctx).pc) (reread_tlb (s.fetched q) q.ctx (BitVec.ofNat 64 va))
  refine accepted i r (fun f => ?_) (fun f => ?_) r a
  · unfold State.withBlock
    rw [if_neg n]
    have t : ((s.fetched q).sget q.ctx o.sp).toNat = va := by rw [hv]; simp; omega
    simp only [t, h64]
    rw [if_neg (by simp), read_ok ha, hb]
    simp only [hf]
  · unfold State.withExtra
    obtain ⟨x, y⟩ := e
    cases m <;> first | rfl | skip
    · have z := x rfl
      simp only [kernelIn] at z ⊢
      simp [z]
    · have z := y (Or.inl rfl)
      simp only [kernelIn] at z ⊢
      simp [z]
    · have z := y (Or.inr rfl)
      simp only [kernelIn] at z ⊢
      simp [z]

/-- Context 0 with kernel operands in the slots 1 to 4 and a parameter block at 0x8000, which S9 names. -/
def runK (dO dA dB dC : Desc) (blk : Nat) (len : Nat) : State := { run0.setFld Reg.HURDLE_CTL_EN 1 with
  mem := run0.mem ++ ((toBytes len blk).zipIdx.filter fun e => e.1 != 0).map fun e => (0x48000 + e.2, e.1)
  boot := { run0.boot with computeReset := false }
  ctxs := [(0, { stage := .resident, cls := 1, root := 1, sregs := [(9, 0x8000)], descs := [(1, dO), (2, dA), (3, dB), (4, dC)].filter fun e => e.2 != 0 })] }
def opK (b c sp : Nat) (imm : W32) : OpK := { oK with dO := 1, dA := 2, dB := Fin.ofNat _ b, dC := Fin.ofNat _ c, sp := Fin.ofNat _ sp, imm := imm }

/-- What context 0 must pass before its instruction's own checks. -/
def goB (s : State) (m : Mn) (o : NOps) : Bool := s.issuable 0 && decide (s.check 0 (s.ctx 0).pc false true false = .ok 0x40000)
  && !s.movingAt 0x40000 && s.selected 0 false 0 && !reservedUse ⟨false, 0, m, o⟩
theorem issues_go {s : State} {m : Mn} {o : NOps} (i : goB s m o = true) : Issues s q0 m o := by
  simp only [goB, Bool.and_eq_true, decide_eq_true_eq, Bool.not_eq_true'] at i
  obtain ⟨⟨⟨⟨a, b⟩, c⟩, d⟩, e⟩ := i
  exact issues_of (q := q0) 0x40000 a ⟨b, c⟩ d e
/-- A kernel that reads nothing at issue; one that reads its block, which spells `v`. -/
theorem plain {s : State} {m : Mn} {o : OpK} (i : (goB s m (.k o) && decide ((spUse m = .none ∨ o.sp.val = 0) ∧ m ≠ .kattn ∧ m ≠ .kscan ∧ m ≠ .kcell)
      && acceptB s (s.fetched q0) 0 m o (defaultBlock m) []) = true) :
    Accepted s q0 m o (defaultBlock m) [] none none (s.fetched q0) := by
  simp only [Bool.and_eq_true, decide_eq_true_eq] at i
  exact accepted_plain (issues_go i.1.1) i.1.2.1 i.1.2.2 i.2
theorem block {s : State} {m : Mn} {o : OpK} (v : Nat) (i : (goB s m (.k o)
      && decide (¬ (spUse m = .none ∨ o.sp.val = 0)) && decide ((s.fetched q0).sget 0 o.sp = 0x8000)
      && decide (accs (s.fetched q0) 0 0x8000 (blockLen m) = .ok) && (s.fetched q0).ctxBytes 0 0x8000 (blockLen m) == toBytes (blockLen m) v
      && ((blockVas m { mn := m, o := o, dO := 0, dA := 0, dB := 0, dC := 0, blk := toBytes (blockLen m) v }).find? fun v => v % 64 != 0).isNone
      && decide ((m = .kattn → isPaged (kernelIn s 0 m o (toBytes (blockLen m) v) []) = false) ∧
        (m = .kscan ∨ m = .kcell → pf (kernelIn s 0 m o (toBytes (blockLen m) v) []) 64 48 = 0))
      && acceptB s ((s.fetched q0).noteTlb 0 0x8000) 0 m o (toBytes (blockLen m) v) []) = true) :
    ∃ u, Accepted s q0 m o (toBytes (blockLen m) v) [] none none u := by
  simp only [Bool.and_eq_true, decide_eq_true_eq, Option.isNone_iff_eq_none, beq_iff_eq] at i
  obtain ⟨⟨⟨⟨⟨⟨⟨e, f⟩, g⟩, h⟩, j⟩, k⟩, l⟩, n⟩ := i
  exact ⟨_, accepted_block (va := 0x8000) (issues_go e) f g (by decide) (by decide) h j k l n⟩

theorem alone_runK (dO dA dB dC : Desc) (v n : Nat) : Alone (runK dO dA dB dC v n) :=
  alone_of _ (fun e h => by rw [List.mem_singleton.1 h]) ⟨rfl, rfl⟩ ⟨rfl, rfl⟩
/-- How the only operation of context 0 stands once a kernel has been issued. -/
def outcome (c : Instr) (s : State) : List (Mn × OpState) := ((after c s).ctx 0).ops.map fun o => (o.mn, o.state)

theorem witness_kmatmul : Accepted (runK (dsc 0x500 0x0F 0 [2, 2]) (dsc 0x400 3 0 [2, 2]) (dsc 0x400 3 0 [2, 2]) 0 0 0) q0 .kmatmul (opK 3 0 0 0) (defaultBlock .kmatmul) [] none none
    ((runK (dsc 0x500 0x0F 0 [2, 2]) (dsc 0x400 3 0 [2, 2]) (dsc 0x400 3 0 [2, 2]) 0 0 0).fetched q0) := plain (by decide +kernel)
theorem witness_kconv : Accepted (runK (dsc 0x500 0x0F 0 [1, 1, 1, 1]) (dsc 0x400 3 0 [1, 1, 1, 1]) (dsc 0x400 3 0 [1, 1, 1, 1]) 0 0 0) q0 .kconv (opK 3 0 0 0) (defaultBlock .kconv) [] none none
    ((runK (dsc 0x500 0x0F 0 [1, 1, 1, 1]) (dsc 0x400 3 0 [1, 1, 1, 1]) (dsc 0x400 3 0 [1, 1, 1, 1]) 0 0 0).fetched q0) := plain (by decide +kernel)
theorem witness_kpool : Accepted (runK (dsc 0x500 3 0 [1, 1, 1, 1]) (dsc 0x400 3 0 [1, 2, 2, 1]) 0 0 0 0) q0 .kpool (opK 0 0 0 0) (defaultBlock .kpool) [] none none
    ((runK (dsc 0x500 3 0 [1, 1, 1, 1]) (dsc 0x400 3 0 [1, 2, 2, 1]) 0 0 0 0).fetched q0) := plain (by decide +kernel)
theorem witness_kreduce : Accepted (runK (dsc 0x500 3 0 [1]) (dsc 0x400 3 0 [2]) 0 0 0 0) q0 .kreduce (opK 0 0 0 3) (defaultBlock .kreduce) [] none none
    ((runK (dsc 0x500 3 0 [1]) (dsc 0x400 3 0 [2]) 0 0 0 0).fetched q0) := plain (by decide +kernel)
theorem witness_kact : Accepted (runK (dsc 0x500 3 0 [2]) (dsc 0x400 3 0 [2]) 0 0 0 0) q0 .kact (opK 0 0 0 8) (defaultBlock .kact) [] none none
    ((runK (dsc 0x500 3 0 [2]) (dsc 0x400 3 0 [2]) 0 0 0 0).fetched q0) := plain (by decide +kernel)
theorem witness_keltw : Accepted (runK (dsc 0x500 3 0 [2]) (dsc 0x400 3 0 [2]) (dsc 0x400 3 0 [2]) 0 0 0) q0 .keltw (opK 3 0 0 5) (defaultBlock .keltw) [] none none
    ((runK (dsc 0x500 3 0 [2]) (dsc 0x400 3 0 [2]) (dsc 0x400 3 0 [2]) 0 0 0).fetched q0) := plain (by decide +kernel)
theorem witness_knorm : Accepted (runK (dsc 0x500 0x0D 0 [2]) (dsc 0x400 0x0D 0 [2]) 0 0 0 0) q0 .knorm (opK 0 0 0 1) (defaultBlock .knorm) [] none none
    ((runK (dsc 0x500 0x0D 0 [2]) (dsc 0x400 0x0D 0 [2]) 0 0 0 0).fetched q0) := plain (by decide +kernel)
theorem witness_ksoftmax : Accepted (runK (dsc 0x500 0x0D 0 [2]) (dsc 0x400 0x0D 0 [2]) 0 0 0 0) q0 .ksoftmax (opK 0 0 0 0) (defaultBlock .ksoftmax) [] none none
    ((runK (dsc 0x500 0x0D 0 [2]) (dsc 0x400 0x0D 0 [2]) 0 0 0 0).fetched q0) := plain (by decide +kernel)
theorem witness_kargmax : Accepted (runK (dsc 0x500 0x0F 0 [1]) (dsc 0x400 3 0 [2]) 0 0 0 0) q0 .kargmax (opK 0 0 0 0) (defaultBlock .kargmax) [] none none
    ((runK (dsc 0x500 0x0F 0 [1]) (dsc 0x400 3 0 [2]) 0 0 0 0).fetched q0) := plain (by decide +kernel)
theorem witness_kcvt : Accepted (runK (dsc 0x500 0x0D 0 [2]) (dsc 0x400 3 0 [2]) 0 0 0 0) q0 .kcvt (opK 0 0 0 0) (defaultBlock .kcvt) [] none none
    ((runK (dsc 0x500 0x0D 0 [2]) (dsc 0x400 3 0 [2]) 0 0 0 0).fetched q0) := plain (by decide +kernel)
theorem witness_ksconv : Accepted (runK (dsc 0x500 0x0F 0 [1, 1, 1, 1]) (dsc 0x400 3 0 [1, 1, 1, 1]) (dsc 0x400 3 0 [1, 1, 1, 1]) 0 0 0) q0 .ksconv (opK 3 0 0 0) (defaultBlock .ksconv) [] none none
    ((runK (dsc 0x500 0x0F 0 [1, 1, 1, 1]) (dsc 0x400 3 0 [1, 1, 1, 1]) (dsc 0x400 3 0 [1, 1, 1, 1]) 0 0 0).fetched q0) := plain (by decide +kernel)
theorem witness_ksmatmul : Accepted (runK (dsc 0x500 0x0F 0 [2, 2]) (dsc 0x400 3 0 [2, 2]) (dsc 0x400 3 0 [2, 2]) 0 0 0) q0 .ksmatmul (opK 3 0 0 0) (defaultBlock .ksmatmul) [] none none
    ((runK (dsc 0x500 0x0F 0 [2, 2]) (dsc 0x400 3 0 [2, 2]) (dsc 0x400 3 0 [2, 2]) 0 0 0).fetched q0) := plain (by decide +kernel)
theorem witness_ksargmax : Accepted (runK (dsc 0x500 0x0F 0 [1]) (dsc 0x400 3 0 [2]) 0 0 0 0) q0 .ksargmax (opK 0 0 0 0) (defaultBlock .ksargmax) [] none none
    ((runK (dsc 0x500 0x0F 0 [1]) (dsc 0x400 3 0 [2]) 0 0 0 0).fetched q0) := plain (by decide +kernel)
theorem witness_kattn : ∃ u, Accepted (runK (dsc 0x500 0x0B 0 [16, 1, 1, 1]) (dsc 0x400 0x0B 0 [16, 1, 1, 1]) (dsc 0x400 0x0B 0 [16, 1, 1, 1]) (dsc 0x400 0x0B 0 [16, 1, 1, 1]) 0 64) q0 .kattn (opK 3 4 9 0) (toBytes 64 0) [] none none u :=
  block 0 (by decide +kernel)
theorem witness_kgates : ∃ u, Accepted (runK (dsc 0x500 0x0D 0 [2, 1]) (dsc 0x400 0x0D 0 [4, 1]) (dsc 0x400 0x0D 0 [2, 1]) 0 0 64) q0 .kgates (opK 3 0 9 0) (toBytes 64 0) [] none none u :=
  block 0 (by decide +kernel)
theorem witness_kscan : ∃ u, Accepted (runK (dsc 0x500 0x0D 0 [1, 1, 1]) (dsc 0x400 3 0 [1, 1, 1]) (dsc 0x400 3 0 [1, 2]) (dsc 0x400 4 0 [1, 1]) 2 64) q0 .kscan (opK 3 4 9 0) (toBytes 64 2) [] none none u :=
  block 2 (by decide +kernel)
theorem witness_kcell : ∃ u, Accepted (runK (dsc 0x500 0x0D 0 [1, 1, 1]) (dsc 0x400 3 0 [1, 1, 1]) (dsc 0x400 3 0 [2, 4]) (dsc 0x400 4 0 [1, 1]) 0 64) q0 .kcell (opK 3 4 9 0) (toBytes 64 0) [] none none u :=
  block 0 (by decide +kernel)
theorem witness_khquery : ∃ u, Accepted (runK (dsc 0x500 4 0 [72]) (dsc 0x400 0x0D 0 [4, 1]) 0 0 (2 ^ 480 * 0x3F800000) 128) q0 .khquery (opK 0 0 9 0) (toBytes 128 (2 ^ 480 * 0x3F800000)) [] none none u :=
  block (2 ^ 480 * 0x3F800000) (by decide +kernel)
theorem witness_khstride : ∃ u, Accepted (runK (dsc 0x500 4 0 [144]) (dsc 0x400 4 0 [16]) 0 0 (2 ^ 480 * 0x3F800000) 128) q0 .khstride (opK 0 0 9 0) (toBytes 128 (2 ^ 480 * 0x3F800000)) [] none none u :=
  block (2 ^ 480 * 0x3F800000) (by decide +kernel)
theorem witness_khmap : ∃ u, Accepted (runK 0 (dsc 0x400 4 0 [8]) 0 0 0 64) q0 .khmap ({ opK 0 0 9 0 with dO := 0 }) (toBytes 64 0) [] none none u :=
  block 0 (by decide +kernel)
theorem witness_khfinish : ∃ u, Accepted (runK (dsc 0x500 4 0 [64]) (dsc 0x400 4 0 [64]) 0 0 (2 ^ 480 * 0x3F800000 + 2 ^ 704 * 15) 128) q0 .khfinish (opK 0 0 9 0) (toBytes 128 (2 ^ 480 * 0x3F800000 + 2 ^ 704 * 15)) [] none none u :=
  block (2 ^ 480 * 0x3F800000 + 2 ^ 704 * 15) (by decide +kernel)
theorem witness_kfego : ∃ u, Accepted (runK (dsc 0x500 4 0 [64]) (dsc 0x400 0x0D 0 [7, 3]) 0 0 (1 + 2 ^ 32 * 0x3F800000) 64) q0 .kfego (opK 0 0 9 0) (toBytes 64 (1 + 2 ^ 32 * 0x3F800000)) [] none none u :=
  block (1 + 2 ^ 32 * 0x3F800000) (by decide +kernel)
theorem witness_kftrack : ∃ u, Accepted (runK (dsc 0x500 4 0 [131136]) (dsc 0x400 4 0 [64]) 0 0 (2 ^ 64 + 2 ^ 72) 64) q0 .kftrack (opK 0 0 9 1) (toBytes 64 (2 ^ 64 + 2 ^ 72)) [] none none u :=
  block (2 ^ 64 + 2 ^ 72) (by decide +kernel)
theorem test_kernels_a : outcome (.kmatmul q0 (opK 3 0 0 0)) (runK (dsc 0x500 0x0F 0 [2, 2]) (dsc 0x400 3 0 [2, 2]) (dsc 0x400 3 0 [2, 2]) 0 0 0) = [(.kmatmul, .ready)] ∧
    outcome (.kconv q0 (opK 3 0 0 0)) (runK (dsc 0x500 0x0F 0 [1, 1, 1, 1]) (dsc 0x400 3 0 [1, 1, 1, 1]) (dsc 0x400 3 0 [1, 1, 1, 1]) 0 0 0) = [(.kconv, .ready)] ∧
    outcome (.kpool q0 (opK 0 0 0 0)) (runK (dsc 0x500 3 0 [1, 1, 1, 1]) (dsc 0x400 3 0 [1, 2, 2, 1]) 0 0 0 0) = [(.kpool, .ready)] ∧
    outcome (.kreduce q0 (opK 0 0 0 3)) (runK (dsc 0x500 3 0 [1]) (dsc 0x400 3 0 [2]) 0 0 0 0) = [(.kreduce, .ready)] ∧
    outcome (.kact q0 (opK 0 0 0 8)) (runK (dsc 0x500 3 0 [2]) (dsc 0x400 3 0 [2]) 0 0 0 0) = [(.kact, .ready)] ∧
    outcome (.keltw q0 (opK 3 0 0 5)) (runK (dsc 0x500 3 0 [2]) (dsc 0x400 3 0 [2]) (dsc 0x400 3 0 [2]) 0 0 0) = [(.keltw, .ready)] ∧
    outcome (.knorm q0 (opK 0 0 0 1)) (runK (dsc 0x500 0x0D 0 [2]) (dsc 0x400 0x0D 0 [2]) 0 0 0 0) = [(.knorm, .ready)] := by decide +kernel
theorem test_kernels_b : outcome (.ksoftmax q0 (opK 0 0 0 0)) (runK (dsc 0x500 0x0D 0 [2]) (dsc 0x400 0x0D 0 [2]) 0 0 0 0) = [(.ksoftmax, .ready)] ∧
    outcome (.kargmax q0 (opK 0 0 0 0)) (runK (dsc 0x500 0x0F 0 [1]) (dsc 0x400 3 0 [2]) 0 0 0 0) = [(.kargmax, .ready)] ∧
    outcome (.kcvt q0 (opK 0 0 0 0)) (runK (dsc 0x500 0x0D 0 [2]) (dsc 0x400 3 0 [2]) 0 0 0 0) = [(.kcvt, .ready)] ∧
    outcome (.ksconv q0 (opK 3 0 0 0)) (runK (dsc 0x500 0x0F 0 [1, 1, 1, 1]) (dsc 0x400 3 0 [1, 1, 1, 1]) (dsc 0x400 3 0 [1, 1, 1, 1]) 0 0 0) = [(.ksconv, .ready)] ∧
    outcome (.ksmatmul q0 (opK 3 0 0 0)) (runK (dsc 0x500 0x0F 0 [2, 2]) (dsc 0x400 3 0 [2, 2]) (dsc 0x400 3 0 [2, 2]) 0 0 0) = [(.ksmatmul, .ready)] ∧
    outcome (.ksargmax q0 (opK 0 0 0 0)) (runK (dsc 0x500 0x0F 0 [1]) (dsc 0x400 3 0 [2]) 0 0 0 0) = [(.ksargmax, .ready)] := by decide +kernel
theorem test_kernels_c : outcome (.kattn q0 (opK 3 4 9 0)) (runK (dsc 0x500 0x0B 0 [16, 1, 1, 1]) (dsc 0x400 0x0B 0 [16, 1, 1, 1]) (dsc 0x400 0x0B 0 [16, 1, 1, 1]) (dsc 0x400 0x0B 0 [16, 1, 1, 1]) 0 64) = [(.kattn, .ready)] ∧
    outcome (.kgates q0 (opK 3 0 9 0)) (runK (dsc 0x500 0x0D 0 [2, 1]) (dsc 0x400 0x0D 0 [4, 1]) (dsc 0x400 0x0D 0 [2, 1]) 0 0 64) = [(.kgates, .ready)] ∧
    outcome (.kscan q0 (opK 3 4 9 0)) (runK (dsc 0x500 0x0D 0 [1, 1, 1]) (dsc 0x400 3 0 [1, 1, 1]) (dsc 0x400 3 0 [1, 2]) (dsc 0x400 4 0 [1, 1]) 2 64) = [(.kscan, .ready)] ∧
    outcome (.kcell q0 (opK 3 4 9 0)) (runK (dsc 0x500 0x0D 0 [1, 1, 1]) (dsc 0x400 3 0 [1, 1, 1]) (dsc 0x400 3 0 [2, 4]) (dsc 0x400 4 0 [1, 1]) 0 64) = [(.kcell, .ready)] := by decide +kernel
theorem test_kernels_d : outcome (.khmap q0 ({ opK 0 0 9 0 with dO := 0 })) (runK 0 (dsc 0x400 4 0 [8]) 0 0 0 64) = [(.khmap, .running)] ∧
    outcome (.kfego q0 (opK 0 0 9 0)) (runK (dsc 0x500 4 0 [64]) (dsc 0x400 0x0D 0 [7, 3]) 0 0 (1 + 2 ^ 32 * 0x3F800000) 64) = [(.kfego, .running)] ∧
    outcome (.kftrack q0 (opK 0 0 9 1)) (runK (dsc 0x500 4 0 [131136]) (dsc 0x400 4 0 [64]) 0 0 (2 ^ 64 + 2 ^ 72) 64) = [(.kftrack, .running)] := by decide +kernel

/-- The frame 63 of bank 0 is valid; engine 7 holds a binding of context 0 for channel 0 of Pacer 0. -/
def runX (dO dA : Desc) (blk : Nat) : State := { runK dO dA 0 0 blk 144 with
  fusion := { tables := [(State.frameOff 0 63 + 49, 1)] }
  sprint := { binds := [(7, some { ctx := 0, pacer := 0, mask := 1, params := [], base := 0, len := 0 })] } }
theorem witness_kfxform : Accepted (runX (dsc 0x500 0x0D 0 [3, 1]) (dsc 0x400 0x0D 0 [3, 1]) 0) q0 .kfxform (opK 0 0 0 63) (defaultBlock .kfxform) []
    none none ((runX (dsc 0x500 0x0D 0 [3, 1]) (dsc 0x400 0x0D 0 [3, 1]) 0).fetched q0) := plain (by decide +kernel)
/-- A ksreflex that stops the binding. -/
def stopBlk : Nat := 0x10 + 2 ^ 11 + 2 ^ 16 * 64 + 2 ^ 128 * 4
theorem witness_ksreflex : ∃ u, Accepted (runX (dsc 0x40 4 2 [16]) (dsc 0x400 4 0 [16]) stopBlk) q0 .ksreflex (opK 0 0 9 0) (toBytes 144 stopBlk) []
    none none u := block stopBlk (by decide +kernel)
theorem test_kernels_e : outcome (.kfxform q0 (opK 0 0 0 63)) (runX (dsc 0x500 0x0D 0 [3, 1]) (dsc 0x400 0x0D 0 [3, 1]) 0) = [(.kfxform, .running)] ∧
    outcome (.ksreflex q0 (opK 0 0 9 0)) (runX (dsc 0x40 4 2 [16]) (dsc 0x400 4 0 [16]) stopBlk) = [(.ksreflex, .running)] := by decide +kernel

/-- A MOVE without a Tally and a Receipt passes its checks: as a test, and as MovesAreHandedOver asks it. -/
def moveB (s : State) (m : Mn) (o : OpM) : Bool :=
  let t := s.fetched q0
  let ds := t.moveDescs 0 m o
  goB s m (.m o) && (needs m).all s.present && !o.tally && !o.rcpt && (ds.find? fun e => !descOk e.2).isNone
    && !decide (m = .mcopy ∧ dExts (t.slot 0 o.dd.val) ≠ dExts (t.slot 0 o.ds.val))
    && (ds.find? fun e => dSparse e.2 || (m == .mfill && isMx (dFmt e.2))).isNone
    && !decide (m = .mcopy ∧ dFmt (t.slot 0 o.dd.val) ≠ dFmt (t.slot 0 o.ds.val))
theorem move_ok {s : State} {m : Mn} {o : OpM} (h : moveB s m o = true) : Issues s q0 m (.m o) ∧ (∀ b ∈ needs m, s.present b = true) ∧
    Completes s 0 o.tally o.rcpt o.vt o.sr none none ∧ ∀ f, (s.fetched q0).checkMove 0 m o f = f := by
  simp only [moveB, Bool.and_eq_true, List.all_eq_true, Bool.not_eq_true', decide_eq_false_iff_not, Option.isNone_iff_eq_none] at h
  obtain ⟨⟨⟨⟨⟨⟨⟨a, b⟩, c⟩, d⟩, e⟩, f⟩, g⟩, i⟩ := h
  refine ⟨issues_go a, b, ⟨by simp [c], by simp [d]⟩, fun z => ?_⟩
  unfold State.checkMove
  simp only [e, g]
  rw [if_neg f, if_neg i]
/-- Context 0 with two descriptors of two INT8 elements, and at 0x8040 a pace schedule of one page at event 1 of its Tally 9 (identifier 5). -/
def runM : State := ((({ run0 with
  mem := run0.mem ++ [(0x48040, 1), (0x48042, 5), (0x48088, 1), (0x4808A, 1), (0x4808C, 1)]
  ctxs := [(0, { stage := .resident, cls := 1, root := 1, nandWr := true, sregs := [(9, 0x8040), (8, 2)]
                 descs := [(1, dsc 0x500 3 0 [2]), (2, dsc 0x400 3 0 [2])] })] }).setTally 9
    { state := .owned, owner := some 0, events := 3 }).setMapEnt 0 5 (some (.tally 9 true)))
theorem witness_moves : moveB runM .mcopy { oM with dd := 1, ds := 2 } = true ∧ moveB runM .mfill { oM with dd := 1, imm := 0xAA } = true ∧
    moveB runM .mraise { oM with sa := 9, imm := 1 } = true ∧ moveB runM .mdrop { oM with sa := 9, imm := 1 } = true ∧
    moveB runM .menter { oM with sa := 9, ds := 2 } = true ∧ moveB runM .mpace oM = true ∧ moveB runM .mpace { oM with sa := 9 } = true ∧
    runM.flag Reg.TELLER_CTL_EN = false ∧ runM.teller.paces = [] ∧ (runM.sget 0 9).toNat % 64 = 0 := by decide
theorem alone_runM : Alone runM := alone_of _ (fun e h => by rw [List.mem_singleton.1 h]) ⟨rfl, rfl⟩ ⟨rfl, rfl⟩
theorem test_moves : outcome (.mcopy q0 { oM with dd := 1, ds := 2 }) runM = [(.mcopy, .ready)] ∧
    outcome (.mfill q0 { oM with dd := 1, imm := 0xAA }) runM = [(.mfill, .ready)] ∧
    outcome (.mraise q0 { oM with sa := 9, imm := 1 }) runM = [(.mraise, .ready)] ∧
    outcome (.mdrop q0 { oM with sa := 9, imm := 1 }) runM = [(.mdrop, .ready)] ∧
    outcome (.menter q0 { oM with sa := 9, ds := 2 }) runM = [(.menter, .ready)] ∧
    outcome (.mpace q0 oM) runM = [(.mpace, .ready)] := by decide +kernel
theorem test_mpace : outcome (.mpace q0 { oM with sa := 9 }) runM = [(.mpace, .ready)] ∧
    (after (.mpace q0 { oM with sa := 9 }) runM).teller.paces.map (fun p => (p.tally, p.e0.toNat, p.ents)) =
      [(9, 3, [{ va := 0, pages := 1, op := 1, at_ := 1 }])] := by decide +kernel

/-! ### The end of waits, operations and contexts -/

/-- A paged kattn whose only entry appends one token: the free ring holds page 0, the page table none. -/
def opApp : AsyncOp := { id := 7, unit := .field, mn := .kattn, pc := 0x40, dO := dsc 0x500 0x0D 0 [16, 1, 1], dA := dsc 0x600 5 0 [16, 1, 1]
                         dB := dsc 0x5000 0x0F 0 [1, 1], dC := dsc 0x3000 5 0 [16, 1, 2, 1], k := { oK with dO := 1, dA := 2, dB := 3, dC := 4, sp := 9 }
                         params := toBytes 64 (2 ^ 34 + 2 ^ 128 + 2 ^ 256 * 0x4000)
                         extra := toBytes 128 (2 ^ 192 * 0x6000 + 2 ^ 272 * 5 + 2 ^ 280 + 2 ^ 288 * 16) ++ toBytes 16 (2 ^ 32 + 2 ^ 64 + 2 ^ 96)
                         state := .running, begun := true, pos := some 0 }
def runApp : State := { runOp [opApp] none with
  mem := [(0x10000, 1), (0x10002, 2), (0x20000, 1), (0x20002, 3), (0x30000, 7), (0x30002, 4), (0x43000, 0x38), (0x4301F, 0x40), (0x44000, 1),
    (0x45000, 0xFF), (0x45001, 0xFF), (0x45002, 0xFF), (0x45003, 0xFF)] }
theorem witness_ends : (runOp [] (some (.tally 9 5 1 3 (some (15, 0))))).deadlineDue (some (15, 0)) = true ∧
    (runOp [] (some (.rpost 0x80000))).rcptWin 0x80000 = some 1 ∧ (runOp [] (some (.rpost 0x80000))).overMode 1 = false ∧
    (runOp [] (some (.rpost 0x80000))).canTake 0x80000 (.op 0 0) = true ∧
    (runOp [{ opMul with state := .rcptWait, rcpt := some 0x10008 }] none).check 0 0x10008 false false false = .ok 0x80008 ∧
    (runOp [{ opMul with unit := .teller }] none).check 0 0x50000 true false false = .fault 4 0 0 ∧
    (let s := runOp [opMul] none; State.accAll ((State.calcAcc (kinOf opMul)).map fun e => s.tensorAcc 0 e.1 e.2.1 e.2.2) = .ok) ∧
    ((runOp [opMul] none).tallyOf 9).state ≠ .forfeit ∧ (∀ k, k < 16 → (runOp [opMul] none).watches k 9 = false) := by decide +kernel
theorem witness_append : ∃ e u, (lenEnts (kinOf opApp))[opApp.kv.length]? = some e ∧ runApp.appendEnt 0 (kinOf opApp) e = some (0, u) ∧
    runApp.appendAcc u 0 (kinOf opApp) e = .ok := ⟨_, _, rfl, rfl, by decide +kernel⟩
/-- A context that has exited; it owns the Tally 9, claims the page 4 and holds the Cue 7. -/
def runExit : State := ((((runOp [] none).modCtx 0 fun x => { x with td := some .exit }).setTally 9 { state := .owned, owner := some 0, count := 4 }).setMapEnt
  0 5 (some (.tally 9 true))).setPage 4 { claims := [0, 3] } |>.setCue 7 { armed := true, owner := some 0 }
theorem witness_teardown : Alone runExit ∧ (runExit.ctx 0).job = false ∧ (∀ pa m, runExit.recAt 0 (runExit.ctx 0).frec true = some (pa, m) → m = false) ∧
    (∀ e, runExit.bindOf e = none) ∧ (∀ k, k < 16 → runExit.watches k 9 = false) ∧ (∀ e ∈ runExit.tally.tallies, e.2 = runExit.tallyOf e.1) :=
  ⟨alone_of _ (by decide) ⟨rfl, rfl⟩ ⟨rfl, rfl⟩, by decide, fun pa m h => by
    have : runExit.recAt 0 (runExit.ctx 0).frec true = some (0x40000, false) := by decide +kernel
    rw [this] at h; cases h; rfl, fun _ => rfl, by decide, by decide⟩
theorem test_waits_end :
    dz [] [.ctxs] (.waitDeadline 0) (runOp [] (some (.tally 9 5 1 3 (some (15, 0))))) (fun t => (t.ctx 0).wait == none && t.sget 0 3 == 3) = true ∧
    dz [] [.ctxs, .mem, .tally, .teller] (.receiptTake 0) (runOp [] (some (.rpost 0x80000))) (fun t => t.rcptWord 0x80000 == rcptMk 1 1) = true ∧
    dz [] [.ctxs, .tally] (.receiptTake 0) (runOp [{ opMul with state := .rcptWait, rcpt := some 0x10008 }] none)
      (fun t => (t.ctx 0).ops.map (·.state) == [.ready] && t.holder 0x80008 == some (.op 0 7)) = true := by decide +kernel
theorem test_operations_end :
    dz [] [.ctxs, .fusion, .hurdle, .stream] (.kernelFault 0 7 0x50000 true) (runOp [{ opMul with unit := .teller, mn := .mcopy }] none)
      (fun t => (t.ctx 0).ops == [] && (t.ctx 0).td == some .fault) = true ∧
    dz [Reg.RELAY_MIRROR_SENT, Reg.TALLY_STAT] [.ctxs, .teller, .field, .sprint, .mem, .out, .relay, .tally, .stream, .fusion, .hurdle]
      (.kernelComplete 0 7) (runOp [opMul] none) (fun t => (t.ctx 0).ops == [] && t.natAt 0x40500 4 == 1 && (t.tallyOf 9).count == 1) = true := by
  decide +kernel
theorem test_append : dz [Reg.RELAY_MIRROR_SENT] [.ctxs, .mem, .teller, .field, .sprint, .out, .relay] (.kvAppend 0 7) runApp
    (fun t => (t.ctx 0).ops.map (·.kv) == [[0]] && t.natAt 0x45000 4 == 0 && t.natAt 0x4FFC0 6 == 0x100000001 && t.natAt 0x44008 8 == 1 &&
      t.byteAt 0x40000 == 0x38 && t.byteAt 0x4001F == 0x40) = true := by decide +kernel
theorem test_teardown : dz ((List.range 16).map Reg.TELLER_POOL_CFG ++ (List.range 64).map Reg.START_BCFG)
    [.ctxs, .teller, .tally, .field, .lanes, .stream, .hurdle, .sprint] (.contextTeardown 0) runExit (fun t => t.ctx 0 == {} && t.mapEnt 0 5 == none &&
      (t.tallyOf 9).state == .forfeit && (t.page 4).claims == [3] && !(t.cue 7).armed) = true := by decide +kernel
/-- The product of IntegerProductsAreExact. -/
theorem witness_products : let k := kinOf opMul; let s := runOp [opMul] none
    dFmt k.dA = 3 ∧ dFmt k.dB = 3 ∧ dFmt k.dO = 0x0F ∧ dRank k.dA = 2 ∧ dRank k.dO = 2 ∧ dExt k.dA 0 = 2 ∧ hasC k = false ∧ plainScale k = true ∧
      ((List.range 2).map fun i => (sext 8 (s.elemCode 0 k.dA [i, 0]) * sext 8 (s.elemCode 0 k.dB [i, 0])).natAbs).sum = 29 ∧
      (s.calcOut 0 k).1 = [([0, 0], 1)] := by decide +kernel

/-! ### Tiles, Sprint engines and reflex models -/

/-- Logical tile 31 of the only column is bound to tile 5; both regulators of position 0 are on, and nothing is left in them. -/
def runTile (ops : List AsyncOp) : State := { withFields (runOp ops none) [(Reg.FIELD_GEOM_COLS, 1), (Reg.FIELD_GEOM_SPARES_LEFT, 1),
    (Reg.START_RCFG_VAULT_EN 0, 1), (Reg.START_RCFG_EXT_EN 0, 1), (Reg.START_RVAULT_BURST 0, 5), (Reg.START_REXT_BURST 0, 3), (Reg.START_RCFG_EXEMPT 0, 1)] with
  field := { binding := [(31, some 5)], excluded := [0] } }
/-- The same without contexts. -/
def runFree : State := { runTile [] with ctxs := [] }
theorem witness_tiles : ((runTile [opMul]).heatOps.find? fun q => q.2.2 == 0).isSome = true ∧ runFree.spares.head? = some 1 ∧ runFree.heatOps = [] ∧
    runFree.boundTo 5 = some 31 ∧ runFree.field.excluded.contains 5 = false ∧ runFree.runningOn 1 7 = [] ∧ runFree.holds 0 4 = true ∧
    (runFree.setBind 7 (some { ctx := 0, pacer := 0, mask := 1, params := [], base := 0, len := 0 })).bindOf 7 ≠ none := by decide +kernel
theorem test_pass : dz [Reg.FIELD_PASS_CNT, Reg.FIELD_BUSY_CYC, Reg.FIELD_STALL_CYC] [.starter] (.tilePassEnd 0 100 9 4 4) (runTile [opMul])
    (fun t => t.reg Reg.FIELD_PASS_CNT == 1 && t.reg Reg.FIELD_BUSY_CYC == 100 && t.reg Reg.FIELD_STALL_CYC == 9 && t.bucket 0 == -4 &&
      t.bucket 1 == -3 && t.starter.stalled == [0]) = true := by decide +kernel
theorem test_purse_error : dz [Reg.FIELD_ERR] [] (.purseEccError 5 false) runFree (fun t => t.fld Reg.FIELD_ERR_CE_COUNT == 1) = true ∧
    dz [Reg.FIELD_ERR, Reg.FIELD_GEOM] [.field] (.purseEccError 5 true) runFree (fun t => t.tileOf 31 == some 1 && t.tileOf 30 == none &&
      t.field.withdrawn == [5] && t.fld Reg.FIELD_ERR_UE == 1 && t.fld Reg.FIELD_ERR_UE_TILE == 5 && t.fld Reg.FIELD_GEOM_SPARES_LEFT == 0) = true := by
  decide +kernel
theorem test_engine_error : dz [Reg.SPRINT_ERR 7] [] (.sprintEccError 7 false) runFree (fun t => t.fld (Reg.SPRINT_ERR_CE_COUNT 7) == 1) = true ∧
    dz [Reg.SPRINT_ERR 7, Reg.SPRINT_ENG_STAT 7, Reg.SPRINT_RX_CYC 7] [.boot, .sprint] (.sprintEccError 7 true) runFree
      (fun t => t.engineOut 7 && t.fld (Reg.SPRINT_ERR_UE 7) == 1) = true ∧
    dz [Reg.SPRINT_ENG_CTL 7] [] (.mapOut 0 7 true) runFree (fun t => t.engineOut 7) = true ∧
    dz [Reg.SPRINT_ENG_CTL 7] [] (.mapOut 0 7 false) (runFree.setFld (Reg.SPRINT_ENG_CTL_MAP_OUT 7) 1) (fun t => !t.engineOut 7) = true := by
  decide +kernel
/-- A binding of engine 7 to channel 3 of Pacer 0: one input, one layer of one output whose weight is 2. -/
def bind7 : RxBind := { ctx := 0, pacer := 0, mask := 8, params := toBytes 144 (0x80 + 2 ^ 16 + 2 ^ 128 * (1 + 2 ^ 32 + 2 ^ 88)), base := 0, len := 128 }
def runRx (b : RxBind) : State := { runFree.setFld (Reg.PACER_CTL_EN 0) 1 with
  sprint := { mem := (262144 * 7, some 2) :: (List.range 127).map (fun k => (262144 * 7 + 1 + k, some 0)), binds := [(7, some b)] }
  island := { pacers := [(0, { chEn := 8 })], chans := [(3, { featSnap := [(0, 5)], rxi := [(3, 9)] })] } }
theorem witness_reflex : (runRx bind7).bindOf 7 = some bind7 ∧ bind7.run = none ∧ bind7.next = none ∧ (runRx bind7).rxChans bind7 = [3] ∧
    (runRx bind7).rxWithheld 7 bind7 = false ∧ Alone (runRx bind7) := ⟨by decide, rfl, rfl, by decide, by decide, alone_of _ (by decide) ⟨rfl, rfl⟩ ⟨rfl, rfl⟩⟩
theorem test_reflex : dz [Reg.SPRINT_ENG_STAT 7, Reg.SPRINT_RX_CYC 7] [.sprint] (.reflexFeaturesArrive 7) (runRx bind7)
      (fun t => t.bindOf 7 == some { bind7 with run := some [(3, [10])] }) = true ∧
    dz [Reg.SPRINT_ENG_STAT 7, Reg.SPRINT_RX_CYC 7, Reg.SPRINT_RX_RUNS 7] [.sprint, .island] (.reflexOutputsArrive 7 70000)
      (runRx { bind7 with run := some [(3, [10])] }) (fun t => t.bindOf 7 == some bind7 && t.reg (Reg.SPRINT_RX_RUNS 7) == 1 &&
        t.fld (Reg.SPRINT_RX_CYC_MAX 7) == 65535 && (t.chan 0 3).rxNext == [(0, some 10), (1, some 0), (2, some 0), (3, some 0)]) = true ∧
    dz [Reg.SPRINT_RX_STAT 7, Reg.SPRINT_ENG_STAT 7, Reg.SPRINT_RX_CYC 7] [.sprint] (.reflexOutputDeadline 7) (runRx { bind7 with run := some [(3, [10])] })
      (fun t => t.bindOf 7 == some { bind7 with run := some [(3, [10])], late := true } && t.fld (Reg.SPRINT_RX_STAT_LATE 7) == 1) = true := by decide +kernel

/-! ### The Stream store -/

/-- Requester 0 has staged stream 65535 of context 0: an LSTM of one unit, its state at the start of the DRAM. -/
def runDef : State := withFields run0 [(Reg.STREAM_SEL_STREAM.of 0, 65535), (Reg.STREAM_DEF_GATE_SET.of 0, 0), (Reg.STREAM_DEF_H.of 0, 1),
  (Reg.STREAM_ESC_ADDR.of 0, 0x10000000), (Reg.SYS_CAPS_DRAM_PAGES, 16)]
def strm1 (p : StreamAt) (cl : List Claimant) : Strm :=
  { owner := 0, gate := 0, h := 1, esc := 0x1000000000, init := 0, place := p, claims := cl
    vals := if p = .resident ∨ p = .lowering then [0x3F800000, 5] else [] }
def runStrm (p : StreamAt) (cl : List Claimant) : State := { runDef with stream := { streams := [(65535, some (strm1 p cl))] } }
theorem witness_streams : runDef.holds 0 3 = true ∧ runDef.strmSel 0 = 65535 ∧ runDef.strm 65535 = none ∧ 4 * State.strmLen (strm1 .escrow []) = 8 ∧
    65536 * runDef.dramTop = 0x1000100000 ∧ (runStrm .poisoned []).strm 65535 = some (strm1 .poisoned []) ∧
    (strm1 .escrow []).gate < 2 ^ Reg.STREAM_DEF_GATE_SET.len ∧ State.strmsFit [(65535, strm1 .raising [])] = true ∧ State.inStore (strm1 .resident []) = true := by
  decide +kernel
/-- The shown ERR of the stream commands. -/
def info := stg 0 Reg.STREAM_INFO
def okB (t : State) : Bool := t.fld (Reg.STREAM_INFO_ERR.of 0) == 0
theorem test_stream_register : dz [info] [.stream, .mem, .teller] (.streamRegister 0) runDef (fun t => t.strm 65535 == some { strm1 .escrow [] with esc := 0x1000000000 } && okB t) = true ∧
    dz [info] [] (.streamRegister 0) (runStrm .escrow []) (fun t => t.fld (Reg.STREAM_INFO_ERR.of 0) == 4) = true ∧
    dz [info] [] (.streamRegister 0) (runDef.setFld (Reg.STREAM_DEF_GATE_SET.of 0) 3) (fun t => t.fld (Reg.STREAM_INFO_ERR.of 0) == 1) = true ∧
    dz [info] [] (.streamRegister 0) (runDef.setFld (Reg.STREAM_ESC_ADDR.of 0) (0x10000000 + 16*256)) (fun t => t.fld (Reg.STREAM_INFO_ERR.of 0) == 5) = true := by decide +kernel
theorem test_stream_unregister : dz [info] [.stream] (.streamUnregister 0) (runStrm .escrow []) (fun t => t.strm 65535 == none && okB t) = true ∧
    dz [info] [] (.streamUnregister 0) runDef (fun t => t.fld (Reg.STREAM_INFO_ERR.of 0) == 3) = true ∧
    dz (info :: [Reg.STREAM_DEF, Reg.STREAM_ESC, Reg.STREAM_INIT].map (stg 0)) [] (.streamRead 0) ((runStrm .resident []).setFld (Reg.STREAM_DEF_H.of 0) 9) (fun t => t.fld (Reg.STREAM_DEF_H.of 0) == 1 && okB t) = true := by decide +kernel
theorem test_stream_reset : dz [info] [] (.streamFlush 0) (runStrm .resident [(0, 7)]) (fun t => t.fld (Reg.STREAM_INFO_ERR.of 0) == 2) = true ∧
    dz [info] [.stream, .mem, .teller] (.streamReset 0) (runStrm .escrow []) (fun t => t.strm 65535 == some (strm1 .escrow []) && okB t) = true ∧
    dz [info] [.stream] (.streamReset 0) (runStrm .resident []) (fun t => t.strm 65535 == some { strm1 .resident [] with vals := [0,0] } && okB t) = true ∧
    dz [info] [.stream] (.streamFlush 0) (runStrm .resident []) (fun t => t.strm 65535 == some { strm1 .resident [] with place := .lowering } && okB t) = true := by decide +kernel
/-- A chunk that names the stream waits for its admission. -/
def opSc : AsyncOp := { id := 7, unit := .field, mn := .kcell, pc := 0, streams := [65535], state := .admitWait }
def runAdm (p : StreamAt) : State := { runOp [opSc] none with stream := { streams := [(65535, some (strm1 p []))] } }
theorem witness_admission : (runAdm .escrow).nextChunk.map (·.2.2.2) = some opSc ∧ (runAdm .resident).nextChunk.map (·.2.2.2) = some opSc ∧
    (runAdm .escrow).opOf 0 7 = some opSc ∧ (runAdm .escrow).strms = [(65535, strm1 .escrow [])] ∧ State.strmsFit [(65535, strm1 .escrow [])] = true := by
  decide +kernel
theorem test_stream_moves : dz [Reg.STREAM_SWAP_INS] [.stream, .ctxs] (.streamRaiseComplete 65535 false false) (runStrm .raising []) (fun t => t.strm 65535 == some { strm1 .raising [] with place := .resident, vals := [0,0] }) = true ∧
    dz [Reg.STREAM_SWAP_OUTS] [.stream, .mem, .teller] (.streamLowerComplete 65535) (runStrm .lowering []) (fun t => t.strm 65535 == some (strm1 .escrow []) && t.natAt 0x1000000000 8 == 0x53F800000) = true := by decide +kernel
theorem test_stream_errors : dz [Reg.STREAM_ERR] [] (.streamStoreEccError none) (runStrm .lowering []) (fun t => t.fld Reg.STREAM_ERR_CE_COUNT == 1) = true ∧
    dz [Reg.STREAM_ERR, Reg.STREAM_UE_STREAM] [.stream] (.streamStoreEccError (some 65535)) (runStrm .resident []) (fun t => t.strm 65535 == some (strm1 .poisoned []) && t.fld Reg.STREAM_UE_STREAM_STREAM == 65535) = true ∧
    dz [Reg.STREAM_ERR, Reg.STREAM_UE_STREAM] [.stream] (.streamRaiseComplete 65535 false true) (runStrm .raising []) (fun t => t.strm 65535 == some (strm1 .poisoned []) ) = true := by decide +kernel

/-! ### The Teller -/
/-- 16 DRAM pages, 100 Vault home frames, the Teller runs, and one move waits or runs. -/
def runPg (m : Option Move) (g : Page) : State := { withFields run0 [(Reg.SYS_CAPS_DRAM_PAGES, 16), (Reg.TELLER_VAULT_SPLIT_HOME_FRAMES, 100),
    (Reg.TELLER_CTL_EN, 1)] with teller := { moves := m.toList, pages := if g = {} then [] else [(0x100005, g)] } }
def mv : Move := { ctx := 0, op := none, page := 0x100005, kind := .raise false }
theorem test_raise_accept : dz [Reg.TELLER_MOVE_SEQ] [.teller] .pageMoveAccept (runPg (some mv) {}) (fun t => t.teller.moves == [{ mv with inFlight := true, started := true }] && (t.page 0x100005).state == .raising && (t.page 0x100005).trans == [State.moveOwner mv] && t.reg Reg.TELLER_MOVE_SEQ == 1) = true ∧
    dz [Reg.TELLER_MOVE_DONE] [.teller] (.pageMoveComplete 0x100005) (runPg (some { mv with inFlight := true, started := true }) { state := .raising, claims := [3] }) (fun t => t.teller.moves == [] && t.page 0x100005 == { state := .raised, claims := [3] } && t.reg Reg.TELLER_MOVE_DONE == 1) = true ∧
    dz [Reg.TELLER_MOVE_DONE] [.teller, .mem] (.pageMoveComplete 0x100005) ({ runPg (some { mv with kind := .demote, inFlight := true, started := true }) { state := .lowering, dirty := true } with overlay := [(0x1000050005, some 7)] }) (fun t => t.teller.moves == [] && (t.page 0x100005).state == .home && t.reg Reg.TELLER_MOVE_DONE == 1 && t.byteAt 0x1000050005 == 7) = true := by decide +kernel
/-- A menter of page 0x800001 by operation 7 of context 0, ready to commit. -/
def mvE : Move := { ctx := 0, op := some 7, page := 0x800001, kind := .enter, inFlight := true, started := true, data := [(5, 0xAB)] }
def opE : AsyncOp := { id := 7, unit := .teller, mn := .menter, pc := 0, state := .running }
def runE : State := { withFields (runOp [opE] none) [(Reg.TELLER_NAND_CH_UP, 0xFFFF)] with
  teller := { moves := [mvE], pages := [(0x800001, { trans := [(0, 7)] })] } }
theorem test_menter_commit : dz [Reg.TELLER_MOVE_DONE] [.teller, .mem, .field, .ctxs, .stream, .fusion, .hurdle] (.menterCommit 0x800001) runE (fun t => t.teller.moves == [] && (t.page 0x800001).entries == 3 && (t.ctx 0).ops == [] && t.byteAt 0x8000010005 == 0xAB && t.reg Reg.TELLER_MOVE_DONE == 1) = true := by decide +kernel
theorem test_teller_inval : dz [Reg.TELLER_STAT] [.teller] (.tellerInval 0 0x105) State.reset (fun t => t.teller == { inval := some none } && t.fld Reg.TELLER_STAT_INVAL_BUSY == 1) = true ∧
    dz [Reg.TELLER_STAT] [.teller] (.tellerInval 0 0x0FF) State.reset (fun t => t.teller == { inval := some (some 255) }) = true ∧
    dz [Reg.TELLER_STAT] [.teller] .tellerInvalComplete { State.reset with teller := { inval := some (some 1), tlb := [(State.tlbKey 0 5, some 9), (State.tlbKey 1 0xFFFFFFFF, some 9), (State.tlbKey 2 0, some 9)] } }
      (fun t => t.teller == { tlb := [(State.tlbKey 0 5, some 9), (State.tlbKey 2 0, some 9)] }) = true := by decide +kernel
/-- Requester 0 has selected a page. -/
def selPage (p : Nat) (g : Page) : State := { (runPg none {}).setFld (Reg.TELLER_PAGE_SEL_PAGE.of 0) p with teller := { pages := if g = {} then [] else [(p, g)] } }
def pinfo (t : State) (f : Fld) : Nat := t.fld (f.of 0)
theorem test_teller_page : dz [stg 0 Reg.TELLER_PAGE_INFO] [] (.tellerPageRead 0) (selPage 0x700 {}) (fun t => pinfo t Reg.TELLER_PAGE_INFO_ERR == 1) = true ∧
    dz [stg 0 Reg.TELLER_PAGE_INFO] [] (.tellerPageRead 0) (selPage 0x100005 { state := .raised, dirty := true, claims := [1, 2] }) (fun t => pinfo t Reg.TELLER_PAGE_INFO_ERR == 0 && pinfo t Reg.TELLER_PAGE_INFO_STATE == 2 && pinfo t Reg.TELLER_PAGE_INFO_DIRTY == 1 && pinfo t Reg.TELLER_PAGE_INFO_TIER == 0 && pinfo t Reg.TELLER_PAGE_INFO_CLAIMS == 2) = true ∧
    dz [stg 0 Reg.TELLER_PAGE_INFO] [] (.clearPoison 0) (selPage 0x100005 {}) (fun t => pinfo t Reg.TELLER_PAGE_INFO_ERR == 2) = true ∧
    dz [stg 0 Reg.TELLER_PAGE_INFO] [.mem, .teller] (.clearPoison 0) (selPage 0x100005 { state := .poisoned, entries := 1 }) (fun t => t.page 0x100005 == { entries := 1 } && pinfo t Reg.TELLER_PAGE_INFO_ERR == 0) = true := by decide +kernel
/-- At address 0x400 of context 0 stands the header of a pool. -/
def runPool : State := { run0 with mem := run0.mem ++ [(0x40422, 5), (0x40423, 1), (0x40424, 16)] }
theorem test_pool : dz [Reg.TELLER_POOL_CFG 15] [.teller] (.poolRegister 0 15 0x80000000) (runPool.setReg (Reg.TELLER_POOL_VA 15) 0x400) (fun t => t.flag (Reg.TELLER_POOL_CFG_EN 15) && !t.flag (Reg.TELLER_POOL_CFG_ERR 15)) = true ∧
    dz [Reg.TELLER_POOL_CFG 15] [.teller] (.poolRegister 0 15 0x87FF0000) (runPool.setReg (Reg.TELLER_POOL_VA 15) 0x401) (fun t => !t.flag (Reg.TELLER_POOL_CFG_EN 15) && t.flag (Reg.TELLER_POOL_CFG_ERR 15) && t.fld (Reg.TELLER_POOL_CFG_QUOTA 15) == 2047) = true ∧
    dz [Reg.TELLER_POOL_CFG 15] [.teller] (.poolRegister 0 15 0) (runPool.setFld (Reg.TELLER_POOL_CFG_EN 15) 1) (fun t => !t.flag (Reg.TELLER_POOL_CFG_EN 15)) = true := by decide +kernel
theorem test_nand_errors : dz [Reg.TELLER_NAND_CNT, Reg.TELLER_ERR] [.teller] (.nandEntryRewrite 0x800001 true) { State.reset with teller := { pages := [(0x800001, { entries := 3 })] } } (fun t => t.fld Reg.TELLER_NAND_CNT_RECOVERED == 1 && t.fld Reg.TELLER_NAND_CNT_REWRITTEN == 1 && t.page 0x800001 == { entries := 3 }) = true ∧
    dz [Reg.TELLER_NAND_CNT] [] (.nandScrub 0x800001 .weak .weak) { State.reset.setFld Reg.TELLER_CTL_SCRUB_EN 1 with teller := { pages := [(0x800001, { entries := 3 })] } } (fun t => t.fld Reg.TELLER_NAND_CNT_REWRITTEN == 2) = true ∧
    dz [Reg.TELLER_NAND_CNT, Reg.TELLER_ERR] [] (.nandScrub 0x800001 .good .bad) { State.reset.setFld Reg.TELLER_CTL_SCRUB_EN 1 with teller := { pages := [(0x800001, { entries := 3 })] } } (fun t => t.fld Reg.TELLER_NAND_CNT_REWRITTEN == 1 && t.fld Reg.TELLER_ERR_NAND_ENTRY_UE == 1) = true := by decide +kernel
theorem test_memory_errors : dz [Reg.TELLER_CE_CNT] [] (.dramScrub 0x10000F true) ((runPg none {}).setFld Reg.TELLER_CTL_SCRUB_EN 1) (fun t => t.fld Reg.TELLER_CE_CNT_DRAM == 1) = true ∧
    dz [Reg.TELLER_CE_CNT] [] (.memoryUe (.corrected false)) State.reset (fun t => t.fld Reg.TELLER_CE_CNT_VAULT == 1) = true ∧
    dz ([Reg.INC_CNT 9, Reg.TELLER_POISON_LAST, Reg.TELLER_ERR] ++ (List.range 8).map (Reg.INC_REC 9)) [.teller, .mem] (.memoryUe (.home 99)) (runPg none {}) (fun t => (t.page 99).state == .poisoned && t.fld Reg.TELLER_POISON_LAST_PAGE == 99 && t.fld (Reg.INC_CNT_COUNT 9) == 1 && t.reg (Reg.INC_REC 9 7) == 0x630000) = true ∧
    dz [Reg.TELLER_ERR] [] (.memoryUe (.copy 0x100005)) (runPg none { state := .raised }) (fun t => t.fld Reg.TELLER_ERR_VAULT_UE == 1) = true := by decide +kernel
theorem witness_moves_run : (runPg (some mv) {}).raiseNeedsMove 0x100005 false = true ∧ (runPg (some mv) {}).framesFree false = true ∧
    (runPg (some mv) {}).movesInFlight = 0 ∧ ((runPg (some mv) {}).ctx 0).td = none ∧ mwf (fun _ => none) [(0x1000050005, some (7 : Byte))] = true ∧
    runE.nandUp 0x800001 = 3 ∧ (runE.page 0x800001).trans = [State.moveOwner mvE] ∧ (∀ e ∈ runE.overlay, e.1 / 65536 ≠ 0x800001) ∧
    (∀ e ∈ runE.ctxs, e.2.ops = [] ∨ e.1 = mvE.ctx ∧ e.2.ops = [opE]) := by decide
theorem witness_teller : (selPage 0x700 {}).isHome 0x700 = false ∧ (selPage 0x100005 {}).isHome 0x100005 = true ∧ State.reset.holds 0 3 = true ∧
    (runPool.ctx 0).stage ≠ .undefined ∧ runPool.ledAcc 0 false false 0x400 = .ok ∧ runPool.ledAcc 0 false false 0x440 = .ok ∧
    State.poolHeaderOk ((List.range 128).map fun i => BitVec.ofNat 8 (runPool.ledByte 0 (0x400 + BitVec.ofNat 64 i))) = true := by decide +kernel
theorem witness_memory_errors : State.reset.isNandHome 0x800001 = true ∧ (runPg none {}).isVdHome 99 = true ∧
    (State.reset.setFld Reg.RELAY_PAIR_STAT_STATE 1).isPaired = true ∧ (runPg none {}).dramTop = 0x100010 ∧
    (List.replicate 65536 (0 : Byte)).length = 65536 := ⟨by decide, by decide, by decide, by decide, List.length_replicate ..⟩

/-! ### The Starter -/
/-- Requester 0 has staged the definition of context 255, class 3, every shape. -/
def runStg : State := withFields State.reset [(Reg.START_CTX_SEL_CONTEXT.of 0, 255), (Reg.START_CTX_CFG_CLASS.of 0, 3), (Reg.START_CTX_CFG_PRIORITY.of 0, 15),
  (Reg.START_CTX_CFG_SHAPES.of 0, 7), (Reg.START_CTX_PC_VA.of 0, 0xFFFFFFFFFFF0), (Reg.START_CTX_ROOT_PPN.of 0, 1), (Reg.START_CTX_FREC_VA.of 0, 0x40),
  (Reg.START_CTX_FRCPT_VA.of 0, 8), (Reg.FIELD_GEOM_HEAT_SHAPES, 7)]
def runDefd : State := { runStg with ctxs := [(255, { stage := .waiting, cls := 2, prio := 3, shapes := 5, pc := 0x30, root := 9, pwinSize := 1, swinBase := 2 })] }
def sinfo := stg 0 Reg.START_CTX_INFO
def serr (t : State) : Nat := t.fld (Reg.START_CTX_INFO_ERR.of 0)
theorem test_define : dz [sinfo] [.ctxs] (.define 0) runStg (fun t => let y := t.ctx 255; y.stage == .waiting && y.cls.val == 3 && y.prio == 15 && y.shapes == 7 && y.pc == 0xFFFFFFFFFFF0 && y.root == 1 && y.frec == 0x40 && y.frcpt == 8 && serr t == 0 && t.fld (Reg.START_CTX_INFO_STATE.of 0) == 1) = true ∧
    dz [sinfo] [] (.define 0) runDefd (fun t => serr t == 2) = true ∧
    dz [sinfo] [] (.define 0) (runStg.setFld (Reg.START_CTX_FRCPT_VA.of 0) 4) (fun t => serr t == 1) = true ∧
    dz [sinfo] [] (.define 0) (runStg.setFld (Reg.START_CTX_CFG_SHAPES.of 0) 0) (fun t => serr t == 5) = true := by decide +kernel
theorem test_kill : dz [sinfo] [] (.kill 0) runStg (fun t => serr t == 3) = true ∧
    dz [sinfo] [.ctxs] (.kill 0) runDefd (fun t => serr t == 0 && (t.ctx 255).td == some .fault && (t.ctx 255).fault == some (starterFault runDefd 255 0x0E 0)) = true := by decide +kernel
theorem test_start_ctx_read : dz [sinfo] [] (.startCtxRead 0) runStg (fun t => serr t == 3) = true ∧
    dz (sinfo :: [Reg.START_CTX_CFG, Reg.START_CTX_PC, Reg.START_CTX_ROOT, Reg.START_CTX_FREC, Reg.START_CTX_FRCPT, Reg.START_CTX_WIN].map (stg 0)) [] (.startCtxRead 0) runDefd
      (fun t => let h := t.stgFld 0; h Reg.START_CTX_CFG_CLASS == 2 && h Reg.START_CTX_CFG_PRIORITY == 3 && h Reg.START_CTX_CFG_SHAPES == 5 && h Reg.START_CTX_PC_VA == 0x30 && h Reg.START_CTX_ROOT_PPN == 9 && h Reg.START_CTX_WIN_PWIN_SIZE == 1 && h Reg.START_CTX_WIN_SWIN_BASE == 2) = true := by decide +kernel
/-- Escrow and save frames are in order. -/
def runSave : State := withFields State.reset [(Reg.TELLER_ESC_PAGES_PAGES, 20736), (Reg.START_SAVE_CFG_BASE, 100), (Reg.START_SAVE_CFG_FRAMES, 144), (Reg.TELLER_VAULT_SPLIT_HOME_FRAMES, 244)]
theorem test_start_ctl : dz [Reg.START_CTL] [.starter] (.startCtlWrite 0 0xFF01) runSave (fun t => t.flag Reg.START_CTL_EN && t.fld Reg.START_CTL_RESERVE_SLOTS == 255 && t.starter.refillAt == runSave.laneVal 15 + 0x3E800000000) = true ∧
    dz [Reg.START_CTL, Reg.START_STAT] [] (.startCtlWrite 0 0xFF01) (runSave.setFld Reg.START_SAVE_CFG_FRAMES 143) (fun t => !t.flag Reg.START_CTL_EN && t.flag Reg.START_STAT_CFG_ERR) = true ∧
    dz [Reg.START_CTL, Reg.START_STAT] [] (.startCtlWrite 0 0xFF01) (runSave.setFld Reg.START_SAVE_CFG_BASE 101) (fun t => !t.flag Reg.START_CTL_EN && t.flag Reg.START_STAT_CFG_ERR) = true ∧
    dz [Reg.START_CTL] [] (.startCtlWrite 0 0) (runSave.setFld Reg.START_CTL_EN 1) (fun t => !t.flag Reg.START_CTL_EN) = true := by decide +kernel
/-- Context 4 waits; context 0 is resident on Marshal 0. -/
def runWait : State := { run0 with ctxs := [(0, { stage := .resident, cls := 2 }), (4, { stage := .waiting, cls := 2 })] }
theorem test_resident : dz [] [.ctxs] (.contextResident 4) runWait (fun t => (t.ctx 4).stage == .resident && (t.ctx 4).marshal == 1 && (t.ctx 0) == runWait.ctx 0) = true := by decide +kernel
/-- A kmatmul of context 0 is ready on a Field of two columns. -/
def runReady (st : OpState) : State := { withFields run0 [(Reg.FIELD_GEOM_COLS, 2), (Reg.FIELD_GEOM_HEAT_SHAPES, 7)] with
  ctxs := [(0, { stage := .resident, cls := 1, root := 1, shapes := 7, ops := [{ opMul with state := st, begun := false, pos := none }] })]
  boot := { run0.boot with computeReset := false } }
theorem test_placement : dz [] [.ctxs, .field, .teller, .judge] .starterDecision (runReady .ready) (fun t => t.opOf 0 7 == some { opMul with state := .running, begun := true, pos := some 0 }) = true := by decide +kernel
/-- Operation 8 of context 1 displaces operation 7 of context 0. -/
def runPre : State := { (runReady .ready) with
  ctxs := [(0, { stage := .resident, cls := 3, root := 1, shapes := 7, ops := [opMul] }),
    (1, { stage := .resident, cls := 1, root := 1, shapes := 7, ops := [{ opMul with id := 8, state := .incoming, begun := false, pos := none }] })]
  starter := { preempts := [{ victims := [(0, 7)], incoming := (1, 8), pos := 0, layout := 0 }] } }
theorem test_preempt : dz [Reg.START_PREEMPT_CNT, Reg.START_PREEMPT_MAX] [.ctxs, .starter, .field, .teller, .judge] (.preemptSaveComplete 0 70000) runPre
      (fun t => (t.opOf 0 7).map (·.state) == some .saved && t.starter.preempts == [] && (t.opOf 1 8).map (·.state) == some .running && t.reg Reg.START_PREEMPT_CNT == 1 && t.fld Reg.START_PREEMPT_MAX_PREEMPT_NS == 65535) = true := by decide +kernel
/-- Context 0 leaves for context 1. -/
def runSwap : State := { withFields run0 [(Reg.TELLER_ESC_BASE_ADDR, 0x100000), (Reg.SYS_CAPS_DRAM_PAGES, 16), (Reg.TELLER_ESC_PAGES_PAGES, 20736)] with
  ctxs := [(0, { stage := .swapOut, cls := 2, sregs := [(3, 5)], wait := some (.tally 9 5 1 3 none) }), (1, { stage := .waiting, cls := 2 })]
  starter := { swap := some { victim := 0, incoming := 1 } } }
theorem test_swap : dz [Reg.START_SWAP_CNT, Reg.START_PREEMPT_MAX] [.ctxs, .starter, .stream, .teller, .mem] (.swapComplete false 9) runSwap
      (fun t => (t.ctx 0).stage == .escrow && t.sget 0 3 == 5 && (t.ctx 0).wait == some (.tally 9 5 1 3 none) && (t.ctx 1).stage == .resident && t.starter.swap == none && t.reg Reg.START_SWAP_CNT == 1) = true := by decide +kernel
/-- The refill is due; position 6 has stalled and its Vault bucket is on. -/
def runRefill : State := { withFields run0 [(Reg.START_RCFG_VAULT_EN 6, 1), (Reg.START_RVAULT_RATE 6, 10), (Reg.START_RVAULT_BURST 6, 8)] with
  starter := { stalled := [6], buckets := [(12, -4)] } }
theorem test_refill : dz ((List.range 7).map Reg.START_RSTALL) [.starter] .regulatorRefill runRefill (fun t => t.starter.stalled == [] && t.bucket 12 == 6 && t.bucket 13 == 0 && t.reg (Reg.START_RSTALL 6) == 1 && t.starter.refillAt == 0x3E800000000) = true := by decide +kernel
/-- Entry 63 watches context 0, whose job has used 6 ns of 5. -/
def runOver (a : Nat) : State := { withFields run0 [(Reg.START_BCFG_EN 63, 1), (Reg.START_BCFG_CONTEXT 63, 0), (Reg.START_BCFG_ACTION 63, a), (Reg.START_BLIMIT_LIMIT 63, 5)] with
  ctxs := [(0, { stage := .resident, job := true })], starter := { charge := [(63, 6)] } }
theorem test_overrun : dz ([Reg.INC_CNT 11, Reg.START_BSTAT 63, Reg.START_BCNT 63] ++ (List.range 8).map (Reg.INC_REC 11)) [.starter, .ctxs] (.budgetOverrun 63) (runOver 1)
      (fun t => t.starter.overrun == [63] && t.fld (Reg.START_BSTAT_OVERRUN 63) == 1 && t.fld (Reg.START_BCNT_OVERRUNS 63) == 1 && (t.ctx 0).demoted && t.reg (Reg.INC_REC 11 7) == 0x13F) = true ∧
    dz ([Reg.INC_CNT 11, Reg.START_BSTAT 63, Reg.START_BCNT 63] ++ (List.range 8).map (Reg.INC_REC 11)) [.starter, .ctxs] (.budgetOverrun 63) (runOver 2)
      (fun t => (t.ctx 0).td == some .fault && (t.ctx 0).fault == some (starterFault (runOver 2) 0 0x0C 63)) = true := by decide +kernel
theorem witness_starter_commands : runStg.holds 0 3 = true ∧ runStg.stagedCtx 0 = 255 ∧ runStg.defined 255 = false ∧ runDefd.defined 255 = true ∧
    (runDefd.ctx 255).td = none ∧ 20736 ≤ runSave.fld Reg.TELLER_ESC_PAGES_PAGES ∧ runSave.homeFrames = 244 ∧ runSave.saveMapped 100 144 = false := by decide
theorem witness_starter : run0.flag Reg.START_CTL_EN = true ∧ runWait.grantable = [(4, runWait.ctx 4)] ∧ (runReady .ready).readyOps = [(1, 15, 0, 0, 7)] ∧
    (runReady .ready).swapNext = none ∧ (runReady .ready).posFree 0 = true ∧ (runReady .ready).posAllowed 0 { opMul with state := .ready, begun := false, pos := none } 0 = true ∧
    runPre.opOf 1 8 = some { opMul with id := 8, state := .incoming, begun := false, pos := none } ∧ (runSwap.ctx 1).stage = .waiting ∧
    (runSwap.slotted.filter fun e => e.2.marshal == 0).length < 8 ∧ reached (runRefill.laneVal 15) runRefill.starter.refillAt = true ∧
    (runOver 1).fld (Reg.START_BLIMIT_LIMIT 63) < mget (fun _ => 0) (runOver 1).starter.charge 63 := by decide +kernel

/-! ### Tallies, barriers, watches and Receipts -/
theorem test_tally_port : dz [Reg.TALLY_STAT] [.tally] (.tallyPortAdd 18 16383 5) (State.reset.setTally 16383 { count := 0xFFFFFFFC, events := 7 }) (fun t => t.tallyOf 16383 == { count := 0xFFFFFFFF, events := 12 } && t.fld Reg.TALLY_STAT_SAT == 1) = true ∧
    dz [Reg.TALLY_STAT] [.tally] (.tallyPortSubtract 18 16383 5) (State.reset.setTally 16383 { count := 4, events := 7 }) (fun t => t.tallyOf 16383 == { count := 0, events := 7 } && t.fld Reg.TALLY_STAT_CLAMP == 1) = true ∧
    dz [] [] (.tallyPortAdd 18 16383 5) (State.reset.setTally 16383 { state := .forfeit }) (fun t => t == State.reset.setTally 16383 { state := .forfeit }) = true := by decide +kernel
/-- Requester 0 has selected the Tally 16383. -/
def selTally (x : Tally) : State := (State.reset.setFld (Reg.TALLY_SEL_INDEX.of 0) 16383).setTally 16383 x
def tinfo := stg 0 Reg.TALLY_INFO
theorem test_tally_commands : dz [stg 0 Reg.TALLY_COUNT, stg 0 Reg.TALLY_EVENTS, tinfo] [] (.tallyRead 0) (selTally { state := .owned, owner := some 255, count := 0xFFFFFFFF, events := 9 }) (fun t => t.reg (stg 0 Reg.TALLY_COUNT) == 0xFFFFFFFF && t.reg (stg 0 Reg.TALLY_EVENTS) == 9) = true ∧
    dz [tinfo] [] (.reclaim 0) ((selTally { state := .forfeit }).setMapEnt 1 2 (some (.tally 16383 false))) (fun t => t.fld (Reg.TALLY_INFO_ERR.of 0) == 2) = true ∧
    dz [tinfo] [] (.reclaim 0) (selTally {}) (fun t => t.fld (Reg.TALLY_INFO_ERR.of 0) == 3) = true ∧
    dz [tinfo] [.tally] (.reclaim 0) (selTally { state := .forfeit, owner := some 3, count := 2, events := 1 }) (fun t => t.tallyOf 16383 == { events := 1 }) = true := by decide +kernel
/-- Requester 0 has selected identifier 4095 of the defined context 255, and staged the Tally 16383 as its own. -/
def selMap (e : Option MapEnt) : State := { (withFields State.reset [(Reg.TMAP_SEL_CONTEXT.of 0, 255), (Reg.TMAP_SEL_VID.of 0, 4095), (Reg.TMAP_CFG_KIND.of 0, 1),
  (Reg.TMAP_CFG_TARGET.of 0, 16383), (Reg.TMAP_CFG_OWN.of 0, 1)]).setMapEnt 255 4095 e with ctxs := [(255, { stage := .waiting })] }
def minfo := stg 0 Reg.TMAP_INFO
theorem test_tmap_set : dz [minfo] [.tally] (.tmapSet 0) (selMap none) (fun t => t.mapEnt 255 4095 == some (.tally 16383 true) && t.tallyOf 16383 == { state := .owned, owner := some 255 } && t.fld (Reg.TMAP_INFO_ERR.of 0) == 0) = true ∧
    dz [minfo] [] (.tmapSet 0) (selMap (some (.tally 1 false))) (fun t => t.fld (Reg.TMAP_INFO_ERR.of 0) == 3) = true := by decide +kernel
theorem test_tmap_clear : dz [minfo] [.tally] (.tmapClear 0) ((selMap (some (.tally 5 true))).setTally 5 { state := .owned, owner := some 255 }) (fun t => t.mapEnt 255 4095 == none && (t.tallyOf 5).state == .idle && t.fld (Reg.TMAP_INFO_ERR.of 0) == 0) = true ∧
    dz [minfo] [] (.tmapClear 0) (selMap none) (fun t => t.fld (Reg.TMAP_INFO_ERR.of 0) == 8) = true := by decide +kernel
theorem test_tmap_read : dz [stg 0 Reg.TMAP_CFG, minfo] [] (.tmapRead 0) (selMap (some (.barrier 255 63))) (fun t => t.fld (Reg.TMAP_CFG_KIND.of 0) == 2 && t.fld (Reg.TMAP_CFG_TARGET.of 0) == 255 && t.fld (Reg.TMAP_CFG_SLOT.of 0) == 63) = true ∧
    dz [stg 0 Reg.TMAP_CFG, minfo] [] (.tmapRead 0) (selMap none) (fun t => t.reg (stg 0 Reg.TMAP_CFG) == 0) = true := by decide +kernel
/-- Requester 0 has selected barrier 255 and staged a kind, members and a number. -/
def selBar (kind n : Nat) (m : W64) (v : Barrier) : State := ((withFields State.reset [(Reg.BAR_SEL_BARRIER.of 0, 255), (Reg.BAR_CFG_KIND.of 0, kind), (Reg.BAR_CFG_N.of 0, n)]).setReg
  (stg 0 Reg.BAR_MEMBERS) m).setBar 255 v
def binfo := stg 0 Reg.BAR_INFO
def berr (t : State) : Nat := t.fld (Reg.BAR_INFO_ERR.of 0)
def mbar : Barrier := { kind := some .mask, members := 3, arrived := 1, phase := 9 }
def sbar : Barrier := { kind := some .sense, n := 2, arrivals := 1, phase := 9 }
theorem test_bar_define : dz [binfo] [.tally] (.barDefine 0) (selBar 1 0 3 { phase := 9 }) (fun t => t.barOf 255 == { kind := some .mask, members := 3, phase := 9 } && berr t == 0) = true ∧
    dz [binfo] [.tally] (.barDefine 0) (selBar 2 2 3 { phase := 9 }) (fun t => t.barOf 255 == { kind := some .sense, n := 2, phase := 9 }) = true ∧
    dz [binfo] [] (.barDefine 0) (selBar 3 2 3 {}) (fun t => berr t == 1) = true ∧
    dz [binfo] [] (.barDefine 0) (selBar 1 2 3 mbar) (fun t => berr t == 4) = true := by decide +kernel
theorem test_bar_undefine : dz [binfo] [] (.barUndefine 0) (selBar 1 2 3 {}) (fun t => berr t == 3) = true ∧
    dz [binfo] [] (.barUndefine 0) ((selBar 1 2 3 mbar).setMapEnt 1 1 (some (.barrier 255 0))) (fun t => berr t == 2) = true ∧
    dz [binfo] [.tally] (.barUndefine 0) (selBar 1 2 3 mbar) (fun t => t.barOf 255 == { phase := 9 }) = true := by decide +kernel
theorem test_bar_arrive : dz [binfo] [.tally] (.arrive 0 1) (selBar 1 2 3 mbar) (fun t => t.barOf 255 == { mbar with arrived := 0, phase := 10 }) = true ∧
    dz [binfo] [.tally] (.arrive 0 63) (selBar 1 2 3 mbar) (fun t => t.barOf 255 == mbar && berr t == 0) = true ∧
    dz [binfo] [.tally] (.arrive 0 63) (selBar 1 2 3 sbar) (fun t => t.barOf 255 == { sbar with arrivals := 0, phase := 10 }) = true ∧
    dz [binfo] [] (.arrive 0 0) (selBar 1 2 3 { sbar with broken := true }) (fun t => berr t == 5) = true := by decide +kernel
theorem test_bar_rearm : dz [binfo] [.tally] (.rearm 0) (selBar 1 2 3 { sbar with broken := true }) (fun t => t.barOf 255 == { sbar with arrivals := 0 }) = true ∧
    dz [binfo] [.tally] (.setMembers 0) (selBar 1 2 1 mbar) (fun t => t.barOf 255 == { mbar with members := 1, arrived := 0, phase := 10 }) = true ∧
    dz [binfo] [.tally] (.setMembers 0) (selBar 1 2 6 mbar) (fun t => t.barOf 255 == { mbar with members := 6 }) = true ∧
    dz [binfo] [] (.setMembers 0) (selBar 1 2 6 sbar) (fun t => berr t == 1) = true ∧
    dz [binfo, stg 0 Reg.BAR_PHASE, stg 0 Reg.BAR_ARRIVED] [] (.barRead 0) (selBar 1 2 6 mbar) (fun t => t.reg (stg 0 Reg.BAR_PHASE) == 9 && t.reg (stg 0 Reg.BAR_ARRIVED) == 1) = true := by decide +kernel
/-- The Tally 16383 stands at 5. -/
def tally5 : State := State.reset.setTally 16383 { count := 5 }
theorem test_watch : dz [Reg.WATCH_CFG 15] [] (.watchEnable 0 15 0x80003FFF) (tally5.setFld (Reg.WATCH_THRESH_THRESH 15) 6) (fun t => t.flag (Reg.WATCH_CFG_EN 15) && t.fld (Reg.WATCH_CFG_INDEX 15) == 16383) = true ∧
    dz [Reg.WATCH_CFG 15, Reg.WATCH_STAT 15] [] (.watchEnable 0 15 0x80003FFF) { tally5.setFld (Reg.WATCH_THRESH_THRESH 15) 5 with boot := { strapEp := false } } (fun t => t.fld (Reg.WATCH_STAT_HIT 15) == 1) = true := by decide +kernel
/-- 16 DRAM pages, nothing reserved in them, and a base for window 15. -/
def dram16 (b : Nat) : State := withFields State.reset [(Reg.SYS_CAPS_DRAM_PAGES, 16), (Reg.RWIN_BASE_PAGE 15, b), (Reg.TELLER_ESC_PAGES_PAGES, 0),
  (Reg.TELLER_RSV_PAGES_PAGES, 0), (Reg.TELLER_DPOOL_PAGES_PAGES, 0)]
theorem test_window : dz [Reg.RWIN_CFG 15] [] (.rwinRegister 0 15 0x80010000) (dram16 0x10000D) (fun t => t.flag (Reg.RWIN_CFG_EN 15) && t.flag (Reg.RWIN_CFG_BUSY 15)) = true ∧
    dz [Reg.RWIN_CFG 15] [] (.rwinRegister 0 15 0x80010000) (dram16 0x10000E) (fun t => !t.flag (Reg.RWIN_CFG_EN 15) && t.flag (Reg.RWIN_CFG_ERR 15)) = true ∧
    dz [Reg.RWIN_CFG 15] [] (.rwinRegister 0 15 0x80410000) (dram16 0x100000) (fun t => !t.flag (Reg.RWIN_CFG_EN 15) && t.flag (Reg.RWIN_CFG_ERR 15)) = true := by decide +kernel
/-- Window 15 is registered from the Vault page 97, and being zeroed. -/
def runWin : State := { (withFields State.reset [(Reg.TELLER_VAULT_SPLIT_HOME_FRAMES, 100), (Reg.RWIN_BASE_PAGE 15, 97), (Reg.RWIN_CFG_PAGES 15, 1), (Reg.RWIN_CFG_EN 15, 1), (Reg.RWIN_CFG_BUSY 15, 1)]) with
  mem := [(0x600000, 1), (0x610008, 5), (0x61000F, 0x40), (0x62FFFF, 3), (0x630000, 4)] }
theorem test_window_zeroed : dz [Reg.RWIN_CFG 15] [.mem] (.rwinRegisterComplete 15) runWin (fun t => !t.flag (Reg.RWIN_CFG_BUSY 15) && t.mem == [(0x600000, 1), (0x630000, 4)]) = true ∧
    dz [Reg.RWIN_CFG 15] [.mem, .tally] (.rwinUnregister 0 15 0) runWin (fun t => !t.flag (Reg.RWIN_CFG_EN 15) && !t.flag (Reg.RWIN_CFG_BUSY 15)) = true := by decide +kernel
theorem test_collect : dz [] [.mem, .reply, .teller] (.collect 0 0x630008) (runWin.setFld (Reg.RWIN_CFG_BUSY 15) 0) (fun t => t.reply.status == .ok && t.reply.value == 0x4000000000000005 && t.natAt 0x610008 8 == 0x8000000000000005 && t.byteAt 0x630000 == 4) = true := by decide +kernel
theorem witness_tally_commands : State.reset.holds 18 2 = true ∧ State.reset.holds 0 2 = true ∧ QuietTally (State.reset.setTally 16383 { count := 0xFFFFFFFC }) 16383 ∧
    (selTally {}).tallyNamed 16383 = false ∧ ((selMap none).ctx 255).stage ≠ .undefined ∧ (selMap none).tally.tmap.length < 65536 ∧
    ((selMap none).tallyOf 16383).state = .idle :=
  ⟨by decide, by decide, quiet_of _ _ rfl rfl (by decide), by decide, by decide, by decide, by decide⟩
theorem witness_barriers : (selBar 1 2 3 mbar).holds 0 3 = true ∧ (∀ c, ((selBar 1 2 3 mbar).ctx c).wait = none) ∧ (selBar 1 2 3 mbar).barOf 255 = mbar ∧
    (selBar 1 2 3 sbar).barOf 255 = sbar ∧ (selBar 1 2 3 mbar).barNamed 255 = false := ⟨by decide, fun _ => rfl, by decide, by decide, by decide⟩
theorem witness_windows : (dram16 0x10000D).windowOk 0x10000D 3 = true ∧ (dram16 0x10000D).windowHit 15 0x10000D 3 = false ∧
    (dram16 0x10000E).windowOk 0x10000E 3 = false ∧ runWin.winAt 0x630008 = none ∧ (runWin.setFld (Reg.RWIN_CFG_BUSY 15) 0).winAt 0x630008 = some (15, 2, 8) ∧
    (tally5.tallyOf 16383).count.toNat < (tally5.setFld (Reg.WATCH_THRESH_THRESH 15) 6).fld (Reg.WATCH_THRESH_THRESH 15) ∧
    (∀ c, (runWin.ctx c).wait = none) := ⟨by decide, by decide, by decide, by decide, by decide, by decide, fun _ => rfl⟩

/-! ### Pacers -/
/-- Pacer 15's channel 3 is at word 2047 of its bank 0: opcode, XD = 3, XA = 1, XB = 2, an immediate; X1 = `a`, X2 = `b`, X3 = `d`. -/
def runPac (op imm : Nat) (a b d : W32) : State := { State.reset with island := {
  pacers := [(15, { exec := some (3, 2047), chEn := 8 })], chans := [(63, { xs := [(1, a), (2, b), (3, d)], acc := 7 * 2 ^ 47 })]
  mem := [(16384 * 15 + 2047, BitVec.ofNat 32 (2 ^ 26 * op + 2 ^ 22 * 3 + 2 ^ 18 * 1 + 2 ^ 14 * 2 + imm))] } }
def res (k : Instr) (op imm : Nat) (a b : W32) (d : W32 := 0) : Int × Nat := let t := after k (runPac op imm a b d); (t.px 15 3 3, t.fld (Reg.PCH_STAT_SAT 15 3))
theorem test_pacer_arithmetic : ((res (.pacerLdi 15) 4 0x2000 0 0 == (-0x80000000, 0) && res (.pacerMov 15) 6 0 9 0 == (9, 0) && res (.pacerAdd 15) 8 0 0x7FFFFFFF 1 == (0x7FFFFFFF, 1) && res (.pacerSub 15) 9 0 0x80000000 1 == (-0x80000000, 1))) = true ∧
    ((res (.pacerWsub 15) 0xA 0 0x80000000 1 == (0x7FFFFFFF, 0) && res (.pacerNeg 15) 0xB 0 0x80000000 0 == (0x7FFFFFFF, 1) && res (.pacerAbs 15) 0xC 0 0x80000000 0 == (0x7FFFFFFF, 1))) = true ∧
    ((res (.pacerMin 15) 0xD 0 5 0xFFFFFFFF == (-1, 0) && res (.pacerMax 15) 0xE 0 5 0xFFFFFFFF == (5, 0) && res (.pacerMul 15) 0xF 0 0x80000000 0x80000000 == (0x7FFFFFFF, 1) && res (.pacerMul 15) 0xF 0 0x40000000 3 == (2, 0))) = true ∧
    ((res (.pacerShift 15) 0x10 31 1 0 == (0x7FFFFFFF, 1) && res (.pacerShift 15) 0x10 63 5 0 == (2, 0) && res (.pacerShift 15) 0x10 32 0x80000000 0 == (0, 0) && res (.pacerClamp 15) 0x11 0 7 3 9 == (3, 0))) = true := by decide +kernel
theorem test_pacer_division : ((res (.pacerDiv 15) 0x20 0 1 0x40000000 == (2, 0) && res (.pacerDiv 15) 0x20 0 1 0x80000000 == (-1, 0) && res (.pacerDiv 15) 0x20 0 5 1 == (0x7FFFFFFF, 1) && res (.pacerDiv 15) 0x20 0 0xFFFFFFFF 0 == (-0x80000000, 1) && res (.pacerDiv 15) 0x20 0 0 0 == (0, 1))) = true ∧
    ((res (.pacerSqrt 15) 0x21 0 0x20000000 0 == (0x40000000, 0) && res (.pacerSqrt 15) 0x21 0 0 0 == (0, 0))) = true := by decide +kernel
/-- The same with channel 3's insides replaced and more words in memory. -/
def runPacC (op imm : Nat) (x : Chan) (m : Map W32 := []) : State := let s := runPac op imm 0 0 0
  { s with island := { s.island with chans := [(63, { x with xs := [(1, 5), (2, 0xFFFFFFFD)] })], mem := s.island.mem ++ m.map fun e => (16384 * 15 + e.1, e.2) } }
def wentB (s t : State) (pc : Nat := 2048) : Bool := t.pacer 15 == { s.pacer 15 with exec := some (3, pc) }
def pdz (c : Instr) (s : State) (p : State → Bool) (ks : List Nat := []) (ps : List Part := []) : Bool := dz ks (.island :: ps) c s fun t => wentB s t && p t
theorem test_pacer_loads : (pdz (.pacerLd 15) (runPacC 2 0x3FF {} [(0x2000 + 0x400 * 3 + 0x3FF, 77)]) (fun t => t.px 15 3 3 == 77)) = true ∧
    (pdz (.pacerLd 15) (runPacC 2 0x43F { ins := [(63, 78)] }) (fun t => t.px 15 3 3 == 78)) = true ∧
    (pdz (.pacerLd 15) (runPacC 2 0x447 { mbx := [0, 0, 0, 0, 0, 0, 0, 79] }) (fun t => t.px 15 3 3 == 79)) = true ∧
    (pdz (.pacerLd 15) (runPacC 2 0x44B { rxi := [(3, 80)] }) (fun t => t.px 15 3 3 == 80)) = true ∧
    (pdz (.pacerLd 15) (runPacC 2 0x44C { instant := 0x500000006 }) (fun t => t.px 15 3 3 == 6)) = true ∧
    (pdz (.pacerLd 15) (runPacC 2 0x44D { instant := 0x500000006 }) (fun t => t.px 15 3 3 == 5)) = true ∧
    (pdz (.pacerLd 15) (runPacC 2 0x4BF { feat := [(63, 81)] }) (fun t => t.px 15 3 3 == 81)) = true ∧
    (pdz (.pacerLd 15) (runPacC 2 0x4CF { outs := [(15, 82)] }) (fun t => t.px 15 3 3 == 82)) = true := by decide +kernel
theorem test_pacer_stores : (pdz (.pacerSt 15) (runPacC 3 0x3FF {}) (fun t => t.pmem 15 (0x2000 + 0x400 * 3 + 0x3FF) == 5 && t.pmem 15 0x2FFE == 0)) = true ∧
    (pdz (.pacerSt 15) (runPacC 3 0x4BF { feat := [(1, 1)] }) (fun t => (t.chan 15 3).feat == [(1, 1), (63, 5)])) = true ∧
    (pdz (.pacerSt 15) (runPacC 3 0x4CF {}) (fun t => (t.chan 15 3).outs == [(15, 5)])) = true ∧
    (pdz (.pacerLdk 15) (runPacC 5 0x3FF {} [(0x1000 + 2 * 0x3FF, 83)]) (fun t => t.px 15 3 3 == 83)) = true := by decide +kernel
theorem test_pacer_accumulator : (pdz (.pacerAclr 15) (runPacC 0x18 0 { acc := 9 }) (fun t => (t.chan 15 3).acc == 0)) = true ∧
    (pdz (.pacerAld 15) (runPacC 0x19 0 { acc := 9 }) (fun t => (t.chan 15 3).acc == 5 * 2 ^ 47) [Reg.PCH_STAT 15 3]) = true ∧
    (pdz (.pacerMac 15) (runPacC 0x1A 0x3FF { acc := 2 ^ 95 - 1 } [(0x1000 + 2 * 0x3FF, 3), (0x1000 + 2 * 0x3FF + 1, 0x10)]) (fun t => (t.chan 15 3).acc == 2 ^ 95 - 1 && t.fld (Reg.PCH_STAT_SAT 15 3) == 1) [Reg.PCH_STAT 15 3]) = true ∧
    (pdz (.pacerMsu 15) (runPacC 0x1B 0x3FF { acc := 100 } [(0x1000 + 2 * 0x3FF, 3), (0x1000 + 2 * 0x3FF + 1, 0x10)]) (fun t => (t.chan 15 3).acc == 85) [Reg.PCH_STAT 15 3]) = true ∧
    (pdz (.pacerMacx 15) (runPacC 0x1C 0 { acc := 1 }) (fun t => (t.chan 15 3).acc == 1 - 15 * 2 ^ 16) [Reg.PCH_STAT 15 3]) = true ∧
    (pdz (.pacerAst 15) (runPacC 0x1D 0 { acc := 3 * 2 ^ 46 }) (fun t => t.px 15 3 3 == 2) [Reg.PCH_STAT 15 3]) = true ∧
    (pdz (.pacerAst 15) (runPacC 0x1D 31 { acc := 3 * 2 ^ 46 }) (fun t => t.px 15 3 3 == 1) [Reg.PCH_STAT 15 3]) = true := by decide +kernel
theorem test_pacer_flow : (pdz (.pacerHyst 15) (runPacC 0x28 3 { hyst := [(3, { s := false, n := 8 })] } [(0x3000 + 0x300 + 0x66, 4), (0x3000 + 0x300 + 0x67, 200)]) (fun t => mget (fun _ => {}) (t.chan 15 3).hyst 3 == { s := true, d := 200, n := 9 } && t.px 15 3 3 == 2 ^ 31 - 1) [Reg.PCH_STAT 15 3]) = true ∧
    (pdz (.pacerHyst 15) (runPacC 0x28 3 { hyst := [(3, { s := false, n := 8 })] } [(0x3000 + 0x300 + 0x66, 5), (0x3000 + 0x300 + 0x67, 200)]) (fun t => mget (fun _ => {}) (t.chan 15 3).hyst 3 == { s := false, d := 0, n := 8 } && t.px 15 3 3 == -2 ^ 31) [Reg.PCH_STAT 15 3]) = true ∧
    (pdz (.pacerSetf 15) ((runPacC 0x38 0x1F0 {}).setFld (Reg.PCH_STAT_FLAGS 15 3) 9) (fun t => t.fld (Reg.PCH_STAT_FLAGS 15 3) == 0xF9) [Reg.PCH_STAT 15 3]) = true ∧
    (pdz (.pacerEvt 15) (runPacC 0x39 0 {}) (fun _ => true)) = true ∧
    (pdz (.pacerEvt 15) (withFields (runPacC 0x39 0 {}) [(Reg.PCH_CFG_EVT_EN 15 3, 1), (Reg.PCH_CFG_EVT_TALLY 15 3, 16383)]) (fun t => t.tallyOf 16383 == { count := 1, events := 1 }) [] [.tally]) = true ∧
    (pdz (.pacerNop 15) (runPacC 1 0 {}) (fun _ => true)) = true ∧
    dz [] [.island] (.pacerBr 15) (runPacC 0x30 9 {}) (fun t => (t.pacer 15).exec == some (3, 2048)) = true ∧
    dz [] [.island] (.pacerHalt 15) (runPacC 0 0 {}) (fun t => (t.pacer 15).exec == none && (t.chan 15 3).ran && mget (fun _ => 0) (t.chan 15 3).snap 0xA1 == 5) = true := by decide +kernel
theorem witness_pacer : PacerAt (runPac 0x22 0 1 2 3) 15 0x22 3 2047 ⟨0x22, 3, 1, 2, 0⟩ ∧ PacerAt (runPac 0x20 0 1 0 3) 15 0x20 3 2047 ⟨0x20, 3, 1, 2, 0⟩ ∧
    PacerAt (runPacC 2 0x4CF {}) 15 2 3 2047 ⟨2, 3, 1, 2, 0x4CF⟩ ∧ QuietTally (runPacC 0x39 0 {}) 16383 ∧ ((runPacC 0x39 0 {}).tallyOf 16383).state ≠ .forfeit :=
  ⟨⟨rfl, rfl, rfl⟩, ⟨rfl, rfl, rfl⟩, ⟨rfl, rfl, rfl⟩, quiet_of _ _ rfl rfl (by decide), by decide⟩

/-! ### The island's commands and its inputs -/
/-- The island is out of reset, Pacer 15 follows the enabled Lane 15 every microsecond; its memory is zeros: every channel halts at once. -/
def runIsl (p : Pacer) : State := { withFields State.reset [(Reg.LANE_CFG_EN 15, 1), (Reg.PACER_TIME_LANE 15, 15), (Reg.PACER_TIME_PERIOD_NS 15, 1000),
    (Reg.PACER_STEP_STEP 15, 2 ^ 32 * 1000), (Reg.PACER_FIRST_FIRST 15, 100)] with
  island := { reset := false, pacers := if p = {} then [] else [(15, p)] } }
/-- The same with the Pacer running channel 3. -/
def runRun (p : Pacer) : State := withFields (runIsl { p with chEn := 8 }) [(Reg.PACER_CTL_EN 15, 1), (Reg.PACER_STAT_RUN 15, 1)]
def two : List Nat := [Reg.PACER_CTL 15, Reg.PACER_STAT 15]
def brs : List Nat := (List.range 12).map Reg.PWM_BR_STAT
theorem test_pacer_arm : dz (two ++ brs) [.island] (.pacerArm 0 15 0x88010000) (runIsl {}) (fun t => t.pacerRuns 15 && t.flag (Reg.PACER_CTL_EN 15) && t.pacer 15 == { chEn := 8, pbank := 1, next := 100 } && t.fld (Reg.PACER_CTL_CH_EN 15) == 8) = true ∧
    dz two [] (.pacerArm 0 15 0x88000000) ((runIsl {}).setFld (Reg.PACER_STEP_STEP 15) 0) (fun t => !t.pacerRuns 15 && t.fld (Reg.PACER_STAT_ERR 15) != 0) = true ∧
    dz [Reg.PACER_CTL 15] [.island] (.pacerStop 0 15 0x08000000) (runRun {}) (fun t => t.pacer 15 == { chEn := 8, stopping := true } && t.pacerRuns 15 && !t.flag (Reg.PACER_CTL_EN 15)) = true := by decide +kernel
theorem test_pacer_switch : dz two [.island] (.pacerSwitch 0 15 0x8F030000) (runRun {}) (fun t => t.pacer 15 == { chEn := 8, change := some (15, 1, 1) } && t.fld (Reg.PACER_CTL_CH_EN 15) == 15 && t.fld (Reg.PACER_STAT_ERR 15) == 0) = true ∧
    dz two [] (.pacerSwitch 0 15 0x8F030000) ((runRun {}).setFld Reg.ISLAND_STAT_HOLD 1) (fun t => t.fld (Reg.PACER_STAT_ERR 15) == 0xC && t.fld (Reg.PACER_CTL_CH_EN 15) == 8) = true := by decide +kernel
theorem test_pacer_instant : dz ([Reg.PACER_CNT 15, Reg.PACER_PERIODS 15] ++ (List.range 4).map (Reg.PCH_STAT 15)) [.island] (.pacerSampleInstant 15 [])
      (let s := runRun {}; { s with island := { s.island with mem := [(16384 * 15 + 0x3000 + 0x300 + 63, 0x8000000B + 2 * 2 ^ 24)], encs := [(11, { pos := 77 })] } })
      (fun t => t.reg (Reg.PACER_PERIODS 15) == 1 && (t.pacer 15).sampled && (t.pacer 15).next == 2 ^ 32 * 1000 && (t.pacer 15).last == some 0) = true ∧
    dz [] [.island] (.pacerExecutionStart 15) ((runRun { sampled := true }).setFld (Reg.PCH_ENTRY_ENTRY0 15 3) 2047) (fun t => !(t.pacer 15).sampled && (t.pacer 15).exec == some (3, 2047)) = true ∧
    dz [Reg.PACER_CNT 15] [] (.pacerEccError 15 false) (runRun {}) (fun t => t.fld (Reg.PACER_CNT_CE_COUNT 15) == 1) = true ∧
    dz (two ++ brs) [.island] (.pacerEccError 15 true) (runRun { exec := some (3, 5) }) (fun t => t.fld (Reg.PACER_STAT_UE 15) == 1 && !t.pacerRuns 15 && (t.pacer 15).exec == none) = true := by decide +kernel
theorem test_mailbox : dz [Reg.PCH_MBX_SEQ 15 3] [.island] (.mailboxCommit 0 15 3 1) (((runRun {}).setReg (Reg.PCH_MBX_SEQ 15 3) 0xFFFFFFFF).setReg (stg 0 (Reg.PCH_MBX_DATA 15 3 7)) 5) (fun t => t.fld (Reg.PCH_MBX_SEQ_SEQ 15 3) == 0 && (t.chan 15 3).commits == [{ time := 0, seq := 0, words := [0, 0, 0, 0, 0, 0, 0, 5] }]) = true ∧
    dz [Reg.PCH_STAT 15 3] [] (.mailboxCommit 0 15 3 1) ((runRun {}).setFld (Reg.PCH_MBX_CFG_SRC 15 3) 1) (fun t => t.fld (Reg.PCH_STAT_MBX_REJ 15 3) == 1) = true := by decide +kernel
/-- Mailbox 3 is fed from the Vault page 8 by the first Receipt of window 1. -/
def runFeed : State := { withFields (runRun {}) [(Reg.PCH_MBX_CFG_SRC 15 3, 1), (Reg.PCH_MBX_CFG_WIN 15 3, 1), (Reg.PCH_MBX_CFG_RCPT 15 3, 0), (Reg.PCH_FEED_ADDR_ADDR 15 3, 0x40000 / 32),
    (Reg.RWIN_BASE_PAGE 1, 8), (Reg.RWIN_CFG_PAGES 1, 1), (Reg.RWIN_CFG_EN 1, 1)] with
  boot := { computeReset := false }, mem := [(0x4001C, 9), (0x80000, 5), (0x80007, 0x40)] }
theorem test_mailbox_feed : dz [Reg.PCH_MBX_SEQ 15 3] [.island, .mem, .teller] (.mailboxFeed 15 3) runFeed (fun t => (t.chan 15 3).commits.map (·.words) == [[0, 0, 0, 0, 0, 0, 0, 9]] && t.rcptWord 0x80000 == 0x8000000000000005) = true := by decide +kernel
theorem test_sigma_delta : dz [Reg.SD_STAT 47] [] (.sdNoClock 47) (runIsl {}) (fun t => t.fld (Reg.SD_STAT_NO_CLOCK 47) == 1) = true ∧
    dz [Reg.SD_STAT 47, Reg.PWM_BR_STAT 11] [.island] (.sdTrip 47 0x8000) (withFields (runIsl {}) [(Reg.SD_CFG_EN 47, 1), (Reg.SD_CFG_TRIP_EN 47, 1), (Reg.SD_CFG_TRIP_BR 47, 11), (Reg.SD_TRIP_LO 47, 0x8001), (Reg.PWM_BR_CFG_POL 11, 0x15)]) (fun t => t.fld (Reg.SD_STAT_TRIPPED 47) == 1 && t.fld (Reg.PWM_BR_STAT_TRIP 11) == 1 && (t.bridge 11).level == 0x15) = true := by decide +kernel
theorem test_encoders : dz [] [.island] (.encoderCount 11 (.count true)) (withFields (runIsl {}) [(Reg.ENC_CFG_MODE 11, 1), (Reg.ENC_CFG_LINES 11, 1024)]) (fun t => (t.enc 11).count == -1 && (t.enc 11).turns == -1 && (t.enc 11).pos == BitVec.ofNat 32 (4095 * 2 ^ 20)) = true ∧
    dz [Reg.ENC_STAT 11] [.island] (.encoderCount 11 .illegal) (withFields (runIsl {}) [(Reg.ENC_CFG_MODE 11, 1)]) (fun t => (t.enc 11).faults == 1 && t.fld (Reg.ENC_STAT_ILLEGAL 11) == 1) = true ∧
    dz [] [.island] (.ssiTransferStart 11) (withFields (runIsl {}) [(Reg.ENC_CFG_MODE 11, 2)]) (fun t => (t.enc 11).busy) = true ∧
    dz [Reg.ENC_STAT 11] [.island] (.ssiWordComplete 11 none) (let s := withFields (runIsl {}) [(Reg.ENC_CFG_MODE 11, 2)]; { s with island := { s.island with encs := [(11, { busy := true })] } }) (fun t => !(t.enc 11).busy && (t.enc 11).run == 1 && t.fld (Reg.ENC_STAT_SSI_TMO 11) == 1) = true ∧
    dz [Reg.ENC_STAT 11] [.island] (.ssiWordComplete 11 (some 0x1801)) (let s := withFields (runIsl {}) [(Reg.ENC_CFG_MODE 11, 2), (Reg.ENC_CFG_BITS 11, 12)]; { s with island := { s.island with encs := [(11, { busy := true })] } }) (fun t => (t.enc 11).word == 0x801 && (t.enc 11).pos == 0x80100000 && (t.enc 11).seen) = true := by decide +kernel
/-- Bridge 11 has a centre carrier; a compare value of phase 2 waits for the zero. -/
def runBr : State := let s := withFields (runIsl {}) [(Reg.PWM_BR_CFG_EN 11, 1), (Reg.PWM_BR_CFG_LOAD 11, 1), (Reg.PWM_BR_CFG_EDGE 11, 0)]
  { s with island := { s.island with bridges := [(11, { up := true, cmp := [(0, 3)], pend := [(2, some 9)], cmd := 1 })] } }
theorem test_carrier : dz [Reg.PWM_BR_STAT 11] [.island] (.carrierZero 11 false) runBr (fun t => (t.bridge 11).counter == 0 && (t.bridge 11).up && State.brCmp (t.bridge 11) 2 == 9 && (t.bridge 11).cmd == 5) = true ∧
    dz [Reg.PWM_BR_STAT 11] [.island] (.carrierZero 11 true) runBr (fun t => (t.bridge 11).counter == runBr.brHalf 11 && !(t.bridge 11).up) = true ∧
    dz [Reg.PWM_BR_STAT 11] [.island] (.pwmCompareMatch 11 0) runBr (fun t => (t.bridge 11).counter == 3 && (t.bridge 11).cmd == 0) = true := by decide +kernel
theorem test_hold_and_run : dz [Reg.ISLAND_STAT, Reg.ISLAND_CTL] [] (.islandHold 0) (runIsl {}) (fun t => t.islandHold && t.fld Reg.ISLAND_CTL_HOLD == 1 && t.fld Reg.ISLAND_STAT_HOLD_CAUSE == 0) = true ∧
    dz [Reg.ISLAND_STAT, Reg.ISLAND_CTL] [] (.islandRun 0) { (runIsl {}).setFld Reg.ISLAND_STAT_HOLD 1 with boot := { computeReset := false } } (fun t => !t.islandHold && t.fld Reg.ISLAND_CTL_HOLD == 0) = true ∧
    dz [Reg.ISLAND_STAT] [] (.islandRun 0) ((runIsl {}).setFld Reg.ISLAND_STAT_HOLD 1) (fun t => t.islandHold && t.fld Reg.ISLAND_STAT_RUN_REFUSED == 1) = true := by decide +kernel
theorem test_island_reset : dz [Reg.ISLAND_STAT] [.island] .islandInitComplete ({ (runIsl {}).setFld Reg.ISLAND_STAT_INIT_BUSY 1 with island := { reset := false, mem := [(5, 5)] } }) (fun t => !t.flag Reg.ISLAND_STAT_INIT_BUSY && t.island == { reset := false }) = true ∧
    dz [] [.island] (.vioDriveChange false) (runIsl {}) (fun t => t.island == { reset := false, vioDrive := false }) = true ∧
    dz (Reg.ISLAND_STAT :: brs) [.island, .boot] .islandResetRelease State.reset (fun t => !t.island.reset && t.boot.islRel) = true := by decide +kernel
theorem witness_pacer_commands : State.reset.holds 0 4 = true ∧ State.reset.present 5 = true ∧ (runIsl {}).pacerRuns 15 = false ∧
    (runIsl {}).pacerCheck 15 8 1 0 = none ∧ ((runIsl {}).setFld (Reg.PACER_STEP_STEP 15) 0).pacerCheck 15 8 0 0 = some (1, 0) ∧
    reached ((runIsl {}).laneVal 15) 100 = false ∧ (runRun {}).pacerRuns 15 = true ∧ (runRun {}).srcHeld 15 = false ∧
    (∀ c, c < 4 → ((runRun {}).chan 15 c).ran = false) ∧ runFeed.rcptAddr 1 0 = 0x80000 ∧ runFeed.rcptWin 0x80000 = some 1 ∧ runFeed.isVdHome 4 = true ∧
    rcptState (runFeed.rcptWord 0x80000) = 1 := by decide

/-! ### The Fusion unit -/
/-- The Fusion unit is out of reset; Lane 0 runs and is the fusion Lane; requester 0 has staged an IDENTITY stream fed by Receipt 2 of window 1. -/
def runFus : State := { withFields State.reset [(Reg.LANE_CFG_EN 0, 1), (Reg.LANE_STAT_RUN 0, 1), (Reg.RWIN_BASE_PAGE 1, 8), (Reg.RWIN_CFG_PAGES 1, 1), (Reg.RWIN_CFG_EN 1, 1),
    (Reg.FADM_FEED_WIN.of 0, 1), (Reg.FADM_FEED_RCPT.of 0, 2), (Reg.FADM_CFG_PERIOD_US.of 0, 5), (Reg.FADM_ADDR_ADDR.of 0, 0x1000)] with
  boot := { computeReset := false } }
/-- All streams are taken. -/
def allStreams (s : State) : State := withFields s ((List.range 64).map fun k => (Reg.FSTR_STAT_STATE k, 1))
/-- Every frame is VALID in bank 1. -/
def allFrames (s : State) : State := { s with fusion := { s.fusion with tables := (List.range 64).map fun f => (State.frameOff 1 f + 49, 1) } }
def adRegs (k : Nat) : List Nat := [stg 0 Reg.FUSION_ADMIT_INFO, Reg.FSTR_CFG k, Reg.FSTR_CLOCK k, Reg.FSTR_FEED k, Reg.FSTR_TOL k, Reg.FSTR_ADDR k, Reg.FSTR_LAT k,
      Reg.FSTR_STAT k, Reg.FSTR_OFFSET k, Reg.FSTR_RATE k]
theorem test_fusion_admit : dz (adRegs 0) [.fusion] (.fusionAdmit 0) runFus (fun t => t.fState 0 == 1 && t.flag (Reg.FSTR_CFG_EN 0) && t.fld (Reg.FSTR_CFG_PERIOD_US 0) == 5 && t.fld (Reg.FSTR_FEED_RCPT 0) == 2 && t.flag (Reg.FSTR_STAT_LOCKED 0) && t.reg (stg 0 Reg.FUSION_ADMIT_INFO) == 0) = true ∧
    dz (adRegs 1) [.fusion] (.fusionAdmit 0) (withFields runFus [(Reg.FSTR_STAT_STATE 0, 4), (Reg.FSTR_CFG_EN 0, 1)]) (fun t => t.fState 1 == 1 && t.fld (Reg.FSTR_CFG_FRAME 1) == 1 && t.reg (stg 0 Reg.FUSION_ADMIT_INFO) == 0x101) = true ∧
    dz [stg 0 Reg.FUSION_ADMIT_INFO, Reg.FUSION_REFUSE] [] (.fusionAdmit 0) (allStreams runFus) (fun t => t.fld Reg.FUSION_REFUSE_NO_STREAM == 1 && t.reg (stg 0 Reg.FUSION_ADMIT_INFO) == 0x1000000) = true ∧
    dz [stg 0 Reg.FUSION_ADMIT_INFO, Reg.FUSION_REFUSE] [] (.fusionAdmit 0) (allFrames runFus) (fun t => t.fld Reg.FUSION_REFUSE_NO_FRAME == 1 && t.reg (stg 0 Reg.FUSION_ADMIT_INFO) == 0x2000000) = true ∧
    dz [stg 0 Reg.FUSION_ADMIT_INFO, Reg.FUSION_REFUSE] [] (.fusionAdmit 0) (runFus.setFld (Reg.FADM_CLOCK_SRC_LANE.of 0) 15) (fun t => t.fld Reg.FUSION_REFUSE_NO_LANE == 1 && t.reg (stg 0 Reg.FUSION_ADMIT_INFO) == 0x3000000) = true ∧
    dz [stg 0 Reg.FUSION_ADMIT_INFO, Reg.FUSION_REFUSE] [] (.fusionAdmit 0) (runFus.setFld (Reg.FADM_CLOCK_PAIR.of 0) 3) (fun t => t.fld Reg.FUSION_REFUSE_BAD_CFG == 1 && t.reg (stg 0 Reg.FUSION_ADMIT_INFO) == 0x4000000) = true := by decide +kernel
theorem test_fusion_retire : dz [stg 0 Reg.FUSION_ADMIT_INFO] [] (.retire 0 63) runFus (fun t => t.reg (stg 0 Reg.FUSION_ADMIT_INFO) == 63) = true ∧
    dz [stg 0 Reg.FUSION_ADMIT_INFO, Reg.FSTR_CFG 63, Reg.FSTR_STAT 63] [.fusion] (.retire 0 63) (let s := withFields runFus [(Reg.FSTR_STAT_STATE 63, 2), (Reg.FSTR_CFG_EN 63, 1), (Reg.FSTR_CFG_FRAME 63, 63)]
      { s with fusion := { streams := [(63, { good := 8 })], samples := [⟨63, 1, 0, 0, [], 5, false⟩, ⟨7, 1, 0, 0, [], 5, false⟩], tables := [(State.frameOff 1 63 + 49, 1)] } }) (fun t => t.fState 63 == 0 && !t.flag (Reg.FSTR_CFG_EN 63) && !t.frameValid 1 63 && t.fusion.samples == [⟨7, 1, 0, 0, [], 5, false⟩] && t.fstr 63 == {}) = true := by decide +kernel
/-- Stream 63 is a member with the record at page 4: STAMP 5, SEQ 3, one measurement whose first byte is 9; its Receipt is posted. -/
def runIn (l : List (Fld × Nat)) (st : FStream) : State := { withFields runFus ([(Reg.FSTR_STAT_STATE 63, 2), (Reg.FSTR_CFG_EN 63, 1), (Reg.FSTR_FEED_WIN 63, 1), (Reg.FSTR_FEED_RCPT 63, 0),
    (Reg.FSTR_ADDR_ADDR 63, 0x1000), (Reg.FUSION_CTL_EN, 1), (Reg.FSTR_CFG_PERIOD_US 63, 1), (⟨Reg.FUSION_INST_STEP, 0, 64⟩, 10)] ++ l) with
  mem := [(0x40000, 5), (0x40008, 3), (0x4000C, 1), (0x40040, 9), (0x80000, 5), (0x80007, 0x40)]
  fusion := { streams := [(63, st)], next := 5 } }
theorem test_fusion_intake : dz [Reg.FSTR_STAT 63, Reg.FSTR_OFFSET 63, Reg.FSTR_RATE 63] [.fusion, .mem, .teller] (.sampleIntake 63) (runIn [] {}) (fun t => rcptState (t.rcptWord 0x80000) == 2 && (t.fstr 63).top == some 5 &&
      t.fusion.samples == [{ stream := 63, y := 5, seq := 3, count := 1, data := 9 :: List.replicate 31 0, inst := 5, late := false }]) = true ∧
    dz [Reg.FSTR_STAT 63] [] (.sampleIntake 63) (let s := runIn [(Reg.RWIN_CFG_MODE 1, 1)] {}; { s with mem := [] }) (fun t => t.fld (Reg.FSTR_STAT_FEED_SKIP 63) == 1) = true ∧
    dz [] [] (.sampleIntake 63) (let s := runIn [] {}; { s with mem := [] }) (fun _ => true) = true ∧
    dz [Reg.FSTR_STAT 63, Reg.FSTR_OFFSET 63, Reg.FSTR_RATE 63] [.fusion, .mem, .teller] (.sampleIntake 63) (runIn [(Reg.FSTR_STAT_STATE 63, 1), (Reg.FSTR_CLOCK_PAIR 63, 2)] { xRef := 5, yRef := 4, rate := 0, good := 3, paired := true }) (fun t => (t.fstr 63).xRef == 5 && (t.fstr 63).yRef == 3 && (t.fstr 63).good == 4 &&
      t.fState 63 == 1) = true := by decide +kernel
/-- A track. -/
def tr0 : Track := { id := 1, conf := false, model := 0, misses := 0, hits := 1, cls := 0, last := 0, n := 1, x := [], p := [] }
theorem test_fusion_departure : dz [Reg.FSTR_STAT 63] [] (.streamDeparture 63) (withFields State.reset [(Reg.FSTR_STAT_STATE 63, 2)]) (fun t => t.fState 63 == 4) = true ∧
    dz [] [] (.streamDeparture 63) (withFields State.reset [(Reg.FSTR_STAT_STATE 63, 2), (Reg.FSTR_CFG_PERIOD_US 63, 1)]) (fun t => t.fState 63 == 2) = true ∧
    dz [Reg.FSTR_STAT 63] [] (.streamDeparture 63) (withFields State.reset [(Reg.FSTR_STAT_STATE 63, 2), (Reg.FSTR_CFG_PERIOD_US 63, 1), (Reg.LANE_STAT_SRC_LOST 0, 1)]) (fun t => t.fState 63 == 4) = true ∧
    dz [Reg.FUSION_ERR] [] (.trackerEccError 1023 false) (State.reset.setFld Reg.FUSION_ERR_CE_COUNT 65535) (fun t => t.fld Reg.FUSION_ERR_CE_COUNT == 65535) = true ∧
    dz [Reg.FUSION_ERR] [.fusion] (.trackerEccError 1023 true) { State.reset with fusion := { tracks := [(1023, some tr0)] } } (fun t => t.fld Reg.FUSION_ERR_UE_SLOT == 1023 && t.fld Reg.FUSION_ERR_UE == 1 && t.fusion.tracks == [(1023, some { tr0 with bad := true })]) = true := by decide +kernel
theorem test_fusion_buffer : dz [Reg.FUSION_CTL, Reg.FUSION_STAT, Reg.FSTR_STAT 63] [.fusion] (.fusionEnable 0 0x85000000) (let s := withFields runFus [(Reg.FSTR_STAT_STATE 63, 1), (Reg.FSTR_STAT_LOCKED 63, 1), (⟨Reg.FUSION_INST_FIRST, 0, 64⟩, 77)]
      { s with fusion := { streams := [(63, { good := 8 })], tables := [(State.frameOff 0 0 + 49, 1)] } }) (fun t => t.flag Reg.FUSION_CTL_EN && t.fld Reg.FUSION_CTL_LANE == 5 && t.fld Reg.FUSION_STAT_OPEN == 8 && t.fusion.next == 77 && t.fState 63 == 2 && t.fState 0 == 0) = true ∧
    dz [Reg.FUSION_CTL, Reg.FUSION_STAT] [] (.fusionEnable 0 0x80000000) (runFus.setFld Reg.FUSION_REL_RCPT_WIN 1) (fun t => t.fld Reg.FUSION_STAT_CFG_ERR == 1 && !t.flag Reg.FUSION_CTL_EN) = true ∧
    dz [Reg.FUSION_CTL, Reg.FUSION_STAT] [.fusion] (.fusionEnable 0 0x05000000) (runIn [] {}) (fun t => !t.flag Reg.FUSION_CTL_EN && t.fld Reg.FUSION_CTL_LANE == 0 && t.fld Reg.FUSION_STAT_OPEN == 0) = true ∧
    dz [Reg.FUSION_CTL, Reg.FUSION_STAT] [] (.transformSwap 0 0x10000000) { runFus with fusion := { tables := [(State.frameOff 1 0 + 48, 0x3F), (State.frameOff 1 0 + 49, 1), (State.frameOff 1 63 + 48, 0xFF), (State.frameOff 1 63 + 49, 1)] } } (fun t => t.fld Reg.FUSION_STAT_BANK == 1 && t.fld Reg.FUSION_STAT_CHAIN_ERR == 0) = true ∧
    dz [Reg.FUSION_CTL, Reg.FUSION_STAT] [] (.transformSwap 0 0x10000000) { runFus with fusion := { tables := [(State.frameOff 1 0 + 48, 0x3F), (State.frameOff 1 0 + 49, 1)] } } (fun t => t.fld Reg.FUSION_STAT_BANK == 0 && t.fld Reg.FUSION_STAT_CHAIN_ERR == 1) = true := by decide +kernel
/-- Instant 0 is the oldest, and sets go to the Vault page 4. -/
def runRel : State := { withFields runFus [(Reg.FUSION_CTL_EN, 1), (⟨Reg.FUSION_INST_STEP, 0, 64⟩, 10), (Reg.RWIN_CFG_MODE 1, 1), (Reg.FUSION_REL_RCPT_WIN, 1), (Reg.FUSION_SET_BASE_ADDR, 4), (Reg.FUSION_SET_CFG_SLOTS, 1), (Reg.FUSION_SET_CFG_SLOT_PAGES, 1)] with
  fusion := { samples := [{ stream := 7, y := 0, seq := 3, count := 1, data := 9 :: List.replicate 31 0, inst := 0, late := false }] } }
theorem test_fusion_release : dz (Reg.FUSION_SET_SEQ :: (List.range 64).map Reg.FSTR_STAT) [.fusion, .mem, .teller, .field] .instantRelease runRel (fun t => t.fusion.next == 10 && t.fusion.newest == some 0 && t.fusion.samples == [] && t.reg Reg.FUSION_SET_SEQ == 1 && rcptState (t.rcptWord 0x80000) == 1 &&
      t.natAt 0x40000 8 == 0 && t.natAt 0x40008 8 == 1 && t.natAt 0x40028 2 == 1 && t.byteAt 0x4002A == 0 && t.byteAt 0x40048 == 7 && t.byteAt 0x41040 == 9) = true ∧
    dz [] [] .instantRelease runFus (fun _ => true) = true := by decide +kernel
theorem test_fusion_hypotheses : (decide (runFus.holds 0 4 = true ∧ runFus.boot.computeReset = false ∧ runFus.admitLane 0 = true ∧ runFus.winOn 1 = true ∧ runFus.frameFree 0 = true ∧ (allFrames runFus).frameFree 63 = false)) = true ∧
    (decide ((runIn [] {}).intakeOk 63 = true ∧ (runIn [] {}).overMode 1 = false ∧ (runIn [] {}).instants.find? (fun i => reached i 5) = some 5 ∧ (runIn [] {}).fusion.newest = none)) = true ∧
    (decide (runRel.mayRelease = true ∧ reached runRel.fusionLane 10 = false ∧ reached runRel.fusionLane (10 + runRel.fLimit) = false ∧ later runRel.fusionLane ((runRel.instantsFrom 8 10 0).getLastD 10) = false ∧ runRel.rcptWin 0x80000 = some 1 ∧ runRel.overMode 1 = true ∧ runRel.isVdHome 4 = true ∧ runRel.winAt 0x40000 = none)) = true := by decide +kernel

/-! ### The Hurdle unit -/
/-- The Hurdle unit is out of reset, with the map in the Vault page 4 from byte 0x40 on, and a stop Stride of one sphere at page 4's end. -/
def runHur (l : List (Fld × Nat)) (h : HurdleUnit) : State := { withFields State.reset ([(Reg.HURDLE_MAP_CFG_LEVELS, 16), (Reg.HURDLE_MAP_CFG_LEAF_MM, 64), (Reg.HURDLE_MAP_NODES_NODES, 5),
    (Reg.HURDLE_MAP_BASE_ADDR, 0x1001), (Reg.HURDLE_STOP_ADDR_ADDR, 0x4FF0)] ++ l) with
  boot := { computeReset := false }, hurdle := h, mem := [(0x4FF00, 1), (0x4FF02, 1), (0x4FF1E, 0x80), (0x4FF1F, 0x3F)] }
theorem test_hurdle_control : dz [Reg.HURDLE_CTL, Reg.HURDLE_STAT] [] (.hurdleEnable 0 true) (runHur [] {}) (fun t => !t.flag Reg.HURDLE_CTL_EN && t.flag Reg.HURDLE_CTL_SRC && t.flag Reg.HURDLE_STAT_CFG_ERR) = true ∧
    dz [Reg.HURDLE_CTL, Reg.HURDLE_STAT, Reg.HURDLE_EPOCH] [.hurdle] (.hurdleEnable 0 true) (runHur [(Reg.HURDLE_STOP_STAT_LOADED, 1)] { tree := .cube .free }) (fun t => t.flag Reg.HURDLE_CTL_EN && t.flag Reg.HURDLE_CTL_SRC && t.reg Reg.HURDLE_EPOCH == 1 && t.hurdle.tree == .cube .unknown && t.fld Reg.HURDLE_STAT_NODES_FREE == 4) = true ∧
    dz [Reg.HURDLE_CTL, Reg.HURDLE_STAT] [] (.hurdleEnable 0 false) (runHur [(Reg.HURDLE_STOP_STAT_LOADED, 1), (Reg.HURDLE_MAP_CFG_LEVELS, 17)] {}) (fun t => !t.flag Reg.HURDLE_CTL_EN && t.flag Reg.HURDLE_STAT_CFG_ERR) = true ∧
    dz [Reg.HURDLE_CTL, Reg.HURDLE_STAT, Reg.HURDLE_STOP_STAT] [.hurdle, .mem] (.hurdleDisable 0 false) (runHur [(Reg.HURDLE_CTL_EN, 1), (Reg.HURDLE_STAT_NODES_FREE, 4), (Reg.HURDLE_STOP_STAT_VALID, 1), (Reg.HURDLE_STOP_STAT_LOADED, 1)] { tree := .cube .free, pose := some ([], []) })
      (fun t => !t.flag Reg.HURDLE_CTL_EN && t.fld Reg.HURDLE_STAT_NODES_FREE == 0 && !t.flag Reg.HURDLE_STOP_STAT_VALID && t.flag Reg.HURDLE_STOP_STAT_LOADED && t.hurdle.pose == none) = true := by decide +kernel
theorem test_stop_stride : dz [Reg.HURDLE_STOP_STAT] [.hurdle] (.stopStrideLoad 0 65535) (runHur [] {}) (fun t => t.flag Reg.HURDLE_STOP_STAT_LOADED && t.fld Reg.HURDLE_STOP_STAT_INDEX == 65535 && t.hurdle.stop == [1, 0, 1, 0] ++ List.replicate 12 0 ++ List.replicate 14 0 ++ [0x80, 0x3F]) = true ∧
    dz [Reg.HURDLE_STOP_STAT] [.hurdle] (.stopStrideLoad 0 7) (runHur [(Reg.HURDLE_STOP_ADDR_ADDR, 0x4FF1)] {}) (fun t => t.flag Reg.HURDLE_STOP_STAT_ERR && t.fld Reg.HURDLE_STOP_STAT_INDEX == 0 && t.hurdle == {}) = true ∧
    dz [] [.hurdle] (.stopStrideLoad 0 7) (runHur [] { runs := [⟨0, 7, 0, false⟩] }) (fun t => t.hurdle.load == some (0x4FF00, 7)) = true := by decide +kernel
/-- Context 0, class 3, runs a batch; one of context 1, class `k`, waits. -/
def runYld (k : Fin 4) : State := { runHur [(Reg.HURDLE_CTL_EN, 1)] { runs := [⟨0, 7, 0, false⟩] } with
  ctxs := [(0, { stage := .resident, cls := 3, root := 1, ops := [{ opMul with unit := .hurdle, mn := .khquery }] }),
           (1, { stage := .resident, cls := k, root := 1, ops := [{ opMul with unit := .hurdle, mn := .khstride, id := 8, state := .ready, begun := false }] })] }
theorem test_batch_yield : dz [] [.hurdle, .ctxs] .batchYield (runYld 2) (fun t => t.hurdle.runs == [⟨0, 7, 0, true⟩, ⟨1, 8, 0, false⟩] && (t.ctx 1).ops.map (·.state) == [.running]) = true ∧
    dz [] [] .batchYield (runYld 3) (fun _ => true) = true ∧
    (decide ((runYld 2).flag Reg.PWR_STAT_THERM_TRIP = false ∧ (runYld 2).firstOp .hurdle (fun _ => true) = some (2, 0, 1, 8) ∧ (runYld 2).runClass ⟨0, 7, 0, false⟩ = 3 ∧ (runYld 2).isMapRun ⟨0, 7, 0, false⟩ = false)) = true := by decide +kernel
theorem test_hurdle_errors : dz [Reg.HURDLE_ERR] [] (.hurdleEccError .corrected) (State.reset.setFld Reg.HURDLE_ERR_CE_COUNT 65535) (fun t => t.fld Reg.HURDLE_ERR_CE_COUNT == 65535) = true ∧
    dz [Reg.HURDLE_ERR] [] (.hurdleEccError (.cache true)) State.reset (fun t => t.flag Reg.HURDLE_ERR_UE && t.flag Reg.HURDLE_ERR_SDF_BROKEN) = true ∧
    dz [Reg.HURDLE_ERR, Reg.HURDLE_STAT] [] (.hurdleEccError (.cache false)) State.reset (fun t => t.flag Reg.HURDLE_ERR_UE && t.flag Reg.HURDLE_STAT_TREE_BROKEN) = true ∧
    dz [Reg.HURDLE_STAT] [] (.hurdleEccError (.poisoned 4)) ((runHur [(Reg.HURDLE_CTL_EN, 1)] {}).setPage 4 { state := .poisoned }) (fun t => t.flag Reg.HURDLE_STAT_TREE_BROKEN) = true ∧
    dz [] [] (.hurdleEccError (.poisoned 5)) ((runHur [(Reg.HURDLE_CTL_EN, 1)] {}).setPage 5 { state := .poisoned }) (fun t => !t.flag Reg.HURDLE_STAT_TREE_BROKEN) = true := by decide +kernel
theorem test_hurdle_hypotheses : (decide ((runHur [] {}).holds 0 4 = true ∧ (runHur [] {}).hurdleLive = true ∧ (runHur [] {}).mapRegionOk = true ∧ ((runHur [] {}).strideAt 0x4FF00).isSome = true)) = true := by decide +kernel
theorem witness_hurdle_alone : Alone (runHur [(Reg.HURDLE_STOP_STAT_LOADED, 1)] {}) := alone_of _ (by decide) ⟨rfl, rfl⟩ ⟨rfl, rfl⟩

/-! ### The Judge -/
/-- A message on the cross-die link. -/
def msg (toJ ok : Bool) (seq : W64) : LinkMsg := { toJudge := toJ, crcOk := ok, seq := seq, lane := 0, body := [] }
def shownJ : List Nat := [Reg.JUDGE_STAT, Reg.JUDGE_CAUSE, Reg.JUDGE_CFG_CRC, Reg.JUDGE_STO, Reg.JUDGE_INPUTS, Reg.JUDGE_LINK, Reg.JUDGE_AUDIT, Reg.JUDGE_AUDIT_FAIL] ++
  (List.range 128).map Reg.JOUT_STAT ++ (List.range 128).map Reg.JOUT_CNT ++ (List.range 32).map Reg.JTASK_STAT
theorem test_judge_beats : dz [] [.out] .judgeHeartbeat (runJ [] {}) (fun t => t.out == [.linkBeat true, .linkBeat false]) = true ∧
    dz [] [.out, .judge] .aliveToggle (runJ [up 7] {}) (fun t => t.out == [.alive] && t.judge == { alive := true, lastAlive := 7 }) = true ∧
    dz [] [] .aliveLoss (runJ [up 99999] {}) (fun _ => true) = true ∧
    dz stoRegs [.judge, .island] .aliveLoss (runJ [up 100000] { alive := true }) (fun t => !t.judge.alive && t.island.stoB == 15 && t.fld (Reg.PWM_BR_STAT_STO 11) == 1) = true ∧
    dz [] [.judge] .copyDrop (runJ [] { copyDrop := 255 }) (fun t => t.judge.copyDrop == 255) = true ∧
    dz [] [.out] (.copyForward 1 0 0x40003 2 0) (runJ [] { linkUp := true } [(0x40003, 9), (0x80000, 5), (0x80007, 0x40)]) (fun t => t.out == [.copy 0 [9, 0]]) = true := by decide +kernel
theorem test_judge_messages : dz [] [.judge] (.crossDieMessage (msg true false 9)) (runJ [] { crcDrop := 65535 }) (fun t => t.judge == { crcDrop := 65535 }) = true ∧
    dz [] [.judge] (.crossDieMessage (msg true true 9)) (runJ [] { seqIn := some 9 }) (fun t => t.judge == { seqIn := some 9, seqDrop := 1 }) = true ∧
    dz [] [.judge] (.crossDieMessage (msg true true 10)) (runJ [up 3] { seqIn := some 9, linkUp := true }) (fun t => t.judge == { seqIn := some 10, linkUp := true, lastTo := 3 }) = true ∧
    dz [] [.judge] (.crossDieMessage (msg true true 10)) (runJ [up 49999] { causes := [⟨3, 0, 15, false⟩] }) (fun t => t.judge == { seqIn := some 10, linkUp := true, lastTo := 49999 }) = true ∧
    dz shownJ [.judge] (.crossDieMessage (msg false true 10)) (runJ [up 3] { linkUp := true, cfgValid := true, fallback := true, estopA := true, cause := 77, outs := [(127, { disagree := 5, late := 6, stray := 7 })], tasks := [(31, { violations := 8 })] })
      (fun t => t.judge.seqOut == some 10 && t.judge.lastFrom == 3 && t.reg Reg.JUDGE_CAUSE == 77 && t.reg Reg.JUDGE_STAT == 0xE0000000 && t.reg Reg.JUDGE_INPUTS == 0x80000000 && t.reg Reg.JUDGE_STO == 0xFFF00000 &&
      t.reg (Reg.JOUT_CNT 127) == 0x50607 && t.fld (Reg.JTASK_STAT_VIOLATIONS 31) == 8) = true := by decide +kernel
theorem test_link_loss : dz [Reg.ISLAND_STAT, Reg.ISLAND_CTL] [.judge] .linkLoss (runJ [up 50000] { linkUp := true, lastTo := 9 }) (fun t => !t.judge.linkUp && t.judge.fallback && t.hasCause 3 && t.islandHold) = true ∧
    dz [] [] .linkLoss (runJ [up 49999] { linkUp := true }) (fun _ => true) = true ∧
    (let t := after .linkLoss (runJ [up 50000, (Reg.SYS_START_STAGE, 0xF)] { linkUp := true }); t.judge.fallback && t.boot.computeReset && t.flag Reg.SYS_START_RESTART && t.fld Reg.SYS_RESET_STAT_LAST_CAUSE == 1) = true := by decide +kernel
theorem test_judge_hypotheses : (decide ((runJ [] {}).judgeOn = true ∧ (runJ [up 50000, (Reg.SYS_START_STAGE, 0xF)] { linkUp := true }).isReady = true ∧ (runJ [] {}).isReady = false)) = true := by decide +kernel
theorem witness_judge_spared : Spared (runJ [up 50000] { linkUp := true }) ∧ JudgeMasks (runJ [up 50000] { linkUp := true }) := ⟨.inl rfl, by decide, by decide⟩

/-! ### Judged outputs, tasks and Audits -/
/-- Output 127 is enabled, Q32, one word, K = 1 of 2, mailbox target unless given otherwise; its record is at the Vault page 4. -/
def cfgOut (guard grp kind target : Nat) : Map Byte := [(0x8F00, 3), (0x8F01, 1), (0x8F03, BitVec.ofNat 8 guard), (0x8F04, 2), (0x8F05, 2), (0x8F06, 1), (0x8F07, BitVec.ofNat 8 grp), (0x8F08, BitVec.ofNat 8 kind),
  (0x8F09, 1), (0x8F0A, BitVec.ofNat 8 target), (0x8F0B, BitVec.ofNat 8 (target / 256)), (0x8F12, 4), (0x8F18, 10), (0x8F20, 100), (0x8F40, 5), (0x8F60, 9), (0x8FA0, 200)]
def runOut (guard : Nat) (x : JOut) (kind target : Nat := 0) (l : List (Fld × Nat) := []) : State :=
  runJ l { linkUp := true, cfgValid := true, cfg := cfgOut guard 3 kind target, outs := [(127, x)] } [(0x40000, 5), (0x40008, 7), (0x80000, 6), (0x80007, 0x40)]
theorem test_judged_frames : dz [] [.judge] (.mainFrame 127) (runOut 0 { rejoined := true }) (fun t => t.judge.outs == [(127, { e0 := some 5, main := some [7], seq := 6, rejoined := true })]) = true ∧
    dz [] [.judge] (.mainFrame 127) (runOut 0xFF { rejoined := true, flags := [true, true] }) (fun t => t.judge.outs == [(127, { e0 := some 5, k := 1, hadMain := true, deliver := [(.main, [7])], lastAgreed := some [7], flags := [false, true], seq := 6, rejoined := true })]) = true ∧
    dz [] [.judge] (.guardValue 127 [12, 99]) (runOut 0 { e0 := some 5, rejoined := true }) (fun t => t.judge.outs == [(127, { e0 := some 5, guard := some [12], rejoined := true })]) = true ∧
    dz [] [.judge] (.guardValue 127 [12]) (runOut 0 { e0 := some 5, main := some [7], rejoined := true }) (fun t => t.judge.outs == [(127, { e0 := some 5, k := 1, hadMain := true, deliver := [(.main, [7])], lastAgreed := some [7], flags := [false], rejoined := true })]) = true ∧
    dz (incRegs 3) [.judge] (.guardValue 127 [13]) (runOut 0 { e0 := some 5, main := some [7], rejoined := true }) (fun t => t.judge.outs == [(127, { e0 := some 5, k := 1, hadMain := true, deliver := [(.guard, [13])], flags := [true], rejoined := true, disagree := 1 })]) = true := by decide +kernel
theorem test_output_deadline : dz [] [] (.outputDeadline 127) (runOut 0 { e0 := some 5, guard := some [3], rejoined := true } 0 0 [(⟨Reg.LANE_VALUE 0, 0, 64⟩, 105)]) (fun _ => true) = true ∧
    dz (incRegs 3) [.judge] (.outputDeadline 127) (runOut 0 { e0 := some 5, guard := some [3], rejoined := true, late := 255 } 0 0 [(⟨Reg.LANE_VALUE 0, 0, 64⟩, 106)]) (fun t => t.judge.outs == [(127, { e0 := some 5, k := 1, deliver := [(.guard, [3])], flags := [true], rejoined := true, disagree := 1, late := 255 })] && t.fld (Reg.INC_CNT_COUNT 3) == 1) = true := by decide +kernel
theorem test_verdict_delivery : dz [] [.judge] (.verdictDelivery 127) (runOut 0 { deliver := [(.last, [7, 8]), (.main, [9])] } 3 126) (fun t => t.judge.outs == [(127, { deliver := [(.main, [9])], lastKind := .last })] && t.judge.sport == [(126, 7), (127, 8)]) = true ∧
    dz [Reg.NET_LS_CFG 3 31] [.judge, .net] (.verdictDelivery 127) (runOut 0 { deliver := [(.guard, [0x01020304, 8])] } 1 0xDF3E) (fun t => t.flag (Reg.NET_LS_CFG_JUDGED 3 31) && t.slotByte (State.slotOff 3 31 + 248) == 4 && t.slotByte (State.slotOff 3 31 + 252) == 8) = true ∧
    dz [] [.judge, .lanes] (.verdictDelivery 127) (let s := runOut 0 { deliver := [(.guard, [7, 1])] } 2 0xFFFF; s.setCue 4095 { armed := true, acc := 3 }) (fun t => t.cue 4095 == { armed := true, target := 0x100000007, acc := 0 }) = true ∧
    ((let s := runOut 0 { deliver := [(.guard, [7])] } 0 0xF3 [(Reg.PCH_MBX_CFG_SRC 15 3, 2), (Reg.PCH_MBX_SEQ_SEQ 15 3, 0xFFFFFFFF)]; match exec (.verdictDelivery 127) s with | .next t => t.fld (Reg.PCH_MBX_SEQ_SEQ 15 3) == 0 && (t.chan 15 3).commits.map (fun q => q.words.take 1) == [[7]] && (t.jout 127).lastKind == .guard | _ => false)) = true := by decide +kernel
/-- Task 31 is supervised: no earlier than 5 us, a gap of 9 us at most. -/
def runTask (react : Nat) (u : Nat) (x : JTask) : State := runJ [up u] { linkUp := true, cfgValid := true, cfg := [(0xA, 2), (0x9F0, BitVec.ofNat 8 (1 + 2 * react)), (0x9F8, 5), (0x9FC, 9)], tasks := [(31, x)] }
theorem test_tasks : dz [] [.judge] (.taskCheckpoint 31) (runTask 1 5000 { armed := true }) (fun t => t.judge.tasks == [(31, { armed := true, last := 5000 })]) = true ∧
    dz [] [.judge] (.taskCheckpoint 31) (runTask 0 4999 { armed := true, violations := 65535 }) (fun t => t.judge.tasks == [(31, { armed := true, last := 4999, violations := 65535 })] && !t.judge.fallback) = true ∧
    dz [Reg.ISLAND_STAT, Reg.ISLAND_CTL] [.judge] (.taskCheckpoint 31) (runTask 1 4999 { armed := true }) (fun t => (t.jtask 31).violations == 1 && t.judge.fallback && t.judge.cause == 0x1F0004) = true ∧
    dz [] [.judge] (.taskGapTimeout 31) (runTask 0 9001 { armed := true }) (fun t => t.judge.tasks == [(31, { armed := true, gapped := true, violations := 1 })]) = true ∧
    dz [] [] (.taskGapTimeout 31) (runTask 0 9000 { armed := true }) (fun _ => true) = true ∧
    dz [] [.judge] .fallbackRestartTimeout (runJ [up 3000000] { fallback := true, cfgValid := true, cfg := [(8, 3), (0x8F00, 1)], cmd := 1 }) (fun t => t.judge.ss1 == 14 && t.hasCause 14 && t.judge.cause == 14 && t.judge.cmd == 1) = true ∧
    dz [] [] .fallbackRestartTimeout (runJ [up 2999999] { fallback := true, cfgValid := true, cfg := [(8, 3), (0x8F00, 1)], cmd := 1 }) (fun _ => true) = true ∧
    dz [] [.judge] .sportTimeout (runJ [up 3000000] { cfgValid := true, cfg := [(6, 3)], cmd := 1 }) (fun t => t.judge.ss1 == 14 && t.hasCause 5) = true := by decide +kernel
theorem test_audits : dz [] [.judge] (.auditFragment 0) (runJ [(Reg.FIELD_GEOM_COLS, 1)] {}) (fun t => t.judge.frags == [0]) = true ∧
    dz [] [.judge] (.auditFragment 15) (runJ [] {}) (fun t => t.judge.frags == [15]) = true ∧
    dz [] [] (.auditFragment 14) ((runJ [] {}).setFld (Reg.SPRINT_ENG_CTL_MAP_OUT 6) 1) (fun _ => true) = true ∧
    dz [Reg.START_PREEMPT_CNT] [.judge, .ctxs] (.auditFragment 0) { runJ [(Reg.FIELD_GEOM_COLS, 1)] {} with ctxs := [(0, { stage := .resident, cls := 2, ops := [opMul] })] } (fun t => t.judge.frags == [0] && (t.ctx 0).ops.map (·.state) == [.saved] && t.fld Reg.START_PREEMPT_CNT_COUNT == 1) = true ∧
    dz [] [.judge] (.auditStepComplete 15 []) (runJ [] { frags := [15], steps := [(4103, 62)] }) (fun t => t.judge == { steps := [(4103, 63)] }) = true ∧
    dz [] [.judge] (.auditStepComplete 15 []) (runJ [up 9] { frags := [15], steps := [(4103, 63)], aged := [4103] }) (fun t => t.judge == { coverAt := [(4103, some 9)] }) = true ∧
    dz [Reg.SPRINT_ENG_STAT 7, Reg.SPRINT_RX_CYC 7, Reg.SPRINT_ENG_CTL 7] [.judge, .sprint] (.auditStepComplete 15 [4103]) (runJ [] { frags := [15], steps := [(4103, 63)] }) (fun t => t.engineOut 7 && t.judge.auditFail == some (1, 63, 7)) = true ∧
    dz (incRegs 4) [.judge] (.auditAgeExceeded 4103) (runJ [up 2001] { linkUp := true, cfg := [(14, 2)] }) (fun t => t.judge.aged == [4103] && t.fld (Reg.INC_CNT_COUNT 4) == 1) = true ∧
    dz [] [] (.auditAgeExceeded 4103) (runJ [up 2000] { linkUp := true, cfg := [(14, 2)] }) (fun _ => true) = true := by decide +kernel
theorem test_judged_hypotheses : (decide ((runOut 0 {}).outEn 127 = true ∧ (runOut 0 {}).isStandby = false ∧ (runOut 0 {}).rcptWin 0x80000 = some 1 ∧ (runOut 0 {}).sourceReads 0x40000 12 = true ∧ (runOut 0xFF {}).isHard 127 [7] none = false ∧ (runOut 0xFF {}).agrees 127 [7] none = true ∧ (runOut 0 {}).isHard 127 [7] (some [12]) = false ∧ (runOut 0 {}).agrees 127 [7] (some [12]) = true)) = true ∧
    (decide ((runTask 1 4999 {}).taskOn 31 = true ∧ (runJ [] {}).posFree 0 = true ∧ (runJ [] {}).posRuns 0 = none ∧ 0 < (runJ [(Reg.FIELD_GEOM_COLS, 1)] {}).posTiles 0 ∧ (runJ [] {}).reservedFor 900 = false ∧ (runJ [] {}).present 1 = true ∧ (runJ [] {}).engineOut 7 = false ∧ (runJ [] {}).bindOf 7 = none ∧ (runJ [] {}).runningOn 1 7 = [])) = true ∧
    (decide ((4103 : Nat) ∈ (runJ [] {}).audited)) = true := by decide +kernel
theorem witness_task_spared : Spared (runTask 1 4999 { armed := true }) ∧ JudgeMasks (runTask 1 4999 { armed := true }) := ⟨.inr (by decide), by decide, by decide⟩

/-! ### The person-side inputs -/
theorem test_sto_and_ss1 : dz [] [.judge] (.stoDiscrepancy 3 true true) (runJ [] { cmd := 15, bRb := 7 }) (fun t => t.judge == { cmd := 15 }) = true ∧
    dz stoRegs [.judge, .island] (.stoDiscrepancy 3 false true) (runJ [] { cmd := 0, aRb := 0, bRb := 0, ss1 := 8 }) (fun t => t.judge.cmd == 15 && t.judge.ss1 == 0 && t.judge.bRb == 8 && t.hasCause 9 && t.judge.cause == 0x30009 && t.island.stopLine == 15) = true ∧
    dz stoRegs [.judge, .island] (.bSide 2) (runJ [] { cmd := 1, bRb := 1 }) (fun t => t.judge.cmd == 5 && t.judge.bRb == 5 && t.judge.causes == [] && t.judge.cause == 0x2000F) = true ∧
    dz [] [] (.ss1Complete 3 false) (runJ [up 6999999] { cmd := 1, ss1 := 8, cfg := [(0x38, 7)] }) (fun _ => true) = true ∧
    dz stoRegs [.judge, .island] (.ss1Complete 3 false) (runJ [up 7000000] { cmd := 1, ss1 := 8, cfg := [(0x38, 7)] }) (fun t => t.judge.cmd == 9 && t.judge.ss1 == 0) = true ∧
    dz stoRegs [.judge, .island] (.ss1Complete 3 true) (runJ [] { cmd := 1, ss1 := 8, cfg := [(0x38, 7)] }) (fun t => t.judge.cmd == 9 && t.judge.ss1 == 0) = true ∧
    dz [] [.judge] (.stoTestOverdue 3) (runJ [up 3600000000001] { cfgValid := true, cfg := [(0x40, 1)] }) (fun t => t.judge.stoTestDue) = true ∧
    dz [] [] (.stoTestOverdue 3) (runJ [up 3600000000000] { cfgValid := true, cfg := [(0x40, 1)] }) (fun _ => true) = true := by decide +kernel
theorem test_emergency_stop : dz stoRegs [.judge, .island] (.estopInputChange true false) (runJ [] { cmd := 0, estopA := true, estopB := true, cfg := [(0x2B, 1), (0x3B, 1)] }) (fun t => t.judge.cmd == 5 && t.judge.ss1 == 10 && !t.judge.estopB && t.judge.estopA && t.judge.cause == 6 && t.judge.estopDiff == some 0) = true ∧
    dz [] [.judge] (.estopInputChange true true) (runJ [] { estopA := true, estopDiff := some 5 }) (fun t => t.judge == { estopA := true, estopB := true }) = true ∧
    dz stoRegs [.judge, .island] .estopDiscrepancy (runJ [up 5000001] { cmd := 0, estopDiff := some 0, cfg := [(0xB, 5)] }) (fun t => t.judge.cmd == 15 && t.hasCause 8 && t.judge.estopFault) = true ∧
    dz [] [] .estopDiscrepancy (runJ [up 5000000] { cmd := 0, estopDiff := some 0, cfg := [(0xB, 5)] }) (fun _ => true) = true := by decide +kernel
theorem test_enabling_device : dz stoRegs [.judge, .island] .enableDiscrepancy (runJ [up 50000001] { cmd := 0, enableDiff := some 0 }) (fun t => t.judge.cmd == 15 && t.judge.enableFault) = true ∧
    dz stoRegs [.judge, .island] (.enableInputChange true false) (runJ [] { cmd := 1, enableReq := true, enableA := true, enableB := true, cfg := [(0x3C, 1)] }) (fun t => t.judge.cmd == 7 && t.judge.ss1 == 8 && t.judge.cause == 7 && t.judge.enableStop == 14) = true ∧
    dz [] [.judge] (.enableInputChange false false) (runJ [] { enableA := true }) (fun t => t.judge == {}) = true ∧
    dz stoRegs [.judge, .island] (.enableInputChange true true) (let s := runJ [(Reg.SYS_START_STAGE, 0xF)] { cmd := 15, ss1 := 4, enableStop := 14, enableReq := true, enableA := true, estopA := true, estopB := true, alive := true, linkUp := true, cfgValid := true, cfg := [(0x25, 1), (0x2D, 1), (0x35, 1)] }
      { s with island := { s.island with stopLine := 15 } }) (fun t => t.judge.cmd == 13 && t.island.stopLine == 13 && t.judge.enableB) = true := by decide +kernel
theorem test_test_pulses : dz [] [.out] (.testPulse 3 8) (runJ [] {}) (fun t => t.out == [.testPulse 3]) = true ∧
    dz stoRegs [.out, .judge, .island] (.testPulse 3 9) (runJ [] { cmd := 0 }) (fun t => t.judge.cmd == 15 && t.judge.enableFault && t.judge.cause == 0x30008) = true ∧
    dz stoRegs [.out, .judge, .island] (.testPulse 0 4) (runJ [] { cmd := 0 }) (fun t => t.judge.cmd == 15 && t.judge.estopFault) = true := by decide +kernel
theorem test_safety_supplies : (let t := after .vinWindowTrip (runJ [] { cmd := 0 }); t.judge.cmd == 15 && t.island.stopLine == 15 && t.hasCause 11 && !t.boot.porHigh && t.boot.computeReset && t.island.reset) = true ∧
    dz stoRegs [.judge, .island, .boot] .vlqLoss (runJ [] { cmd := 0, cfgValid := true, nor := [(7, 7)] }) (fun t => t.judge == { nor := [(7, 7)] } && !t.judgeOn && t.island.stopLine == 15 && t.fld (Reg.PWM_BR_STAT_STO 11) == 1) = true := by decide +kernel

/-! ### The safety port -/
/-- What a safety command answers over the service port: the head of the frame and its payload. -/
def svReply (n : Nat) (t : State) : List Byte := (t.reply.bytes.drop 2).take n
theorem test_safety_port_paths : dz [] [.judge, .reply] (.sportNop true) (runJ [] { svSeq := some 0xFFFF }) (fun t => t.judge == { svSeq := some 0 } && t.reply.bytes.take 6 == [0, 0, 0x80, 1, 0, 0] && t.reply.bytes.length == 128) = true ∧
    dz [] [.judge, .out] (.sportNop false) (runJ [up 9] { spSeq := some 6, causes := [⟨5, 0, 15, false⟩], spReply := [1, 2] }) (fun t => t.out == [.spReply [1, 2]] && t.judge.spSeq == some 7 && t.judge.sportAt == 9 && t.judge.causes == [] && t.judge.spReply.take 6 == [7, 0, 0x80, 1, 0, 0]) = true ∧
    dz (denyRegs 34) [.reply] (.sportNop true) (let s := runJ [] {}; { s with boot := { s.boot with strapSvc := false } }) (fun t => t.reply == { req := 34, status := .denied, value := 0 }) = true ∧
    dz [] [.judge, .out] (.sportFrame (spFrame 7 0 [])) (runJ [up 9] { spSeq := some 6 }) (fun t => t.judge.spSeq == some 7 && t.judge.spReply.take 6 == [7, 0, 0x80, 1, 0, 0]) = true ∧
    dz [] [.judge, .out] (.sportFrame (spFrame 7 8 [])) (runJ [] {}) (fun t => t.judge.spReply.take 6 == [7, 0, 0x88, 1, 3, 0]) = true ∧
    dz [] [.judge, .out] (.sportFrame (spFrame 8 0 [])) (runJ [] { spSeq := some 6, spDrop := 4 }) (fun t => t.judge == { spSeq := some 6, spDrop := 5 }) = true ∧
    dz [] [.judge, .out] (.sportFrame (List.replicate 128 1)) (runJ [] {}) (fun t => t.judge == { spDrop := 1 }) = true := by decide +kernel
theorem test_safety_commands : dz [] [.judge, .reply] (.status true 7) (runJ [] { cause := 0x55, sport := [(112, 0x01020304)] }) (fun t => svReply 10 t == [0x81, 100, 0, 0, 0, 0, 0, 0, 0, 0] && (t.reply.bytes.drop 12).take 1 == [0x55] && (t.reply.bytes.drop 40).take 4 == [4, 3, 2, 1]) = true ∧
    dz [] [.judge, .reply] (.status true 8) (runJ [] {}) (fun t => svReply 3 t == [0x81, 1, 2]) = true ∧
    dz stoRegs [.judge, .reply, .island] (.stop true 15 0) (runJ [] { cmd := 0 }) (fun t => svReply 3 t == [0x82, 1, 0] && t.judge.cmd == 15 && t.judge.cause == 0xF000D && t.island.stopLine == 15) = true ∧
    dz [] [.judge, .reply] (.stop true 12 1) (runJ [] { cmd := 4 }) (fun t => t.judge.cmd == 4 && t.judge.ss1 == 8) = true ∧
    dz [] [.judge, .reply] (.stop true 16 0) (runJ [] { cmd := 0 }) (fun t => svReply 3 t == [0x82, 1, 2] && t.judge.cmd == 0) = true ∧
    dz [] [.judge, .reply] (.reset true 15) (runJ [] { causes := [⟨9, 0, 15, true⟩, ⟨3, 0, 15, false⟩], lockout := true }) (fun t => svReply 4 t == [0x83, 2, 0, 0] && t.judge.causes == [⟨3, 0, 15, false⟩] && t.judge.cmd == 15) = true ∧
    dz [] [.judge, .reply] (.reset true 15) (runJ [] {}) (fun t => svReply 4 t == [0x83, 2, 1, 0] && t.judge.cmd == 15) = true ∧
    dz stoRegs [.judge, .reply, .island] (.reset true 7) (let s := runJ [(Reg.SYS_START_STAGE, 0xF)] { cmd := 13, ss1 := 4, estopA := true, estopB := true, alive := true, linkUp := true, cfgValid := true }; { s with island := { s.island with stopLine := 13, stoB := 1 } }) (fun t => svReply 4 t == [0x83, 2, 0, 1] && t.judge.cmd == 12 && t.island.stopLine == 12 && t.island.stoB == 0) = true ∧
    dz stoRegs [.judge, .reply, .island] (.mode true 1) (runJ [] { cmd := 0 }) (fun t => svReply 3 t == [0x84, 1, 0] && t.judge.enableReq && t.judge.cmd == 15 && t.judge.cause == 7) = true ∧
    dz [] [.judge, .reply] (.mode true 0) (runJ [] { cmd := 0, enableReq := true }) (fun t => !t.judge.enableReq) = true ∧
    dz [] [.judge, .reply] (.mode true 2) (runJ [] { enableReq := true }) (fun t => svReply 3 t == [0x84, 1, 2] && t.judge.enableReq) = true ∧
    dz [] [.judge, .reply] (.cfgWrite true 36864 [1, 2, 3, 4]) (runJ [] { stage := [(5, 5)] }) (fun t => svReply 3 t == [0x85, 1, 0] && t.judge.stage == [(5, 5), (36864, 1), (36865, 2), (36866, 3), (36867, 4)]) = true ∧
    dz [] [.judge, .reply] (.cfgWrite true 36868 [1, 2, 3, 4]) (runJ [] {}) (fun t => svReply 3 t == [0x85, 1, 2] && t.judge.stage == []) = true ∧
    dz [] [.judge, .reply] (.cfgCommit true 5) (runJ [] { cfgCrc := 0x01020304 }) (fun t => svReply 7 t == [0x86, 5, 1, 4, 3, 2, 1] && !t.judge.cfgValid) = true ∧
    dz [] [.judge, .reply] (.clearCounts true) (runJ [] { crcDrop := 9, copyDrop := 8, outs := [(127, { disagree := 5, k := 3 })], tasks := [(31, { violations := 8, armed := true })] }) (fun t => t.judge == { svSeq := some 0, outs := [(127, { k := 3 })], tasks := [(31, { armed := true })] }) = true ∧
    (decide ((runJ [] {}).holds 34 11 = true ∧ (runJ [] {}).holds 36 11 = true)) = true := by decide +kernel

/-! ### Start-up, resets, the Mint -/
/-- The die is on, at a stage of start-up. -/
def runBoot (stage : Nat) (b : BootUnit) (l : List (Fld × Nat) := []) : State := { withFields State.reset ((Reg.SYS_START_STAGE, stage) :: l) with boot := { b with porHigh := true, pgHigh := true, guardBooted := true } }
def st0 : SelfTest := { tiles := [], engines := 0, vault := none, stream := false, tally := false, voxel := false, tracker := false }
theorem test_start_stages : dz [Reg.PORT_STRAP, Reg.SYS_START, Reg.SYS_RESET_STAT] [.boot] (.rails true false) { State.reset with boot := { guardBooted := true } } (fun t => t.fld Reg.SYS_START_STAGE == 3 && t.boot.porHigh && t.flag Reg.PORT_STRAP_SVC && !t.flag Reg.PORT_STRAP_PCIE_EP) = true ∧
    dz (Reg.SYS_START :: noteRegs State.reset) [] .mint (runBoot 3 { mint := { copy0Ok := false, copy1Ok := false } }) (fun t => t.fld Reg.SYS_START_STAGE == 0xE && t.fld Reg.SYS_START_FAIL == 1) = true ∧
    dz (Reg.SYS_START :: noteRegs State.reset) [] (.selfTest { st0 with vault := some 27 }) (runBoot 4 {}) (fun t => t.fld Reg.SYS_START_STAGE == 0xE && t.fld Reg.SYS_START_FAIL == 4) = true ∧
    dz [] [.boot, .judge] (.selfTest { st0 with tiles := [2111], engines := 0x80 }) (runBoot 7 {}) (fun t => t.boot.tested && t.boot.tilesFail == [2111] && t.boot.enginesFail == [7]) = true := by decide +kernel
theorem test_start_memories : dz [Reg.SYS_START] [.boot] (.dramTrain 0 2) (runBoot 4 {}) (fun t => t.fld Reg.SYS_START_STAGE == 5 && t.boot.dramCh == 0xFFFF && t.boot.retrained) = true ∧
    dz (Reg.SYS_START :: incRegs 10) [.boot] (.dramTrain 0x8000 0) (runBoot 4 {}) (fun t => t.fld Reg.SYS_START_STAGE == 5 && t.boot.dramCh == 0x7FFF && t.fld (Reg.INC_CNT_COUNT 10) == 1) = true ∧
    ((let t := after (.dramTrain 0xFFFF 0) (runBoot 4 {}); t.fld Reg.SYS_START_STAGE == 0xE && t.fld Reg.SYS_START_FAIL == 3 && t.boot.dramCh == 0)) = true ∧
    dz [Reg.SYS_START] [.mem] (.dramTest 0 []) (runBoot 5 { dramCh := 1 }) (fun t => t.fld Reg.SYS_START_STAGE == 6) = true ∧
    dz [Reg.SYS_START] [.mem] (.dramTest 0 []) (runBoot 5 { dramCh := 1, fast := true }) (fun t => t.fld Reg.SYS_START_STAGE == 7) = true ∧
    dz [Reg.SYS_START] [.mem, .boot] (.retention 0 [] [(9, true)]) (runBoot 6 { dramCh := 1 }) (fun t => t.fld Reg.SYS_START_STAGE == 7 && t.boot.nandBad == [(9, true)]) = true ∧
    dz [Reg.TELLER_NAND_CH] [] (.nandTrain 15 .full) (runBoot 4 {}) (fun t => bitAt (t.fld Reg.TELLER_NAND_CH_UP) 15) = true ∧
    dz (Reg.TELLER_NAND_CH :: incRegs 10 ++ noteRegs State.reset) [] (.nandTrain 15 .down) (runBoot 7 {} [(Reg.TELLER_NAND_CH_UP, 0xFFFF)]) (fun t => t.fld Reg.TELLER_NAND_CH_UP == 0x7FFF && t.fld (Reg.INC_CNT_COUNT 10) == 1) = true := by decide +kernel
theorem test_start_ends : dz (Reg.SYS_START :: noteRegs State.reset) [] (.settle (some 3)) (runBoot 7 { tested := true }) (fun t => t.fld Reg.SYS_START_STAGE == 0xE && t.fld Reg.SYS_START_FAIL == 5) = true ∧
    ((let t := after (.ready 0 0) (runBoot 7 { computeReset := false, porTime := 5 } [up 7000005]); t.fld Reg.SYS_START_STAGE == 0xF && t.fld Reg.SYS_START_MS_ALL == 7 && t.flag Reg.TELLER_CTL_EN)) = true ∧
    ((let t := after (.restartReady none 0 0) (runBoot 7 { shadow := some { ver := 3 }, ssrTime := 5000 } [up 12000, (Reg.SYS_START_RESTART, 1), (Reg.SYS_RESET_STAT_BUSY, 1)]); t.fld Reg.SYS_START_STAGE == 0xF && !t.flag Reg.SYS_START_RESTART && !t.flag Reg.SYS_RESET_STAT_BUSY && !t.boot.computeReset && t.reg Reg.SYS_FW_VER == 3 && t.fld Reg.SYS_SSR_DUR_ALL == 7)) = true ∧
    ((let t := after .swjPgFall (runBoot 0xF { computeReset := false }); !t.boot.porHigh && t.boot.computeReset && t.island.reset && !t.boot.pgHigh && t.hasCause 11 && t.judge.cmd == 15)) = true ∧
    ((let t := after (.imageRecovery false 9 [1, 2]) (runBoot 0xE {} [(Reg.SYS_START_FAIL, 2)]); !t.boot.porHigh && t.out.contains .porPulse && t.boot.nor == { ver := 9, bytes := [1, 2] })) = true ∧
    ((let t := after .alwaysOnPowerOn (runBoot 0xF { mint := { serial := 5 } }); t.regs == State.reset.regs && !t.boot.porHigh && t.boot.mint.serial == 5 && t.judge == {})) = true := by decide +kernel
theorem test_reset_commands : ((let t := after (.ssr 0) (runBoot 0xF { computeReset := false } [up 9]); t.boot.computeReset && t.fld Reg.SYS_START_STAGE == 7 && t.flag Reg.SYS_START_RESTART && t.fld Reg.SYS_RESET_STAT_LAST_CAUSE == 2 && t.reg Reg.SYS_SSR_COUNT == 1 && t.reg Reg.SYS_SSR_TIME == 9)) = true ∧
    dz [Reg.SYS_RESET_STAT] [] (.ssr 0) (runBoot 7 {}) (fun t => t.flag Reg.SYS_RESET_STAT_ERR) = true ∧
    ((let t := after .ssrReqN (runBoot 0xF { computeReset := false }); t.flag Reg.SYS_START_RESTART && t.fld Reg.SYS_RESET_STAT_LAST_CAUSE == 1)) = true ∧
    dz [] [] .ssrReqN (runBoot 7 {}) (fun _ => true) = true := by decide +kernel
theorem test_mint_commands : dz [Reg.SYS_MINT_STAT] [.boot] (.fuseLearned 34) (runBoot 0xF {} [(Reg.SYS_MINT_STAT_ERR, 2)]) (fun t => t.boot.mintOp == 3 && t.flag Reg.SYS_MINT_STAT_BUSY && t.fld Reg.SYS_MINT_STAT_ERR == 0) = true ∧
    dz [Reg.SYS_MINT_STAT] [] (.setColdNext 34) (runBoot 0xF {} [(Reg.SYS_MINT_STAT_BUSY, 1)]) (fun t => t.fld Reg.SYS_MINT_STAT_ERR == 1) = true ∧
    dz [Reg.SYS_MINT_STAT, Reg.SYS_START] [.boot] (.mintCommandComplete true) (runBoot 0xF { mintOp := 1 } [(Reg.SYS_MINT_STAT_BUSY, 1)]) (fun t => !t.flag Reg.SYS_MINT_STAT_BUSY && t.fld Reg.SYS_MINT_STAT_ERR == 3 && t.boot.mintOp == 0) = true ∧
    dz [Reg.SYS_MINT_STAT, Reg.SYS_START] [.boot] (.mintCommandComplete false) (runBoot 0xF { mintOp := 1, savedNew := some {} } [(Reg.SYS_MINT_STAT_BUSY, 1)]) (fun t => t.flag Reg.SYS_START_COLD_NEXT && t.saved == some { coldNext := true }) = true ∧
    dz [Reg.SYS_MINT_STAT, Reg.SYS_START] [.boot] (.mintCommandComplete false) (runBoot 0xF { mintOp := 2, savedNew := some { learned := [7] } } [(Reg.SYS_MINT_STAT_BUSY, 1), (Reg.SYS_START_LEARNED, 1)]) (fun t => t.fld Reg.SYS_START_LEARNED == 0 && t.saved == some {}) = true ∧
    dz [Reg.SYS_MINT_STAT, Reg.SYS_START] [.boot] (.mintCommandComplete false) (runBoot 0xF { mintOp := 3, savedNew := some { learned := [7, 8] }, mint := { added := [7] } } [(Reg.SYS_MINT_STAT_BUSY, 1)]) (fun t => t.boot.mintNew == [8] && t.fld Reg.SYS_MINT_STAT_ADDED_FREE == 30) = true ∧
    (decide ((runBoot 0xF {}).holds 0 9 = true ∧ (runBoot 0xF {}).holds 34 9 = true ∧ (runBoot 0xF {}).holds 34 10 = true ∧ (runBoot 0xF {}).isReady = true ∧ (runBoot 7 {}).bootStage = 7)) = true := by decide +kernel
/-- The die is on, with these power registers. -/
def runPwr (l : List (Fld × Nat)) (p : PowerUnit) : State := { withFields State.reset l with boot := { porHigh := true, computeReset := false }, power := p }
theorem test_power_samples : dz [Reg.PWR_CAP, Reg.PWR_MEAS, Reg.PWR_STAT, Reg.PWR_GAP_CYC] [.power] (.powerSample 10001 9) (runPwr [(Reg.PWR_CAP_WATTS, 100)] { samples := [10000] }) (fun t => t.fld Reg.PWR_MEAS_AVG == 10000 && t.fld Reg.PWR_MEAS_PEAK == 10001 && t.fld Reg.PWR_CAP_EFFECTIVE == 100 && t.power.step == 0 && t.reg Reg.PWR_GAP_CYC == 0) = true ∧
    dz [Reg.PWR_CAP, Reg.PWR_MEAS, Reg.PWR_STAT, Reg.PWR_GAP_CYC] [.power] (.powerSample 10002 9) (runPwr [(Reg.PWR_CAP_WATTS, 100)] { samples := [10000], step := 3 }) (fun t => t.power.step == 4 && t.flag Reg.PWR_STAT_CAPPING && t.reg Reg.PWR_GAP_CYC == 9) = true ∧
    dz [Reg.PWR_CAP, Reg.PWR_MEAS, Reg.PWR_STAT, Reg.PWR_GAP_CYC] [.power] (.powerSample 9699 0) (runPwr [(Reg.PWR_CAP_WATTS, 100)] { step := 1 }) (fun t => t.power.step == 0 && !t.flag Reg.PWR_STAT_CAPPING) = true ∧
    dz [Reg.PWR_STAT] [] (.capUnmet false) (runPwr [up 10000000, (Reg.PWR_CAP_EFFECTIVE, 35), (Reg.PWR_MEAS_AVG, 3501)] { overAt := some 0 }) (fun t => t.flag Reg.PWR_STAT_CAP_UNMET) = true ∧
    dz [] [] (.capUnmet false) (runPwr [up 9999999, (Reg.PWR_CAP_EFFECTIVE, 35), (Reg.PWR_MEAS_AVG, 3501)] { overAt := some 0 }) (fun _ => true) = true := by decide +kernel
theorem test_temperature : dz [Reg.PWR_THERM, Reg.PWR_STAT] [.power] (.tempSample [0, 464]) (let s := runPwr [(Reg.PWR_THERM_HOT_C, 114)] { peakC := some 120 }; { s with boot := { s.boot with mint := { trim := [(0x61, 4)] } } }) (fun t => t.tempC == 115 && t.power.peakC == some 120 && t.flag Reg.PWR_STAT_THERM_HOT && t.flag Reg.PWR_STAT_THERM_TRIP) = true ∧
    dz [Reg.PWR_CAP] [.power] .thermalLimitStep (runPwr [(Reg.PWR_THERM_HOT_C, 100), (Reg.PWR_THERM_TEMP_C, 101), (Reg.PWR_CAP_WATTS, 255)] { limit := 38 }) (fun t => t.power.limit == 35 && t.fld Reg.PWR_CAP_EFFECTIVE == 35) = true ∧
    dz [Reg.PWR_CAP] [.power] .thermalLimitStep (runPwr [(Reg.PWR_THERM_HOT_C, 100), (Reg.PWR_THERM_TEMP_C, 94), (Reg.PWR_CAP_WATTS, 255)] { limit := 178 }) (fun t => t.power.limit == 180 && t.fld Reg.PWR_CAP_EFFECTIVE == 180) = true ∧
    dz [Reg.PWR_CAP] [.power] .thermalLimitStep (runPwr [(Reg.PWR_THERM_HOT_C, 100), (Reg.PWR_THERM_TEMP_C, 95)] { limit := 150 }) (fun t => t.power.limit == 150) = true := by decide +kernel
theorem test_droop_and_clocks : dz [Reg.PWR_DROOP_LAST] [.power] (.droopTrip 63) (runPwr [] { tripped := [1] }) (fun t => t.power.tripped == [1, 63] && t.fld Reg.PWR_DROOP_LAST_SENSOR == 63) = true ∧
    dz [Reg.PWR_STRETCH_CYC, Reg.PWR_STAT] [.power] (.droopRecover 63 100 201) (runPwr [] { tripped := [63] }) (fun t => t.power.tripped == [] && t.reg Reg.PWR_STRETCH_CYC == 100 && t.flag Reg.PWR_STAT_STRETCH_OVER) = true ∧
    dz [] [.power] (.droopRecover 63 100 201) (runPwr [] { tripped := [1, 63] }) (fun t => t.power.tripped == [1]) = true ∧
    dz [Reg.PWR_STAT] [.power] (.pllUnlock 11) (runPwr [] {}) (fun t => t.fld Reg.PWR_STAT_PLL_UNLOCK == 0x800 && t.power.unlocked == [11]) = true ∧
    ((let t := after (.pllUnlock 1) { runPwr [] {} with island := { reset := false } }; t.island.reset && t.fld Reg.PWR_STAT_PLL_UNLOCK == 2)) = true ∧
    ((let t := after (.pllUnlock 0) { runPwr [] {} with island := { reset := false } }; t.boot.computeReset && t.islandHold && t.fld Reg.PWR_STAT_PLL_UNLOCK == 1)) = true ∧
    dz [] [.power, .boot] (.pllRelock 0) (let s := runPwr [(Reg.SYS_START_STAGE, 0xF)] { unlocked := [0, 5] }; { s with boot := { s.boot with computeReset := true } }) (fun t => t.power.unlocked == [5] && !t.boot.computeReset) = true ∧
    dz stoRegs [.power, .island, .boot] (.pllRelock 1) (let s := runPwr [] { unlocked := [1] }; { s with boot := { s.boot with islRel := true } }) (fun t => t.power.unlocked == [] && !t.island.reset) = true := by decide +kernel

/-! ### Pairs, links, groups, images -/
/-- Pairing is enabled over link 3, which runs; the module is READY and forces bridge 11 on standby. -/
def runRel2 (state duty : Nat) (l : List (Fld × Nat)) (y : RelayUnit) : State := { withFields State.reset ([(Reg.RELAY_PAIR_CFG_EN, 1), (Reg.RELAY_PAIR_CFG_LINK, 3), (Reg.RELAY_LINK_STAT_STATE 3, 2), (Reg.SYS_START_STAGE, 0xF),
    (Reg.RELAY_PAIR_CFG2_BR_MASK11, 1), (Reg.RELAY_PAIR_STAT_STATE, state), (Reg.RELAY_PAIR_STAT_DUTY, duty), (Reg.RWIN_BASE_PAGE 1, 8), (Reg.RWIN_CFG_PAGES 1, 1), (Reg.RWIN_CFG_EN 1, 1)] ++ l) with
  boot := { porHigh := true, guardBooted := true, computeReset := false, mint := { serial := 5 } }, island := { reset := false }, relay := y }
def forces : List Nat := (List.range 12).map Reg.PWM_BR_FORCE ++ (List.range 12).map Reg.PWM_BR_STAT
def pstat : Nat := Reg.RELAY_PAIR_STAT
theorem test_pair_forms : dz [pstat, Reg.RELAY_PAIR_PARTNER] [.relay] (.pairForm true 6 false false) (runRel2 0 0 [up 9] { take := true }) (fun t => t.isDuty && t.fld Reg.RELAY_PAIR_STAT_STATE == 1 && t.reg Reg.RELAY_PAIR_PARTNER == 6 && t.relay == { hbMain := 9, hbAlt := 9 }) = true ∧
    dz ([pstat, Reg.RELAY_PAIR_PARTNER] ++ forces) [.relay, .island] (.pairForm true 4 false false) (runRel2 0 0 [(Reg.RELAY_PAIR_CFG_BR_MASK, 0), (Reg.PWM_BR_FORCE_FORCE 11, 0), (Reg.PWM_BR_FORCE_FORCE 10, 5)] {}) (fun t => t.isStandby && t.flag Reg.RELAY_PAIR_STAT_DUTY_IN && t.fld (Reg.PWM_BR_FORCE_FORCE 11) == 0x3F && t.fld (Reg.PWM_BR_FORCE_FORCE 10) == 5) = true ∧
    dz ([pstat, Reg.RELAY_PAIR_PARTNER] ++ forces) [.relay, .island] (.pairForm true 9 true false) (runRel2 0 0 [] {}) (fun t => t.isStandby) = true ∧
    dz [] [] (.pairForm true 6 false false) (runRel2 0 0 [(⟨Reg.RELAY_PAIR_EXPECT, 0, 64⟩, 7)] {}) (fun _ => true) = true ∧
    dz [pstat] [] .pairSynced (runRel2 1 1 [] {}) (fun t => t.fld Reg.RELAY_PAIR_STAT_STATE == 2) = true := by decide +kernel
theorem test_pair_heartbeats : dz [] [.out] (.pairHeartbeat false none) (runRel2 2 1 [(Reg.LANE_CFG_EN 15, 1), (⟨Reg.LANE_VALUE 15, 0, 64⟩, 77)] {}) (fun t => t.out == [.heartbeat 3 true 2 [(15, 77)]]) = true ∧
    dz [pstat] [.out, .relay] (.pairHeartbeat true (some ⟨false, 2, [], true, false⟩)) (runRel2 2 1 [up 9, (Reg.RELAY_PAIR_CFG_ALT_EN, 1), (Reg.RELAY_PAIR_CFG_ALT_LINK, 2), (Reg.RELAY_LINK_STAT_STATE 2, 3)] {}) (fun t => t.out == [.heartbeat 2 true 2 [(15, 0)]] && t.flag Reg.RELAY_PAIR_STAT_HB_ALT && t.flag Reg.RELAY_PAIR_STAT_DUTY_IN && t.relay == { hbAlt := 9 }) = true ∧
    dz [pstat] [.out, .relay] (.pairHeartbeat false (some ⟨true, 2, [], false, false⟩)) (runRel2 2 0 [up 9] {}) (fun t => t.flag Reg.RELAY_PAIR_STAT_LINE_FAULT && t.relay.hbMain == 9) = true ∧
    dz [pstat] [] (.heartbeatLoss false) (runRel2 2 1 [up 50000, (Reg.RELAY_PAIR_CFG_HB_TMO, 50), (Reg.RELAY_PAIR_STAT_HB_MAIN, 1)] {}) (fun t => t.fld Reg.RELAY_PAIR_STAT_STATE == 0 && !t.flag Reg.RELAY_PAIR_STAT_HB_MAIN) = true ∧
    dz [] [] (.heartbeatLoss false) (runRel2 2 1 [up 49999, (Reg.RELAY_PAIR_CFG_HB_TMO, 50), (Reg.RELAY_PAIR_STAT_HB_MAIN, 1)] {}) (fun _ => true) = true ∧
    dz (pstat :: incRegs 10) [] (.heartbeatLoss false) (runRel2 2 0 [up 50000, (Reg.RELAY_PAIR_CFG_HB_TMO, 50), (Reg.RELAY_PAIR_STAT_DUTY_IN, 1)] {}) (fun t => t.flag Reg.RELAY_PAIR_STAT_SPLIT && t.fld Reg.RELAY_PAIR_STAT_STATE == 0) = true ∧
    dz [pstat] [.relay] .dutyInFall (runRel2 2 0 [up 9, (Reg.RELAY_PAIR_STAT_DUTY_IN, 1)] {}) (fun t => t.relay.dutyLow == 9 && !t.flag Reg.RELAY_PAIR_STAT_DUTY_IN) = true := by decide +kernel
theorem test_mirror_records : dz [] [] (.mirrorRecordApply (.write 0x40003 [1])) (runRel2 2 1 [] {}) (fun _ => true) = true ∧
    dz [Reg.RELAY_MIRROR_APPLIED] [.mem] (.mirrorRecordApply (.write 0x40003 [1, 2])) (runRel2 2 0 [] {}) (fun t => t.mem == [(0x40003, 1), (0x40004, 2)] && t.reg Reg.RELAY_MIRROR_APPLIED == 1) = true ∧
    dz [Reg.RELAY_MIRROR_APPLIED] [.fusion] (.mirrorRecordApply (.tracks [(1023, { id := 1, conf := false, model := 0, misses := 0, hits := 1, cls := 0, last := 0, n := 1, x := [], p := [] })] 8)) (runRel2 2 0 [] {}) (fun t => t.fusion.nextId == 8 && t.fusion.tracks.map (·.1) == [1023]) = true ∧
    dz [Reg.RELAY_MIRROR_APPLIED] [.ctxs, .field, .lanes, .relay] (.mirrorRecordApply (.image 31 ⟨8, [(1, 7)], 3, [], 2, 4, none, [], [], []⟩)) (let s := runRel2 2 0 [(⟨Reg.RELAY_CTX_MASK 0, 31, 1⟩, 1)] {}; { s with ctxs := [(31, { stage := .escrow, cls := 1 })] })
      (fun t => t.ctxs == [(31, { stage := .escrow, cls := 1, pc := 8, sregs := [(1, 7)], preds := 3, wait := some (.lwrel 2 4 none) })] && t.relay.current == [31]) = true := by decide +kernel
theorem test_duty_moves : dz ([pstat, Reg.RELAY_FAILOVER_CNT] ++ forces) [.relay, .island, .judge] (.dutyTakeover true) (runRel2 2 0 [up 5000, (Reg.PWM_BR_FORCE_FORCE 11, 0x3F)] {}) (fun t => t.flag Reg.RELAY_PAIR_STAT_DUTY && t.fld (Reg.PWM_BR_FORCE_FORCE 11) == 0 && t.fld Reg.RELAY_FAILOVER_CNT_TAKEOVERS == 1) = true ∧
    dz [] [] (.dutyTakeover true) (runRel2 2 0 [up 4999] {}) (fun _ => true) = true ∧
    dz [pstat] [] (.handover 0) (runRel2 1 1 [] {}) (fun t => t.fld Reg.RELAY_PAIR_STAT_ERR == 2) = true ∧
    dz ([pstat, Reg.RELAY_FAILOVER_CNT] ++ forces) [.relay, .island, .out] (.handover 0) (runRel2 2 1 [] {}) (fun t => t.isStandby && t.fld Reg.RELAY_PAIR_STAT_STATE == 1 && t.out == [.yield 3] && t.fld (Reg.PWM_BR_FORCE_FORCE 11) == 0x3F && t.fld Reg.RELAY_FAILOVER_CNT_YIELDS == 1) = true ∧
    dz [pstat] [.relay] (.handover 0) (let s := runRel2 2 1 [(⟨Reg.RELAY_CTX_MASK 0, 31, 1⟩, 1)] {}; { s with ctxs := [(31, { stage := .resident, cls := 1 })] }) (fun t => t.relay.handover && t.isDuty) = true ∧
    dz [Reg.RELAY_MIRROR_SENT] [.out] (.contextCheckpoint 31) (let s := runRel2 2 1 [(⟨Reg.RELAY_CTX_MASK 0, 31, 1⟩, 1)] {}; { s with ctxs := [(31, { stage := .resident, cls := 1, pc := 8, wait := some (.lwrel 2 4 none) })] }) (fun t => t.out == [.checkpoint 3 31 ⟨8, [], 0, [], 2, 4, none, [], [], []⟩] && t.reg Reg.RELAY_MIRROR_SENT == 1) = true ∧
    dz [pstat] [.relay] (.take 34) (runRel2 2 0 [(Reg.RELAY_PAIR_STAT_ERR, 1)] {}) (fun t => t.relay.take && t.fld Reg.RELAY_PAIR_STAT_ERR == 0) = true ∧
    dz [pstat] [] (.take 34) (runRel2 2 0 [(Reg.RELAY_PAIR_STAT_DUTY_IN, 1)] {}) (fun t => t.fld Reg.RELAY_PAIR_STAT_ERR == 1) = true ∧
    dz [pstat] [] (.leave 0) (runRel2 2 1 [] {}) (fun t => t.fld Reg.RELAY_PAIR_STAT_STATE == 0 && t.flag Reg.RELAY_PAIR_STAT_DUTY) = true := by decide +kernel
theorem test_relay_links : dz [Reg.RELAY_LINK_STAT 2, Reg.RELAY_GRP_CFG] [.relay, .out] (.relayLinkTrain 2 0xFF 0x80) (runRel2 0 0 [(⟨Reg.RELAY_GRP_ROUTE, 28, 2⟩, 2)] { held := [(2, .porPulse), (1, .alive)] }) (fun t => t.fld (Reg.RELAY_LINK_STAT_STATE 2) == 2 && t.fld (Reg.RELAY_LINK_STAT_LANES 2) == 8 && t.out == [.porPulse] && t.relay.held == [(1, .alive)] && t.fld Reg.RELAY_GRP_CFG_REACHABLE == 0x80) = true ∧
    dz ([Reg.RELAY_LINK_STAT 2, Reg.RELAY_GRP_CFG] ++ incRegs 10) [.relay, .out] (.linkRetrainComplete 2 0xF0 0) (runRel2 0 0 [(Reg.RELAY_LINK_STAT_STATE 2, 1)] {}) (fun t => t.fld (Reg.RELAY_LINK_STAT_STATE 2) == 3 && t.fld (Reg.RELAY_LINK_STAT_LANES 2) == 4 && t.fld (Reg.RELAY_LINK_STAT_LANE_MASK 2) == 0xF0 && t.fld (Reg.INC_CNT_COUNT 10) == 1) = true ∧
    dz [Reg.RELAY_LINK_STAT 2, Reg.RELAY_GRP_CFG] [.relay] (.linkRetrainComplete 2 0x70 0) (runRel2 0 0 [(Reg.RELAY_LINK_STAT_STATE 2, 1)] { bad := [(2, 2)] }) (fun t => t.fld (Reg.RELAY_LINK_STAT_STATE 2) == 0) = true ∧
    dz [Reg.RELAY_LINK_STAT 3, Reg.RELAY_LINK_CNT 3] [] (.retrain 0 3) (runRel2 0 0 [] {}) (fun t => t.fld (Reg.RELAY_LINK_STAT_STATE 3) == 1 && t.fld (Reg.RELAY_LINK_CNT_RETRAINS 3) == 1) = true ∧
    dz [Reg.RELAY_LINK_STAT 3, Reg.RELAY_LINK_CNT 3] [] (.linkCrcBurst 3 65) (runRel2 0 0 [] {}) (fun t => t.fld (Reg.RELAY_LINK_STAT_STATE 3) == 1 && t.fld (Reg.RELAY_LINK_CNT_CRC_ERR 3) == 65) = true ∧
    dz [Reg.RELAY_LINK_CNT 3] [] (.linkCrcBurst 3 64) (runRel2 0 0 [] {}) (fun t => t.fld (Reg.RELAY_LINK_STAT_STATE 3) == 2) = true := by decide +kernel
/-- Group traffic for member 7 goes over link 3; channel 15 sends to it or receives, one unit of 64 bytes at the Vault page 4. -/
def runGrp (dir mode : Nat) (m : Map Byte) : State := { runRel2 0 0 [(Reg.RELAY_GRP_CFG_EN, 1), (⟨Reg.RELAY_GRP_ROUTE, 28, 2⟩, 3), (Reg.RELAY_GCH_CFG_EN 15, 1), (Reg.RELAY_GCH_CFG_DIR 15, dir), (Reg.RELAY_GCH_CFG_PEER 15, 7), (Reg.RELAY_GCH_CFG_PEER_CH 15, 14),
  (Reg.RELAY_GCH_CFG_LEN 15, 1), (Reg.RELAY_GCH_ADDR_ADDR 15, 0x1000), (Reg.RELAY_GCH_RCPT_WIN 15, 1), (Reg.RWIN_CFG_MODE 1, mode)] {} with mem := m }
theorem test_groups : dz [Reg.RELAY_GCH_CNT 15] [.out] (.groupSend 15) (runGrp 0 1 [(0x40000, 9), (0x80000, 5), (0x80007, 0x40)]) (fun t => t.out == [.group 3 7 14 (9 :: List.replicate 63 0)] && t.fld (Reg.RELAY_GCH_CNT_TRANSFERS 15) == 1) = true ∧
    dz [] [.out] (.groupRecv 3 7 15 [1, 2]) (runGrp 1 0 []) (fun t => t.out == [.group 3 7 15 [1, 2]]) = true ∧
    dz [Reg.RELAY_GCH_CNT 15] [.mem, .teller, .field, .tally] (.groupRecv 3 0 15 [1, 2]) (runGrp 1 0 []) (fun t => t.natAt 0x40000 2 == 0x201 && rcptState (t.rcptWord 0x80000) == 1 && t.fld (Reg.RELAY_GCH_CNT_TRANSFERS 15) == 1) = true ∧
    dz [Reg.RELAY_GCH_CNT 15] [] (.groupRecv 3 0 15 (List.replicate 65 1)) (runGrp 1 0 []) (fun t => t.fld (Reg.RELAY_GCH_CNT_DROPS 15) == 1) = true := by decide +kernel
theorem test_relay_images : dz [Reg.RELAY_IMG_STAT] [.boot, .relay] (.imgFetch 0) (runRel2 0 0 [(Reg.RELAY_IMG_STAT_CRC_OK, 1)] {}) (fun t => t.fld Reg.RELAY_IMG_STAT_STATE == 1 && !t.flag Reg.RELAY_IMG_STAT_CRC_OK && t.relay.fetch && t.relay.norWas == some {} && t.boot.nor.badSections.length == 1) = true ∧
    dz [Reg.RELAY_IMG_STAT] [.boot] (.imageWriteComplete (.written 9 [1, 2] [])) (runRel2 0 0 [(Reg.RELAY_IMG_STAT_STATE, 1)] { img := [5] }) (fun t => t.fld Reg.RELAY_IMG_STAT_STATE == 2 && t.flag Reg.RELAY_IMG_STAT_CRC_OK && t.boot.nor == { ver := 9, bytes := [5] }) = true ∧
    dz [Reg.RELAY_IMG_STAT] [.boot] (.imageWriteComplete .refused) (runRel2 0 0 [(Reg.RELAY_IMG_STAT_STATE, 1)] { fetch := true, norWas := some { ver := 3 } }) (fun t => t.fld Reg.RELAY_IMG_STAT_STATE == 0 && t.fld Reg.RELAY_IMG_STAT_ERR == 2 && t.boot.nor == { ver := 3 }) = true ∧
    dz [Reg.RELAY_IMG_STAT] [] (.imageWriteComplete .failed) (runRel2 0 0 [(Reg.RELAY_IMG_STAT_STATE, 1)] {}) (fun t => t.fld Reg.RELAY_IMG_STAT_ERR == 3) = true ∧
    dz [Reg.RELAY_IMG_STAT] [] (.activate 0) (runRel2 0 0 [] {}) (fun t => t.fld Reg.RELAY_IMG_STAT_ERR == 1) = true ∧
    ((let t := after (.activate 34) (runRel2 0 0 [(Reg.RELAY_IMG_STAT_CRC_OK, 1)] {}); t.fld Reg.RELAY_IMG_STAT_STATE == 3 && t.boot.shadow == some {} && t.boot.computeReset && t.fld Reg.SYS_RESET_STAT_LAST_CAUSE == 3 && t.fld Reg.SYS_RESET_STAT_REQUESTER == 34)) = true := by decide +kernel
theorem test_relay_hypotheses : (decide ((runRel2 0 0 [] {}).holds 0 8 = true ∧ (runRel2 2 0 [] {}).holds 34 10 = true ∧ (runRel2 2 0 [] {}).covered 31 = false ∧ (runRel2 2 1 [] {}).yieldLink = 3 ∧ (runGrp 1 0 []).canTake ((runGrp 1 0 []).gchRcpt 15) (.unit 0xA 15) = true ∧ (runGrp 1 0 []).sourceReads 0x40000 2 = true)) = true := by decide +kernel

/-! ### Cameras, lines, buses, links -/
/-- Camera 7 receives RAW12 samples, 2 by 1, into the Vault page 4; its Receipt is the first of window 1. -/
def runCam (x : CamUnit) (l : List (Fld × Nat) := []) : State := { withFields State.reset ([(Reg.CAM_CFG_EN 7, 1), (Reg.PORT_HP_STAT_LEVEL, 0x80), (Reg.CAM_CFG_DT 7, 0x2C), (Reg.CAM_CFG_VC 7, 15), (Reg.CAM_SIZE_W 7, 2), (Reg.CAM_SIZE_H 7, 1),
    (Reg.CAM_IN_SIZE_W 7, 2), (Reg.CAM_IN_SIZE_H 7, 1), (Reg.CAM_RCPT_WIN 7, 1), (Reg.CAM_BUF_BASE_ADDR 7, 4), (Reg.RWIN_BASE_PAGE 1, 8), (Reg.RWIN_CFG_PAGES 1, 1), (Reg.RWIN_CFG_EN 1, 1)] ++ l) with
  boot := { porHigh := true, computeReset := false }, port := { cams := if x = {} then [] else [(7, x)] } }
def pk (ok : Bool) (b : CsiBody) : CsiPacket := { vc := 15, headerOk := ok, crcOk := false, body := b }
theorem test_camera_packets : dz [Reg.CAM_STAT 7] [] (.csiPacket 7 (pk false .frameEnd)) (runCam {}) (fun t => t.fld (Reg.CAM_STAT_ERR 7) == 1) = true ∧
    dz [] [.port] (.csiPacket 7 (pk true (.frameStart 9))) (runCam {}) (fun t => t.port.cams == [(7, { cur := some { num := 9 } })]) = true ∧
    dz [] [.port] (.csiPacket 7 (pk true (.line 0x2C [1, 2]))) (runCam { cur := some { num := 9 } }) (fun t => t.cam 7 == { cur := some { num := 9, lines := [[1, 2]], crcErr := true } }) = true ∧
    dz [] [] (.csiPacket 7 (pk true (.line 0x2B [1, 2]))) (runCam { cur := some { num := 9 } }) (fun _ => true) = true ∧
    dz [] [.port] (.csiPacket 7 (pk true .frameEnd)) (runCam { cur := some { num := 2 }, last := some 0x1FFFF }) (fun t => t.cam 7 == { last := some 0x20002, done := [⟨0x20002, 0, [], false, true, false⟩] }) = true ∧
    dz [] [.port] (.csiPacket 7 (pk true .frameEnd)) { runCam { cur := some { num := 2, lines := [[5, 6]] } } with mem := [(0x80007, 0x40)] } (fun t => t.cam 7 == { last := some 2, done := [⟨2, 0, [[5, 6]], false, false, true⟩] }) = true := by decide +kernel
theorem test_camera_posts : dz [] [.mem, .teller, .field, .tally, .port] (.frameReceiptPost 7) (runCam { done := [⟨9, 0x77, [[0x102, 0x304]], true, false, false⟩] } [(Reg.CAM_CFG_COUNT 7, 1)]) (fun t => rcptState (t.rcptWord 0x80000) == 1 && t.byteAt 0x40000 == 0x77 && t.byteAt 0x40008 == 9 && t.byteAt 0x40018 == 2 && t.byteAt 0x4001D == 1 && t.natAt 0x40040 4 == 0x03040102 && (t.cam 7).done == []) = true ∧
    dz [Reg.CAM_STAT 7] [.port] (.frameReceiptPost 7) (runCam { done := [⟨9, 0, [], true, false, true⟩] }) (fun t => t.fld (Reg.CAM_STAT_DROP 7) == 1 && (t.cam 7).done == []) = true ∧
    dz [] [.lanes] (.camTriggerPulseEnd 7) (let s := runCam {}; { s with lanes := { s.lanes with camTrig := [(6, some 0), (7, some 0)] } }) (fun t => t.lanes.camTrig == [(6, some 0)]) = true := by decide +kernel
theorem test_hot_plug : dz [Reg.PORT_HP_STAT, Reg.PORT_HP_EVT] [.port] (.hpdQualified 7 false) (runCam { cur := some { num := 1 }, last := some 3 }) (fun t => !t.hpd 7 && bitAt (t.fld Reg.PORT_HP_STAT_CHANGED) 7 && bitAt (t.fld Reg.PORT_HP_EVT_DEPARTED) 7 && t.port.cams == []) = true ∧
    dz [Reg.PORT_HP_STAT, Reg.PORT_HP_EVT, Reg.LANE_STAT 5] [.port] (.hpdQualified 7 false) (runCam {} [(Reg.LANE_CFG_EN 5, 1), (Reg.LANE_CFG_SRC 5, 4), (Reg.LANE_CFG_SRC_IDX 5, 7), (Reg.LANE_STAT_RUN 5, 1)]) (fun t => t.flag (Reg.LANE_STAT_SRC_LOST 5) && !t.flag (Reg.LANE_STAT_RUN 5)) = true ∧
    dz [Reg.PORT_HP_STAT, Reg.PORT_HP_EVT] [.tally] (.hpdQualified 15 true) (runCam {} [(Reg.PORT_HP_CFG_TALLY_EN, 1), (Reg.PORT_HP_CFG_TALLY, 9)]) (fun t => t.hpd 15 && (t.tallyOf 9).count == 1) = true := by decide +kernel
/-- Controller 3 is enabled. -/
def runBus (x : BusUnit) (l : List (Fld × Nat) := []) : State := { withFields State.reset ((Reg.BUS_CFG_EN 3, 1) :: l) with boot := { porHigh := true, computeReset := false }, port := { buses := if x = {} then [] else [(3, x)] } }
theorem test_slow_buses : dz [] [.port, .out] (.busWrite 3 true) (runBus { tx := [0x1A4005AA, 0x04030201, 7] }) (fun t => t.out == [.bus 3 0x52 [0xAA, 1, 2, 3, 4]] && (t.bus 3).tx == [7]) = true ∧
    dz [] [.port] (.busWrite 3 false) (runBus { tx := [0x1A4001AA] }) (fun t => t.bus 3 == { rx := [0xE9000000] }) = true ∧
    dz [] [.port, .out] (.busRead 3 (some [1, 2, 3, 4])) (runBus { tx := [0x2A400300, 7] }) (fun t => t.out == [.busRead 3 0x52 3] && t.bus 3 == { tx := [7], rx := [0x29000201, 0x29000003] }) = true ∧
    dz [] [.port, .out] (.entdaa 3 [8, 9]) (runBus { tx := [0x30000000], targets := [8] }) (fun t => t.out == [.entdaa 3 [8, 9]] && t.bus 3 == { targets := [8, 9] }) = true ∧
    dz [] [.port, .out] (.busStop 3) (runBus { tx := [0x4A400000] }) (fun t => t.out == [.busStop 3 0x52]) = true ∧
    dz [] [.port] (.busStop 3) (runBus { tx := [0x5A400000] }) (fun t => t.bus 3 == { rx := [0xE9000000] }) = true ∧
    dz [] [.reply, .port] (.busRxRead 0 3) (runBus { rx := [0x29000201, 5] }) (fun t => t.reply.value == 0x29000201 && t.bus 3 == { rx := [5] }) = true ∧
    dz [] [.reply] (.busRxRead 0 3) (runBus {}) (fun t => t.reply.value == 0 && t.reply.status == .ok) = true ∧
    dz [] [.port] (.inBandInterrupt 3 0x52 [0xAB]) (runBus {}) (fun t => t.bus 3 == { rx := [0x690000AB] }) = true ∧
    dz [] [.port, .out] (.hotJoin 3 9) (runBus { targets := [8] } [(Reg.BUS_CFG_HJ_EN 3, 1)]) (fun t => t.out == [.entdaa 3 [9]] && t.bus 3 == { targets := [8, 9], rx := [0x84800000] }) = true ∧
    dz [Reg.BUS_STAT 3] [.out] (.hotJoin 3 9) (runBus {}) (fun t => t.out == [.disec 3] && t.fld (Reg.BUS_STAT_REFUSED 3) == 1) = true := by decide +kernel
theorem test_port_links : dz (Reg.PORT_PCIE_STAT :: incRegs 10) [] (.pcieLinkChange 4 5 true) (runBus {}) (fun t => t.fld Reg.PORT_PCIE_STAT_UP == 1 && t.fld Reg.PORT_PCIE_STAT_WIDTH == 4 && t.fld Reg.PORT_PCIE_STAT_RATE == 5 && t.fld Reg.PORT_PCIE_STAT_ROOT == 0 && t.fld (Reg.INC_CNT_COUNT 10) == 1) = true ∧
    dz (Reg.PORT_PCIE_STAT :: noteRegs State.reset) [] (.pcieLinkChange 0 5 false) (runBus {} [(Reg.PORT_PCIE_STAT_UP, 1)]) (fun t => t.fld Reg.PORT_PCIE_STAT_UP == 0 && t.reg (Reg.SYS_NOTE 0 3) == 0x10001) = true ∧
    dz (Reg.NET_PORT_CNT 3 :: noteRegs State.reset) [] (.ethLinkChange 3 false true) (runBus {} [(Reg.NET_PORT_CNT_LINK 3, 1)]) (fun t => t.fld (Reg.NET_PORT_CNT_LINK 3) == 0 && t.reg (Reg.SYS_NOTE 0 3) == 0x302) = true ∧
    dz [Reg.NET_PORT_CNT 3] [] (.ethLinkChange 3 true true) (runBus {}) (fun t => t.fld (Reg.NET_PORT_CNT_LINK 3) == 1) = true := by decide +kernel
theorem test_port_hypotheses : (decide ((runCam {}).hpd 7 = true ∧ (runCam {}).present 11 = true ∧ (runCam {}).rcptWin 0x80000 = some 1 ∧ (runCam {}).sourceReads 0x40000 68 = true ∧ (runCam {}).canTake 0x80000 (.unit 9 7) = true ∧ (runBus {}).holds 0 0 = true ∧ rcptSeq ((runCam {}).rcptWord 0x80000) = 0)) = true := by decide +kernel

/-! ### The bridge -/
/-- Ports 2 and 3 are enabled; NET_MAC is 2; these words of the tables are set. -/
def runBri (tab : Map W32) (n : NetUnit := {}) (l : List (Fld × Nat) := []) : State := { withFields State.reset ([(Reg.NET_PORT_CFG_EN 2, 1), (Reg.NET_PORT_CFG_EN 3, 1), (Reg.NET_PORT_CFG_PVID 3, 5), (Reg.NET_MAC_MAC, 2)] ++ l) with net := { n with tables := tab } }
/-- A frame of 64 bytes: destination, source, EtherType and what follows. -/
def eth (da sa ty : Nat) (pay : List Byte) : List Byte := toBe 6 da ++ toBe 6 sa ++ toBe 2 ty ++ pay ++ List.replicate (50 - pay.length) 0
/-- A PTP Sync: one step, domain 0, correctionField 1. -/
def ptpSync : List Byte := [0, 2, 0, 44, 0, 0, 0, 0, 0, 0, 0, 0, 0, 0, 0, 1]
theorem test_bridge_forwarding : dz [] [] (.bridgeFrameReceive 0 (eth 2 4 0x0800 []) none 0) (runBri []) (fun _ => true) = true ∧
    dz [] [.net, .out] (.bridgeFrameReceive 3 (eth 2 4 0x9999 []) none 0) (runBri [] { learn := [⟨4, 5, 2⟩] }) (fun t => t.out == [.frame 4 (eth 2 4 0x9999 [])] && t.net.learn == [⟨4, 5, 3⟩]) = true ∧
    dz [] [.net, .out] (.bridgeFrameReceive 3 (eth (2 ^ 48 - 1) 4 0x9999 []) none 0) (runBri []) (fun t => t.out == [.frame 4 (eth (2 ^ 48 - 1) 4 0x9999 []), .frame 2 (State.wireFrame (eth (2 ^ 48 - 1) 4 0x9999 []))]) = true ∧
    dz [] [.net, .out] (.bridgeFrameReceive 3 (eth 6 4 0x9999 []) none 0) (runBri [] { learn := [⟨6, 5, 2⟩] }) (fun t => t.out == [.frame 2 (State.wireFrame (eth 6 4 0x9999 []))]) = true ∧
    dz [] [.net] (.bridgeFrameReceive 3 (eth 6 4 0x9999 []) none 0) (runBri [] { learn := [⟨6, 5, 3⟩] }) (fun t => t.net.learn == [⟨6, 5, 3⟩, ⟨4, 5, 3⟩]) = true ∧
    dz [] [.net, .out] (.bridgeFrameReceive 3 (eth 6 4 0x88F7 ptpSync) none 0x30000) (runBri [] { learn := [⟨6, 5, 2⟩] } [(Reg.TC_CFG_ONE_STEP, 4), (Reg.TC_CFG_PDELAY_EN, 8), (⟨Reg.PTP_PDELAY 3, 0, 64⟩, 0x50000)]) (fun t => t.out == [.frame 2 (State.wireFrame (eth 6 4 0x88F7 (ptpSync.take 15 ++ [9])))]) = true ∧
    dz [] [.net, .out] (.bridgeFrameReceive 3 (eth 6 4 0x88F7 (putAt ptpSync 6 [2])) none 0x30000) (runBri [] { learn := [⟨6, 5, 2⟩] }) (fun t => t.out == [.frame 2 (State.wireFrame (eth 6 4 0x88F7 (putAt ptpSync 6 [2])))] && t.net.held == [⟨2, 0, 0, 0, 3⟩]) = true := by decide +kernel
theorem test_bridge_filters : dz [Reg.NET_PORT_CNT 3] [.net] (.bridgeFrameReceive 3 (eth 2 4 0x9999 []) none 0) (runBri [(0x77E0, 2), (0x77E4, 0x10000000), (0x77E8, 0x3F0088), (0x77EC, 3)]) (fun t => t.fld (Reg.NET_PORT_CNT_FILTERED 3) == 1 && t.nbits 0x77E0 144 16 == 1 && t.nbits 0x77E0 98 1 == 1) = true ∧
    dz [Reg.NET_PORT_CNT 3] [.net] (.bridgeFrameReceive 3 (eth 2 4 0x9999 []) none 0) (runBri [(0x77E0, 2), (0x77E4, 0x10000000), (0x77E8, 0x3F88), (0x77EC, 1), (State.sgOff 31, 5)]) (fun t => t.nbits 0x77E0 160 16 == 1 && t.nbits (State.sgOff 31) 3 1 == 1) = true := by decide +kernel
theorem test_bridge_replication : dz [] [.net] (.bridgeFrameReceive 3 (eth 2 4 0xF1C1 [0, 0, 0, 7, 0x99, 0x99]) none 0) (runBri [(State.cbOff 31, 0x205), (State.cbOff 31 + 4, 0x05000000), (State.cbOff 31 + 8, 0x400), (State.cbOff 31 + 12, 0x80000)] { history := [(31, some 2)] }) (fun t => t.nbits (State.cbOff 31) 144 16 == 1 && t.out == []) = true ∧
    dz [] [.net] (.bridgeFrameReceive 3 (eth 2 4 0xF1C1 [0, 0, 0, 12, 0x99, 0x99]) none 0) (runBri [(State.cbOff 31, 0x205), (State.cbOff 31 + 4, 0x05000000), (State.cbOff 31 + 8, 0x400), (State.cbOff 31 + 12, 0x80000)] { history := [(31, some 2)] }) (fun t => t.nbits (State.cbOff 31) 176 16 == 1) = true ∧
    dz [] [.net, .out] (.bridgeFrameReceive 4 (eth 6 4 0x9999 []) none 0) (runBri [(State.cbOff 31, 0x603), (State.cbOff 31 + 4, 0x01000000), (State.cbOff 31 + 12, 0xFFFF)]) (fun t => t.out == [.frame 2 (State.wireFrame (addRtag (eth 6 4 0x9999 []) 0xFFFF)), .frame 3 (State.wireFrame (addRtag (eth 6 4 0x9999 []) 0xFFFF))] && t.nbits (State.cbOff 31) 96 16 == 0) = true ∧
    dz [] [.net] (.recoveryReset 31) (runBri [] { history := [(31, some 2)] }) (fun t => t.net.history == [] && t.nbits (State.cbOff 31) 208 16 == 1) = true ∧
    dz [] [] (.recoveryReset 31) (runBri []) (fun _ => true) = true := by decide +kernel
theorem test_bridge_time : dz [] [.net] (.learningAgeOut 6 5) (runBri [] { learn := [⟨6, 4, 1⟩, ⟨6, 5, 2⟩] }) (fun t => t.net.learn == [⟨6, 4, 1⟩]) = true ∧
    dz [] [.net] (.gateListAdvance 3) (runBri [(0x6C00, 4), (0x6C04, 6)] {} [(Reg.NET_GATE_CYCLE_ALL 3, 10), (Reg.LAUNCH_CFG_LANE 3, 1), (⟨Reg.LANE_VALUE 1, 0, 64⟩, 2 ^ 32 * 14)]) (fun t => t.net.gateAt == [(3, 2)]) = true ∧
    dz [] [.net] (.gateListAdvance 3) (runBri [(0x6C00, 4), (0x6C04, 6)] { gateAt := [(3, 2)] } [(Reg.NET_GATE_CYCLE_ALL 3, 10), (Reg.LAUNCH_CFG_LANE 3, 1), (⟨Reg.NET_GATE_BASE 3, 0, 64⟩, 1)]) (fun t => t.net.gateAt == []) = true ∧
    dz [] [.net] (.streamGateAdvance 31) (runBri [(State.sgOff 31, 0x1010000 + 2 ^ 8 * 127), (State.sgOff 31 + 4, 10), (0x7A00 + 4 * 127, 10)] {} [(⟨Reg.LANE_VALUE 1, 0, 64⟩, 2 ^ 32 * 9)]) (fun t => t.net.sgateAt == [(31, 1)]) = true := by decide +kernel
theorem test_bridge_buffers : (let t := after (.bridgeFrameReceive 3 (eth 2 4 0x9999 []) none 0) (runBri [] {} [(Reg.NET_RXB_CFG_EN 31, 1), (Reg.NET_RXB_CFG_PORTS 31, 8), (Reg.NET_RXB_MAC_MAC 31, 2)]); t.out == [.frame 4 (eth 2 4 0x9999 [])] && t.reg (Reg.NET_RXB_SEQ 31) == 1) = true := by decide +kernel
theorem test_bridge_hypotheses : ((List.range 64).all (fun f => !(runBri []).filterHit 3 (eth 2 4 0x9999 []) f) && (List.range 32).all (fun i => !(runBri []).rxbHit 3 (eth 2 4 0x9999 []) i) && (runBri []).present 12) = true ∧
    (rtagOf (eth 2 4 0x9999 []) == none && ptpOf (eth 2 4 0x9999 []) == none && ptpOf (eth 6 4 0x88F7 ptpSync) == some (14, none) && ptpEvent (eth 6 4 0x88F7 ptpSync) 14) = true := by decide +kernel

/-! ### Accesses -/
/-- The Vault page 4 holds two bytes; the service port holds every right. -/
def runAcc (l : List (Fld × Nat) := []) : State := { withFields State.reset l with mem := [(0x40000, 7), (0x40003, 9)] }
/-- PCIe requester 18 has no right to load or store, the service port none to store. -/
def noRight (l : List Nat) (m : Nat) : State := { runAcc with boot := { mint := { standing := l.map fun e => (e, m) } } }
theorem test_core_accesses : dz [] [.reply] (.coreAccess 17 0x40000 .b4 .load) runAcc (fun t => t.reply == { req := 17, status := .ok, value := 0x09000007, bytes := [7, 0, 0, 9] }) = true ∧
    dz [] [.mem, .teller, .field, .reply] (.coreAccess 0 0x40002 .b2 (.store 0x10203)) runAcc (fun t => t.mem == [(0x40000, 7), (0x40002, 3), (0x40003, 2)] && t.reply.status == .ok) = true ∧
    dz [] [.reply] (.coreAccess 0 0x40000 .b1 .load) (runAcc.setPage 4 { state := .poisoned }) (fun t => t.reply.status == .accessFault) = true ∧
    dz [] [.reply] (.coreAccess 0 0x40000 .b1 .load) (runAcc.setPage 4 { state := .raising }) (fun t => t.reply.status == .waits) = true ∧
    dz (denyRegs 0) [.reply] (.coreAccess 0 0x40000 .b1 .load) (noRight [0] 1) (fun t => t.fld (Reg.PORT_DENY_CNT_COUNT 0) == 1 && t.fld Reg.PORT_DENY_LAST_ADDR == 0x40000 && t.reply.value == 0) = true ∧
    dz [] [.reply] (.coreAccess 0 0xFFFFFFFFF00 .b1 .load) runAcc (fun t => t.reply.status == .accessFault) = true := by decide +kernel
theorem test_outside_accesses : dz [] [.reply] (.pcieRequest 7 true 0x40000 (.read 4)) (runAcc [(Reg.PORT_PCIE_BAR2_SIZE_LOG2 7, 6)]) (fun t => t.reply.req == 25 && t.reply.status == .ok && t.reply.bytes == [7, 0, 0, 9]) = true ∧
    dz (denyRegs 25) [.reply] (.pcieRequest 7 true 0x3FFFFFFE (.read 4)) runAcc (fun t => t.reply.status == .unsupported && t.fld Reg.PORT_DENY_LAST_RIGHT == 0xF) = true ∧
    dz [] [.mem, .teller, .field] (.pcieRequest 7 true 0x40001 (.write [1, 2])) runAcc (fun t => t.mem == [(0x40000, 7), (0x40001, 1), (0x40002, 2), (0x40003, 9)]) = true ∧
    dz [] [.reply] (.commandRead 8 0xABCD 0x40000 4) runAcc (fun t => t.reply == { req := 34, status := .ok, value := t.reply.value, bytes := [7, 0, 0, 9], tag := some 0xABCD }) = true ∧
    dz [] [.reply] (.commandRead 8 0xABCD 0x40000 4100) runAcc (fun t => t.reply.status == .malformed && t.reply.tag == some 0xABCD) = true ∧
    dz (denyRegs 34) [.reply] (.commandRead 8 1 0xFFFFFFFFF00 4) runAcc (fun t => t.reply.status == .unmapped) = true ∧
    dz [] [.mem, .teller, .field, .reply] (.commandWrite 8 1 0x40000 [1, 2, 3, 4]) runAcc (fun t => t.natAt 0x40000 4 == 0x04030201 && t.reply.status == .ok) = true ∧
    dz (denyRegs 34) [.reply] (.commandWrite 8 1 0x40000 [1, 2, 3, 4]) (noRight [18] 2) (fun t => t.reply.status == .denied && t.fld (Reg.PORT_DENY_CNT_COUNT 34) == 1) = true := by decide +kernel
theorem test_control_space : dz [Reg.CAM_SIZE 7] [.reply] (.registerWrite 0 (BitVec.ofNat 24 (Reg.CAM_SIZE 7)) .b4 0xFFFFFFFF) runAcc (fun t => t.reg (Reg.CAM_SIZE 7) != 0 && t.reply.status == .ok) = true ∧
    dz [] [.reply] (.registerWrite 0 (BitVec.ofNat 24 (Reg.CAM_SIZE 7)) .b2 0xFFFFFFFF) runAcc (fun t => t.reply.status == .ok) = true ∧
    dz (denyRegs 0) [.reply] (.registerWrite 0 (BitVec.ofNat 24 (Reg.CAM_SIZE 7)) .b4 1) (noRight [0] 16) (fun t => t.reply.status == .denied && t.fld Reg.PORT_DENY_LAST_RIGHT == 4) = true ∧
    dz [Reg.LANE_INCR 3] [.reply] (.registerWrite 0 (BitVec.ofNat 24 (Reg.LANE_INCR 3 + 4)) .b4 0x99) runAcc (fun t => t.reg (Reg.LANE_INCR 3) == 0x9900000000) = true ∧
    dz [Reg.PORT_GRANT 3] [.reply] (.registerWrite 0 (BitVec.ofNat 24 (Reg.PORT_GRANT 3)) .b4 0x1FFF) runAcc (fun t => t.fld (Reg.PORT_GRANT_GRANT 3) == 0xF) = true ∧
    dz [Reg.PORT_DENY_CNT 36] [.reply] (.readClear 0 (BitVec.ofNat 24 (Reg.PORT_DENY_CNT 36)) .b4) (runAcc [(Reg.PORT_DENY_CNT_COUNT 36, 0x81)]) (fun t => t.reply.value == 0x81 && t.reg (Reg.PORT_DENY_CNT 36) == 0) = true ∧
    dz [] [.reply] (.readClear 0 (BitVec.ofNat 24 (0xE0000 + 4 * 34)) .b4) runAcc (fun t => t.reply.value == 0x1FFF) = true ∧
    dz [] [.reply] (.readClear 0 0x100000 .b4) runAcc (fun t => t.reply.value == 0 && t.reply.status == .ok) = true ∧
    dz [] [.reply, .latch] (.incidentRecordRead 0 89) ((runAcc.setReg (Reg.SYS_NOTE 63 0) 5).setReg (Reg.SYS_NOTE 63 3) 6) (fun t => t.reply.value == 5 && (t.setReg (Reg.SYS_NOTE 63 3) 7).recShown 0 (Reg.SYS_NOTE 63 3) == 6) = true ∧
    dz (incRegs 12) [] (.clearOne 0 12) ((runAcc [(Reg.INC_CNT_COUNT 12, 7)]).setReg (Reg.INC_REC 12 7) 5) (fun t => t.fld (Reg.INC_CNT_COUNT 12) == 0 && t.reg (Reg.INC_REC 12 7) == 0) = true ∧
    dz [] [] (.clearOne 0 13) runAcc (fun _ => true) = true ∧
    dz ((List.range 13).flatMap incRegs) [] (.clearAll 0) ((runAcc [(Reg.INC_CNT_COUNT 12, 7)]).setReg (Reg.INC_REC 0 7) 5) (fun t => t.fld (Reg.INC_CNT_COUNT 12) == 0 && t.reg (Reg.INC_REC 0 7) == 0) = true ∧
    dz ((List.range 64).flatMap fun i => (List.range 4).map (Reg.SYS_NOTE i)) [] (.clearNotes 0) (runAcc.setReg (Reg.SYS_NOTE 63 3) 5) (fun t => t.reg (Reg.SYS_NOTE 63 3) == 0) = true := by decide +kernel
theorem test_command_frames : dz [Reg.SYS_MINT_STAT] [.boot, .reply] (.fuse 8 1 [7, 8]) { runAcc with boot := { mint := { added := [1] }, mintNew := [2] } } (fun t => t.boot.mintNew == [2, 7, 8] && t.fld Reg.SYS_MINT_STAT_ADDED_FREE == 28 && t.reply.status == .ok) = true ∧
    dz (denyRegs 26) [.reply] (.fuse 0 1 [7]) runAcc (fun t => t.reply.status == .denied && t.fld Reg.PORT_DENY_LAST_RIGHT == 10) = true ∧
    dz [Reg.RELAY_IMG_STAT] [.relay, .reply] (.image 8 1 (List.replicate 1024 3)) (runAcc [(Reg.RELAY_IMG_STAT_STATE, 1)]) (fun t => t.relay.img.length == 1024 && t.fld Reg.RELAY_IMG_STAT_DONE_KIB == 1) = true ∧
    dz [] [.reply] (.image 8 1 [1, 2, 3]) (runAcc [(Reg.RELAY_IMG_STAT_STATE, 1)]) (fun t => t.reply.status == .malformed) = true ∧
    dz [] [.reply] (.incident 8 1 0xF0001000 64) (runAcc.setReg (Reg.INC_REC 0 0) 5) (fun t => t.reply.status == .ok && t.reply.bytes.length == 64) = true ∧
    dz [] [.reply] (.incident 8 1 0xF0001020 64) runAcc (fun t => t.reply.status == .malformed) = true ∧
    dz [] [.judge, .reply] (.judge 8 1 (spFrame 7 0 [])) (runJ [] { svSeq := some 6 }) (fun t => t.judge.svSeq == some 7 && t.reply.status == .ok && t.reply.tag == some 1 && t.reply.bytes.take 6 == [7, 0, 0x80, 1, 0, 0]) = true ∧
    dz [] [.judge] (.judge 8 1 (spFrame 9 0 [])) (runJ [] { svSeq := some 6 }) (fun t => t.reply == (runJ [] {}).reply) = true ∧
    dz [] [.reply] (.judge 8 1 [1]) (runJ [] {}) (fun t => t.reply.status == .malformed) = true := by decide +kernel
theorem test_access_hypotheses : (runAcc.canRead 0 && runAcc.holds 0 9 && runAcc.holds 0 4 && runAcc.present 11 && runAcc.holds 0 5 && (List.range 4).all (fun i => runAcc.reaches 0 (0x40000 + i)) && runAcc.region 0x40000 == .vault && (runAcc.winAt 0x40000).isNone) = true := by decide +kernel

/-! ### The block as a whole -/
theorem witness_reset_canon : Canon State.reset := ⟨by decide +kernel, by decide +kernel, by decide +kernel, by decide +kernel⟩
theorem witness_queue : ({ State.reset with pending := [.judgeHeartbeat, .aliveToggle] } : State).pending = .judgeHeartbeat :: [.aliveToggle] ∧
    State.reset.pending = [] := ⟨rfl, rfl⟩
theorem test_step : (match Sys2Proof.Machine.step { runJ [] {} with pending := [.judgeHeartbeat, .aliveToggle] } with
    | .next t => t.pending == [.aliveToggle] && t.out == [.linkBeat true, .linkBeat false]
    | _ => false) = true ∧ Sys2Proof.Machine.step State.reset = .next State.reset := ⟨by decide +kernel, rfl⟩

end Sys2Proof.Machine.Tests
end

section
/-!
PROOFS. The ALU sub-opcodes (R98, Table 4-5): what an arithmetic instruction, a compare and pget leave, and which of their
fields must be 0.
-/

namespace Sys2Proof.Machine

open Sys2Proof

namespace State

/-! ### What an ALU instruction leaves -/

section
variable {s : State} {q : Issue} {o : OpS} {c : Instr} {m : Mn}

/-- An arithmetic sub-opcode reads its sources as they were before the fetch, and writes SD. -/
theorem runAlu_of_issues (h : Issues s q m (.s o)) : s.runAlu q m o =
    ((s.fetched q).sput q.ctx o.sd (aluVal m (s.sget q.ctx o.sa) (s.srcB q.ctx o))).pcNext q.ctx := by
  unfold runAlu
  rw [runN_of_issues h]
  unfold fetched
  rw [sget_noteTlb, srcB_noteTlb]

/-- A compare reads its sources as they were before the fetch, and writes PD. -/
theorem runCmp_of_issues (h : Issues s q m (.s o)) : s.runCmp q m o =
    ((s.fetched q).pput q.ctx o.pd (cmpVal m (s.sget q.ctx o.sa) (s.srcB q.ctx o))).pcNext q.ctx := by
  unfold runCmp
  rw [runN_of_issues h]
  unfold fetched
  rw [sget_noteTlb, srcB_noteTlb]

theorem runPget_of_issues (h : Issues s q .pget (.s o)) : s.runPget q o =
    ((s.fetched q).sput q.ctx o.sd (s.predByte q.ctx)).pcNext q.ctx := by
  unfold runPget
  rw [runN_of_issues h]
  unfold predByte
  rw [fetched_ctx]

/-- A command that runs an arithmetic sub-opcode writes that sub-opcode's value of Table 4-5. -/
theorem gives_wroteScalar_of_runAlu {v : W64} (h : Issues s q m (.s o)) (hc : exec c s = .next (s.runAlu q m o))
    (hv : aluVal m (s.sget q.ctx o.sa) (s.srcB q.ctx o) = v) : Gives (exec c s) (WroteScalar q.ctx o.sd v s) := by
  refine ⟨_, hc, ?_⟩
  rw [runAlu_of_issues h, hv]
  exact wroteScalar s q o.sd v

/-- A command that runs a compare writes the compare's outcome of Table 4-5. -/
theorem gives_wrotePred_of_runCmp {v : Bool} (h : Issues s q m (.s o)) (hc : exec c s = .next (s.runCmp q m o))
    (hv : cmpVal m (s.sget q.ctx o.sa) (s.srcB q.ctx o) = v) : Gives (exec c s) (WrotePred q.ctx o.pd v s) := by
  refine ⟨_, hc, ?_⟩
  rw [runCmp_of_issues h, hv]
  exact wrotePred s q o.pd v

theorem gives_wroteScalar_of_pget (h : Issues s q .pget (.s o)) :
    Gives (exec (.pget q o) s) (WroteScalar q.ctx o.sd (s.predByte q.ctx) s) := by
  refine ⟨s.runPget q o, rfl, ?_⟩
  rw [runPget_of_issues h]
  exact wroteScalar s q o.sd _

end

end State

theorem cmpVal_cmpEq (a b : W64) : cmpVal .cmpEq a b = decide (a = b) := rfl

theorem cmpVal_cmpNe (a b : W64) : cmpVal .cmpNe a b = decide (a ≠ b) := (decide_not (p := a = b)).symm

/-! ### Reserved uses of the fields (R94, R98) -/

/-- The sub-opcodes of Table 4-5 that compute SD from both sources. -/
def arithMns : List Mn :=
  [.add, .sub, .and, .or, .xor, .shl, .shr, .sra, .mul, .mulhs, .mulhu, .div, .divu, .rem, .remu, .min, .max, .minu, .maxu]

/-- The compares of Table 4-5. -/
def compareMns : List Mn := [.cmpEq, .cmpNe, .cmpLt, .cmpLtu, .cmpGe, .cmpGeu, .cmpLat]

/-- The one of SB and IMM that IMM_SEL leaves unused is 0 (R98). -/
def unusedSourceZero (o : OpS) : Bool := if o.immSel then o.sb.val == 0 else o.imm == 0

theorem unusedSourceZero_eq_false {o : OpS} (hi : o.immSel = true) (hb : o.sb.val ≠ 0) : unusedSourceZero o = false := by
  simp [unusedSourceZero, hi, hb]

theorem badS_of_mem_arithMns (o : OpS) : ∀ m ∈ arithMns, badS m o = !(o.pd.val == 0 && unusedSourceZero o) := by
  simp only [arithMns, List.forall_mem_cons, List.not_mem_nil, false_implies, implies_true, and_true]
  and_intros <;> rfl

theorem badS_of_mem_compareMns (o : OpS) : ∀ m ∈ compareMns, badS m o = !(o.sd.val == 0 && unusedSourceZero o) := by
  simp only [compareMns, List.forall_mem_cons, List.not_mem_nil, false_implies, implies_true, and_true]
  and_intros <;> rfl

theorem badS_mov (o : OpS) : badS .mov o = !(o.sa.val == 0 && o.pd.val == 0 && unusedSourceZero o) := rfl

theorem badS_pset (o : OpS) : badS .pset o = !(o.sa.val == 0 && o.sd.val == 0 && unusedSourceZero o) := rfl

theorem badS_pget (o : OpS) :
    badS .pget o = !(o.sa.val == 0 && o.sb.val == 0 && o.pd.val == 0 && !o.immSel && o.imm == 0) := rfl

/-- With IMM_SEL set, SB must be 0 (R98). -/
theorem badS_of_immSel {m : Mn} {o : OpS} (hm : m ∈ arithMns ++ [.mov] ++ compareMns ++ [.pset]) (hi : o.immSel = true)
    (hb : o.sb.val ≠ 0) : badS m o = true := by
  have hz := unusedSourceZero_eq_false hi hb
  simp only [List.mem_append, List.mem_singleton] at hm
  obtain ((hm | rfl) | hm) | rfl := hm
  · rw [badS_of_mem_arithMns o m hm, hz, Bool.and_false, Bool.not_false]
  · rw [badS_mov, hz, Bool.and_false, Bool.not_false]
  · rw [badS_of_mem_compareMns o m hm, hz, Bool.and_false, Bool.not_false]
  · rw [badS_pset, hz, Bool.and_false, Bool.not_false]

/-- SD of a compare must be 0 (R98). -/
theorem badS_of_compare_sd {m : Mn} {o : OpS} (hm : m ∈ compareMns) (hd : o.sd.val ≠ 0) : badS m o = true := by
  simp [badS_of_mem_compareMns o m hm, hd]

theorem badS_mov_of_sa {o : OpS} (h : o.sa.val ≠ 0) : badS .mov o = true := by
  simp [badS_mov, h]

theorem badS_pset_of_sa_or_sd {o : OpS} (h : o.sa.val ≠ 0 ∨ o.sd.val ≠ 0) : badS .pset o = true := by
  rw [badS_pset]
  obtain h | h := h <;> simp [h]

theorem badS_pget_of_source {o : OpS} (h : o.sa.val ≠ 0 ∨ o.immSel = true ∨ o.sb.val ≠ 0) : badS .pget o = true := by
  rw [badS_pget]
  obtain h | h | h := h <;> simp [h]

/-! ### The statement -/

/-- Settles O1: each arithmetic instruction is `runAlu` of its sub-opcode, each compare `runCmp`, and what these write is
read off `aluVal` and `cmpVal`; the encoding rules are those of `badS`. -/
theorem scalarInstructions : Obligations.ScalarInstructions := by
  unfold Obligations.ScalarInstructions
  refine ⟨fun s q o => ?_, fun s q o => ?_, by decide, fun neg sel m o => ?_⟩
  · intro a b
    and_intros
    all_goals exact fun h => State.gives_wroteScalar_of_runAlu h rfl rfl
  · intro a b
    refine ⟨fun h => State.gives_wrotePred_of_runCmp h rfl (cmpVal_cmpEq a b),
      fun h => State.gives_wrotePred_of_runCmp h rfl (cmpVal_cmpNe a b), ?_, ?_, ?_, ?_, ?_, ?_,
      State.gives_wroteScalar_of_pget⟩
    all_goals exact fun h => State.gives_wrotePred_of_runCmp h rfl rfl
  · refine ⟨badS_of_immSel, badS_of_compare_sd, ?_, ?_, ?_⟩
    · rintro rfl
      exact badS_mov_of_sa
    · rintro rfl
      exact badS_pset_of_sa_or_sd
    · rintro rfl
      exact badS_pget_of_source

end Sys2Proof.Machine
end

section
/-!
PROOFS. Standing (R434): the default of Table 18-8 less what the Mint removes, and the registers PORT_GRANT and
PORT_STANDING as control space writes and reads them.
-/

namespace Sys2Proof.Machine

open Sys2Proof

/-! ### The standing of a requester -/

/-- A mask of `n` bits is known by its bits below `n`. -/
theorem bitAt_iff_of_lt {m n q : Nat} {P : Nat → Prop} (hm : m < 2 ^ n) (h : ∀ i, i < n → (bitAt m i = true ↔ P i)) :
    bitAt m q = true ↔ q < n ∧ P q := by
  by_cases hq : q < n
  · simp [hq, h q hq]
  · have hle : 2 ^ n ≤ 2 ^ q := Nat.pow_le_pow_right (by decide) (Nat.le_of_not_lt hq)
    simp [hq, bitAt, Nat.testBit_lt_two_pow (Nat.lt_of_lt_of_le hm hle)]

namespace State

variable (s : State)

/-- The rights of Table 18-8, by their numbers in Table 18-7. -/
def GivenByDefault (r q : Nat) : Prop :=
  if r < 18 then q ≠ 10 ∧ q ≠ 11
  else if r < 26 then q < 4
  else if r < 30 then bitAt (s.fld (Reg.PORT_GRANT_GRANT (r - 26))) q = true
  else if r < 34 then q = 8 ∨ q = 2
  else if r = 34 then s.boot.strapSvc = true ∨ q = 12
  else if r = 35 then if s.boot.strapSvc then q ≠ 11 else q = 12
  else q = 11

theorem fld_grant_lt (p : Nat) : s.fld (Reg.PORT_GRANT_GRANT p) < 2 ^ 4 := bitsOf_lt _ _ _

/-- The mask of a requester's default standing spells the rights of Table 18-8. -/
theorem bitAt_defaultStanding (r q : Nat) : bitAt (s.defaultStanding r) q = true ↔ q < 13 ∧ s.GivenByDefault r q := by
  unfold defaultStanding GivenByDefault
  by_cases hcore : r < 18
  · rw [if_pos hcore, if_pos hcore]
    apply bitAt_iff_of_lt <;> decide
  rw [if_neg hcore, if_neg hcore]
  by_cases hpcie : r < 26
  · rw [if_pos hpcie, if_pos hpcie]
    apply bitAt_iff_of_lt <;> decide
  rw [if_neg hpcie, if_neg hpcie]
  by_cases heth : r < 30
  · rw [if_pos heth, if_pos heth]
    exact bitAt_iff_of_lt (Nat.lt_trans (s.fld_grant_lt _) (by decide)) fun _ _ => Iff.rfl
  rw [if_neg heth, if_neg heth]
  by_cases hrelay : r < 34
  · rw [if_pos hrelay, if_pos hrelay]
    apply bitAt_iff_of_lt <;> decide
  rw [if_neg hrelay, if_neg hrelay]
  by_cases hservice : r = 34
  · rw [if_pos hservice, if_pos hservice]
    cases s.boot.strapSvc <;> apply bitAt_iff_of_lt (n := 13) <;> decide
  rw [if_neg hservice, if_neg hservice]
  by_cases hjtag : r = 35
  · rw [if_pos hjtag, if_pos hjtag]
    cases s.boot.strapSvc <;> apply bitAt_iff_of_lt (n := 13) <;> decide
  rw [if_neg hjtag, if_neg hjtag]
  apply bitAt_iff_of_lt <;> decide

theorem standingEntry_eq (r : Nat) : standingEntry r =
    if r < 16 then 0 else if r < 18 then 1 else if r < 34 then r - 16 else if r = 34 then 18 else if r = 35 then 19 else 20 := by
  unfold standingEntry
  repeat' split
  all_goals omega

theorem bitAt_land (a b q : Nat) : bitAt (Nat.land a b) q = (bitAt a q && bitAt b q) := Nat.testBit_and a b q

/-- Table 18-7 has 13 rights; a Mint entry takes from them those it lists. -/
theorem bitAt_removed (m q : Nat) : bitAt (0x1FFF - Nat.land m 0x1FFF) q = (decide (q < 13) && !bitAt m q) := by
  have hl : Nat.land m 0x1FFF < 2 ^ 13 := Nat.and_lt_two_pow m (by decide)
  have hs : 0x1FFF - Nat.land m 0x1FFF = 2 ^ 13 - (Nat.land m 0x1FFF + 1) := by omega
  have hb : bitAt 0x1FFF q = decide (q < 13) := Nat.testBit_two_pow_sub_one 13 q
  rw [hs, bitAt, Nat.testBit_two_pow_sub_succ hl, ← bitAt, bitAt_land, hb]
  by_cases hq : q < 13 <;> simp [hq]

/-- R434: the default less what the Mint entry removes. -/
theorem holds_iff (r q : Nat) : s.holds r q = true ↔ q < 13 ∧ s.GivenByDefault r q ∧
    bitAt (mget (fun _ => 0) s.boot.mint.standing (standingEntry r)) q = false := by
  unfold holds standing
  rw [bitAt_land, bitAt_removed, Bool.and_eq_true, bitAt_defaultStanding]
  simp only [Bool.and_eq_true, decide_eq_true_eq, Bool.not_eq_true']
  exact ⟨fun ⟨⟨hq, hg⟩, _, hb⟩ => ⟨hq, hg, hb⟩, fun ⟨hq, hg, hb⟩ => ⟨⟨hq, hg⟩, hq, hb⟩⟩

/-- PCIe functions hold none but the four rights that PORT_GRANT has fields for. -/
theorem lt_of_holds_pcie {q : Nat} (h : s.holds 18 q = true) : q < 4 := ((s.holds_iff 18 q).1 h).2.1

theorem standing_lt (r : Nat) : s.standing r < 2 ^ 13 :=
  Nat.and_lt_two_pow _ (Nat.lt_of_le_of_lt (Nat.sub_le _ _) (by decide))

/-! ### Aligned 32-bit words of control space -/

/-- Right 0xE is no right of Table 18-7: no write of the JUDGE block has it (R36). -/
theorem lacks_eq_none {r off q : Nat} (v : W64) (hw : writeRight off = some q) (hq : q ≠ 0xE) (hf : isStepForce off = false)
    (h : s.holds r q = true) : s.lacks r off v = none := by
  unfold lacks
  rw [hw]
  split <;> simp_all

theorem exec_registerWrite (r : Requester) (off : BitVec 24) (w : Width) (v : W64) :
    exec (.registerWrite r off w v) s = execRegisterWrite r off w v s := rfl

theorem exec_readClear (r : Requester) (off : BitVec 24) (w : Width) :
    exec (.readClear r off w) s = execReadClear r off w s := rfl

/-- A write by a requester that has the right is done and answered. -/
theorem exec_registerWrite_b4 {r : Requester} {off : Nat} {v : W64} (hc : off < 0x100000) (ha : off % 4 = 0)
    (h : s.lacks r off v = none) : exec (.registerWrite r (BitVec.ofNat 24 off) .b4 v) s =
      .next ((s.wordWrite r off (v.setWidth 32)).answer r .ok) := by
  have ho : (BitVec.ofNat 24 off).toNat = off := Nat.mod_eq_of_lt (by omega)
  have hw : s.ctlWrite r off .b4 v = (.ok, s.wordWrite r off (v.setWidth 32)) := by simp [ctlWrite, h, ha, Width.bytes]
  rw [exec_registerWrite, execRegisterWrite, ho, hw]

theorem ctlRead_b4 {r off : Nat} (ha : off % 4 = 0) :
    s.ctlRead r off .b4 = ((s.wordRead r off).1.setWidth 64, (s.wordRead r off).2) := by
  have ho : off / 4 * 4 = off := Nat.div_mul_cancel (Nat.dvd_of_mod_eq_zero ha)
  have hv : BitVec.ofNat 64 ((s.wordRead r off).1.toNat % 2 ^ 32) = (s.wordRead r off).1.setWidth 64 := by
    rw [Nat.mod_eq_of_lt (BitVec.isLt _), BitVec.ofNat_toNat]
  simpa [ctlRead, Width.bytes, ha, ho] using hv

/-- A read by a requester that may read control space gives the word, and does what a read of it does. -/
theorem exec_readClear_b4 {r : Requester} {off : Nat} {v : W32} {t : State} (hc : off < 0x100000) (ha : off % 4 = 0)
    (h : s.canRead r = true) (hr : s.wordRead r off = (v, t)) : exec (.readClear r (BitVec.ofNat 24 off) .b4) s =
      .next (t.answer r .ok (v.setWidth 64) (toBytes 4 (v.setWidth 64).toNat)) := by
  have ho : (BitVec.ofNat 24 off).toNat = off := Nat.mod_eq_of_lt (by omega)
  have hl : s.ctlLoad r off .b4 = (.ok, v.setWidth 64, t) := by simp [ctlLoad, h, ctlRead_b4 s ha, hr]
  rw [exec_readClear, execReadClear, ho, hl]
  rfl

/-! ### The standing, grant and hot-plug registers of the PORT block, below the cameras -/

section
variable {k : Nat} (h : 0xE0000 ≤ k) (h' : k < 0xE2000)
include h h'

theorem div_port : k / 0x10000 = 14 := by omega

theorem absentAt_port : s.absentAt k = false := by
  have hu : unitAt k = none := by
    unfold unitAt
    rw [div_port h h']
    exact if_neg (by omega)
  rw [absentAt, hu]
  rfl

theorem isWindow_port : isWindow k = false := by
  simp only [isWindow, Bool.or_eq_false_iff, Bool.and_eq_false_iff, decide_eq_false_iff_not]
  omega

theorem isStaged_port : isStaged k = false := by
  simp only [isStaged, Bool.or_eq_false_iff, Bool.and_eq_false_iff, decide_eq_false_iff_not, beq_eq_false_iff_ne]
  omega

theorem isStepForce_port : isStepForce k = false := by
  simp only [isStepForce, Bool.and_eq_false_iff, decide_eq_false_iff_not]
  omega

/-- A write there needs ADMIN (R433). -/
theorem writeRight_port : writeRight k = some 9 := by
  unfold writeRight
  rw [div_port h h']
  exact if_neg (by omega)

/-- A write of a whole 32-bit register: its fields by their access codes (R14), then what the block does. -/
theorem wordWrite_port {i : RegInfo} (r : Nat) (v : W32) (hi : regInfo k = some (i, 0)) (h32 : i.width = 32) :
    s.wordWrite r k v = s.regWrite r k i 0xFFFFFFFF (v.setWidth 64) := by
  have hc : ¬ 0x100000 ≤ k := by omega
  simp [wordWrite, hc, s.absentAt_port h h', isWindow_port h h', hi, h32]

theorem regWrite_port (r : Nat) (i : RegInfo) (m v : W64) :
    s.regWrite r k i m v = wrPort k ((s.reg k &&& ~~~ m) ||| (v &&& m)) s (s.setReg k
      (((s.reg k &&& ~~~ (BitVec.ofNat 64 i.rw &&& m)) ||| (v &&& (BitVec.ofNat 64 i.rw &&& m))) &&&
        ~~~ (v &&& m &&& BitVec.ofNat 64 i.w1c))) := by
  simp [regWrite, div_port h h', keyOf, isStaged_port h h']

/-- A read of a register with no field that a read clears has no side effect (R14). -/
theorem wordRead_port {i : RegInfo} (r : Nat) (hi : regInfo k = some (i, 0)) (hrc : i.rc = 0) :
    s.wordRead r k = ((s.shown r k).setWidth 32, s) := by
  have hc : ¬ 0x100000 ≤ k := by omega
  have hb : ¬ 0xE3000 ≤ k := by omega
  simp [wordRead, wordAt, hc, hb, s.absentAt_port h h', isWindow_port h h', hi, hrc]

end

/-! ### PORT_GRANT -/

/-- The line of the register table for PORT_GRANT. -/
def grantInfo : RegInfo := ⟨"PORT_GRANT", 0xE0100, 32, [(0x4, 4)], 0xF, 0x0, 0x0, 0x0, 0x0⟩

theorem regInfo_grant (p : Fin 4) : regInfo (Reg.PORT_GRANT p) = some (grantInfo, 0) := by
  revert p; decide

theorem grant_range (p : Fin 4) : 0xE0100 ≤ Reg.PORT_GRANT p ∧ Reg.PORT_GRANT p < 0xE0110 := by
  revert p; decide

theorem grant_aligned (p : Fin 4) : Reg.PORT_GRANT p % 4 = 0 := by
  revert p; decide

/-- PORT_GRANT as a write leaves it by the codes of its fields (R14), before PCIe function 0 is looked at. -/
def grantWritten (old : W64) (v : W32) : W64 := (old &&& ~~~ 0xF) ||| (v.setWidth 64 &&& 0xF)

/-- PORT_GRANT after a write (R434). -/
def grantKept (p : Fin 4) (v : W32) : W64 :=
  BitVec.ofNat 64 (Nat.land (grantWritten (s.reg (Reg.PORT_GRANT p)) v).toNat (s.standing 18))

theorem getLsbD_grantWritten (old : W64) (v : W32) (q : Nat) (hq : q < 4) :
    (grantWritten old v).getLsbD q = v.getLsbD q := by
  have hm : (0xF : W64).getLsbD q = true := by revert q; decide
  have h64 : q < 64 := by omega
  rw [grantWritten, BitVec.getLsbD_or, BitVec.getLsbD_and, BitVec.getLsbD_and, BitVec.getLsbD_not, BitVec.getLsbD_setWidth, hm,
    decide_eq_true h64]
  simp

theorem getLsbD_grantKept (p : Fin 4) (v : W32) (q : Nat) (h64 : q < 64) :
    (s.grantKept p v).getLsbD q = ((grantWritten (s.reg (Reg.PORT_GRANT p)) v).getLsbD q && s.holds 18 q) := by
  rw [grantKept, BitVec.getLsbD_ofNat, decide_eq_true h64, Bool.true_and, ← bitAt, bitAt_land, bitAt, BitVec.testBit_toNat,
    holds]

theorem wordWrite_grant (r : Nat) (p : Fin 4) (v : W32) : s.wordWrite r (Reg.PORT_GRANT p) v =
    (s.setReg (Reg.PORT_GRANT p) (grantWritten (s.reg (Reg.PORT_GRANT p)) v)).setReg (Reg.PORT_GRANT p) (s.grantKept p v) := by
  have hg := grant_range p
  have hrw : BitVec.ofNat 64 grantInfo.rw &&& 0xFFFFFFFF = 0xF := by decide
  have hw1c : ~~~ (v.setWidth 64 &&& 0xFFFFFFFF &&& BitVec.ofNat 64 grantInfo.w1c) = BitVec.allOnes 64 := by simp [grantInfo]
  rw [s.wordWrite_port (by omega) (by omega) r v (regInfo_grant p) rfl, s.regWrite_port (by omega) (by omega), hrw, hw1c,
    BitVec.and_allOnes, ← grantWritten, wrPort, if_pos hg, reg_setReg_same, ← grantKept]

/-- R434: of the written bits PORT_GRANT keeps those of rights that PCIe function 0 holds. -/
theorem bitAt_fld_grantKept (t : State) (p : Fin 4) (v : W32) (q : Nat) :
    bitAt ((t.setReg (Reg.PORT_GRANT p) (s.grantKept p v)).fld (Reg.PORT_GRANT_GRANT p)) q = (v.getLsbD q && s.holds 18 q) := by
  rw [fld_setReg_same t (Reg.PORT_GRANT_GRANT p), bitAt, testBit_bitsOf, Nat.zero_add]
  by_cases hq : q < 4
  · rw [getLsbD_grantKept s p v q (by omega), getLsbD_grantWritten _ v q hq, decide_eq_true hq, Bool.true_and]
  · have hh : s.holds 18 q = false := Bool.eq_false_iff.2 fun h => hq (s.lt_of_holds_pcie h)
    simp [hq, hh]

theorem does_write_grant {r : Requester} (p : Fin 4) (v : W64) (h : s.holds r 9 = true) :
    Does [Reg.PORT_GRANT p] [.reply] (exec (.registerWrite r (BitVec.ofNat 24 (Reg.PORT_GRANT p)) .b4 v) s) s fun t =>
      t.reply.status = .ok ∧
        ∀ q, q < 13 → bitAt (t.fld (Reg.PORT_GRANT_GRANT p)) q = (bitAt v.toNat q && s.holds 18 q) := by
  have hg := grant_range p
  have hl : s.lacks r (Reg.PORT_GRANT p) v = none := s.lacks_eq_none v (writeRight_port (by omega) (by omega)) (by decide)
    (isStepForce_port (by omega) (by omega)) h
  have hx := s.exec_registerWrite_b4 (by omega) (grant_aligned p) hl
  rw [wordWrite_grant] at hx
  refine ⟨_, hx, ⟨rfl, fun q hq => ?_⟩, ?_⟩
  · rw [fld_congr (reg_congr (answer_regs _ _ _ _ _) _), bitAt_fld_grantKept, BitVec.getLsbD_setWidth,
      decide_eq_true (by omega), Bool.true_and, bitAt, BitVec.testBit_toNat]
  · exact (((Only.refl _ _ s).setReg _ (by simp)).setReg _ (by simp)).answer _ _ _ _ (by simp)

/-! ### PORT_STANDING -/

/-- The line of the register table for PORT_STANDING. -/
def standingInfo : RegInfo := ⟨"PORT_STANDING", 0xE0000, 32, [(0x4, 37)], 0x0, 0x0, 0x0, 0x0, 0x0⟩

theorem regInfo_standing (r : Requester) : regInfo (Reg.PORT_STANDING r) = some (standingInfo, 0) := by
  revert r; decide

theorem standing_range (r : Requester) : 0xE0000 ≤ Reg.PORT_STANDING r ∧ Reg.PORT_STANDING r < 0xE0094 := by
  revert r; decide

theorem standing_aligned (r : Requester) : Reg.PORT_STANDING r % 4 = 0 := by
  revert r; decide

theorem standing_index (r : Requester) : (Reg.PORT_STANDING r - 0xE0000) / 4 = r := by
  revert r; decide

/-- PORT_STANDING lies above the registers of other blocks that show what their units hold. -/
theorem shown_standing {k : Nat} (r : Nat) (h : 0xE0000 ≤ k) (h' : k < 0xE0094) :
    s.shown r k = BitVec.ofNat 64 (s.standing ((k - 0xE0000) / 4)) := by
  have h0 : ¬ (decide (k < 0x10000) && isRec k) = true := by
    simp only [Bool.and_eq_true, decide_eq_true_eq]
    omega
  unfold shown
  simp (disch := omega) only [Reg.SYS_INC_STAT, Reg.START_STAT, Reg.TELLER_STAT, Reg.TELLER_CLAIMS, Reg.FIELD_STAT,
    Reg.FIELD_TILE_INFO, Reg.STREAM_STAT, Reg.STREAM_REGISTERED, Reg.HURDLE_STAT, Reg.TS_META, Reg.TS_DATA, if_neg h0, if_neg,
    if_pos]

theorem wordRead_standing (r : Nat) (r' : Requester) :
    s.wordRead r (Reg.PORT_STANDING r') = (BitVec.ofNat 32 (s.standing r'), s) := by
  obtain ⟨hlo, hhi⟩ := standing_range r'
  rw [s.wordRead_port hlo (by omega) r (regInfo_standing r') rfl, s.shown_standing r hlo hhi, standing_index,
    BitVec.setWidth_ofNat_of_le (by decide)]

theorem setWidth_standing (r : Nat) : (BitVec.ofNat 32 (s.standing r)).setWidth 64 = BitVec.ofNat 64 (s.standing r) := by
  have := s.standing_lt r
  rw [BitVec.setWidth_ofNat_of_le_of_lt (by decide) (by omega)]

theorem bitAt_toNat_standing (r q : Nat) : bitAt (BitVec.ofNat 64 (s.standing r)).toNat q = s.holds r q := by
  have := s.standing_lt r
  rw [BitVec.toNat_ofNat, Nat.mod_eq_of_lt (by omega), holds]

theorem does_read_standing {r : Requester} (r' : Requester) (h : s.canRead r = true) :
    Does [] [.reply] (exec (.readClear r (BitVec.ofNat 24 (Reg.PORT_STANDING r')) .b4) s) s fun t =>
      t.reply.status = .ok ∧ t.reply.value = BitVec.ofNat 64 (s.standing r') ∧
        ∀ q, bitAt t.reply.value.toNat q = s.holds r' q := by
  have hr := standing_range r'
  have hx := s.exec_readClear_b4 (by omega) (standing_aligned r') h (s.wordRead_standing r r')
  rw [setWidth_standing] at hx
  exact ⟨_, hx, ⟨rfl, rfl, s.bitAt_toNat_standing r'⟩, (Only.refl _ _ s).answer _ _ _ _ (by simp)⟩

end State

/-- Settles O51: the default's mask spells Table 18-8 and the Mint entry clears bits of it; PORT_GRANT is masked with the
standing of PCIe function 0 as it is written, and PORT_STANDING shows the standing. -/
theorem standingIsTheDefaultLessTheRemoved : Obligations.StandingIsTheDefaultLessTheRemoved := by
  unfold Obligations.StandingIsTheDefaultLessTheRemoved
  intro s
  refine ⟨fun r q => ?_, fun r p v h => s.does_write_grant p v h, fun r r' h => s.does_read_standing r' h⟩
  have hiff := s.holds_iff r q
  rw [State.standingEntry_eq] at hiff
  exact hiff

end Sys2Proof.Machine
end
